-- ==== Sys2Proof/Word.lean ====
section
/-! DEFINITION. The word types of the module and their plainest arithmetic: bytes, 32-bit and 64-bit words,
X32 accumulator entries, and the bit-field and byte-order helpers every chapter of the spec uses. -/
namespace Sys2Proof

/-- One byte of memory. -/
abbrev Byte := BitVec 8
/-- A 32-bit register, record word or lane value. -/
abbrev Word := BitVec 32
/-- A 64-bit report word, key or budget. -/
abbrev DWord := BitVec 64
/-- An accumulator entry in the 34-bit internal format X32 (R31, R33). -/
abbrev X32 := BitVec 34

/-- A function of the device: 0 the physical function, 1 to 16 the virtual ones (R365). -/
abbrev Fn := Fin 17
/-- A compute tile T0 to T3 (R8). -/
abbrev TileIx := Fin 4
/-- A Widun port P0 to P5 (R392). -/
abbrev PortIx := Fin 6

/-- Bits [hi:lo] of a number, the way the register maps of the spec write fields. -/
def bitsOf (n hi lo : Nat) : Nat := (n >>> lo) % 2 ^ (hi + 1 - lo)

/-- Bit i of a number. -/
def bitOf (n i : Nat) : Bool := n.testBit i

/-- A Bool as a number. -/
def b2n (b : Bool) : Nat := if b then 1 else 0

/-- The little-endian bytes of a number, n of them. -/
def leBytes : Nat → Nat → List Byte
  | 0, _ => []
  | n + 1, v => BitVec.ofNat 8 v :: leBytes n (v / 256)

/-- The number that little-endian bytes spell. -/
def leNat : List Byte → Nat
  | [] => 0
  | b :: bs => b.toNat + 256 * leNat bs

/-- Saturating count: register counters stop at 0xFFFF_FFFF and do not wrap (R59, R148, R174). -/
def satAdd32 (a b : Nat) : Nat := min (a + b) 0xFFFFFFFF

/-- Saturating 64-bit count (R391). -/
def satAdd64 (a b : Nat) : Nat := min (a + b) 0xFFFFFFFFFFFFFFFF

/-- Ceiling division. -/
def cdiv (a b : Nat) : Nat := (a + b - 1) / b

/-- The next multiple of g at or above n. -/
def roundUp (n g : Nat) : Nat := cdiv n g * g

end Sys2Proof
end

