-- ==== Sys2Proof/Syntax.lean ====
section
/-! DEFINITION. The commands and events of the module: one constructor of Instr per row of spec/opcode_table.json,
with the operands the row's rules name. What the module reads from its surroundings (host memory, a peer, a sensor,
an image whose format the manual leaves to Evobiys, R7) enters as an operand; log entry 1. -/
namespace Sys2Proof

/-- Element formats, coded as in R78, R111 and R158. -/
inductive NF
  | e4m3 | e5m2 | q4 | bf16 | fp32 | int32
deriving DecidableEq, Repr

/-- Output tile shapes of R70. -/
inductive Shape
  | s32x32 | s64x16 | s16x64
deriving DecidableEq, Repr

/-- A tensor in the scratchpad of a tile or in a local memory: element plane, scale plane and their line strides. -/
structure TStream where
  fmt : NF
  addr : Nat
  scale : Nat
  stride : Nat
  sstride : Nat
deriving DecidableEq, Repr

/-- The columns a chunk of a row covers, and where they lie (R196: score chunks, drain partials). -/
structure Chunk where
  width : Nat
  at_ : TStream
deriving DecidableEq, Repr

/-- The program command an engine command is: the issuing function, its program's handle (0: a command the Keeper
issues itself) and its index in the queue (R80, R368). -/
structure Src where
  fn : Fn
  handle : Nat
  index : Nat
deriving DecidableEq, Repr

/-- An operand of a command that can be stopped on its way (R372), with the row, beat or block this go stops at; none: it runs to its end. -/
structure Course (α : Type) where
  of : α
  stop : Option Nat
deriving DecidableEq, Repr

/-- What a contribution to a shard's sum carries (R205, R218): its values, and the norm entries its drains formed. -/
structure ShardVals where
  vals : List X32
  norms : List Word
deriving DecidableEq, Repr

/-- A mailbox command at its doorbell (R310, R314, R323): the header, the inline payload, what the memory named by
its descriptors holds (reads: one byte string per top-level descriptor; lists: the contents of LIST descriptors), and
whether the host's IOMMU lets every descriptor through. -/
structure MCmd where
  fn : Fn
  doorbell : Nat
  seq : Nat
  len : Nat
  ndesc : Nat
  payload : List Byte
  reads : List (List Byte)
  lists : List (List Byte)
  iommu : Bool
deriving DecidableEq, Repr

/-- The model block of R344. -/
structure ModelDims where
  layers : Nat
  width : Nat
  heads : Nat
  kvheads : Nat
  headw : Nat
  ffw : Nat
  vocab : Nat
  wfmt : Nat
deriving DecidableEq, Repr

/-- Bytes placed at local addresses. -/
abbrev Placed := List (Nat × List Byte)

/-- The planes of one bank of a parameter group (R215), as local addresses. -/
structure Planes where
  master : Nat
  work : Nat
  workS : Nat
  turn : Nat
  turnS : Nat
  m : Nat
  mS : Nat
  r : Nat
  rS : Nat
  fs : Nat
  hdr : Nat
deriving DecidableEq, Repr

/-- One entry of a group's norm-entry array (R227). -/
structure NormEntry where
  row : Nat
  col : Nat
  shape : Shape
deriving DecidableEq, Repr

/-- A group descriptor (R230). -/
structure GroupDesc where
  desc : Nat
  tile : TileIx
  rule : Nat
  rows : Nat
  cols : Nat
  eta : Word
  beta1 : Word
  beta2 : Word
  eps : Word
  eps1 : Word
  lam : Word
  tid : Word
  bank0 : Planes
  bank1 : Planes
  grad : Nat
  gradS : Nat
  mask : Nat
  norm : Nat
  entries : List NormEntry
  ssqAll : Bool
  mirror : Bool
  turn : Bool
deriving DecidableEq, Repr

/-- A shard of the gradient exchange (R20, R205, R218): its owner, the modules that hold a replica, the planes of its
tiles' contributions, the gradient plane it is written to, and the group it belongs to. -/
structure ShardDesc where
  index : Nat
  owner : Nat
  replicas : List Nat
  tiles : List TStream
  count : Nat
  out : TStream
  group : Nat
deriving DecidableEq, Repr

/-- A command of a program's queue: its 32-bit words, the extension record of R112, and the phase it belongs to, coded as R349 codes
phases. -/
structure EngCmd where
  words : List Word
  ext : List Word
  phase : Nat
deriving DecidableEq, Repr

/-- A queue of a program, coded as R350 codes it: tile (0xFF for the hub), engine kind of R363, number. -/
structure ProgQueue where
  tile : Nat
  kind : Nat
  num : Nat
  cmds : List EngCmd
deriving DecidableEq, Repr

/-- A hold point (R178): the consumer's queue code and index, and its producers'. -/
structure HoldPoint where
  consumer : Nat × Nat
  producers : List (Nat × Nat)
deriving DecidableEq, Repr

/-- The TCFG settings a program carries (R145, R146). -/
structure TargetCfg where
  tau : Word
  alpha : Word
  beta : Word
  gamma : Word
  mode : Word
  vsize : Nat
  ringBase : Nat
  ringMib : Nat
  posBase : Nat
  lossBase : Nat
  spillBase : Nat
  spillLog2 : Nat
deriving DecidableEq, Repr

/-- A CUSTOM activation table (R104, R115): 15 boundaries and 16 rows of four coefficients. -/
structure CustTable where
  bnd : List Word
  coef : List Word
deriving DecidableEq, Repr

/-- The serving settings a program declares (R246, R250, R254, R271). -/
structure ServingCfg where
  group : Nat
  stepTokens : Nat
  chunk : Nat
  grow : Bool
  reserve : Nat
  pagesNear : Nat
  pagesFar : Nat
  pageBase : List Nat
  farBase : Nat
  kvBf16 : Bool
  farKv : Bool
  studentDrafts : Bool
  modelTeacherOk : Bool
deriving DecidableEq, Repr

/-- A reshard of the program's plan (R26, R27, R211): its producers, as queue code and index, the tiles it delivers to, and the plan's
regions of its source and of its destination layout. -/
structure ReshardDesc where
  index : Nat
  kind : Nat
  phase : Nat
  tiles : List TileIx
  sourceRegions : List Nat
  destRegions : List Nat
  producers : List (Nat × Nat)
deriving DecidableEq, Repr

/-- A recompute segment of at most eight layers (R194): the plan's region of its saved input (none: the token embeddings), the regions
of the tensors it saves, and its commands, as queue code and index. -/
structure Segment where
  input : Option Nat
  saves : List Nat
  layers : Nat
  cmds : List (Nat × Nat)
deriving DecidableEq, Repr

/-- A region of a program's memory plan (R27, R292). -/
structure PlanRegion where
  tier : Nat
  tile : TileIx
  length : Nat
  cls : Nat
deriving DecidableEq, Repr

/-- A module's last step before a RUN_START, as the Lead collects it, and whether the module has posted LEAD_LOST since (R417). -/
structure LastStep where
  module : Nat
  last : Option Nat
  lost : Bool
deriving DecidableEq, Repr

/-- A LEARN request of a mirror partner that has failed, as this module last received it (R276): its entry and its committed tokens, and
the extents of its output buffer. -/
structure Adopted where
  module : Nat
  order : Nat
  fn : Fn
  cust : Nat
  reqid : Word
  teacher : Bool
  logp : Bool
  prompt : List Nat
  generated : List Nat
  maxnew : Nat
  temp : Word
  topp : Word
  topk : Nat
  draft : Nat
  seed : DWord
  deadline : Nat
  age : Nat
  eos : List Nat
  stops : List (List Nat)
  outbuf : Nat
  outcap : Nat
  outExts : List (Nat × Nat × Nat)
  ended : Bool
deriving DecidableEq, Repr

/-- What a program image declares (R349, R350). The image format itself is Evobiys' (R7): log entry 1. -/
structure ProgImage where
  signed : Bool
  bytes : List Byte
  learn : Bool
  serving : Option ServingCfg
  slots : Nat
  tileGroup : Nat
  pipelined : Nat
  queues : List ProgQueue
  holds : List HoldPoint
  seqLen : Nat
  workingCopy : Nat
  target : Option TargetCfg
  custom : List (TileIx × CustTable)
  galleries : BitVec 40
  plan : List PlanRegion
  sspan : Nat
  lspan : Nat
  mirroring : Bool
  prio : List (Nat × Nat × Nat)
  worst : List (Nat × Nat)
  ucb : List Nat
  groups : List GroupDesc
  shards : List ShardDesc
  reshards : List ReshardDesc
  segments : List Segment
  batchTokens : Nat
deriving DecidableEq, Repr

/-- The optimizer state a student refresh may carry for one group (R19). -/
structure GroupState where
  desc : Nat
  m : List Byte
  mS : List Byte
  r : List Byte
  rS : List Byte
  fs : List Byte
  hdr : List Byte
deriving DecidableEq, Repr

/-- A weight image (R17, R19, R347): the dimensions it was built for, the weights by local address (teacher) or by
parameter group (student master planes), and the state image if one came with it. -/
structure WeightImage where
  dims : ModelDims
  placed : Placed
  masters : List (Nat × List Byte)
  state : Option (List GroupState)
deriving DecidableEq, Repr

/-- What PAIR_LOAD finds when it reads its images (R344): whether they can be read, the dimensions and the digests
they carry, where the weights go, and the bytes of each tier the placement needs. -/
structure LoadResult where
  readable : Bool
  teacher : ModelDims
  student : ModelDims
  digestsOk : Bool
  near : List Nat
  far : Nat
  placed : Placed
deriving DecidableEq, Repr

/-- The operands of a row-engine command (R196 to R199). The manual gives no record for it: log entry 1. -/
structure RowArgs where
  rows : Nat
  x : List Chunk
  dy : List Chunk
  dp : List Chunk
  gain : TStream
  bias : TStream
  stat : Nat
  delta : Nat
  eps : Word
  c : Word
  causal : Option (Nat × Nat)
  tree : Option (Nat × List Nat)
  out : List Chunk
  dgain : Nat
  dbias : Nat
  norm : Nat
  parts : List Nat
  counts : List Nat
  variance : Bool
  ftz : Bool
  failed : Bool
deriving DecidableEq, Repr

/-- The operands of a STORE of a turn engine (R182, R183). The manual gives no record for it: log entry 1. -/
structure TurnArgs where
  rows : Nat
  cols : Nat
  src : TStream
  dst : TStream
deriving DecidableEq, Repr

/-- One step of the collective engine (R413). -/
inductive CollOp
  /-- A piece of a point-to-point move, at byte offset off of the move, leaves for another module. -/
  | send (move dest src off len : Nat)
  /-- A piece of a move or of a gather arrives and is written; fwd: the next module of the ring it also goes on to. -/
  | recv (move src dst off len : Nat) (fwd : Option Nat)
  /-- This module forms its contribution to a shard from its tiles' planes (R414). -/
  | contribute (shard : Nat)
  /-- The owner forwards the reduced gradient and its norm entries to the mirror partner (R239). -/
  | mirror (shard : Nat)
  /-- The mirror partner's LEARN requests arrive, with their committed tokens (R276). -/
  | copies (module : Nat) (entries : List Adopted)
deriving DecidableEq, Repr

/-- Where a forwarded record comes from or goes to (R134). -/
inductive RecEnd
  | tile (t : TileIx)
  | module (m : Nat)
deriving DecidableEq, Repr

/-- What a port sees while it trains (R395 to R397). Positions are receive positions 0 to 17. -/
structure TrainObs where
  lightRx : Bool
  lightTx : Bool
  peerLightRx : Bool
  peerLightTx : Bool
  peerPlus : Bool
  peerAxis : Nat
  markers : List (Nat × Nat)
  failed : List Nat
  peerDead : List Nat
  peerPos : Nat
  peerPort : Nat
  duration : Nat
deriving DecidableEq, Repr

/-- A link packet (R398). -/
structure Packet where
  kind : Nat
  seq : Nat
  ackseq : Nat
  dest : Nat
  src : Nat
  move : Nat
  offset : Nat
  payload : List Byte
  crcOk : Bool
deriving DecidableEq, Repr

/-- The outcome of the built-in test on one tile (R275, R434 event 12). -/
structure BistTile where
  mismatches : List Nat
  tokensOk : Bool
  proposed : Nat
  accepted : Nat
deriving DecidableEq, Repr

/-- An SPDM request's operands (R451): version, secure session if it came in one, and the choices it makes. -/
structure SpdmReq where
  version : Nat
  session : Option Nat
  choicesOk : Bool
  index : Nat
  signed : Bool
  nonce : List Byte
deriving DecidableEq, Repr

/-- What the boot code finds in the two firmware slots (R434 event 3, R458). -/
structure BootCheck where
  slot0 : Bool
  slot1 : Bool
deriving DecidableEq, Repr

/-- What the verification of a firmware image finds beyond the header fields it reads (R456). -/
structure FwVerdict where
  certOk : Bool
  sigOk : Bool
  hashOk : Bool
deriving DecidableEq, Repr

/-- A hub table whose entries the Keeper rebuilds from its own copy (R288). -/
inductive HubTable
  | region | farMap
deriving DecidableEq, Repr

/-- What a bridge's failed flits came to (R288): whether one failed all its resends, and the hub-table entries that failed their parity. -/
structure BridgeFault where
  stops : Bool
  entries : List (HubTable × Nat)
deriving DecidableEq, Repr

/-- One module of the Lead's census (R410, R460). -/
structure CensusEntry where
  id : Nat
  position : Nat
  serial : Nat
  fwmaj : Nat
  tableCrc : Nat
deriving DecidableEq, Repr

/-- An engine the scheduler serves (R368): engine kind of R363, tile and number. -/
structure EngRef where
  kind : Nat
  tile : TileIx
  num : Nat
deriving DecidableEq, Repr

/-- A share of engine activity in one energy interval (R389): function, rail and weighted activity. -/
structure EnergyShare where
  fn : Fn
  rail : Nat
  activity : Nat
deriving DecidableEq, Repr

/-- The commands and events of the module, one constructor per row of the table, in the table's order. The operand stop of DRAIN,
CHAIN and UPDATE says after how many rows, beats or blocks the scheduler stops the command at a preemption point (R95, R152, R168,
R372); the same command sent again goes on from there. Bit y of DRAIN's sideFailed says that a side stream's row y could not be read. -/
inductive Instr
  | nop (m : MCmd) (opcode : Nat)
  | identify (m : MCmd)
  | healthRead (m : MCmd)
  | accountRead (m : MCmd)
  | pairLoad (m : MCmd) (signed : Bool)
  | pairLoadDone (r : LoadResult)
  | pairUnload (m : MCmd)
  | refresh (m : MCmd) (img : WeightImage)
  | pairStatus (m : MCmd)
  | progSubmit (m : MCmd) (img : ProgImage)
  | progRetire (m : MCmd)
  | progRestart (m : MCmd)
  | runStart (m : MCmd) (lasts : List LastStep)
  | runStop (m : MCmd)
  | snapRequest (m : MCmd)
  | snapshotComplete (readFailed : Bool)
  | join (m : MCmd)
  | cancel (m : MCmd)
  | pause (m : MCmd)
  | batchClose (m : MCmd)
  | reqStatus (m : MCmd)
  | custBind (m : MCmd)
  | budgetRefill (m : MCmd)
  | budgetRead (m : MCmd)
  | regionAlloc (m : MCmd)
  | regionFree (m : MCmd)
  | memTransfer (m : MCmd)
  | memTransferDone (fn : Fn) (seq : Nat) (data : List Byte) (refused : Bool)
  | carrierEvacuate (m : MCmd)
  | extentSwitch (carrier : Fin 4) (extent : Nat)
  | carrierReleased (carrier : Fin 4)
  | cxlmemWindow (m : MCmd)
  | sizeTableSet (m : MCmd)
  | sizeTableInForce (leadCrc : Nat) (census : List CensusEntry)
  | sizeTableRead (m : MCmd)
  | linkStatus (m : MCmd)
  | fogRead (m : MCmd)
  | daymarkRead (m : MCmd)
  | fwLoad (m : MCmd) (v : FwVerdict)
  | fwActivate (m : MCmd) (v : FwVerdict)
  | servicePrepareLaser (m : MCmd)
  | servicePreparePhase (m : MCmd)
  | servicePrepareFibre (m : MCmd) (answered : Bool)
  | debugEnter (m : MCmd)
  | debugExit (m : MCmd)
  | accRead (m : MCmd)
  | accWrite (m : MCmd)
  | mbxEvtConsWrite (fn : Fn) (value : Nat)
  | keeperHeartbeat
  | kprSwatchRead (unit : Fin 5)
  | drnCustCommit (fn : Fn) (t : TileIx) (value : Word)
  | drnCntClr (t : TileIx) (p : Fin 84) (value : Word)
  | tgtCommit (fn : Fn) (t : TileIx) (value : Word)
  | tcfgApply (t : TileIx)
  | tgtCntClr (t : TileIx) (value : Word)
  | vxeCntClr (t : TileIx) (e : Fin 8) (value : Word)
  | vxeKeyCommit (fn : Fn) (t : TileIx) (f : Fn) (value : Word)
  | arbCommit (fn : Fn) (n : Fin 43) (value : Word)
  | arbFreeze (fn : Fn) (n : Fin 43) (value : Word)
  | kprSchedCommit (fn : Fn) (value : Word)
  | pwrHotreset (fn : Fn) (value : Word) (boot : BootCheck)
  | registerWrite (fn : Fn) (bar : Nat) (offset : Nat) (size : Nat) (value : Word)
  | product (t : TileIx) (g : Fin 10) (src : Src) (ws : List Word) (mism : BitVec 8)
  | leaseWaitRelease (t : TileIx) (a : Fin 80) (mism : Bool)
  | tileReplay (t : TileIx) (a : Fin 80) (slot : Nat) (twinMism origMism : Bool)
  | arrayRetire (t : TileIx) (a : Fin 80)
  | drain (t : TileIx) (g : Fin 10) (src : Src) (ws ext : List Word) (sideFailed : Course (BitVec 64))
  | teacherTile (t : TileIx) (a : Fin 80)
  | recordForward (pos : Nat) (src dst : RecEnd) (pairs : List Word) (slotWord : DWord)
  | studentNormTile (t : TileIx) (a : Fin 80)
  | studentGradTile (t : TileIx) (a : Fin 80)
  | sampleTile (t : TileIx) (a : Fin 80)
  | chain (t : TileIx) (e : Fin 8) (src : Src) (ws : List Word) (failed : Course Bool)
  | setlen (t : TileIx) (e : Fin 8) (src : Src) (w : Word) (rest : List Word)
  | update (t : TileIx) (e : Fin 8) (src : Src) (ws : Course (List Word))
  | saveDrain (t : TileIx) (p : Fin 2) (src : Src) (ws : List Word)
  | saveSpad (t : TileIx) (p : Fin 2) (src : Src) (ws : List Word)
  | expand (t : TileIx) (p : Fin 2) (src : Src) (ws : List Word)
  | turnStore (t : TileIx) (p : Fin 2) (src : Src) (a : TurnArgs)
  | rms (t : TileIx) (p : Fin 2) (src : Src) (a : RowArgs)
  | layer (t : TileIx) (p : Fin 2) (src : Src) (a : RowArgs)
  | rmsBwd (t : TileIx) (p : Fin 2) (src : Src) (a : RowArgs)
  | layerBwd (t : TileIx) (p : Fin 2) (src : Src) (a : RowArgs)
  | smaxStat (t : TileIx) (p : Fin 2) (src : Src) (a : RowArgs)
  | smax (t : TileIx) (p : Fin 2) (src : Src) (a : RowArgs)
  | smaxBwd (t : TileIx) (p : Fin 2) (src : Src) (a : RowArgs)
  | dot (t : TileIx) (p : Fin 2) (src : Src) (a : RowArgs)
  | merge (t : TileIx) (p : Fin 2) (src : Src) (a : RowArgs)
  | copy (t : TileIx) (e : Fin 4) (src : Src) (ws : List Word) (remote : List Byte)
  | fill (t : TileIx) (e : Fin 4) (src : Src) (ws : List Word)
  | collectiveStep (src : Src) (op : CollOp)
  | reshardComplete (index : Nat) (t : TileIx) (duration : Nat)
  | contributionArrival (shard module step : Nat) (vals : ShardVals) (ovf : Bool)
  | lateLimitExpiry (shard : Nat)
  | overflowReport (module step : Nat) (ovf : Bool) (partial_ : Word) (fallback second : Bool)
  | prepassRx (step : Nat)
  | goRx (step : Nat) (k lscale : Word) (clean : Nat)
  | skipRx (step : Nat) (lscale : Word) (clean : Nat)
  | readyRx (module step : Nat) (ovf : Bool) (owned mirrored : List (Nat × Word))
  | commitMarkRx (step : Nat) (lscale : Word) (clean : Nat)
  | lscaleFloor
  | abortRx (step failed : Nat)
  | commitWaitExpiry (module : Nat)
  | commitPulse (widthNs : Nat) (copies : BitVec 2)
  | servingStepBoundary (g : Fin 4) (pageFaults kvFailed treeReqs : List Nat) (trees : List (List Nat))
  | requestDeadlineExpiry (index : Nat)
  | noPages (index : Nat)
  | arbRound (n : Fin 43) (dropped : Bool) (reqs : List (Nat × Nat)) (masked : List Nat)
  | arbBreakPoint (n : Fin 43) (masked preempted : Bool)
  | reread (reader : Src) (e : EngRef) (addr : Nat) (failures : Nat)
  | persistentFailureRecovery (addr : Nat) (data : List Byte) (sourceFailed : Bool)
  | transientRetire (addr : Nat)
  | bridgeFlitCrcFail (t : TileIx) (resends : Nat) (fault : BridgeFault)
  | linkTrain (p : PortIx) (o : TrainObs)
  | linkTrainRetry (p : PortIx) (o : TrainObs)
  | linkPacketRx (p : PortIx) (pkt : Packet)
  | nakRx (p : PortIx) (ackseq : Nat)
  | ackRx (p : PortIx) (ackseq : Nat)
  | idleTimer (p : PortIx)
  | laneSpared (p : PortIx) (lane : Fin 18)
  | peerSilent (p : PortIx)
  | moveTimeout (move : Nat)
  | laserLow (source : Fin 2) (percent : Nat)
  | laserFailover (source : Fin 2)
  | laserSourceFitted (source : Fin 2)
  | fogReport (code subject : Nat) (witnesses : List Nat) (count : Nat)
  | fogHoldExpiry (code subject : Nat)
  | fogWindowExpiry (code subject : Nat)
  | inputFault (input : Fin 2) (code : Nat) (deciVolts : Nat)
  | inputRestored (input : Fin 2) (deciVolts : Nat)
  | shortRetry (input : Fin 2) (ok : Bool)
  | inputSenseOpen (input : Fin 2)
  | powerLoss
  | phaseFailed (rail phase : Nat)
  | phaseFitted (rail phase : Nat)
  | voltageStep (t : TileIx)
  | powerCap (watts : Nat) (settings : List Nat)
  | thermalSpread (temps : List Nat)
  | thermalHold (t : TileIx) (temp : Nat)
  | thermalHoldRelease (t : TileIx) (temp : Nat)
  | hubOvertemp
  | modulePowerOn (hubTemp : Nat) (boot : BootCheck)
  | startToken
  | tokenFallback
  | fallbackDelayExpiry
  | strapSample (millivolts : List Nat)
  | moduleResetRelease
  | galleryWake (t : TileIx) (g : Fin 10) (fn : Fn) (wakeTime : Nat)
  | galleryGate (t : TileIx) (g : Fin 10)
  | builtInTest (r : List BistTile)
  | mailboxesOpen
  | beaconPinFault (pin : Fin 8) (swapped : Bool)
  | hostReset (millivolts : List Nat) (boot : BootCheck)
  | tileReset (t : TileIx)
  | functionLevelReset (fn : Fn)
  | flrKeeperClear (fn : Fn)
  | vfEnableClear
  | functionPowerState (fn : Fn) (d3hot : Bool)
  | keeperRestart
  | keeperMemError
  | keeperRestartComplete (copy0 copy1 : Bool)
  | activateFailed
  | turnEnd (e : EngRef) (elapsed : Nat) (ready : List Nat) (overrun switchTime : Nat)
  | preempt (e : EngRef) (engineTime : Nat) (flr : Bool)
  | energyTick (rails : List Nat) (inputs : List Nat) (idle : List Nat) (shares : List EnergyShare)
  | hostRingPoll (snapshotRing : Bool) (cons : Nat)
  | cxlmemAccess (write : Bool) (offset : Nat) (data : List Byte)
  | carrierFitted (carrier : Fin 4) (retired : List Nat)
  | carrierLost (carrier : Fin 4)
  | getVersion (r : SpdmReq)
  | getCapabilities (r : SpdmReq)
  | negotiateAlgorithms (r : SpdmReq)
  | getDigests (r : SpdmReq)
  | getCertificate (r : SpdmReq) (slot offset length : Nat)
  | challenge (r : SpdmReq) (slot : Nat)
  | getMeasurements (r : SpdmReq)
  | keyExchange (r : SpdmReq)
  | finish (r : SpdmReq)
  | endSession (r : SpdmReq)
  | heartbeat (r : SpdmReq)
  | keyUpdate (r : SpdmReq)
  | spdmUnsupportedRequest (code : Nat)
  | ideKm (r : SpdmReq) (cachemem : Bool) (key : List Byte)
  | ideFault (cachemem : Bool) (flits : Nat) (hit : List (Nat × Nat))
  | pairUnloadDone
  | fwLoadDone (readBackOk : Bool)
  | refreshDone (model : Nat) (readable : Bool)
  | stepReportRx (module step : Nat) (words : List Nat)
  | serviceNoticeRx (p : PortIx)
  | serviceNoticeTimeout (p : PortIx)
  | msixVectorUnmask (fn : Fn) (vector : Fin 64)
  | junctionTemperatureChange (t : TileIx) (temp : Nat) (setting : Nat)
deriving DecidableEq, Repr

end Sys2Proof
end

