-- ==== Sys2Proof/Config.lean ====
section
/-! DEFINITION. What one implementation fixes and the spec does not state: the free values. Each constant below is
opaque, with no body, so no proof can see a value of it; the assumption log names each one. -/
namespace Sys2Proof.Config

/-- Accumulator values the manual leaves undefined (R490: an arrangement it leaves undefined; R83: a sum whose residue
failed), applied to the plain counter State.fresh and the output's number. Log entry 3. -/
opaque freeX32 : Nat → Nat → BitVec 34
/-- Bytes of memory the manual leaves undefined. Log entry 3. -/
opaque freeByte : Nat → Nat → BitVec 8
/-- A number the manual leaves open, applied to State.fresh and the question asked. Log entry 3. -/
opaque freeNat : Nat → Nat → Nat

/-- The token drawn where rounding leaves an empty residual (R272, R274), for a sampling key, a sequence position and the verifier's kept
tokens: the same request draws the same one in any step mix (R268). Log entry 3. -/
opaque residualPick : BitVec 64 → Nat → List Nat → Nat

/-- Which of the values within the stated units in the last place of the exact result an engine answers (R102, R124,
R155), by function and operand: the same operand gives the same bits everywhere. Log entry 4. -/
opaque ulpPick : Nat → Nat → Nat → Nat

/-- SHA-256 of a byte string (R452, R450): uninterpreted. Log entry 5. -/
opaque sha256 : List (BitVec 8) → List (BitVec 8)
/-- A signature of the SEC block over a digest (R448): uninterpreted. Log entry 5. -/
opaque secSign : Nat → List (BitVec 8) → List (BitVec 8)
/-- Measurement 5 after a number of refreshes of a pairing image: the manual says it changes and not what it then covers (R452).
Log entry 5. -/
opaque refreshedDigest : Nat → List (BitVec 8) → List (BitVec 8)
/-- Fresh secrets of an SPDM session (R451): uninterpreted. Log entry 5. -/
opaque sessionSecret : Nat → List (BitVec 8)

/-- The module's serial number (R342), fixed at manufacture. Log entry 6. -/
opaque serial : BitVec 64
/-- The DER certificates of the daymark chain, root first (R449, R450). Log entry 6. -/
opaque daymarkCerts : List (List (BitVec 8))
/-- The measurement of the Keeper boot code in ROM (R452, index 1). Log entry 6. -/
opaque bootRomDigest : List (BitVec 8)
/-- The digest of the firmware image a slot leaves the factory with (R452, indices 2 and 3). Log entry 6. -/
opaque factoryDigest : Nat → List (BitVec 8)

end Sys2Proof.Config
end

