-- ==== Sys2Proof/Machine/State.lean ====
section
/-! DEFINITION. The state of the module as plain data, grouped by the spec's chapters, the reasons a step can stop, and
the state right after reset. Tables with many like entries are association lists (Tab): an unlisted key holds the
entry's reset value. -/
namespace Sys2Proof.Machine

/-- Why the machine stops. -/
inductive Fault
  /-- Raised by CXLMEM_ACCESS: a host access that no open CXL.mem window covers. The manual says the window is all the
  host-managed memory the module exposes (R283, R473) and gives no effect outside it. Safe: nothing is claimed there. -/
  | outsideCxlWindow (offset : Nat)
deriving DecidableEq, Repr

/-- Why a command has no meaning here. -/
inductive Refusal
  /-- Raised by an arm of exec whose command has no meaning yet. Safe: nothing is claimed of it. -/
  | notModelled (mnemonic : String)
deriving DecidableEq, Repr

/-- A table from indices to entries; see Machine/Ops.lean for its operations. -/
abbrev Tab (α : Type) := List (Nat × α)

/-! ### Numeric status (R58, R59, R148, R173, R174) -/

/-- The sticky flags and saturating counters of one conversion stream. -/
structure NumStat where
  ovf : Bool := false
  unf : Bool := false
  nan : Bool := false
  sat : Bool := false
  vanished : Nat := 0
  clipped : Nat := 0
  satcnt : Nat := 0
deriving DecidableEq, Repr

/-! ### Matrix arrays and drain units (chapters 3 and 4) -/

/-- The last writer of an accumulator slot: first slot of the tile, shape and mode (R490). A first slot of 32 marks
contents that were discarded (R113). -/
structure SlotOwner where
  first : Nat
  shape : Shape
  comp : Bool
deriving DecidableEq, Repr

/-- An output tile's accumulators: hi values row-major, and lo values in compensated mode (R49, R70). -/
structure AccTile where
  shape : Shape
  comp : Bool
  hi : List X32
  lo : List X32
deriving DecidableEq, Repr

/-- A gradient tile of 32 position lines by 32 vocabulary elements in a delivery buffer (R143): line bytes and scales. -/
structure GradTile where
  fmt : NF
  handle : Nat
  lines : List (List Byte × List Byte)
deriving DecidableEq, Repr

/-- An operation waiting in an array's lease queue (R75): a PRODUCT or a DRAIN, with its program command and words. A
PRODUCT with SSRC = 1 also names its turn in its gallery's sequence (id), how many gradient tiles it needs and those
it has taken (R143). -/
structure WaitOp where
  isDrain : Bool
  src : Src
  words : List Word
  ext : List Word
  sideFailed : BitVec 64
  mism : Bool
  id : Nat
  need : Nat
  taken : List GradTile
deriving DecidableEq, Repr

/-- One record of a lease's replay log (R84): the words and whether it took its stream from the Target engine. -/
structure LogRec where
  words : List Word
  ssrc : Bool
deriving DecidableEq, Repr

/-- A drain whose token is accepted and not emitted, because its tile is marked for replay (R84 event 3). -/
structure HeldDrain where
  src : Src
  words : List Word
  ext : List Word
  sideFailed : BitVec 64
  table : Option CustTable
deriving DecidableEq, Repr

/-- What the stochastic rounding and the draws of a command in progress go on with (R54, R167, R175): the function's keys and the step it
started with. -/
structure Draws where
  keys : List DWord
  step : Nat
deriving DecidableEq, Repr

/-- A drain stopped between two row reads (R95): its command, the outputs of stage 4 read so far as sums of two X32 values, from which its
partial line-reduction sums follow, its partial norm sum, and what its rounding goes on with. -/
structure DrainPart where
  src : Src
  words : List Word
  ext : List Word
  table : CustTable
  sideFailed : BitVec 64
  outs : List (X32 × X32)
  norm : X32
  draws : Draws
deriving DecidableEq, Repr

/-- A lease on the slots of a tile (R74 to R76) with its replay log (R84), and its drain if that is stopped. -/
structure Lease where
  first : Nat
  foot : Nat
  shape : Shape
  comp : Bool
  tie : Nat
  fn : Fn
  handle : Nat
  drained : Bool
  mism : Nat
  log : List LogRec
  overflowed : Bool
  marked : Bool
  held : Option HeldDrain
  part : Option DrainPart := none
deriving DecidableEq, Repr

/-- The panel a lens buffer holds after a RESIDENT command (R67): its naming fields and its bytes by line. -/
structure LensPanel where
  elem : Nat
  scale : Nat
  fmt : Nat
  lines : Nat
  kblk : Nat
  data : List (List Byte × List Byte)
deriving DecidableEq, Repr

/-- One physical array with its accumulators, leases, lease queue and lens buffer. -/
structure ArraySt where
  owners : Tab SlotOwner := []
  tiles : Tab AccTile := []
  leases : List Lease := []
  waiting : List WaitOp := []
  lens : Option LensPanel := none
  forceReload : Bool := false
  mismatches : Nat := 0
  retiring : Bool := false
  retired : Bool := false
  /-- Its retirement found no spare: it stays in service (R87). -/
  kept : Bool := false
deriving DecidableEq, Repr

/-- The commit group CUST of a tile (R115, R116). -/
structure CustSt where
  bnd : List Word := List.replicate 15 0
  coef : List Word := List.replicate 64 0
  active : Option CustTable := none
  pending : Bool := false
  refused : Bool := false
  /-- Logical arrays whose drain units still hold the table replaced by the last COMMIT. -/
  units : List Nat := []
deriving DecidableEq, Repr

/-- A PRODUCT that takes tiles from its gallery's delivery sequence (R143): its turn, the array indices it feeds, the
share ports its tiles also enter (((handle × 4 + pair) × 256 + SHARE), and the tiles it still needs. -/
structure Taker where
  id : Nat
  arrays : List Nat
  ports : List Nat
  handle : Nat
  left : Nat
deriving DecidableEq, Repr

/-- A slot window (R77, R371). -/
structure Window where
  base : Nat := 0
  size : Nat := 0
deriving DecidableEq, Repr

/-- A gallery: its delivery buffer (R143), the products that take its tiles in command order, its twin pairs' share ports by program,
pair and SHARE tag (R81, R143) with the array that is the taking one, the functions whose windows move here at their next turn change
with the windows they leave (R77), and whether it is gated. -/
structure GallerySt where
  delivery : List GradTile := []
  takers : List Taker := []
  seq : Nat := 0
  share : Tab (List GradTile) := []
  taker : Tab Nat := []
  moving : Tab Window := []
  gated : Bool := true
  /-- It has acknowledged its wake since the module's reset (R434 event 10). -/
  woken : Bool := false
deriving DecidableEq, Repr

/-- A tile of FP32 logits on the drain bus (R109, R120), until the engine it goes to accepts it, in row-major order: the other array whose
lease also ends then (R84 event 7), the line-reduction results owed with the acceptance (R94 event 8), and the stopwatch while it waits to be accepted (R130, R131). -/
structure BusTile where
  array : Nat
  first : Nat
  src : Src
  words : List Word
  shape : Shape
  vals : List Word
  also : Option Nat := none
  owed : List (Nat × List Byte) := []
  since : Option Nat := none
deriving DecidableEq, Repr

/-- The array part of the module: physical arrays by tile × 84 + array, logical maps, drain streams, CUST groups,
galleries by tile × 10 + gallery and the drain buses by tile. -/
structure ArrPart where
  arrays : Tab ArraySt := []
  map : Tab Nat := []
  drn : Tab NumStat := []
  cust : Tab CustSt := []
  gal : Tab GallerySt := []
  bus : Tab (List BusTile) := []
  /-- Saved windows (R371, R374): function × 320 + tile × 80 + logical array, slots counted from the window's base. -/
  saved : Tab ArraySt := []
deriving DecidableEq, Repr

/-! ### Target engine (chapter 5) -/

/-- The TCFG registers (R145, R146), raw. -/
structure Tcfg where
  tau : Word := 0x3F800000
  alpha : Word := 0x3F800000
  beta : Word := 0
  gamma : Word := 0
  mode : Word := 0x00000500
  vsize : Word := 0
  ringBase : Word := 0
  ringMib : Word := 0x40
  posBase : Word := 0
  lossBase : Word := 0
  spillBase : Word := 0
  spillLog2 : Word := 0
deriving DecidableEq, Repr

/-- The slot word of a record (R128). -/
structure SlotWord where
  ptag : Nat := 0
  tail : Nat := 0
  nreal : Nat := 0
  valid : Bool := false
  bad : Bool := false
  gen : Bool := false
  spilled : Bool := false
deriving DecidableEq, Repr

/-- What a position is open for. -/
inductive PosMode
  | teacher | norm | grad
deriving DecidableEq, Repr

/-- The open state of a position (R121, R124, R138, R139): the next vocabulary index, the running maxima and sums, the
top set in rank order, the record read for the student, and the loss sums. -/
structure OpenPos where
  pos : Nat
  mode : PosMode
  expect : Nat := 0
  spill : Bool := false
  m : X32 := 0
  s : X32 := 0
  top : List (Nat × X32) := []
  bad : Bool := false
  gen : Bool := false
  lscale : Word := 0
  rec_ : List (Nat × Nat) := []
  tail : Nat := 0
  recBad : Bool := false
  ignore : Bool := false
  label : Nat := 0
  adv : Word := 0
  r : X32 := 0
  m1 : X32 := 0
  s1 : X32 := 0
  lt : X32 := 0
  l1 : X32 := 0
  rn : X32 := 0
  kd : X32 := 0
  zy : X32 := 0
  zySeen : Bool := false
  uniform : Bool := false
deriving DecidableEq, Repr

/-- A Target engine. -/
structure TargetSt where
  staged : Tcfg := {}
  active : Tcfg := {}
  committed : Option Tcfg := none
  refused : Bool := false
  lscale : Word := 0x47800000
  invt : X32 := 0x0FF800000
  slots : Tab SlotWord := []
  ringOcc : Tab Nat := []
  spillOcc : Tab Nat := []
  open_ : List OpenPos := []
  stat : NumStat := {}
  scoreStall : Nat := 0
  learnWait : Nat := 0
  badpos : Nat := 0
  spilled : Nat := 0
  propfall : Nat := 0
  badlabel : Nat := 0
  full : Bool := false
  waiting : Bool := false
  /-- The stopwatch up to which the waits of R130 and R131 are counted. -/
  stallFrom : Nat := 0
  waitFrom : Nat := 0
  /-- Positions whose record waits to be forwarded into this engine, and the module each record sent waits on, by position (R134). -/
  fwds : List Nat := []
  forwarding : Tab Nat := []
  parity : Bool := false
  sumKd : X32 := 0
  sumRwd : X32 := 0
  sumHard : X32 := 0
  sumTotal : X32 := 0
deriving DecidableEq, Repr

/-! ### Vector engines (chapter 6) and the other engines of chapter 7 -/

/-- The mode VXE_STATE shows (R172). -/
inductive VMode
  | idle | chain | update | switching
deriving DecidableEq, Repr

/-- A CHAIN stopped at a beat boundary (R152): its command and length, the elements processed with the values of OSEL and RSEL and whether
the mask kept them, how many outputs are written, the expand pointer, and what its draws go on with. -/
structure ChainPart where
  src : Src
  words : List Word
  len : Nat
  vals : List (Word × Word × Bool)
  written : Nat
  ptr : Nat
  failed : Bool
  draws : Draws
deriving DecidableEq, Repr

/-- An UPDATE stopped between blocks (R168): its command, the next block, and what its rounding goes on with. -/
structure UpdPart where
  src : Src
  words : List Word
  block : Nat
  draws : Draws
deriving DecidableEq, Repr

/-- A vector engine: lengths, lengths staged behind a chain that is not complete, compress counts and stopped chains by function, and
stopped UPDATEs. -/
structure VecSt where
  len : Tab Nat := []
  staged : Tab Nat := []
  cnt : Tab Nat := []
  shown : Nat := 0
  mode : VMode := .idle
  stat : NumStat := {}
  parts : Tab ChainPart := []
  upds : List UpdPart := []
deriving DecidableEq, Repr

/-- The commit group KEY(f) on one tile (R175): staged and active keys 0 to 3, and the engines that still hold the keys replaced by the
last COMMIT: vector engines 0 to 7 and the sampler engine 8. -/
structure KeySt where
  staged : List DWord := List.replicate 4 0
  active : List DWord := List.replicate 4 0
  pending : Bool := false
  units : List Nat := []
deriving DecidableEq, Repr

/-- An open SAVE_DRAIN (R195). -/
structure OpenSave where
  src : Src
  words : List Word
  left : Nat
deriving DecidableEq, Repr

/-- A drained tile waiting on its path to a pack engine (R195): its tensor identifier, place and FP32 values, with what its acceptance
ends and writes, as for a BusTile. -/
structure PackTile where
  array : Nat
  first : Nat
  src : Src
  ext : List Word
  shape : Shape
  vals : List Word
  also : Option Nat := none
  owed : List (Nat × List Byte) := []
deriving DecidableEq, Repr

/-- The engines of a tile beside arrays and Target engine: vector engines by tile × 8 + e, keys by tile × 17 + f, pack
engines and turn engines and row engines by tile × 2 + number. -/
structure EngPart where
  vec : Tab VecSt := []
  keys : Tab KeySt := []
  saves : Tab (List OpenSave) := []
  packWait : Tab (List PackTile) := []
  pack : Tab NumStat := []
  turn : Tab NumStat := []
  row : Tab NumStat := []
  /-- The tile and source pairs whose OVF counted towards the step's overflow check (CHECK of R364): tile × 6 + source. -/
  check : List Nat := []
deriving DecidableEq, Repr

/-! ### Sampler (chapter 9) -/

/-- What a sampled position is for: a plain decode or first token, draft i, or verification of draft i (R271, R272); the drafter's or
the verifier's distribution at a node of a tree (R274). -/
inductive SampleRole
  | plain
  | draft (i : Nat)
  | verify (i : Nat)
  | treeDraft (node : Nat)
  | treeVerify (node : Nat)
deriving DecidableEq, Repr

/-- One sampled position of a formed step: the position index its drains carry, the request, and the sequence position
of the token it produces. -/
structure SampleSlot where
  tile : Nat
  pidx : Nat
  req : Nat
  t : Nat
  role : SampleRole
deriving DecidableEq, Repr

/-- The sampler's running state of one position (R267). -/
structure SampPos where
  pidx : Nat
  expect : Nat := 0
  best : X32 := 0
  bestV : Nat := 0
  bestSeen : Bool := false
  m : X32 := 0
  s : X32 := 0
  top : List (Nat × X32) := []
  pickY : X32 := 0
  bad : Bool := false
deriving DecidableEq, Repr

/-- A sampled token and the distribution it was drawn from: kept ranks with their renormalised probabilities. -/
structure Drawn where
  req : Nat
  t : Nat
  role : SampleRole
  token : Nat
  logp : Word
  kept : List (Nat × X32)
  bad : Bool
deriving DecidableEq, Repr

/-- A sampler engine: open positions, drawn results. -/
structure SampSt where
  open_ : List SampPos := []
  drawn : List Drawn := []
deriving DecidableEq, Repr

/-! ### The Keeper and the mailboxes (chapters 11 and 12) -/

/-- MBX_STATUS.STATE (R311). -/
inductive MState
  | idle | running | done
deriving DecidableEq, Repr

/-- An event entry (R320); data are bytes 8 to 31. -/
structure Event where
  code : Nat
  fn : Nat
  seq : Nat
  data : List Byte
deriving DecidableEq, Repr

/-- A mailbox window (R307 to R315). -/
structure Mailbox where
  seq : Nat := 0
  dbpend : Bool := false
  state : MState := .idle
  code : Nat := 0
  respSeq : Nat := 0
  respCode : Nat := 0
  resp : List Byte := []
  prod : Nat := 0
  cons : Nat := 0
  lost : Nat := 0
  cause : BitVec 6 := 0
  ring : Tab Event := []
  held : List Event := []
  latched : Option Instr := none
deriving DecidableEq, Repr

/-- The long operations of R341 and the operations that end at a boundary (R355). -/
inductive OpKind
  | pairLoad | pairUnload | refreshTeacher | refreshStudent | snapshot | runStop | transfer
  | evacuate (carrier : Nat) | sizeTable | fwLoad | fwActivate | cancel | pause | laser | phase | fibre (port : Nat)
deriving DecidableEq, Repr

/-- A long operation in progress: its command. -/
structure LongOp where
  kind : OpKind
  fn : Fn
  seq : Nat
  opcode : Nat
  payload : List Byte
  /-- The extents its descriptor names (space, address, length), and the local address of its region (R357). -/
  extents : List (Nat × Nat × Nat) := []
  base : Nat := 0
deriving DecidableEq, Repr

/-- Why the Keeper restarts (R334). -/
inductive Restart
  | activate | memError
deriving DecidableEq, Repr

/-- The Keeper: registers of R327 to R329, mailboxes by function, long operations, restart and work owed. -/
structure Keeper where
  up : Bool := false
  isOpen : Bool := false
  kbusy : Bool := false
  debug : Bool := false
  recovery : Bool := false
  slot : Bool := false
  fwmaj : Nat := 0
  fwmin : Nat := 0
  heartbeat : Nat := 0
  cause : BitVec 4 := 0
  mbox : Tab Mailbox := []
  ops : List LongOp := []
  swHi : Tab Nat := []
  restart : Option Restart := none
  /-- The Keeper core has been reset and its firmware has not opened the mailboxes (events 4 to 8 of R335). -/
  coreReset : Bool := false
  prevSlot : Bool := false
  activateFailed : Bool := false
  deferred : List Event := []
  /-- Work the Keeper owes since its restart began (event 7 of R335), oldest first. -/
  owed : List Instr := []
deriving DecidableEq, Repr

/-! ### Pairing and programs (chapters 1 and 12) -/

/-- The pairing's state (R13), coded as IDENTIFY codes it. -/
inductive PairState
  | empty | loading | resident | unloading
deriving DecidableEq, Repr

/-- A held refresh (R17, R347): the command it answers and its image. -/
structure HeldRefresh where
  fn : Fn
  seq : Nat
  img : WeightImage
deriving DecidableEq, Repr

/-- The pairing. -/
structure Pairing where
  state : PairState := .empty
  teacher : Option ModelDims := none
  student : Option ModelDims := none
  image : List Byte := []
  /-- Refreshes applied since the load (R452, index 5). -/
  refreshes : Nat := 0
  near : List Nat := [0, 0, 0, 0]
  far : Nat := 0
  /-- Where its weights lie (base, length), class W (R293). -/
  extents : List (Nat × Nat) := []
  studentState : Bool := false
  parity : Bool := false
  heldTeacher : Option HeldRefresh := none
  heldStudent : Option HeldRefresh := none
deriving DecidableEq, Repr

/-- The status of an admitted program (R353, R489). -/
inductive ProgState
  | ready | running | faulted | completed
deriving DecidableEq, Repr

/-- An admitted program. -/
structure Prog where
  fn : Fn
  img : ProgImage
  state : ProgState
  regions : List Nat
  /-- Queues (coded as R350 codes them) whose last command has been taken (R489). -/
  ended : List Nat
  /-- Where each queue stands in each phase (queue code × 8 + phase), and how often each of its commands (queue code × 2^20 + index) has
  been taken and has completed (R177, R178). -/
  next : Tab Nat := []
  taken : Tab Nat := []
  dones : Tab Nat := []
  /-- Update boundaries passed since it started, and how often each reshard was delivered to each tile (index × 4 + tile; R26). -/
  rounds : Nat := 0
  delivered : Tab Nat := []
  /-- Commands that completed with POISON (R85, R113): queue code and index. -/
  poisoned : List (Nat × Nat) := []
  /-- Commands of recompute segments that the Keeper runs again (R194): queue code and index. -/
  redo : List (Nat × Nat) := []
  /-- Queues a fault holds in hardware while the Keeper restarts (R336). -/
  heldQs : List Nat := []
deriving DecidableEq, Repr

/-- Admitted programs by handle, windows and save areas by function, group descriptors by address, a pending
replacement of the run's program, and the key seeds last admitted. -/
structure ProgPart where
  progs : Tab Prog := []
  windows : Tab Window := []
  saves : Tab Nat := []
  groups : Tab GroupDesc := []
  replace_ : Option (Nat × Nat) := none
  /-- Replacements of serving programs that wait for their group's boundary, by group: old and new handle. -/
  serveNext : Tab (Nat × Nat) := []
  keys : Tab (List DWord) := []
deriving DecidableEq, Repr

/-! ### The run, the step and the commit (chapters 7 and 8) -/

/-- The phases of R22. -/
inductive Phase
  | rollout | score | learn | update | snapshot
deriving DecidableEq, Repr

/-- A ring in host memory (R325), as the module last knew it. -/
structure HostRing where
  addr : Nat := 0
  entries : Nat := 0
  esize : Nat := 0
  prod : Nat := 0
  cons : Nat := 0
  overflow : Nat := 0
  dropped : Nat := 0
deriving DecidableEq, Repr

/-- A contribution to a shard (R206), with the drain-time norm entries of its tiles where one drain formed each (R218). -/
structure Contribution where
  module : Nat
  step : Nat
  vals : List X32
  norms : List Word := []
  late : Bool
  past : Nat := 0
deriving DecidableEq, Repr

/-- A shard's sum in the current step (R205, R206, R414). -/
structure ShardSt where
  armed : Bool := false
  armedAt : Nat := 0
  closed : Bool := false
  arrived : List Contribution := []
  folded : List Contribution := []
  own : Option (List X32) := none
  ownNorms : List Word := []
  missed : List Nat := []
  /-- When its stopwatch started in earlier steps of the run, by step (R205, R211). -/
  was : List (Nat × Nat) := []
deriving DecidableEq, Repr

/-- Straggler outcomes of R211. -/
inductive StragglerOutcome
  | missed | folded | dropped | droppedOvf
deriving DecidableEq, Repr

/-- A straggler entry (R209, R211). -/
structure Straggler where
  module : Nat
  outcome : StragglerOutcome
  shard : Nat
  past : Option Nat
deriving DecidableEq, Repr

/-- A reshard in the current step: the tiles it has been delivered to, and its duration (R26, R28). -/
structure ReshardSt where
  tiles : List Nat := []
  duration : Nat := 0
deriving DecidableEq, Repr

/-- A SNAPSHOT in progress (R241, R242). -/
structure SnapSt where
  step : Nat
  slot : Nat
  seq : Option (Fn × Nat)
  ring : HostRing
  startedAt : Nat
  outside : Bool
deriving DecidableEq, Repr

/-- Why a run stops (R363). -/
inductive StopReason
  | count | command | lscaleFloor | fault | health | stateLost
deriving DecidableEq, Repr

/-- The run (R15, R351) and this module's part in the step. -/
structure Run where
  active : Bool := false
  fn : Fn := 0
  prog : Nat := 0
  steps : Nat := 0
  seed : DWord := 0
  lscale : Word := 0x47800000
  clean : Nat := 0
  interval : Nat := 1000
  late : Nat := 0
  stale : Word := 0
  clip : Word := 0
  cwait : Nat := 2000
  snapInt : Nat := 0
  runTag : DWord := 0
  report : HostRing := {}
  snaps : HostRing := {}
  step : Nat := 0
  last : Option Nat := none
  stop : Option StopReason := none
  commits : Nat := 0
  snapAsked : List (Fn × Nat) := []
  snap : Option SnapSt := none
  /-- SNAPSHOTs that follow the one being written: their images stand in their buffers as their boundary left the weights. -/
  snapDue : List SnapSt := []
  /-- The step of the last commit mark applied in the run (R241). -/
  committed : Option Nat := none
  ovf : Bool := false
  updOvf : Bool := false
  fallback : List Nat := []
  prepassed : Bool := false
  reported : Bool := false
  gateOpen : Bool := false
  prepassGate : Bool := false
  /-- UPDATE commands of the step done: those of the update, and those of the prepass, as queue code × 2^20 + index (R234). -/
  updated : List Nat := []
  prepDone : List Nat := []
  /-- ROLLOUTs of the run that have ended (event 4 of R29). -/
  rolls : Nat := 0
  /-- Norm entries a prepass rebuilt in this step (R227), by descriptor address × 2^20 + entry. -/
  rebuilt : Tab Word := []
  shadow : Bool := false
  /-- The commit mark was applied while the Keeper restarts, and the rest of the boundary is owed (R234, R336). -/
  markApplied : Bool := false
  readied : Bool := false
  bank : Bool := false
  k : Word := 0
  shards : Tab ShardSt := []
  stragglers : List Straggler := []
  reshards : Tab ReshardSt := []
  phaseOn : List (Phase × Nat) := []
  phaseTime : Tab Nat := []
  upWait : Nat := 0
  upWaitFrom : Option Nat := none
  snapDone : Bool := false
  snapInc : Bool := false
  snapSkip : Bool := false
  snapTime : Nat := 0
  snapStep : Nat := 0
  genScored : Bool := false
  genLearned : Bool := false
  heldReports : List (List Byte × Bool) := []
  needRejoin : Bool := false
  /-- Its program has faulted: the module sends nothing further in the step (R353). -/
  silent : Bool := false
  /-- Planes (address, length) a module that rejoins has still to fetch, and the step its rejoining at RUN_START posts (R238, R417). -/
  fetch : List (Nat × Nat) := []
  fetchTop : Option Nat := none
  absent : List Nat := []
  replays : Nat := 0
  leadLost : Bool := false
deriving DecidableEq, Repr

/-- A module's overflow report as the Lead holds it (R234). -/
structure LeadReport where
  ovf : Bool
  part : Word
  fallback : Bool
deriving DecidableEq, Repr

/-- A module's READY as the Lead holds it: update OVF and shard check words (R234, R240). -/
structure LeadReady where
  ovf : Bool
  owned : List (Nat × Word)
  mirrored : List (Nat × Word)
deriving DecidableEq, Repr

/-- What the Lead has decided for the step (R234). -/
inductive Decision
  | none_ | prepass | go | skip | commit
deriving DecidableEq, Repr

/-- The Lead's part of the commit protocol and its summary (R201, R212, R219, R234). -/
structure Lead where
  reports : Tab LeadReport := []
  seconds : Tab LeadReport := []
  readies : Tab LeadReady := []
  decision : Decision := .none_
  lscale : Word := 0x47800000
  clean : Nat := 0
  floor : Nat := 0
  n2 : Word := 0
  k : Word := 0
  absent : List Nat := []
  stepReports : Tab (List Nat) := []
  /-- Reports of the step in progress that came before the Lead's own boundary: module, step and words (R212). -/
  early : List (Nat × Nat × List Nat) := []
  summaryStep : Option Nat := none
  /-- Shards whose mirror's check word differed from the owner's (R240). -/
  mismatch : List Nat := []
deriving DecidableEq, Repr

/-! ### Serving (chapter 9) -/

/-- Request statuses (R257), in code order. -/
inductive ReqStatus
  | queued | prefill | decode | deferred | finished | cancelled | deadline | paused | aborted | nopages
deriving DecidableEq, Repr

/-- CANCEL field of R255. -/
inductive CancelSt
  | none_ | pending | applied | tooLate
deriving DecidableEq, Repr

/-- REASON field of R255. -/
inductive Reason
  | none_ | eos | maxlen | stopseq
deriving DecidableEq, Repr

/-- A CANCEL or PAUSE waiting for the boundary, in the order they arrived (R259, R258). -/
structure ReqOp where
  isPause : Bool
  fn : Fn
  seq : Nat
deriving DecidableEq, Repr

/-- A request table entry (R255) with the Keeper's own bookkeeping of it. -/
structure Req where
  status : ReqStatus
  before : ReqStatus
  cancel : CancelSt
  reason : Reason
  cust : Nat
  group : Nat
  teacher : Bool
  learn : Bool
  logp : Bool
  tree : Bool
  held : Bool
  fn : Fn
  reqid : Word
  len : Nat
  prompt : List Nat
  maxnew : Nat
  temp : Word
  topp : Word
  topk : Nat
  draft : Nat
  seed : DWord
  deadline : Nat
  accepted : Nat
  order : Nat
  admitted : Nat
  pdir : Nat
  eos : List Nat
  stops : List (List Nat)
  stoptab : Nat
  outbuf : Nat
  outcap : Nat
  generated : List Nat
  written : Nat
  done : Nat
  pages : List Nat
  heldSteps : Nat
  expired : Bool
  late : Bool
  charged : Nat
  ops : List ReqOp
  beforeClose : Bool
  /-- Positions to prefill again after a KV page failed (0: none); done counts those prefilled so far. -/
  rebuild : Nat
  /-- The first tile of its group, and the extents of its output buffer. -/
  home : Nat
  outExts : List (Nat × Nat × Nat)
  /-- To end ABORTED at the next boundary: by a reset of its function (R266), or by an unload or a lost journal. -/
  flr : Bool
  doomed : Bool
  /-- HELD for its 64th step: it ends NOPAGES at event 11 of the boundary (R254). -/
  pageless : Bool
deriving DecidableEq, Repr

/-- A refill waiting for event 10 (R264, R356): set or add, and the value. -/
structure Refill where
  add : Bool
  value : Int
deriving DecidableEq, Repr

/-- A customer (R264). -/
structure Cust where
  fn : Option Fn := none
  budget : Int := 0
  charged : Nat := 0
  deferred : Bool := false
  refills : List Refill := []
deriving DecidableEq, Repr

/-- A page-table entry (R251). -/
structure PageEnt where
  valid : Bool := false
  far : Bool := false
  req : Nat := 0
  seqPage : Nat := 0
  addr : Nat := 0
deriving DecidableEq, Repr

/-- One request's part in a formed step: positions taken, whether it is a prefill chunk, drafts, whether it is the prompt's last chunk,
for a tree request the parents of nodes 1 on (R274), and the customer charged (R264). -/
structure StepPart where
  req : Nat
  prefill : Bool
  positions : Nat
  drafts : Nat
  last : Bool
  tree : List Nat := []
  cust : Nat := 0
deriving DecidableEq, Repr

/-- A formed serving step (R246). -/
structure StepPlan where
  parts : List StepPart
  slots : List SampleSlot
  startedAt : Nat
deriving DecidableEq, Repr

/-- A tile group: its pool of page indices, its free pages, the step it runs and the program that set it. -/
structure GroupSt where
  prog : Nat := 0
  freeNear : List Nat := []
  freeFar : List Nat := []
  plan : Option StepPlan := none
  badReqs : List Nat := []
deriving DecidableEq, Repr

/-- The serving part: the request table, customers, groups, page table, and the rollout batch. -/
structure ServePart where
  reqs : Tab Req := []
  cust : Tab Cust := []
  groups : Tab GroupSt := []
  pages : Tab PageEnt := []
  samp : Tab SampSt := []
  order : Nat := 0
  batchClosed : Bool := false
  rollout : Bool := false
  /-- The tiles on which ROLLOUT has begun (R26, R29 event 1). -/
  rolling : List Nat := []
  /-- The LEARN requests of the ROLLOUT under way that have FINISHED, and the batch that the last ROLLOUT made (R29, R245). -/
  finished : List Req := []
  batch : List Req := []
  /-- The mirror partner's LEARN requests as it last sent them (R276). -/
  copies : List Adopted := []
deriving DecidableEq, Repr

/-! ### Memory tiers (chapter 10) -/

/-- Where the Keeper recovers a region from (R292 to R294): extents of a host image, the mirror partner, recompute segments, a prefill, a
rescore, or nowhere. -/
inductive RecSource
  | none_
  | host (extents : List (Nat × Nat × Nat))
  | partner
  | segments
  | prefill
  | rescore
deriving DecidableEq, Repr

/-- A region-table entry (R292). -/
structure Region where
  tier : Nat
  tile : Nat
  base : Nat
  length : Nat
  cls : Nat
  fn : Fn
  source : RecSource
  prog : Nat
  /-- A source buffer whose reshard has completed on every destination: it is free until the next step (R27). -/
  idle : Bool := false
deriving DecidableEq, Repr

/-- A transient-failure entry (R291): unit and count. -/
structure Transient where
  tier : Nat
  addr : Nat
  count : Nat
deriving DecidableEq, Repr

/-- A persistent failure waiting for recovery (R289): unit base and failed access units. -/
structure FailedUnit where
  tier : Nat
  unit : Nat
  accesses : List Nat
  waiters : List Src
  /-- Retired, while the commands of its recompute segment run again (R194). -/
  rerun : Bool := false
deriving DecidableEq, Repr

/-- A far carrier (R281 to R284, R466). -/
structure Carrier where
  present : Bool := true
  evacuating : Bool := false
  powered : Bool := true
  spares : Nat := 2097152
deriving DecidableEq, Repr

/-- Regions, the far map by logical extent, carriers, spares and failures. -/
structure TierPart where
  regions : Tab Region := []
  farMap : Tab Nat := []
  carriers : Tab Carrier := []
  windowBase : Nat := 0
  windowSize : Nat := 0
  spareWords : Tab Nat := []
  spareRows : Tab Nat := []
  retiredUnits : List Nat := []
  lostPages : List Nat := []
  failed : List FailedUnit := []
  failedOut : List Nat := []
  /-- Units with a third transient failure, or a first one that found the table full, before their retirement (R291). -/
  toRetire : List Nat := []
deriving DecidableEq, Repr

/-! ### Arbiters (R295 to R304) -/

/-- One requester slot of an arbiter. -/
structure ArbReq where
  base : Nat := 0
  stagedBase : Nat := 0
  cur : Nat := 0
  lost : Nat := 0
  waiting : Bool := false
  masked : Bool := false
  starved : Bool := false
  fn : Nat := 0
deriving DecidableEq, Repr

/-- An arbiter instance. -/
structure Arb where
  freeze : Bool := false
  starveLim : Nat := 0x40
  stagedLim : Nat := 0x40
  pending : Option (Nat × List Nat) := none
  held : Bool := false
  owner : Nat := 0
  ownerFn : Nat := 0
  reqs : Tab ArbReq := []
deriving DecidableEq, Repr

/-! ### Scheduling, functions and accounting (chapter 13) -/

/-- The SCHED fields of a function (R382). -/
structure SchedFn where
  slice : Nat := 2000
  suspend : Bool := false
deriving DecidableEq, Repr

/-- A scheduled engine (R370): the function last served, the turn in progress and its length in units of 10 ns, deficits by
function, and the SCHED group it still acts on until its next turn change after a commit (R381). -/
structure EngSched where
  last : Nat := 16
  current : Option Nat := none
  length : Nat := 0
  deficit : Tab Nat := []
  group : Option (Tab SchedFn) := none
deriving DecidableEq, Repr

/-- The commit group SCHED and the engines, keyed by kind, tile and number. -/
structure Sched where
  staged : Tab SchedFn := []
  active : Tab SchedFn := []
  refused : Bool := false
  engines : Tab EngSched := []
  /-- Functions whose slot windows are saved, not in the arrays, by gallery (R371): tile × 10 + gallery. -/
  away : Tab (List Nat) := []
deriving DecidableEq, Repr

/-- An MSI-X table entry and its pending bit (R366). -/
structure Msix where
  addr : DWord := 0
  data : Word := 0
  masked : Bool := true
  pending : Bool := false
deriving DecidableEq, Repr

/-- A function of the device: its fence and reset state, power state and MSI-X table. -/
structure FnSt where
  resetting : Bool := false
  d3hot : Bool := false
  withheld : List Nat := []
  msix : Tab Msix := []
  /-- The function mask: every vector stays pending (R366). -/
  fmask : Bool := false
deriving DecidableEq, Repr

/-- A function's accounting record (R390). -/
structure FnAcct where
  span : Nat := 0
  closes : Nat := 0
  cls : Tab Nat := []
  overrun : Nat := 0
  switch : Nat := 0
  bytes : Tab Nat := []
  energy : Nat := 0
  preempts : Nat := 0
  aborted : Nat := 0
deriving DecidableEq, Repr

/-- A customer's accounting record (R390). -/
structure CustAcct where
  prefill : Nat := 0
  decode : Nat := 0
  gallery : Nat := 0
  other : Nat := 0
  energy : Nat := 0
  nfin : Nat := 0
  nend : Nat := 0
deriving DecidableEq, Repr

/-- Functions and accounting. -/
structure FnPart where
  numVfs : Nat := 0
  fns : Tab FnSt := []
  acct : Tab FnAcct := []
  closed : Tab FnAcct := []
  cust : Tab CustAcct := []
  unattributed : Nat := 0
  /-- Hub stopwatch at module reset, and at the last close of a function's record (R390, R391). -/
  since : Nat := 0
  opened : Tab Nat := []
deriving DecidableEq, Repr

/-! ### Cascade and Widun link (chapter 14) -/

/-- STATE of R421. -/
inductive LinkState
  | down | training | up | degraded
deriving DecidableEq, Repr

/-- A Widun port (R392 to R401, R421). -/
structure Port where
  state : LinkState := .down
  txWide : Nat := 0
  rxWide : Nat := 0
  flipped : Bool := false
  reversed : Bool := false
  crossed : Bool := false
  miscabled : Bool := false
  silent : Bool := false
  peer : Nat := 0
  peerPort : Nat := 0
  txDead : BitVec 18 := 0
  rxDead : BitVec 18 := 0
  rxmap : List Nat := []
  spareRx : Nat := 2
  spareTx : Nat := 2
  crcErr : Nat := 0
  resent : Nat := 0
  retrains : Nat := 0
  lastTrain : Nat := 0
  txSeq : Nat := 0
  rxSeq : Nat := 0
  replay : List Packet := []
  /-- Packets that wait for room in the replay buffer (R399). -/
  txWait : List Packet := []
  resends : Nat := 0
  serviced : Bool := false
deriving DecidableEq, Repr

/-- A laser source (R403, R463, R468): state 0 in use, 1 low, 2 failed, 3 removed. -/
structure Laser where
  state : Nat := 0
  percent : Nat := 100
  seconds : Nat := 0
  full : Bool := false
deriving DecidableEq, Repr

/-- A size table (R408): axes, spans, fog window, generation, and MIRROR of each PRESENT module. -/
structure SizeTable where
  nx : Nat
  ny : Nat
  nz : Nat
  sspan : Nat
  lspan : Nat
  fogwin : Nat
  tgen : Nat
  present : Tab Nat
  raw : List Byte
deriving DecidableEq, Repr

/-- A fog entry: witnesses and count (R419), and the Lead's bookkeeping of it (R420). -/
structure FogEntry where
  code : Nat
  subject : Nat
  witnesses : List Nat
  count : Nat
  openedAt : Nat
  mergedAt : Nat
  failed : Bool
deriving DecidableEq, Repr

/-- A suppression window of R418: occurrences counted since it opened. -/
structure FogWindow where
  code : Nat
  subject : Nat
  count : Nat
deriving DecidableEq, Repr

/-- A move on its way to another module (R415). -/
structure Move where
  move : Nat
  dest : Nat
  bytes : Nat
deriving DecidableEq, Repr

/-- The payload of a DATA packet at its destination: its source, move and offset (R398). -/
structure Arrival where
  src : Nat
  move : Nat
  off : Nat
  data : List Byte
deriving DecidableEq, Repr

/-- The link part. -/
structure LinkPart where
  ports : Tab Port := []
  lasers : Tab Laser := []
  table : Option SizeTable := none
  pendingTable : Option (SizeTable × Fn × Nat) := none
  confirmed : Bool := false
  fog : List FogEntry := []
  leadFog : List FogEntry := []
  fogDropped : Nat := 0
  windows : List FogWindow := []
  moves : List Move := []
  nextMove : Nat := 0
  /-- Payloads that have arrived for this module; one a collective step has taken is empty (R402, R413). -/
  inbox : List Arrival := []
deriving DecidableEq, Repr

/-! ### Power, reset and start (chapter 15) -/

/-- Input states, coded as in R445. -/
inductive InState
  | ok | open_ | under | over | reversed | short
deriving DecidableEq, Repr

/-- A power input (R424, R475). -/
structure Input where
  state : InState := .open_
  deciVolts : Nat := 0
  retries : Nat := 0
  latchedOff : Bool := false
  faults : Nat := 0
deriving DecidableEq, Repr

/-- A tile's rail and temperature (R429 to R433, R445). -/
structure TilePwr where
  vset : Nat := 15
  target : Nat := 15
  held : Nat := 15
  tj : Nat := 0
  hold : Bool := false
  holdFrom : Nat := 0
  rate : Nat := 0
  lit : Bool := false
deriving DecidableEq, Repr

/-- Where the start has got to (R434). -/
inductive Start
  | off | waitToken | fallback | strapWindow | strapped | released | opened
deriving DecidableEq, Repr

/-- What the beacon pins mean (R436, R443). -/
inductive BcnMeaning
  | ramp | strap | operation
deriving DecidableEq, Repr

/-- The power part: inputs, phases lost by rail, tiles, start, beacon pins, stopwatches (tiles 0 to 3, hub 4). -/
structure PwrPart where
  inputs : Tab Input := []
  phases : Tab Nat := []
  phaseOut : List Nat := []
  tiles : Tab TilePwr := []
  start : Start := .off
  hubLit : Bool := false
  meaning : BcnMeaning := .ramp
  strapBad : Bool := false
  tokFall : Bool := false
  tokenOut : Bool := false
  pinFault : BitVec 8 := 0
  fdis : Bool := false
  cdis : Bool := false
  lead : Bool := false
  position : Nat := 0
  watches : Tab Nat := []
  /-- The hub die passed 115 °C (R483): the next start needs it at or below 90 °C. -/
  hot : Bool := false
  limited : List Nat := []
  bistDone : Bool := false
deriving DecidableEq, Repr

/-! ### Identity and service (chapter 16) -/

/-- A firmware slot (R455). -/
structure FwSlot where
  present : Bool := true
  maj : Nat := 3
  min : Nat := 2
  svn : Nat := 0
  /-- SHA-256 of the image, header to signature; none: the image the slot left the factory with. -/
  digest : Option (List Byte) := none
  /-- Whether its header passes FW_FORMAT, and whether the image fits 8 MiB. -/
  format : Bool := true
  fits : Bool := true
  ok : Bool := false
deriving DecidableEq, Repr

/-- An IDE stream (R454). -/
structure IdeStream where
  keyed : Bool := false
  secure : Bool := false
  key : List Byte := []
deriving DecidableEq, Repr

/-- An SPDM response. -/
inductive SpdmResp
  | version (vs : List Nat)
  | capabilities
  | algorithms
  | digests (d : List Byte)
  | certificate (part : List Byte) (remaining : Nat)
  | challengeAuth (sig : List Byte)
  | measurements (vals : List (Nat × List Byte)) (sig : Option (List Byte))
  | keyExchangeRsp (session : Nat) (sig : List Byte)
  | finishRsp
  | endSessionAck
  | heartbeatAck
  | keyUpdateAck
  | ideAck
  | errorBusy
  | errorUnsupported (code : Nat)
  | errorInvalid
deriving DecidableEq, Repr

/-- An SPDM session: identifier, secret, established, key generation. -/
structure Session where
  id : Nat
  secret : List Byte
  established : Bool
  updates : Nat
deriving DecidableEq, Repr

/-- The security part. -/
structure SecPart where
  counter : Nat := 0
  slots : Tab FwSlot := []
  bootSlot : Bool := false
  ideIo : IdeStream := {}
  ideCm : IdeStream := {}
  sessions : List Session := []
  negotiated : Bool := false
  response : Option SpdmResp := none
deriving DecidableEq, Repr

/-- The health record beyond what other parts hold (R468). -/
structure HealthPart where
  optime : Nat := 0
  powerons : Nat := 0
  nlog : Nat := 0
  loghead : Nat := 0
  log : Tab (List Byte) := []
  mism : Tab Nat := []
  wordsRetired : Tab Nat := []
  rowsRetired : Tab Nat := []
  pagesRetired : Tab Nat := []
  laneTx : Tab Nat := []
  laneRx : Tab Nat := []
  trainings : Tab Nat := []
  bistProposed : Tab Nat := []
  bistAccepted : Tab Nat := []
  resends : Tab Nat := []
  pageFaults : Nat := 0
  transients : List Transient := []
  badTiles : List Nat := []
  badGalleries : List Nat := []
deriving DecidableEq, Repr

/-! ### What the module sends -/

/-- What leaves the module in order: messages, packets, tree messages and pin pulses. -/
inductive Out
  | msix (fn vector : Nat) (addr : DWord) (data : Word)
  | packet (port : Nat) (p : Packet)
  | report (step : Nat) (ovf : Bool) (part : Word) (fallback second : Bool)
  | ready (step : Nat) (ovf : Bool) (owned mirrored : List (Nat × Word))
  | prepass (step : Nat)
  | go (step : Nat) (k lscale : Word) (clean : Nat)
  | skip (step : Nat) (lscale : Word) (clean : Nat)
  | commit (step : Nat) (lscale : Word) (clean : Nat)
  | abort (step failed : Nat)
  | commitPulse (nanoseconds : Nat)
  | faultPulse
  | fog (dest code subject : Nat) (witnesses : List Nat) (count : Nat)
  | tableCrc (crc : Nat)
  | serviceNotice (port : Nat)
  | swatch (unit : Nat) (lo : Word)
  | serviceAnswer (port : Nat)
  | contribution (shard owner step : Nat) (vals : List X32) (norms : List Word) (ovf : Bool)
  | mirrorFetch (shard owner : Nat)
  | mirrorCopy (shard : Nat) (data : List Byte)
  | record (dest pos : Nat) (pairs : List Word) (slotWord : DWord)
  | requestCopy (entries : List Adopted)
  | rejoin (step : Nat)
  | spdm (r : SpdmResp)
  | cxlData (data : List Byte)
  | stepReport (step : Nat) (words : List Nat)
deriving DecidableEq, Repr

/-! ### The state -/

/-- The state of the module. mem is local memory by local address (R278), hostMem what the module has written to host
memory; outbox is what it has sent, newest first; fresh counts free values taken; pending is the queue of commands. -/
structure State where
  mem : List Host.Cell
  hostMem : List Host.Cell
  arr : ArrPart
  tgt : Tab TargetSt
  eng : EngPart
  keeper : Keeper
  pair : Pairing
  prog : ProgPart
  run : Run
  lead : Lead
  serve : ServePart
  tier : TierPart
  arb : Tab Arb
  sched : Sched
  fnp : FnPart
  link : LinkPart
  pwr : PwrPart
  sec : SecPart
  health : HealthPart
  outbox : List Out
  fresh : Nat
  pending : List Instr
deriving DecidableEq, Repr

/-- The module right after reset: the part as shipped with no input accepted yet (R426, R434 before event 1), every
register at its reset value, nothing in any memory, an empty queue. How a command comes to run from here: log entry 2. -/
def State.reset : State :=
  { mem := [], hostMem := [], arr := {}, tgt := [], eng := {}, keeper := {}, pair := {}, prog := {}, run := {},
    lead := {}, serve := {}, tier := {}, arb := [], sched := {}, fnp := {}, link := {}, pwr := {}, sec := {},
    health := {}, outbox := [], fresh := 0, pending := [] }

end Sys2Proof.Machine
end

