-- ==== Sys2Proof/Machine/Ops.lean ====
section
/-! DEFINITION. The named operations over tables, memory and the parts of the state, and the shared operations of the
Keeper: MSI-X messages, causes, events, health events, completions, descriptors and the intake of mailbox commands. -/
namespace Sys2Proof.Machine

/-! ### Tables -/

/-- The entry at key k, or d where none is listed. -/
def Tab.get {α : Type} (t : Tab α) (d : α) (k : Nat) : α :=
  match t with
  | [] => d
  | (k', v) :: r => if k = k' then v else Tab.get r d k

/-- The table with v at key k, keys kept rising. -/
def Tab.set {α : Type} (t : Tab α) (k : Nat) (v : α) : Tab α :=
  match t with
  | [] => [(k, v)]
  | (k', v') :: r =>
    if k = k' then (k, v) :: r
    else if k < k' then (k, v) :: (k', v') :: r
    else (k', v') :: Tab.set r k v

/-- The table without key k. -/
def Tab.del {α : Type} (t : Tab α) (k : Nat) : Tab α := List.filter (fun e => e.1 != k) t

/-- Whether key k is listed. -/
def Tab.has {α : Type} (t : Tab α) (k : Nat) : Bool := List.any t (fun e => e.1 == k)

/-- The entry at key k, if listed. -/
def Tab.find? {α : Type} (t : Tab α) (k : Nat) : Option α :=
  match t with
  | [] => none
  | (k', v) :: r => if k = k' then some v else Tab.find? r k

/-- The table with the entry at k changed by f. -/
def Tab.upd {α : Type} (t : Tab α) (d : α) (k : Nat) (f : α → α) : Tab α := t.set k (f (t.get d k))

/-- The lowest key from n upward that is not listed, looking at most fuel keys. -/
def Tab.freeFrom {α : Type} (t : Tab α) : Nat → Nat → Option Nat
  | 0, _ => none
  | fuel + 1, n => if t.has n then Tab.freeFrom t fuel (n + 1) else some n

/-! ### Memory -/

/-- Byte memory in canonical form: addresses strictly rising, no listed byte equal to what an unlisted address reads
as, which is 0 (scratchpad: R434 event 9; near and far tier: log entry 7). -/
abbrev Mem := List Host.Cell

/-- The byte at address a. -/
def Mem.read (m : Mem) (a : Nat) : Byte :=
  match m with
  | [] => 0
  | (k, v) :: r => if a = k then v else Mem.read r a

/-- The memory with byte v at address a. -/
def Mem.write (m : Mem) (a : Nat) (v : Byte) : Mem :=
  match m with
  | [] => if v = 0 then [] else [(a, v)]
  | (k, w) :: r =>
    if a < k then (if v = 0 then (k, w) :: r else (a, v) :: (k, w) :: r)
    else if a = k then (if v = 0 then r else (a, v) :: r)
    else (k, w) :: Mem.write r a v

/-- Bytes a, a + 1, … -/
def Mem.readN (m : Mem) (a : Nat) : Nat → List Byte
  | 0 => []
  | n + 1 => m.read a :: Mem.readN m (a + 1) n

/-- Bytes written from address a upward. -/
def Mem.writeN (m : Mem) (a : Nat) : List Byte → Mem
  | [] => m
  | b :: bs => Mem.writeN (m.write a b) (a + 1) bs

/-- Every listed address lies above lo, addresses rise strictly, and no listed byte is 0. -/
def Mem.wfAbove (lo : Option Nat) : Mem → Bool
  | [] => true
  | (k, v) :: r => (match lo with | none => true | some l => decide (l < k)) && v != 0 && Mem.wfAbove (some k) r

/-- The canonical form. -/
def Mem.wf (m : Mem) : Bool := Mem.wfAbove none m

/-- A little-endian number of n bytes in memory. -/
def Mem.nat (m : Mem) (a n : Nat) : Nat := leNat (m.readN a n)

/-- A little-endian 32-bit word in memory. -/
def Mem.word (m : Mem) (a : Nat) : Word := BitVec.ofNat 32 (m.nat a 4)

/-- A list of 32-bit words as bytes. -/
def wordsBytes (ws : List Word) : List Byte := ws.flatMap (fun w => leBytes 4 w.toNat)

/-- A list of 64-bit words as bytes. -/
def dwordsBytes (ws : List Nat) : List Byte := ws.flatMap (fun w => leBytes 8 w)

/-- Several byte strings written at their addresses. -/
def Mem.place (m : Mem) : Placed → Mem
  | [] => m
  | (a, bs) :: r => Mem.place (m.writeN a bs) r

/-- Whether a request status is terminal (R257). -/
def ReqStatus.terminal : ReqStatus → Bool
  | .queued | .prefill | .decode | .deferred => false
  | _ => true

/-! ### Parts of the state -/

/-- The state with its mem replaced. -/
def State.setMem (s : State) (v : List Host.Cell) : State := { s with mem := v }
/-- The state with its hostMem replaced. -/
def State.setHostMem (s : State) (v : List Host.Cell) : State := { s with hostMem := v }
/-- The state with its arr replaced. -/
def State.setArr (s : State) (v : ArrPart) : State := { s with arr := v }
/-- The state with its tgt replaced. -/
def State.setTgt (s : State) (v : Tab TargetSt) : State := { s with tgt := v }
/-- The state with its eng replaced. -/
def State.setEng (s : State) (v : EngPart) : State := { s with eng := v }
/-- The state with its keeper replaced. -/
def State.setKeeper (s : State) (v : Keeper) : State := { s with keeper := v }
/-- The state with its pair replaced. -/
def State.setPair (s : State) (v : Pairing) : State := { s with pair := v }
/-- The state with its prog replaced. -/
def State.setProg (s : State) (v : ProgPart) : State := { s with prog := v }
/-- The state with its run replaced. -/
def State.setRun (s : State) (v : Run) : State := { s with run := v }
/-- The state with its lead replaced. -/
def State.setLead (s : State) (v : Lead) : State := { s with lead := v }
/-- The state with its serve replaced. -/
def State.setServe (s : State) (v : ServePart) : State := { s with serve := v }
/-- The state with its tier replaced. -/
def State.setTier (s : State) (v : TierPart) : State := { s with tier := v }
/-- The state with its arb replaced. -/
def State.setArb (s : State) (v : Tab Arb) : State := { s with arb := v }
/-- The state with its sched replaced. -/
def State.setSched (s : State) (v : Sched) : State := { s with sched := v }
/-- The state with its fnp replaced. -/
def State.setFnp (s : State) (v : FnPart) : State := { s with fnp := v }
/-- The state with its link replaced. -/
def State.setLink (s : State) (v : LinkPart) : State := { s with link := v }
/-- The state with its pwr replaced. -/
def State.setPwr (s : State) (v : PwrPart) : State := { s with pwr := v }
/-- The state with its sec replaced. -/
def State.setSec (s : State) (v : SecPart) : State := { s with sec := v }
/-- The state with its health replaced. -/
def State.setHealth (s : State) (v : HealthPart) : State := { s with health := v }
/-- The state with its outbox replaced. -/
def State.setOutbox (s : State) (v : List Out) : State := { s with outbox := v }
/-- The state with its fresh replaced. -/
def State.setFresh (s : State) (v : Nat) : State := { s with fresh := v }
/-- The state with its pending replaced. -/
def State.setPending (s : State) (v : List Instr) : State := { s with pending := v }

/-- What the module sends is added to the outbox. -/
def State.send (s : State) (o : Out) : State := s.setOutbox (o :: s.outbox)

/-- One more free value has been taken. -/
def State.useFree (s : State) : State := s.setFresh (s.fresh + 1)

/-! ### Small views -/

/-- A function's entry. -/
def State.fnSt (s : State) (f : Nat) : FnSt := s.fnp.fns.get {} f
def State.setFnSt (s : State) (f : Nat) (v : FnSt) : State := s.setFnp { s.fnp with fns := s.fnp.fns.set f v }
/-- A mailbox. -/
def State.mbox (s : State) (f : Nat) : Mailbox := s.keeper.mbox.get {} f
def State.setMbox (s : State) (f : Nat) (v : Mailbox) : State :=
  s.setKeeper { s.keeper with mbox := s.keeper.mbox.set f v }
/-- A stopwatch, in units of 10 ns (R330): tiles 0 to 3, hub 4. -/
def State.watch (s : State) (u : Nat) : Nat := s.pwr.watches.get 0 u
/-- Whether a function exists (R365). -/
def State.fnExists (s : State) (f : Nat) : Bool := f ≤ s.fnp.numVfs
/-- The module identifier from the straps (R405, R439). -/
def State.moduleId (s : State) : Nat := s.pwr.position
/-- Whether this module is the Lead (R405). -/
def State.isLead (s : State) : Bool := s.pwr.lead
/-- The identifiers PRESENT in the size table in force (R408). -/
def State.present (s : State) : List Nat :=
  match s.link.table with
  | none => []
  | some t => t.present.map (·.1)
/-- Whether the module is alone in its size table (R29, R353). -/
def State.alone (s : State) : Bool := s.present.length ≤ 1
/-- An array by tile and physical number. -/
def State.array (s : State) (t p : Nat) : ArraySt := s.arr.arrays.get {} (t * 84 + p)
def State.setArray (s : State) (t p : Nat) (v : ArraySt) : State :=
  s.setArr { s.arr with arrays := s.arr.arrays.set (t * 84 + p) v }
/-- The physical array of a logical one (R62). -/
def State.phys (s : State) (t a : Nat) : Nat := s.arr.map.get a (t * 80 + a)
/-- A gallery. -/
def State.gallery (s : State) (t g : Nat) : GallerySt := s.arr.gal.get {} (t * 10 + g)
def State.setGallery (s : State) (t g : Nat) (v : GallerySt) : State :=
  s.setArr { s.arr with gal := s.arr.gal.set (t * 10 + g) v }
/-- A Target engine. -/
def State.target (s : State) (t : Nat) : TargetSt := s.tgt.get {} t
def State.setTarget (s : State) (t : Nat) (v : TargetSt) : State := s.setTgt (s.tgt.set t v)
/-- A vector engine. -/
def State.vecEng (s : State) (t e : Nat) : VecSt := s.eng.vec.get {} (t * 8 + e)
def State.setVecEng (s : State) (t e : Nat) (v : VecSt) : State :=
  s.setEng { s.eng with vec := s.eng.vec.set (t * 8 + e) v }
/-- The active keys of a function on a tile (R175). -/
def State.keySt (s : State) (t f : Nat) : KeySt := s.eng.keys.get {} (t * 17 + f)
def State.setKeySt (s : State) (t f : Nat) (v : KeySt) : State :=
  s.setEng { s.eng with keys := s.eng.keys.set (t * 17 + f) v }
/-- A request. -/
def State.req? (s : State) (i : Nat) : Option Req := s.serve.reqs.find? i
def State.setReq (s : State) (i : Nat) (r : Req) : State := s.setServe { s.serve with reqs := s.serve.reqs.set i r }
/-- A tile group. -/
def State.group (s : State) (g : Nat) : GroupSt := s.serve.groups.get {} g
def State.setGroup (s : State) (g : Nat) (v : GroupSt) : State :=
  s.setServe { s.serve with groups := s.serve.groups.set g v }
/-- A port. -/
def State.port (s : State) (p : Nat) : Port := s.link.ports.get {} p
def State.setPort (s : State) (p : Nat) (v : Port) : State := s.setLink { s.link with ports := s.link.ports.set p v }
/-- A tile's power entry. -/
def State.tilePwr (s : State) (t : Nat) : TilePwr := s.pwr.tiles.get {} t
def State.setTilePwr (s : State) (t : Nat) (v : TilePwr) : State :=
  s.setPwr { s.pwr with tiles := s.pwr.tiles.set t v }
/-- A program. -/
def State.progAt (s : State) (h : Nat) : Option Prog := s.prog.progs.find? h
/-- A slot window (R77), and where it lies in a gallery that has not moved it yet. -/
def State.window (s : State) (f : Nat) : Window := s.prog.windows.get {} f
def State.windowIn (s : State) (t g f : Nat) : Window := ((s.gallery t g).moving.find? f).getD (s.window f)
/-- Whether the tile, memory and optics rails are lit (R434 event 6). -/
def State.ramped (s : State) : Bool :=
  match s.pwr.start with
  | .off | .waitToken | .fallback => false
  | _ => true
/-- Whether the engines are out of reset (R434 event 9). -/
def State.released (s : State) : Bool := s.pwr.start = .released || s.pwr.start = .opened
/-- Whether a command's program has faulted, or has a LEARN phase and no run (R80, R489). -/
def State.halted (s : State) (c : Src) : Bool :=
  match s.prog.progs.find? c.handle with
  | some p => p.state = .faulted || (p.state = .ready && p.img.learn)
  | none => false
/-- Whether a command of the program is not dispatched: its program has stopped, or has a LEARN phase and no run (R80, R489). -/
def State.stopped (s : State) (c : Src) : Bool :=
  s.halted c || (match s.prog.progs.find? c.handle with | some p => p.state = .completed | none => false)

/-- The stopwatch of unit u advances by n units of 10 ns (R330). -/
def State.advance (s : State) (u n : Nat) : State :=
  s.setPwr { s.pwr with watches := s.pwr.watches.set u (s.watch u + n) }
/-- A whole second of the hub stopwatch counts in OPTIME and in the operating seconds of each lit laser source (R468). -/
def State.second (s : State) : State :=
  if s.watch 4 % 100000000 = 0 then
    let lasers := ([0, 1] : List Nat).foldl (fun t i =>
      let x := t.get {} i
      if x.state ≤ 1 then t.set i { x with seconds := x.seconds + 1 } else t) s.link.lasers
    (s.setHealth { s.health with optime := s.health.optime + 1 }).setLink { s.link with lasers := lasers }
  else s
/-- Ten nanoseconds of an idle module: the stopwatch of every powered unit counts one (R330, R434). Log entry 9. -/
def State.tick (s : State) : State :=
  ((List.range 4).filter (fun t => (s.tilePwr t).lit)).foldl (fun s t => s.advance t 1)
    (if s.pwr.hubLit then (s.advance 4 1).second else s)

/-! ### MSI-X messages, causes and events (R313, R320, R321, R366, R367) -/

/-- A message on a vector: sent, made pending where the vector or the function is masked, withheld in D3hot (R473), dropped while the
function is fenced (R385) or absent. -/
def State.raise (s : State) (f v : Nat) : State :=
  let e := s.fnSt f
  if !s.fnExists f || e.resetting then s
  else if e.d3hot then s.setFnSt f { e with withheld := e.withheld ++ [v] }
  else
    let x := e.msix.get {} v
    if x.masked || e.fmask then s.setFnSt f { e with msix := e.msix.set v { x with pending := true } }
    else s.send (.msix f v x.addr x.data)

/-- A bit of MBX_CAUSE is set; the message of its vector goes out if it was clear (R367). -/
def State.setCause (s : State) (f bit v : Nat) : State :=
  let m := s.mbox f
  if m.cause.getLsbD bit then s
  else (s.setMbox f { m with cause := m.cause ||| BitVec.ofNat 6 (2 ^ bit) }).raise f v

/-- A bit of KPR_CAUSE is set (R329), on vector 3 of the physical function. -/
def State.setKprCause (s : State) (bit : Nat) : State :=
  if s.keeper.cause.getLsbD bit then s
  else (s.setKeeper { s.keeper with cause := s.keeper.cause ||| BitVec.ofNat 4 (2 ^ bit) }).raise 0 3

/-- The vector an event entry raises (R366). -/
def eventVector (e : Event) : Nat :=
  if e.code = 2 || e.code = 3 || e.code = 4 then 4
  else if e.code = 5 then 8 + leNat (e.data.take 2) % 56
  else if e.code = 6 then 5
  else if e.code = 0x0B then 6
  else if 0x100 ≤ e.code then 3
  else 1

/-- An event enters the ring, or is held while the ring is full; the 257th held event drops the oldest (R321). -/
def Mailbox.put (m : Mailbox) (e : Event) : Mailbox :=
  if (m.prod + 1) % 64 = m.cons then
    if m.held.length ≥ 256 then { m with held := m.held.tail ++ [e], lost := satAdd32 m.lost 1 }
    else { m with held := m.held ++ [e] }
  else { m with ring := m.ring.set m.prod e, prod := (m.prod + 1) % 64 }

/-- The Keeper writes an event entry to a function's ring and raises its vector (R320, R367); a dropped event sets
EVLOST (R321). A fenced function receives none (R385). -/
def State.deliver (s : State) (f : Nat) (e : Event) : State :=
  if !s.fnExists f || (s.fnSt f).resetting then s
  else
    let m := s.mbox f
    let m' := m.put e
    let s := s.setMbox f m'
    if (m.prod + 1) % 64 = m.cons then
      if m.held.length ≥ 256 then s.setCause f 4 2 else s
    else
      let s := s.setMbox f { s.mbox f with cause := m'.cause ||| 2 }
      s.raise f (eventVector e)

/-- The Keeper posts an event; while it restarts or has not opened the mailboxes, the event is owed (R335 event 7, R426). -/
def State.post (s : State) (f : Nat) (code seq : Nat) (data : List Byte) : State :=
  let e : Event := { code := code, fn := f, seq := seq, data := data }
  if s.keeper.kbusy || !s.keeper.isOpen then s.setKeeper { s.keeper with deferred := s.keeper.deferred ++ [e] }
  else s.deliver f e

/-- Work that needs the Keeper is owed while it restarts (R335 event 7, R336). -/
def State.owe (s : State) (i : Instr) : State := s.setKeeper { s.keeper with owed := s.keeper.owed ++ [i] }

/-- DATA of OP_DONE (R363): final code, opcode, then what the command states. -/
def opDoneData (code opcode : Nat) (more : List Byte) : List Byte :=
  leBytes 1 code ++ [0] ++ leBytes 2 opcode ++ (more ++ List.replicate 20 0).take 20

/-- OP_DONE of a long operation, which is then over (R341). -/
def State.opDone (s : State) (o : LongOp) (code : Nat) : State :=
  let s := s.setKeeper { s.keeper with ops := s.keeper.ops.filter (fun p => !(p.fn == o.fn && p.seq == o.seq && p.kind == o.kind)) }
  s.post o.fn.val 1 o.seq (opDoneData code o.opcode [])

/-- The long operation of a kind in progress, if any. -/
def State.findOp (s : State) (k : OpKind) : Option LongOp := s.keeper.ops.find? (fun o => o.kind == k)

/-- DATA of a health event (R363): tile, unit index, address, count. -/
def healthData (tile unit addr count : Nat) : List Byte :=
  leBytes 1 tile ++ [0, 0, 0] ++ leBytes 4 unit ++ leBytes 8 addr ++ leBytes 8 count

/-- The log entry of an event in the health record (R468): layout of R320 with OPTIME in bytes 4 to 7. -/
def logEntry (e : Event) (optime : Nat) : List Byte :=
  leBytes 2 e.code ++ leBytes 1 e.fn ++ [0] ++ leBytes 4 (optime % 2 ^ 32) ++ e.data

/-- The event log is circular, with 256 entries (R468). -/
def State.logHealth (s : State) (e : Event) : State :=
  let h := s.health
  s.setHealth { h with log := h.log.set h.loghead (logEntry e h.optime), loghead := (h.loghead + 1) % 256,
                       nlog := min 256 (h.nlog + 1) }

/-- Union of witness sets, kept rising without repeats. -/
def insertNat (n : Nat) : List Nat → List Nat
  | [] => [n]
  | k :: r => if n = k then k :: r else if n < k then n :: k :: r else k :: insertNat n r

def unionNat (xs ys : List Nat) : List Nat := xs.foldl (fun acc x => insertNat x acc) ys

/-- The position (x, y, z) of an identifier (R405). -/
def posOf (m : Nat) : Nat × Nat × Nat := (m % 16, m / 16 % 8, m / 128)
def idOf (x y z : Nat) : Nat := x + 16 * y + 128 * z

/-- The six neighbours of a module under a table (R392), without repeats and without itself. -/
def neighbours (t : SizeTable) (m : Nat) : List Nat :=
  let (x, y, z) := posOf m
  let ns := [idOf ((x + 1) % t.nx) y z, idOf ((x + t.nx - 1) % t.nx) y z, idOf x ((y + 1) % t.ny) z,
    idOf x ((y + t.ny - 1) % t.ny) z, idOf x y ((z + 1) % t.nz), idOf x y ((z + t.nz - 1) % t.nz)]
  (unionNat ns []).filter (fun n => n != m)

/-- Merging a report into fog entries by key (R419). -/
def fogMergeInto (es : List FogEntry) (code subject : Nat) (wit : List Nat) (cnt now : Nat) : List FogEntry :=
  if es.any (fun e => e.code == code && e.subject == subject) then
    es.map (fun e => if e.code == code && e.subject == subject then
      { e with witnesses := unionNat wit e.witnesses, count := e.count + cnt, mergedAt := now } else e)
  else es ++ [{ code := code, subject := subject, witnesses := unionNat wit [], count := cnt, openedAt := now, mergedAt := now, failed := false }]

/-- Whether the witnesses of a PEER_SILENT entry cover every distinct PRESENT neighbour of its subject (R416). -/
def fogFailed (t : SizeTable) (e : FogEntry) : Bool :=
  e.code == 0x114 && e.subject != 0x3FF &&
    let ns := (neighbours t e.subject).filter (fun n => t.present.has n)
    !ns.isEmpty && ns.all (fun n => e.witnesses.contains n)

/-- A fog report reaches a module: the Lead keeps at most 256 entries and counts what it drops (R420); another module
merges it and holds it 200 µs (R419). -/
def State.fogMerge (s : State) (code subject : Nat) (wit : List Nat) (cnt : Nat) : State :=
  let now := s.watch 4
  if s.isLead then
    let known := s.link.leadFog.any (fun e => e.code == code && e.subject == subject)
    if !known && s.link.leadFog.length ≥ 256 then s.setLink { s.link with fogDropped := s.link.fogDropped + 1 }
    else
      let es := fogMergeInto s.link.leadFog code subject wit cnt now
      let es := match s.link.table with
        | none => es
        | some t => es.map (fun e => if fogFailed t e then { e with failed := true } else e)
      s.setLink { s.link with leadFog := es }
  else s.setLink { s.link with fog := fogMergeInto s.link.fog code subject wit cnt now }

/-- A link health event is a fog report once per suppression window, then counted (R418). -/
def State.fogNote (s : State) (code subject : Nat) : State :=
  if s.link.windows.any (fun w => w.code == code && w.subject == subject) then
    s.setLink { s.link with windows := s.link.windows.map (fun w =>
      if w.code == code && w.subject == subject then { w with count := w.count + 1 } else w) }
  else
    let s := s.setLink { s.link with windows := s.link.windows ++ [{ code := code, subject := subject, count := 0 }] }
    s.fogMerge code subject [s.moduleId] 1

/-- A health event (R363): to the physical function with KPR_CAUSE.HEALTH, into the health record's log, a low pulse on
the FAULT copies in operation (R440), and a fog report for link events except LEAD_LOST (R418). -/
def State.healthEvent (s : State) (code tile unit addr count : Nat) : State :=
  let e : Event := { code := code, fn := 0, seq := 0, data := healthData tile unit addr count }
  let s := s.logHealth e
  let s := s.post 0 code 0 e.data
  let s := s.setKprCause 1
  let s := if s.pwr.meaning = .operation then s.send .faultPulse else s
  if 0x110 ≤ code && code ≤ 0x11F && code != 0x118 then s.fogNote code (addr % 1024) else s

/-! ### Completion codes (R316, R340) -/

def codeOk := 0x00
def codeAccepted := 0x01
def codeOpcode := 0x02
def codeDenied := 0x03
def codeLength := 0x04
def codeDescriptor := 0x05
def codeState := 0x06
def codeCapacity := 0x07
def codeRefused := 0x08
def codeSuperseded := 0x09
def codeIncomplete := 0x0A
def codeSignature := 0x20
def codeMismatch := 0x21
def codeCheck := 0x22
def codeCustomBusy := 0x23
def codeNoObject := 0x24
def codeField := 0x25
def codeNotLead := 0x26
def codeDataLost := 0x27

/-- Events 5 and 6 of R317: the response is written, STATE becomes DONE, CODE is set and DONE is raised. -/
def State.complete (s : State) (m : MCmd) (code : Nat) (resp : List Byte) : State :=
  let b := s.mbox m.fn.val
  (s.setMbox m.fn.val { b with seq := m.doorbell, state := .done, code := code, respSeq := m.seq, respCode := code, resp := resp }).setCause m.fn.val 0 0

/-- A command accepted as a long operation (R319, R341). -/
def State.accept (s : State) (m : MCmd) (k : OpKind) (opcode : Nat) : State :=
  let o : LongOp := { kind := k, fn := m.fn, seq := m.seq, opcode := opcode, payload := m.payload }
  (s.setKeeper { s.keeper with ops := s.keeper.ops ++ [o] }).complete m codeAccepted []

/-! ### Payload fields and descriptors (R314, R323, R324, R486) -/

/-- A little-endian field of n bytes at offset o of a payload. -/
def fieldAt (p : List Byte) (o n : Nat) : Nat := leNat ((p.drop o).take n)

/-- Whether every byte of a payload's fixed part outside the named fields (offset, length) is zero (R486). -/
def reservedZero (p : List Byte) (fixed : Nat) (named : List (Nat × Nat)) : Bool :=
  (List.range fixed).all (fun i =>
    named.any (fun (o, n) => decide (o ≤ i) && decide (i < o + n)) || (p.getD i 0) == 0)

/-- A descriptor (R323). -/
structure Desc where
  addr : Nat
  len : Nat
  last : Bool
  isList : Bool
  space : Nat
  out : Bool
  reserved : Nat
deriving DecidableEq, Repr

/-- The descriptor in 16 bytes. -/
def descOf (b : List Byte) : Desc :=
  let w := fieldAt b 12 4
  { addr := fieldAt b 0 8, len := fieldAt b 8 4, last := bitOf w 31, isList := bitOf w 30, space := bitsOf w 29 28,
    out := bitOf w 27, reserved := bitsOf w 26 0 }

/-- n descriptors from offset o of a payload. -/
def descsAt (p : List Byte) (o n : Nat) : List Desc := (List.range n).map (fun i => descOf ((p.drop (o + 16 * i)).take 16))

/-- One extent of memory a descriptor names. -/
abbrev Extent := Nat × Nat × Nat

/-- The entries of the list a LIST descriptor names. -/
def listEntries (bs : List Byte) (d : Desc) : List Desc := descsAt bs 0 (d.len / 16)

/-- Descriptors with the entries of their lists, in order. -/
def withLists : List Desc → List (List Byte) → List (Desc × List Desc)
  | [], _ => []
  | d :: ds, ls => if d.isList then (d, listEntries (ls.headD []) d) :: withLists ds ls.tail else (d, []) :: withLists ds ls

/-- The extents of each descriptor, its list's entries in place of a LIST descriptor. -/
def extentsOf (x : Desc × List Desc) : List Extent :=
  if x.1.isList then x.2.map (fun d => (d.space, d.addr, d.len)) else [(x.1.space, x.1.addr, x.1.len)]

/-- The conditions of R324 on one extent. -/
def extentOk (s : State) (out : Bool) (d : Desc) : Bool :=
  d.addr % 4 == 0 && decide (1 ≤ d.len) && d.reserved == 0 && decide (d.space ≤ 1) && d.out == out &&
    (d.space == 0 || decide (d.addr + d.len ≤ s.tier.windowSize * 2 ^ 30))

/-- R324 on the descriptors of a command; outs gives each one's OUT bit. -/
def descsOk (s : State) (m : MCmd) (ds : List Desc) (outs : List Bool) : Bool :=
  let xs := withLists ds m.lists
  m.iommu && ds.length == outs.length &&
    (ds.zipIdx.all (fun (d, i) => d.last == (i + 1 == ds.length))) &&
    ((xs.zip outs).all (fun (x, out) =>
      if x.1.isList then
        x.1.addr % 4 == 0 && x.1.reserved == 0 && decide (x.1.space ≤ 1) && !x.1.out && x.1.len % 16 == 0 &&
          decide (1 ≤ x.1.len) && decide (x.1.len / 16 ≤ 4096) && x.2.all (fun d => !d.isList && !d.last && extentOk s out d)
      else extentOk s out x.1)) &&
    decide (((xs.flatMap extentsOf).map (fun e => e.2.2)).sum ≤ 2304 * 2 ^ 30)

/-- Bytes written over extents in order: host memory, or the CXL.mem window in the far tier (R283, R323). -/
def State.writeOut (s : State) : List Extent → List Byte → State
  | [], _ => s
  | (space, a, n) :: es, bs =>
    let here := bs.take n
    let s := if space = 0 then s.setHostMem (Mem.writeN s.hostMem a here)
      else s.setMem (Mem.writeN s.mem (0x20000000000 + s.tier.windowBase * 2 ^ 30 + a) here)
    if bs.length ≤ n then s else State.writeOut s es (bs.drop n)

/-- The extents of the i-th descriptor of a command. -/
def cmdExtents (m : MCmd) (ds : List Desc) (i : Nat) : List Extent :=
  match (withLists ds m.lists)[i]? with
  | some x => extentsOf x
  | none => []

def extentBytes (es : List Extent) : Nat := (es.map (fun e => e.2.2)).sum

/-! ### Intake (R310, R317, R318, R335, R338, R339, R459, R473) -/

/-- Whether a listed opcode may be taken in recovery mode (R459). -/
def recoveryOpcode (op : Nat) : Bool := op == 0x000 || op == 0x001 || op == 0x601 || op == 0x602

/-- The intake of a mailbox command at its doorbell: fenced, powered-down and unopened mailboxes ignore it; KBUSY
latches it; RUNNING ignores it with DBERR; then SEQ, permission and lengths are judged, in that order (R318, R486). -/
def State.intake (s : State) (i : Instr) (m : MCmd) (opcode : Nat) (pfOnly lenOk : Bool) (body : State → State) : State :=
  let f := m.fn.val
  let b := s.mbox f
  if !s.fnExists f || (s.fnSt f).resetting || (s.fnSt f).d3hot || !s.keeper.isOpen then s
  else if s.keeper.kbusy || (s.keeper.recovery && f != 0) then
    if b.dbpend then s.setCause f 2 2 else s.setMbox f { b with dbpend := true, latched := some i }
  else if b.state = .running then s.setCause f 2 2
  else if m.doorbell != m.seq then s.complete m codeLength []
  else if s.keeper.recovery && !recoveryOpcode opcode then s.complete m codeState []
  else if pfOnly && f != 0 then s.complete m codeDenied []
  else if !lenOk then s.complete m codeLength []
  else body s

/-- LEN and NDESC of an opcode with fixed bytes and nd descriptors (R486). -/
def lenIs (m : MCmd) (fixed nd : Nat) : Bool := m.len == fixed + 16 * nd && m.ndesc == nd && m.payload.length == m.len

/-! ### Spare operations used by many chapters -/

/-- The numeric streams of a drain unit. -/
def State.drnStat (s : State) (t p : Nat) : NumStat := s.arr.drn.get {} (t * 84 + p)
def State.setDrnStat (s : State) (t p : Nat) (v : NumStat) : State :=
  s.setArr { s.arr with drn := s.arr.drn.set (t * 84 + p) v }

/-- The sum of two streams' counts and the union of their flags. -/
def NumStat.join (a b : NumStat) : NumStat :=
  { ovf := a.ovf || b.ovf, unf := a.unf || b.unf, nan := a.nan || b.nan, sat := a.sat || b.sat,
    vanished := satAdd32 a.vanished b.vanished, clipped := satAdd32 a.clipped b.clipped, satcnt := satAdd32 a.satcnt b.satcnt }

/-- A stopped program's leases are released with their contents discarded, and its waiting operations leave (R113). -/
def ArraySt.dropProgram (a : ArraySt) (handle : Nat) : ArraySt :=
  let gone := (a.leases.filter (fun l => l.handle == handle)).flatMap (fun l => (List.range l.foot).map (l.first + ·))
  { a with leases := a.leases.filter (fun l => l.handle != handle),
           waiting := a.waiting.filter (fun w => w.src.handle != handle),
           owners := gone.foldl (fun o k => o.set k { first := 32, shape := .s32x32, comp := false }) a.owners }

/-- Whether any drained tile of an array still waits on the drain bus or on its path to a pack engine (R92). -/
def State.drainBusy (s : State) (t a : Nat) : Bool :=
  (s.arr.bus.get [] t).any (fun b => b.array == a) ||
    (s.eng.packWait.get [] (t * 2 + a / 8 % 2)).any (fun b => b.array == a)

/-- The commit group CUST of a tile (R115). -/
def State.custSt (s : State) (t : Nat) : CustSt := s.arr.cust.get {} t
def State.setCust (s : State) (t : Nat) (v : CustSt) : State := s.setArr { s.arr with cust := s.arr.cust.set t v }

/-- Whether an array's drain unit is inside a command: a drain on its way, held for a replay, or stopped. -/
def State.unitBusy (s : State) (t a : Nat) : Bool :=
  s.drainBusy t a || (s.array t (s.phys t a)).leases.any (fun l => l.held.isSome || l.part.isSome)

/-- PENDING falls once every drain unit of the tile has passed a command boundary since COMMIT or is idle (R115). -/
def State.custSettle (s : State) (t : Nat) : State :=
  let c := s.custSt t
  let units := c.units.filter (s.unitBusy t)
  if c.pending then s.setCust t { c with units := units, pending := !units.isEmpty } else s

/-! ### Waits at a Target engine (R130, R131, R134) -/

/-- TMODE of a tile on the drain bus (R111). -/
def BusTile.tmode (b : BusTile) : Nat := (b.words.getD 15 0).toNat / 2 ^ 30

/-- Stopwatch time since a wait was last counted, added to its counter. -/
def waited (on : Bool) (now from_ count : Nat) : Nat := if on then satAdd32 count (now - from_) else count

/-- Whether SCORE is stalled: by a TEACHER tile, or by a record that waits to be forwarded here (R134; DEDUCED, log entry 63). -/
def TargetSt.stalled (e : TargetSt) : Bool := e.full || !e.fwds.isEmpty

/-- The waits are counted up to now. -/
def TargetSt.catchUp (e : TargetSt) (now : Nat) : TargetSt :=
  { e with scoreStall := waited e.stalled now e.stallFrom e.scoreStall, stallFrom := now,
           learnWait := waited e.waiting now e.waitFrom e.learnWait, waitFrom := now }

/-- FULL and WAITING follow the tiles that wait on the drain bus under R130 and R131. -/
def State.settleWaits (s : State) (t : Nat) : State :=
  let e := s.target t
  let waits (m : Nat) : Bool := (s.arr.bus.get [] t).any (fun b => b.since.isSome && b.tmode == m)
  if e.full == waits 0 && e.waiting == waits 1 then s
  else s.setTarget t { e.catchUp (s.watch t) with full := waits 0, waiting := waits 1 }

/-- Whether an engine is inside a command: a vector engine with a chain stopped at a beat, the sampler engine (8) with an open position. -/
def State.keyUser (s : State) (t n : Nat) : Bool :=
  if n < 8 then !(s.vecEng t n).parts.isEmpty else !(s.serve.samp.get {} t).open_.isEmpty

/-- PENDING of VXE_KEY_COMMIT falls once every engine of the tile has passed a command boundary since COMMIT or is idle (R175). -/
def State.keysSettle (s : State) (t : Nat) : State :=
  (List.range 17).foldl (fun s f =>
    let k := s.keySt t f
    let units := k.units.filter (s.keyUser t)
    if k.pending then s.setKeySt t f { k with units := units, pending := !units.isEmpty } else s) s

/-- The work of a stopped program leaves the engines: leases and waiting operations (R113), in the arrays and in saved windows,
tiles on the drain buses and on the paths to the pack engines, open SAVE_DRAINs, stopped CHAINs and UPDATEs, gradient tiles with their
takers and share ports. -/
def State.dropWork (s : State) (h : Nat) : State :=
  let arrays := s.arr.arrays.map (fun (k, a) => (k, a.dropProgram h))
  let saved := s.arr.saved.map (fun (k, a) => (k, a.dropProgram h))
  let bus := s.arr.bus.map (fun (k, b) => (k, b.filter (fun x => x.src.handle != h)))
  let other (k : Nat) : Bool := k / 1024 != h
  let gal := s.arr.gal.map (fun (k, g) => (k, { g with
    takers := g.takers.filter (fun x => x.handle != h), delivery := g.delivery.filter (fun x => x.handle != h),
    share := List.filter (fun (e : Nat × List GradTile) => other e.1) g.share,
    taker := List.filter (fun (e : Nat × Nat) => other e.1) g.taker }))
  let saves := s.eng.saves.map (fun (k, o) => (k, o.filter (fun x => x.src.handle != h)))
  let waits := s.eng.packWait.map (fun (k, o) => (k, o.filter (fun x => x.src.handle != h)))
  let vec := s.eng.vec.map (fun (k, v) => (k, { v with
    parts := List.filter (fun (e : Nat × ChainPart) => e.2.src.handle != h) v.parts, upds := v.upds.filter (fun x => x.src.handle != h) }))
  let eng := { s.eng with saves := saves, packWait := waits, vec := vec }
  let s := (s.setArr { s.arr with arrays := arrays, saved := saved, bus := bus, gal := gal }).setEng eng
  (List.range 4).foldl (fun s t => ((s.custSettle t).settleWaits t).keysSettle t) s

/-! ### The commands of a program's queues (R7, R177, R178, R489) -/

/-- A queue's code as R350 gives it; drains share their gallery's queue. -/
def queueCode (tile kind num : Nat) : Nat := tile * 256 + (if kind = 1 then 0 else kind) * 16 + num
def qcode (q : ProgQueue) : Nat := queueCode q.tile q.kind q.num

/-- A command of a queue as one number. -/
def cmdKey (k index : Nat) : Nat := k * 2 ^ 20 + index

/-- The phase a command counts under; a program that neither learns nor serves has none. -/
def Prog.phaseOf (p : Prog) (c : EngCmd) : Nat := if p.img.learn || p.img.serving.isSome then c.phase else 0

/-- Whether a command of a queue is an UPDATE, whose order is that of its gates (R229, R234). -/
def isUpdate (k : Nat) (c : EngCmd) : Bool := k / 16 % 16 == 2 && k / 256 < 4 && (c.words.getD 0 0).toNat / 2 ^ 28 == 3

/-- The commands of an image with their keys. -/
def keyedCmds (m : ProgImage) : List (Nat × EngCmd) :=
  m.queues.flatMap (fun q => q.cmds.zipIdx.map (fun (c, i) => (cmdKey (qcode q) i, c)))

/-- The command an image holds at a place of a queue. -/
def cmdAt (m : ProgImage) (k index : Nat) : Option EngCmd :=
  (m.queues.filter (fun q => qcode q == k)).findSome? (fun q => q.cmds[index]?)

/-- Whether a command is its function's next on its queue (R177): the first of its phase from where the queue stands, starting over at
the end where the program repeats (log entry 57). -/
def Prog.isNext (p : Prog) (k index : Nat) (c : EngCmd) : Bool :=
  let ph := p.phaseOf c
  let places := ((p.img.queues.filter (fun q => qcode q == k)).flatMap (fun q => q.cmds.zipIdx)).filter (fun (x, _) =>
    p.phaseOf x == ph && !isUpdate k x)
  let from_ := p.next.get 0 (k * 8 + ph)
  isUpdate k c || (match (places.map (·.2)).find? (fun i => decide (from_ ≤ i)) with
    | some i => i == index
    | none => (p.img.learn || p.img.serving.isSome) && (places.head?.map (·.2)) == some index)

/-- Whether every producer of a command's hold points has completed in this round (R178). idle: the module takes no part in SCORE or LEARN,
whose commands nothing waits for then (R412). -/
def Prog.holdsMet (p : Prog) (k index : Nat) (idle : Bool) : Bool :=
  let n := p.taken.get 0 (cmdKey k index)
  let skipped (q i : Nat) : Bool := idle && (match cmdAt p.img q i with | some c => c.phase == 1 || c.phase == 2 | none => false)
  (p.img.holds.filter (fun h => h.consumer == (k, index))).all (fun h =>
    h.producers.all (fun (q, i) => skipped q i || decide (n < p.dones.get 0 (cmdKey q i))))

/-- Whether round n of the reshards into a phase has been delivered to a tile (R26). -/
def Prog.arrived (p : Prog) (ph tile n : Nat) : Bool :=
  p.img.reshards.all (fun d => d.phase != ph || !d.tiles.any (fun t => t.val == tile) || decide (n < p.delivered.get 0 (d.index * 4 + tile)))

/-- Whether every command of a phase has completed n times. -/
def Prog.phaseDone (p : Prog) (ph n : Nat) : Bool :=
  (keyedCmds p.img).all (fun (k, c) => c.phase != ph || decide (n ≤ p.dones.get 0 k))
def Prog.hasPhase (p : Prog) (ph : Nat) : Bool := (keyedCmds p.img).any (fun (_, c) => c.phase == ph)

/-- Whether the SCORE or the LEARN span group of a module, along X, contains a hole of a table (R411, R412). -/
def SizeTable.idles (t : SizeTable) (m : Nat) : Bool :=
  let (x, y, z) := posOf m
  [max 1 t.sspan, max 1 t.lspan].any (fun n => (List.range n).any (fun k =>
    let x' := x / n * n + k
    decide (x' < t.nx) && !t.present.has (idOf x' y z)))

/-- Whether this module takes no part in SCORE or LEARN, for a hole in its span group (R412). -/
def State.spanIdle (s : State) : Bool := match s.link.table with | some t => t.idles s.moduleId | none => false

/-- Whether the phase of a command is open on its tile for round n (R22, R24 to R26, R29): SCORE scores at most one batch ahead of the
update where the program is pipelined, LEARN follows the SCORE of its batch, and the commands of a serving step run while it is formed. -/
def State.phaseOpen (s : State) (p : Prog) (h : Nat) (c : EngCmd) (tile n : Nat) : Bool :=
  if p.img.serving.isSome && c.phase == 0 then
    List.any s.serve.groups (fun e => e.2.prog == h && e.2.plan.isSome)
  else if !p.img.learn then true
  else if (c.phase = 1 || c.phase = 2) && s.spanIdle then false
  else if c.phase = 1 then p.arrived 1 tile n && decide (n ≤ p.rounds + b2n (p.img.pipelined != 0)) && (n == 0 || p.phaseDone 1 n)
  else if c.phase = 2 then p.arrived 2 tile n && decide (n ≤ p.rounds) && p.phaseDone 1 (n + 1)
  else true

/-- Whether a command of the Keeper's own (handle 0, log entry 57), or of an admitted program's queue, may start (R7, R177, R178): the
image holds it there, it is the next of its queue, its producers have completed and its phase is open, or it runs again to recompute what was
lost (R194). same tells whether the image's
command is the one given. -/
def State.ready (s : State) (c : Src) (k : Nat) (same : EngCmd → Bool) : Bool :=
  if c.handle = 0 then c.fn == 0
  else
    match s.progAt c.handle with
    | none => false
    | some p =>
      match cmdAt p.img k c.index with
      | none => false
      | some e =>
        (p.fn == c.fn || (p.img.serving.isSome && c.fn == 0)) && !p.heldQs.contains k && same e && (p.redo.contains (k, c.index) ||
          (p.isNext k c.index e && p.holdsMet k c.index s.spanIdle && s.phaseOpen p c.handle e (k / 256) (p.taken.get 0 (cmdKey k c.index))))

/-- A queue's command with the words and the extension given. -/
def EngCmd.is (ws ext : List Word) (e : EngCmd) : Bool := e.words == ws && e.ext == ext

/-! ### Turns (R370, R376, R381, R382) -/

/-- An engine's scheduling entry, by the code of its queue. -/
def State.engSched (s : State) (k : Nat) : EngSched := s.sched.engines.get {} k
def State.setEngSched (s : State) (k : Nat) (v : EngSched) : State := s.setSched { s.sched with engines := s.sched.engines.set k v }

/-- The SCHED fields of a function an engine acts on. -/
def State.schedFn (s : State) (k f : Nat) : SchedFn := ((s.engSched k).group.getD s.sched.active).get {} f

/-- Whether an engine may run a function's command now: the function is not suspended there, and the turn is its own or the
engine is idle. -/
def State.turnOpen (s : State) (c : Src) (tile kind num : Nat) : Bool :=
  let k := queueCode tile kind num
  !(s.schedFn k c.fn.val).suspend && (match (s.engSched k).current with | none => true | some f => f == c.fn.val)

/-- A function's turn starts: it lasts SLICE less the deficit, which returns to 0. -/
def State.startTurn (s : State) (k f : Nat) : State :=
  let e := s.engSched k
  let slice := (s.sched.active.get {} f).slice * 100
  s.setEngSched k { e with last := f, current := some f, length := slice - e.deficit.get 0 f % slice, deficit := e.deficit.set f 0, group := none }

/-- An idle engine that runs a command starts its function's turn. -/
def State.serveTurn (s : State) (c : Src) (tile kind num : Nat) : State :=
  let k := queueCode tile kind num
  if (s.engSched k).current.isNone then s.startTurn k c.fn.val else s

/-! ### The end of a program's commands -/

/-- Whether a program still has work in an array, on a drain bus, on a path to a pack engine or in an open SAVE_DRAIN. -/
def State.working (s : State) (h : Nat) : Bool :=
  List.any (s.arr.arrays ++ s.arr.saved) (fun e => e.2.waiting.any (fun w => w.src.handle == h) ||
    e.2.leases.any (fun l => l.handle == h && (l.held.isSome || l.part.isSome))) ||
  List.any s.arr.bus (fun e => e.2.any (fun x => x.src.handle == h)) ||
  List.any s.eng.packWait (fun e => e.2.any (fun x => x.src.handle == h)) ||
  List.any s.eng.saves (fun e => e.2.any (fun x => x.src.handle == h)) ||
  List.any s.eng.vec (fun e => List.any e.2.parts (fun x => x.2.src.handle == h) || e.2.upds.any (fun x => x.src.handle == h))

/-- A phase begins on the hub stopwatch, or ends and adds its duration (R30). -/
def Phase.code : Phase → Nat
  | .rollout => 0
  | .score => 1
  | .learn => 2
  | .update => 3
  | .snapshot => 4
def State.phaseStart (s : State) (p : Phase) : State :=
  if s.run.phaseOn.any (fun x => x.1 == p) then s else s.setRun { s.run with phaseOn := s.run.phaseOn ++ [(p, s.watch 4)] }
def State.phaseStop (s : State) (p : Phase) : State :=
  match s.run.phaseOn.find? (fun x => x.1 == p) with
  | none => s
  | some (_, at_) =>
    let on := s.run.phaseOn.filter (fun x => x.1 != p)
    s.setRun { s.run with phaseOn := on, phaseTime := s.run.phaseTime.upd 0 p.code (· + (s.watch 4 - at_)) }

/-- SCORE ends when its commands have completed for every batch it may score in the step, LEARN begins when the SCORE of its batch is
complete and a tile has its rollouts, and ends with its last command (R29 events 5 to 9, R30). -/
def State.settlePhases (s : State) : State :=
  match s.progAt s.run.prog with
  | none => s
  | some p =>
    if !s.run.active || !p.img.learn then s
    else
      let n := p.rounds
      let s := if p.hasPhase 1 && p.phaseDone 1 (n + 1 + b2n (p.img.pipelined != 0)) then s.phaseStop .score else s
      let here := (List.range 4).any (fun t => p.arrived 2 t n)
      let learnt := p.hasPhase 2 && p.phaseDone 2 (n + 1)
      if learnt then s.phaseStop .learn
      else if here && p.hasPhase 1 && p.phaseDone 1 (n + 1) && !s.run.reported then s.phaseStart .learn else s

/-- A program that runs once is COMPLETED once the last command of each of its queues has been taken and none is at work. -/
def State.settleProg (s : State) (h : Nat) : State :=
  match s.prog.progs.find? h with
  | none => s
  | some p =>
    if p.state = .running && !p.img.learn && p.img.serving.isNone && !s.working h &&
        p.img.queues.all (fun q => q.cmds.isEmpty || p.ended.contains (qcode q)) then
      s.setProg { s.prog with progs := s.prog.progs.set h { p with state := .completed } }
    else s

/-- An engine has taken a program's command: its queue moves on, and has ended with its last command. -/
def State.took (s : State) (c : Src) (tile kind num : Nat) : State :=
  let s := s.serveTurn c tile kind num
  match s.prog.progs.find? c.handle with
  | none => s
  | some p =>
    let k := queueCode tile kind num
    if p.redo.contains (k, c.index) then s else
    let next := match cmdAt p.img k c.index with
      | some e => if isUpdate k e then p.next else p.next.set (k * 8 + p.phaseOf e) (c.index + 1)
      | none => p.next
    let last := p.state = .running && p.img.queues.any (fun q => qcode q == k && q.cmds.length == c.index + 1)
    s.setProg { s.prog with progs := s.prog.progs.set c.handle { p with
      next := next, taken := p.taken.upd 0 (cmdKey k c.index) (· + 1), ended := if last then insertNat k p.ended else p.ended } }

/-- A command of a queue has completed (R178). -/
def State.cmdDone (s : State) (c : Src) (tile kind num : Nat) : State :=
  match s.prog.progs.find? c.handle with
  | none => s
  | some p =>
    let k := queueCode tile kind num
    let p := if p.redo.contains (k, c.index) then { p with redo := p.redo.filter (fun x => x != (k, c.index)) }
      else { p with dones := p.dones.upd 0 (cmdKey k c.index) (· + 1) }
    ((s.setProg { s.prog with progs := s.prog.progs.set c.handle p }).settlePhases).settleProg c.handle

/-- An engine has taken a command and completed it. -/
def State.finish (s : State) (c : Src) (tile kind num : Nat) : State := (s.took c tile kind num).cmdDone c tile kind num

/-- A command completes with POISON (R85, R113). -/
def State.poison (s : State) (c : Src) (tile kind num : Nat) : State :=
  match s.prog.progs.find? c.handle with
  | none => s
  | some p =>
    let x := (queueCode tile kind num, c.index)
    s.setProg { s.prog with progs := s.prog.progs.set c.handle { p with poisoned := p.poisoned ++ [x] } }

/-- A program stands at its first command again, none of its commands taken (R353, R489). -/
def Prog.fromStart (p : Prog) : Prog := { p with ended := [], next := [], taken := [], dones := [], rounds := 0, delivered := [], poisoned := [], redo := [], heldQs := [] }

/-- A program whose UPDATE commands count as taken and done n times. -/
def Prog.levelUpdates (p : Prog) (n : Nat) : Prog :=
  let ups := (p.img.queues.flatMap (fun q => q.cmds.zipIdx.map (fun (c, i) => (qcode q, i, c)))).filter (fun (k, _, c) => isUpdate k c)
  let lev (t : Tab Nat) : Tab Nat := ups.foldl (fun t (k, i, _) => t.set (cmdKey k i) n) t
  { p with taken := lev p.taken, dones := lev p.dones }

/-- An update boundary passes for a program: its UPDATE commands count as taken and done in the step, whether they ran or not. -/
def Prog.nextRound (p : Prog) : Prog := { p.levelUpdates (p.rounds + 1) with rounds := p.rounds + 1 }

/-- The rest of a program stops and it is marked FAULTED (R80, R353). A run's program on a single module skips the step and stops the run
with reason FAULT; in a cascade the module sends nothing further for the step. -/
def State.faultStop (s : State) (h : Nat) : State :=
  match s.prog.progs.find? h with
  | none => s
  | some p =>
    let s := s.setProg { s.prog with progs := s.prog.progs.set h { p with state := .faulted, heldQs := [] } }
    let s := s.dropWork h
    if s.run.active && s.run.prog == h then
      if s.alone then s.setRun { s.run with stop := some .fault }
      else s.setRun { s.run with reported := true, silent := true }
    else s

/-- A program's queue is held in hardware (R336); a gallery's drains share its queue. -/
def State.holdQueue (s : State) (h tile kind num : Nat) : State :=
  match s.prog.progs.find? h with
  | none => s
  | some p =>
    let k := if kind ≤ 1 then queueCode tile 0 (num / 8) else queueCode tile kind num
    s.setProg { s.prog with progs := s.prog.progs.set h { p with heldQs := insertNat k p.heldQs } }

/-- A command completes with a fault code: PROGRAM_FAULT goes to the owner and to the physical function, and the program stops. While
the Keeper restarts the command's queue is held, and the rest of the program stops after event 8 (R336). -/
def State.programFault (s : State) (c : Src) (code tile kind num : Nat) : State :=
  let data := leBytes 1 code ++ leBytes 1 tile ++ leBytes 1 kind ++ leBytes 1 num ++ leBytes 4 c.index ++ leBytes 2 c.handle ++ List.replicate 14 0
  let s := s.post c.fn.val 6 0 data
  let s := if c.fn.val = 0 then s else s.post 0 6 0 data
  if s.keeper.kbusy then s.holdQueue c.handle tile kind num else s.faultStop c.handle

end Sys2Proof.Machine
end

