-- ==== Sys2Proof/Machine/Arbiter.lean ====
section
/-! DEFINITION. The arbiters (R295 to R304): rounds, break points, the commit group PRI and FREEZE. -/
namespace Sys2Proof.Machine

/-- An arbiter instance. -/
def State.arbAt (s : State) (n : Nat) : Arb := s.arb.get {} n
def State.setArbAt (s : State) (n : Nat) (a : Arb) : State := s.setArb (s.arb.set n a)

/-- A requester slot. -/
def Arb.req (a : Arb) (i : Nat) : ArbReq := a.reqs.get {} i
def Arb.setReq (a : Arb) (i : Nat) (r : ArbReq) : Arb := { a with reqs := a.reqs.set i r }

/-! ### Instances and slots (R279, R295) -/

/-- How many requester slots of an instance have a requester: bank groups, far carriers, Widun ports, the CXL interface. -/
def slotCount (n : Nat) : Nat := if n < 32 then 42 else if n < 36 then 8 else if n < 42 then 6 else 7

/-- The tile whose bridge asks at a slot, where one does. -/
def bridgeTile (n i : Nat) : Option Nat :=
  if n < 32 then none
  else if n < 36 || n = 42 then (if i < 4 then some i else none)
  else if 1 ≤ i && i ≤ 4 then some (i - 1) else none

/-- The arbiter instance of a scratchpad offset on a tile: bits [11:9] select the bank group (R279). -/
def bankGroupArb (t offset : Nat) : Nat := t * 8 + offset / 512 % 8

/-- The unit after which a grant of an instance may be taken away, in bytes where it has a fixed length (R295): a link packet has none. -/
def breakUnit (n : Nat) : Option Nat := if n < 32 then some 512 else if n < 36 then some 2048 else if n = 42 then some 256 else none

/-- Whether a slot's request for a function is masked (R299): the function is under reset, or the requester is in reset or powered down,
as a gated gallery's ports and an unlit tile's engines and bridge are. -/
def State.slotMasked (s : State) (n i f : Nat) : Bool :=
  (s.fnSt f).resetting || !s.released ||
    (if n < 32 then !(s.tilePwr (n / 8)).lit || (decide (i < 20) && (s.gallery (n / 8) (i % 10)).gated)
     else match bridgeTile n i with
      | some t => !(s.tilePwr t).lit
      | none => false)

/-- The base priority of a slot: migration's on a far carrier stays 0 (R284). -/
def slotBase (n i b : Nat) : Nat := if 32 ≤ n && n < 36 && i = 7 then 0 else b

/-! ### Rounds -/

/-- A committed group takes effect at the next round; a current priority above its new base stays until the requester is next
granted (R303), one below it rises to it (DEDUCED, log entry 23). -/
def Arb.applyPri (n : Nat) (a : Arb) : Arb :=
  match a.pending with
  | none => a
  | some (lim, bases) =>
    let a := (List.range 48).foldl (fun a i =>
      let r := a.req i
      let b := slotBase n i (bases.getD i 0)
      if b = r.base then a
      else a.setReq i { r with base := b, cur := max r.cur b }) a
    { a with starveLim := lim, pending := none }

/-- The requests a round sees: slots that ask, with their functions; masked ones do not wait and lose their count (R299). -/
def Arb.present (a : Arb) (reqs : List (Nat × Nat)) (masked : List Nat) : Arb :=
  (List.range 48).foldl (fun a i =>
    let r := a.req i
    match reqs.find? (fun x => x.1 == i) with
    | some (_, f) =>
      if masked.contains i then a.setReq i { r with waiting := false, masked := true, lost := 0, fn := f }
      else a.setReq i { r with waiting := true, masked := false, fn := f }
    | none =>
      if r.waiting || r.masked then
        (if masked.contains i then a.setReq i { r with waiting := false, masked := true, lost := 0 }
         else if r.masked then a.setReq i { r with waiting := true, masked := false } else a)
      else a) a

/-- The slots that wait, in the order of turns after the last granted slot (R296). -/
def Arb.waiters (a : Arb) : List Nat :=
  ((List.range 48).map (fun k => (a.owner + 1 + k) % 48)).filter (fun i => (a.req i).waiting)

/-- The slot a round grants: the highest current priority, the first after the last granted slot among equals (R296). -/
def Arb.choose (a : Arb) : Option Nat :=
  match a.waiters with
  | [] => none
  | i :: r => some (r.foldl (fun b x => if (a.req b).cur < (a.req x).cur then x else b) i)

/-- A round (R296, R300): the winner returns to its base priority, the losers age, and a lost count at STARVE_LIM sets STARVED.
The second part says whether a bit was set. Without a waiting requester no round begins, and a committed group stays PENDING (R303). -/
def Arb.round (n : Nat) (a : Arb) : Arb × Bool :=
  match (Arb.applyPri n a).choose with
  | none => (a, false)
  | some w =>
    let a := Arb.applyPri n a
    let losers := a.waiters.filter (fun i => i != w)
    let (a, hit) := losers.foldl (fun (x : Arb × Bool) i =>
      let r := x.1.req i
      let lost := min 8191 (r.lost + 1)
      let starve := a.starveLim != 0 && decide (a.starveLim ≤ lost)
      (x.1.setReq i { r with cur := min 15 (r.cur + 1), lost := lost, starved := r.starved || starve }, x.2 || (starve && !r.starved))) (a, false)
    let r := a.req w
    ({ a.setReq w { r with cur := r.base, lost := 0, waiting := false } with held := true, owner := w, ownerFn := r.fn }, hit)

/-- ARB_STARVE is raised where a round set a STARVED bit (R300). -/
def State.endRound (s : State) (n : Nat) (x : Arb × Bool) : State :=
  let s := s.setArbAt n x.1
  if x.2 then s.setKprCause 0 else s

/-- An arbiter as a round finds it: the owner may have dropped its request, slots with a requester ask for functions, and requests are
masked by their sideband signal or by R299. -/
def State.arbAsked (s : State) (n : Nat) (dropped : Bool) (reqs : List (Nat × Nat)) (masked : List Nat) : Arb :=
  let a := s.arbAt n
  let a := if dropped then { a with held := false } else a
  let reqs := reqs.filter (fun x => decide (x.1 < slotCount n))
  let fn (i : Nat) : Nat := ((reqs.find? (fun x => x.1 == i)).map (·.2)).getD (a.req i).fn
  a.present reqs (masked ++ (List.range (slotCount n)).filter (fun i => s.slotMasked n i (fn i)))

/-- A round, unless a grant is held or the arbiter is frozen (R296, R298). -/
def State.arbSettle (s : State) (n : Nat) (a : Arb) : State :=
  if a.held || a.freeze then s.setArbAt n a else s.endRound n (a.round n)

/-- ARB_ROUND (R296): dropped says that the owner dropped its request; reqs are the slots that ask, with their functions, masked
those whose sideband signal masks them. No round takes place while a grant is held or the arbiter is frozen. -/
def execArbRound (n : Fin 43) (dropped : Bool) (reqs : List (Nat × Nat)) (masked : List Nat) (s : State) : Host.Outcome State Fault Refusal :=
  .next (s.arbSettle n (s.arbAsked n dropped reqs masked))

/-- ARB_BREAK_POINT (R297): the owner's grant is taken for FREEZE, for a mask, or because the Keeper preempts its function. The
owner keeps its request at its base priority; a masked owner does not wait (R299). A round follows unless frozen. -/
def execArbBreakPoint (n : Fin 43) (masked preempted : Bool) (s : State) : Host.Outcome State Fault Refusal :=
  let a := s.arbAt n
  let m := masked || s.slotMasked n a.owner a.ownerFn
  .next (if a.held && (a.freeze || m || preempted) then
      let r := a.req a.owner
      s.arbSettle n { a.setReq a.owner { r with waiting := !m, masked := m, lost := if m then 0 else r.lost } with held := false }
    else s)

/-- FREEZE of an arbiter set or cleared; clearing it starts a round (R298). -/
def State.freezeArb (s : State) (n : Nat) (v : Bool) : State := s.arbSettle n { s.arbAt n with freeze := v }

/-- The requests of a function under reset are masked on every arbiter (R299). -/
def State.maskFn (s : State) (f : Nat) : State :=
  s.setArb (s.arb.map (fun (n, a) => (n, { a with reqs := a.reqs.map (fun (i, r) =>
    (i, if r.fn == f && r.waiting then { r with waiting := false, masked := true, lost := 0 } else r)) })))

/-- Whether a function still owns a grant somewhere: its reset waits for the break point (R299). -/
def State.ownsGrant (s : State) (f : Nat) : Bool := List.any s.arb (fun e => e.2.held && e.2.ownerFn == f)

/-- Whether a write to a group the Keeper owns is ignored: during a run, outside debug mode, from the physical function (R333). -/
def State.keeperOwns (s : State) : Bool := s.run.active && !s.keeper.debug

/-- REGDENY (R333). -/
def State.denied (s : State) : State := s.setKprCause 2

/-- The write of ARB_COMMIT: the staged bases and STARVE_LIM wait for the next round; a second COMMIT replaces the first (R303). -/
def State.writeArbCommit (s : State) (n : Nat) (value : Word) : State :=
  let a := s.arbAt n
  if s.keeperOwns then s.denied
  else if !value.getLsbD 0 then s
  else s.setArbAt n { a with pending := some (a.stagedLim, (List.range 48).map (fun i => (a.req i).stagedBase)) }

/-- The write of ARB_CTRL (R298, R302): FREEZE takes effect at once and its clearing starts a round; STARVE_LIM is staged, unless
the Keeper owns the group. -/
def State.writeArbCtrl (s : State) (n : Nat) (value : Word) : State :=
  let a := s.arbAt n
  let v := value.toNat
  let a' := { a with freeze := bitOf v 31, stagedLim := if s.keeperOwns then a.stagedLim else bitsOf v 15 0 }
  let s := if s.keeperOwns && bitsOf v 15 0 != a.stagedLim then s.denied else s
  if a.freeze && !bitOf v 31 && !a.held then s.endRound n (a'.round n) else s.setArbAt n a'

/-- Whether a function's registers answer: it exists, is not fenced by a reset, is not in D3hot, and the hub is lit. -/
def State.regsAnswer (s : State) (f : Nat) : Bool := s.pwr.hubLit && s.fnExists f && !(s.fnSt f).resetting && !(s.fnSt f).d3hot

/-- ARB_COMMIT (R303). -/
def execArbCommit (fn : Fn) (n : Fin 43) (value : Word) (s : State) : Host.Outcome State Fault Refusal :=
  .next (if fn.val = 0 && s.regsAnswer 0 && s.released then s.writeArbCommit n value else s)

/-- ARB_FREEZE: a write of ARB_CTRL (R298, R302). -/
def execArbFreeze (fn : Fn) (n : Fin 43) (value : Word) (s : State) : Host.Outcome State Fault Refusal :=
  .next (if fn.val = 0 && s.regsAnswer 0 && s.released then s.writeArbCtrl n value else s)

end Sys2Proof.Machine
end

