-- ==== Sys2Proof/Machine/Num.lean ====
section
/-! DEFINITION. Chapter 2 of the spec: formats, exact values, rounding, conversions, scaled blocks and their flags, and
the counter-based generator of R165. Values are computed exactly as signed multiples of a power of two and narrowed once. -/
namespace Sys2Proof.Machine

/-- An exact value: NaN, an infinity, or a signed multiple m of 2^e (zeros keep their sign, R48). -/
inductive FVal
  | nan
  | inf (neg : Bool)
  | fin (neg : Bool) (m : Nat) (e : Int)
deriving DecidableEq, Repr

/-- How a format encodes special values (R32). -/
inductive Special
  | ieee | onlyNan | none_
deriving DecidableEq, Repr

/-- A binary format of R31. -/
structure Fmt where
  ebits : Nat
  fbits : Nat
  bias : Nat
  special : Special
deriving DecidableEq, Repr

def fE4M3 : Fmt := ⟨4, 3, 7, .onlyNan⟩
def fE5M2 : Fmt := ⟨5, 2, 15, .ieee⟩
def fQ4 : Fmt := ⟨2, 1, 1, .none_⟩
def fBF16 : Fmt := ⟨8, 7, 127, .ieee⟩
def fFP32 : Fmt := ⟨8, 23, 127, .ieee⟩
def fX32 : Fmt := ⟨10, 23, 511, .ieee⟩

/-- The canonical NaN a format produces (R32). -/
def Fmt.nanCode (f : Fmt) : Nat :=
  match f.special with
  | .onlyNan => 2 ^ (f.ebits + f.fbits) - 1
  | _ => if f.ebits = 5 then 2 ^ (f.ebits + f.fbits) - 1 else (2 ^ f.ebits - 1) * 2 ^ f.fbits + 2 ^ (f.fbits - 1)

/-- The code of a signed infinity. -/
def Fmt.infCode (f : Fmt) (neg : Bool) : Nat := b2n neg * 2 ^ (f.ebits + f.fbits) + (2 ^ f.ebits - 1) * 2 ^ f.fbits

/-- The value a code spells (R31, R32, R34). -/
def Fmt.decode (f : Fmt) (n : Nat) : FVal :=
  let neg := bitOf n (f.ebits + f.fbits)
  let x := bitsOf n (f.ebits + f.fbits - 1) f.fbits
  let fr := n % 2 ^ f.fbits
  let top := x == 2 ^ f.ebits - 1
  let finite := if x = 0 then FVal.fin neg fr (1 - (f.bias : Int) - f.fbits)
    else FVal.fin neg (2 ^ f.fbits + fr) ((x : Int) - f.bias - f.fbits)
  match f.special with
  | .ieee => if top then (if fr = 0 then .inf neg else .nan) else finite
  | .onlyNan => if top && fr == 2 ^ f.fbits - 1 then .nan else finite
  | .none_ => finite

/-- The largest finite magnitude of a format, as m × 2^e. -/
def Fmt.maxFin (f : Fmt) : Nat × Int :=
  match f.special with
  | .ieee => (2 ^ (f.fbits + 1) - 1, (2 ^ f.ebits - 2 : Nat) - (f.bias : Int) - f.fbits)
  | .onlyNan => (2 ^ (f.fbits + 1) - 2, (2 ^ f.ebits - 1 : Nat) - (f.bias : Int) - f.fbits)
  | .none_ => (2 ^ (f.fbits + 1) - 1, (2 ^ f.ebits - 1 : Nat) - (f.bias : Int) - f.fbits)

end Sys2Proof.Machine

namespace Sys2Proof
open Sys2Proof.Machine

/-- The binary format of an element format code. -/
def NF.fmt : NF → Fmt
  | .e4m3 => fE4M3
  | .e5m2 => fE5M2
  | .q4 => fQ4
  | .bf16 => fBF16
  | .fp32 => fFP32
  | .int32 => fFP32

/-- Whether a format is stored in scaled blocks (R36). -/
def NF.scaled : NF → Bool
  | .e4m3 | .e5m2 | .q4 => true
  | _ => false

/-- emax_elem of R39. -/
def NF.emax : NF → Int
  | .e4m3 => 8
  | .e5m2 => 15
  | _ => 2

/-- Bytes of a number of elements of a format: half a byte for Q4. -/
def NF.bytes (f : NF) (n : Nat) : Nat :=
  match f with
  | .q4 => n / 2
  | .e4m3 | .e5m2 => n
  | .bf16 => 2 * n
  | _ => 4 * n

/-- Bytes that hold n elements of a row, a last half byte of Q4 whole. -/
def NF.lineBytes (f : NF) (n : Nat) : Nat := f.bytes (if f = .q4 then n + n % 2 else n)

end Sys2Proof

namespace Sys2Proof.Machine

/-! ### Exact arithmetic -/

/-- m × 2^e as an integer multiple of 2^d, for d ≤ e. -/
def alignTo (d : Int) (neg : Bool) (m : Nat) (e : Int) : Int :=
  let v : Int := (m <<< (e - d).toNat : Nat)
  if neg then -v else v

/-- floor(log2) of a non-zero magnitude m × 2^e. -/
def floorLog2 (m : Nat) (e : Int) : Int := (Nat.log2 m : Int) + e

def FVal.isNan : FVal → Bool
  | .nan => true
  | _ => false

/-- Infinite or NaN. -/
def FVal.special : FVal → Bool
  | .fin _ _ _ => false
  | _ => true

def FVal.isZero : FVal → Bool
  | .fin _ m _ => m == 0
  | _ => false

def FVal.isNeg : FVal → Bool
  | .nan => false
  | .inf n => n
  | .fin n _ _ => n

def FVal.neg : FVal → FVal
  | .nan => .nan
  | .inf n => .inf (!n)
  | .fin n m e => .fin (!n) m e

def FVal.abs : FVal → FVal
  | .nan => .nan
  | .inf _ => .inf false
  | .fin _ m e => .fin false m e

def FVal.zero : FVal := .fin false 0 0
def FVal.one : FVal := .fin false 1 0
def FVal.ofNat (n : Nat) : FVal := .fin false n 0

/-- The exact sum (R48). -/
def FVal.add (a b : FVal) : FVal :=
  match a, b with
  | .nan, _ => .nan
  | _, .nan => .nan
  | .inf n, .inf n' => if n = n' then .inf n else .nan
  | .inf n, _ => .inf n
  | _, .inf n => .inf n
  | .fin n m e, .fin n' m' e' =>
    let d := min e e'
    let v := alignTo d n m e + alignTo d n' m' e'
    if v = 0 then .fin (n && n') 0 d else .fin (decide (v < 0)) v.natAbs d

def FVal.sub (a b : FVal) : FVal := a.add b.neg

/-- The exact product (R48). -/
def FVal.mul (a b : FVal) : FVal :=
  match a, b with
  | .nan, _ => .nan
  | _, .nan => .nan
  | .inf n, .inf n' => .inf (n != n')
  | .inf n, .fin n' m _ => if m = 0 then .nan else .inf (n != n')
  | .fin n m _, .inf n' => if m = 0 then .nan else .inf (n != n')
  | .fin n m e, .fin n' m' e' => .fin (n != n') (m * m') (e + e')

/-- The value times 2^k. -/
def FVal.scale (k : Int) : FVal → FVal
  | .fin n m e => .fin n m (e + k)
  | v => v

/-- The quotient, exact or with a sticky last bit below at least 64 significant bits. -/
def FVal.div (a b : FVal) : FVal :=
  match a, b with
  | .nan, _ => .nan
  | _, .nan => .nan
  | .inf _, .inf _ => .nan
  | .inf n, .fin n' _ _ => .inf (n != n')
  | .fin n _ _, .inf n' => .fin (n != n') 0 0
  | .fin n m e, .fin n' m' e' =>
    if m' = 0 then (if m = 0 then .nan else .inf (n != n'))
    else if m = 0 then .fin (n != n') 0 0
    else
      let k := 64 + Nat.log2 m'
      let q := (m <<< k) / m'
      let r := (m <<< k) % m'
      .fin (n != n') (2 * q + b2n (r != 0)) (e - e' - k - 1)

/-- The integer square root, one bit of the answer at a time from bit k downward. -/
def isqrtFrom (n : Nat) : Nat → Nat → Nat
  | 0, r => r
  | k + 1, r =>
    let t := r + 2 ^ k
    isqrtFrom n k (if t * t ≤ n then t else r)

def isqrt (n : Nat) : Nat := isqrtFrom n (Nat.log2 n / 2 + 1) 0

/-- The square root, exact or with a sticky last bit below at least 64 significant bits. -/
def FVal.sqrt : FVal → FVal
  | .nan => .nan
  | .inf n => if n then .nan else .inf false
  | .fin n m e =>
    if m = 0 then .fin n 0 0
    else if n then .nan
    else
      let m' := if e % 2 = 0 then m else 2 * m
      let e' := if e % 2 = 0 then e else e - 1
      let w := m' <<< 160
      let r := isqrt w
      .fin false (2 * r + b2n (r * r != w)) ((e' - 160) / 2 - 1)

/-- a < b as reals; false when either is NaN. -/
def FVal.lt (a b : FVal) : Bool :=
  match a, b with
  | .nan, _ => false
  | _, .nan => false
  | .inf n, .inf n' => n && !n'
  | .inf n, .fin _ _ _ => n
  | .fin _ _ _, .inf n => !n
  | .fin n m e, .fin n' m' e' =>
    let d := min e e'
    decide (alignTo d n m e < alignTo d n' m' e')

/-- a = b as reals; false when either is NaN. -/
def FVal.eq (a b : FVal) : Bool := !a.isNan && !b.isNan && !(a.lt b) && !(b.lt a)

/-- The order of FMIN and FMAX (R155): as reals, with −0 below +0. -/
def FVal.below (a b : FVal) : Bool := a.lt b || (a.isZero && b.isZero && a.isNeg && !b.isNeg)

/-- FMIN and FMAX (R155). -/
def FVal.min (a b : FVal) : FVal := if a.isNan || b.isNan then .nan else if b.below a then b else a
def FVal.max (a b : FVal) : FVal := if a.isNan || b.isNan then .nan else if a.below b then b else a

/-! ### Rounding (R52, R53) -/

/-- A magnitude rounded to a multiple of 2^q: to nearest even, or stochastically with 16 random bits. -/
def roundAt (q : Int) (sr : Option Nat) (m : Nat) (e : Int) : Nat × Bool :=
  if q ≤ e then (m <<< (e - q).toNat, true)
  else
    let d := (q - e).toNat
    let t := m >>> d
    let rem := m % 2 ^ d
    let up := match sr with
      | none => decide (2 ^ d < 2 * rem) || (2 * rem == 2 ^ d && t % 2 == 1)
      | some r => decide (r < (rem <<< 16) >>> d)
    (if rem ≠ 0 && up then t + 1 else t, rem == 0)

/-- A magnitude rounded to a format. -/
structure Rounded where
  /-- The code without its sign; the largest finite code where beyond. -/
  code : Nat
  /-- The rounded magnitude exceeds the largest finite value (R40, R56). -/
  beyond : Bool
  zero : Bool
  sub : Bool
  exact_ : Bool
deriving DecidableEq, Repr

/-- The code of a magnitude k × 2^q that the format holds. -/
def Fmt.codeOf (f : Fmt) (k : Nat) (q : Int) : Nat :=
  if k = 0 then 0
  else
    let l := Nat.log2 k
    let x := (l : Int) + q + f.bias
    if x < 1 then k
    else
      let sig := if f.fbits ≤ l then k >>> (l - f.fbits) else k <<< (f.fbits - l)
      x.toNat * 2 ^ f.fbits + (sig - 2 ^ f.fbits)

/-- Rounding to a format as if the exponent range had no upper limit, then the test against the largest finite value
(R40, R56). -/
def Fmt.round (f : Fmt) (sr : Option Nat) (m : Nat) (e : Int) : Rounded :=
  if m = 0 then { code := 0, beyond := false, zero := true, sub := false, exact_ := true }
  else
    let q := max (floorLog2 m e - f.fbits) (1 - (f.bias : Int) - f.fbits)
    let (k, exact_) := roundAt q sr m e
    let (mm, me) := f.maxFin
    let d := min q me
    let beyond := decide (mm <<< (me - d).toNat < k <<< (q - d).toNat)
    let code := if beyond then f.codeOf mm me else f.codeOf k q
    { code := code, beyond := beyond, zero := k == 0, sub := code != 0 && decide (code < 2 ^ f.fbits), exact_ := exact_ }

/-- The sign bit of a format. -/
def Fmt.signed (f : Fmt) (neg : Bool) (code : Nat) : Nat := b2n neg * 2 ^ (f.ebits + f.fbits) + code

/-- Rounding to nearest even with overflow to an infinity, as in IEEE 754 (R47, R155). -/
def Fmt.ieee (f : Fmt) (v : FVal) : Nat :=
  match v with
  | .nan => f.nanCode
  | .inf n => f.infCode n
  | .fin n m e =>
    let r := f.round none m e
    if r.beyond then f.infCode n else f.signed n r.code

/-! ### X32 and FP32 arithmetic -/

/-- A value rounded to X32 (R47). -/
def toX32 (v : FVal) : X32 := BitVec.ofNat 34 (fX32.ieee v)
/-- An X32 entry's exact value. -/
def ofX32 (x : X32) : FVal := fX32.decode x.toNat
/-- A value rounded to FP32 as a vector stage rounds (R155). -/
def toFP32 (v : FVal) : Word := BitVec.ofNat 32 (fFP32.ieee v)
/-- An FP32 word's exact value. -/
def ofFP32 (w : Word) : FVal := fFP32.decode w.toNat
def ofBF16 (n : Nat) : FVal := fBF16.decode n

def xadd (a b : X32) : X32 := toX32 ((ofX32 a).add (ofX32 b))
def xsub (a b : X32) : X32 := toX32 ((ofX32 a).sub (ofX32 b))
def xmul (a b : X32) : X32 := toX32 ((ofX32 a).mul (ofX32 b))
def xdiv (a b : X32) : X32 := toX32 ((ofX32 a).div (ofX32 b))
def xmax (a b : X32) : X32 := toX32 ((ofX32 a).max (ofX32 b))
def x32OfFP32 (w : Word) : X32 := toX32 (ofFP32 w)

/-- The canonical NaN of X32 (R32) and −∞. -/
def xNan : X32 := 0x1FFC00000
def xNegInf : X32 := BitVec.ofNat 34 (fX32.infCode true)
def xOne : X32 := 0x0FF800000

/-! ### Conversions to FP32 and BF16 (R55 to R57) -/

/-- Flags of a special value (R56). -/
def specialStat : NumStat := { ovf := true, nan := true }

/-- A conversion to FP32 or BF16 by rounding mode and FTZ: the code and the flags it sets. -/
def convPlain (f : Fmt) (sr : Option Nat) (ftz : Bool) (v : FVal) : Nat × NumStat :=
  match v with
  | .nan => (f.nanCode, specialStat)
  | .inf n => (f.infCode n, specialStat)
  | .fin n m e =>
    let r := f.round sr m e
    if r.beyond then (f.signed n r.code, { ovf := true })
    else if ftz && r.sub then (f.signed n 0, { unf := true })
    else (f.signed n r.code, { unf := m != 0 && (r.zero || (r.sub && !r.exact_)) })

/-- The collective engine's conversion: overflow is an infinity, no flag is set (R55, R56). -/
def convInf (f : Fmt) (sr : Option Nat) (ftz : Bool) (v : FVal) : Nat :=
  match v with
  | .fin n m e =>
    let r := f.round sr m e
    if r.beyond then f.infCode n else if ftz && r.sub then f.signed n 0 else f.signed n r.code
  | v => f.ieee v

/-! ### Scaled blocks (R36 to R44) -/

/-- The larger magnitude of two finite values. -/
def maxMag (a b : FVal) : FVal := if a.abs.lt b.abs then b.abs else a.abs

/-- The scale code before clamping (R39), for a non-zero finite maximum. -/
def rawScale (f : NF) (m : FVal) : Int :=
  match m with
  | .fin _ k e => floorLog2 k e - f.emax + 127
  | _ => 0

/-- A block converted: scale code, element codes, flags and counters (R39 to R44). sr i gives the random bits of the
block's element i under stochastic rounding. -/
def blockConv (f : NF) (sr : Nat → Option Nat) (vals : List FVal) : Nat × List Nat × NumStat :=
  if vals.any (·.special) then (0xFF, vals.map (fun _ => 0), specialStat)
  else
    let m := vals.foldl maxMag .zero
    if m.isZero then (0, vals.map (fun _ => 0), {})
    else
      let raw := rawScale f m
      let s := (min (max raw 0) 0xFE).toNat
      let rs := vals.zipIdx.map (fun (v, i) =>
        match v with
        | .fin n k e => (n, k != 0, f.fmt.round (sr i) k (e - ((s : Int) - 127)))
        | _ => (false, false, f.fmt.round none 0 0))
      let clipped := (rs.filter (fun (_, _, r) => r.beyond)).length
      let vanished := (rs.filter (fun (_, nz, r) => nz && r.zero)).length
      let small := rs.any (fun (_, nz, r) => nz && (r.zero || r.sub))
      let allZero := s == 0 && rs.all (fun (_, _, r) => r.zero)
      let codes := rs.map (fun (n, _, r) => if allZero then 0 else f.fmt.signed n r.code)
      (s, codes, { ovf := decide (0xFE < raw) && clipped != 0, unf := decide (raw < 0) && small,
                   vanished := vanished, clipped := clipped })

/-- The collective engine's block conversion (R55): a value beyond the FP32 range makes a NaN block, no flag. -/
def blockConvInf (f : NF) (sr : Nat → Option Nat) (vals : List FVal) : Nat × List Nat :=
  let beyond := vals.any (fun v => match v with
    | .fin _ m e => (fFP32.round none m e).beyond
    | _ => true)
  if beyond then (0xFF, vals.map (fun _ => 0)) else let (s, cs, _) := blockConv f sr vals; (s, cs)

/-- The value of an element of a scaled block (R37). -/
def scaledVal (f : NF) (s : Nat) (code : Nat) : FVal :=
  if s = 0xFF then .nan else (f.fmt.decode code).scale ((s : Int) - 127)

/-- Element codes as bytes: one a byte, or two Q4 codes a byte, the lower first (R36). -/
def packQ4 : List Nat → List Byte
  | a :: b :: r => BitVec.ofNat 8 (a + 16 * b) :: packQ4 r
  | [a] => [BitVec.ofNat 8 a]
  | [] => []
def codesBytes (f : NF) (cs : List Nat) : List Byte :=
  match f with
  | .q4 => packQ4 cs
  | _ => cs.map (BitVec.ofNat 8)

/-! ### The counter-based generator (R165) -/

def rot16 (w : Word) : Word := w.rotateLeft 16

/-- One round for each unit of fuel. -/
def genRounds : Nat → Word → Word → Word × Word × Word × Word → Word × Word × Word × Word
  | 0, _, _, x => x
  | n + 1, k, h, (x0, x1, x2, x3) =>
    let k := k + 0x9e3779b9
    let h := h + 0x7f4a7c15
    let u := x0 * 0x00030005
    let v := x2 * 0x00050003
    genRounds n k h ((rot16 v ^^^ x1) + k, u, (rot16 u ^^^ x3) + h, v)

/-- The 128-bit output, as a number. -/
def generate (key : DWord) (stream : Word) (position : Nat) : Nat :=
  let k := key.truncate 32
  let h := BitVec.ofNat 32 (key.toNat / 2 ^ 32)
  let (x0, x1, x2, x3) := genRounds 10 k h (BitVec.ofNat 32 position, BitVec.ofNat 32 (position / 2 ^ 32), stream, k ^^^ h)
  x0.toNat + x1.toNat * 2 ^ 32 + x2.toNat * 2 ^ 64 + x3.toNat * 2 ^ 96

/-- The position field of R54 and R167 for a step and a group of draws. -/
def genPosition (step group : Nat) : Nat := step % 2 ^ 24 * 2 ^ 40 + group

/-- 16 random bits of element i (R54, R167). -/
def rand16 (key : DWord) (stream : Word) (step i : Nat) : Nat :=
  let j := i % 8
  bitsOf (generate key stream (genPosition step (i / 8))) (16 * j + 15) (16 * j)

/-- 32 random bits of element i (R167). -/
def rand32 (key : DWord) (stream : Word) (step i : Nat) : Nat :=
  let j := i % 4
  bitsOf (generate key stream (genPosition step (i / 4))) (32 * j + 31) (32 * j)

/-! ### CRC-32C -/

/-- CRC-32C, the reflected form (PRESUMED the usual definition, log entry 14): one bit, one byte, a byte string. -/
def crcBits : Nat → Nat → Nat
  | 0, c => c
  | n + 1, c => crcBits n (if c % 2 = 1 then (c / 2) ^^^ 0x82F63B78 else c / 2)
def crcByte (c : Nat) (b : Byte) : Nat := crcBits 8 (c ^^^ b.toNat)
def crc32c (bs : List Byte) : Nat := (bs.foldl crcByte 0xFFFFFFFF) ^^^ 0xFFFFFFFF

end Sys2Proof.Machine
end

