-- ==== Sys2Proof/Machine/Operands.lean ====
section
/-! DEFINITION. The operand forms of the engine commands: record fields, scratchpad addresses, lines of elements in
memory and the turning of a tensor. -/
namespace Sys2Proof

/-- Rows and columns of an output tile (R70). -/
def Shape.rows : Shape → Nat
  | .s32x32 => 32
  | .s64x16 => 64
  | .s16x64 => 16
def Shape.cols : Shape → Nat
  | .s32x32 => 32
  | .s64x16 => 16
  | .s16x64 => 64

/-- Slots per tile (R70). -/
def Shape.foot (sh : Shape) (comp : Bool) : Nat := (if sh = .s32x32 then 1 else 2) * (if comp then 2 else 1)

/-- The SHAPE field of R78; 0b11 is reserved. -/
def Shape.ofCode : Nat → Option Shape
  | 0 => some .s32x32
  | 1 => some .s64x16
  | 2 => some .s16x64
  | _ => none

/-- The element format codes of R78, R111 and R158. -/
def NF.ofCode : Nat → Option NF
  | 0 => some .e4m3
  | 1 => some .e5m2
  | 2 => some .q4
  | 3 => some .bf16
  | 4 => some .fp32
  | 7 => some .int32
  | _ => none

end Sys2Proof

namespace Sys2Proof.Machine

/-- Bits [hi:lo] of word i of a record. -/
def fld (ws : List Word) (i hi lo : Nat) : Nat := bitsOf (ws.getD i 0).toNat hi lo
/-- Bit b of word i of a record. -/
def flag (ws : List Word) (i b : Nat) : Bool := bitOf (ws.getD i 0).toNat b

/-- The local address of offset 0 of a tile's scratchpad (R278). -/
def spadBase (t : Nat) : Nat := 0x40000000000 + t * 0x10000000
/-- The first offset beyond a tile's scratchpad (R78, R278). -/
def spadEnd : Nat := 0xC000000
/-- The local address of a tile's near tier (R278). -/
def nearBase (t : Nat) : Nat := t * 0x1000000000
/-- The far tier (R278). -/
def farBase : Nat := 0x20000000000
def farEnd : Nat := 0x40000000000

/-- Whether n bytes from a lie in one region of R278 that holds data. -/
def localOk (a n : Nat) : Bool :=
  (List.range 4).any (fun t => decide (nearBase t ≤ a) && decide (a + n ≤ nearBase t + 0x1000000000)) ||
  (decide (farBase ≤ a) && decide (a + n ≤ farEnd)) ||
  (List.range 4).any (fun t => decide (spadBase t ≤ a) && decide (a + n ≤ spadBase t + spadEnd))

/-! ### Elements and lines -/

/-- The code of element i of a line at address a. -/
def elemCode (m : Mem) (f : NF) (a i : Nat) : Nat :=
  match f with
  | .e4m3 | .e5m2 => (m.read (a + i)).toNat
  | .q4 => let b := (m.read (a + i / 2)).toNat; if i % 2 = 0 then b % 16 else b / 16
  | .bf16 => m.nat (a + 2 * i) 2
  | .fp32 | .int32 => m.nat (a + 4 * i) 4

/-- The exact value of element i of a line with scales at sa (R36, R37, R50). -/
def elemVal (m : Mem) (f : NF) (a sa i : Nat) : FVal :=
  if f.scaled then scaledVal f (m.read (sa + i / 32)).toNat (elemCode m f a i) else f.fmt.decode (elemCode m f a i)

/-- The values of a line of n elements. -/
def lineVals (m : Mem) (f : NF) (a sa n : Nat) : List FVal := (List.range n).map (elemVal m f a sa)

/-- The bytes and scale bytes of a line of n elements. -/
def lineBytes (m : Mem) (f : NF) (a sa n : Nat) : List Byte × List Byte :=
  (m.readN a (f.bytes n), if f.scaled then m.readN sa (cdiv n 32) else [])

/-- The values of a line given by its bytes. -/
def bytesVals (f : NF) (n : Nat) (l : List Byte × List Byte) : List FVal :=
  let m : Mem := l.1.zipIdx.map (fun (b, i) => (i, b))
  let sm : Mem := l.2.zipIdx.map (fun (b, i) => (i, b))
  (List.range n).map (fun i =>
    let code := elemCode m f 0 i
    if f.scaled then scaledVal f (sm.read (i / 32)).toNat code else f.fmt.decode code)

/-- Consecutive groups of n. -/
def chunksOf {α : Type} (n : Nat) : Nat → List α → List (List α)
  | 0, _ => []
  | _, [] => []
  | fuel + 1, l => l.take n :: chunksOf n fuel (l.drop n)
def chunks {α : Type} (n : Nat) (l : List α) : List (List α) := chunksOf n l.length l

/-- A line of values as scaled blocks of 32: scale bytes, element bytes and the numeric effects (R39 to R42). The last
block is padded with zero codes (R38); sr gives the random bits of the line's element i. -/
def scaledLine (f : NF) (sr : Nat → Option Nat) (vals : List FVal) : List Byte × List Byte × NumStat :=
  let bs := (chunks 32 vals).zipIdx.map (fun (b, j) =>
    let (s, cs, st) := blockConv f (fun i => sr (32 * j + i)) b
    (s, cs ++ List.replicate (32 - cs.length) 0, st))
  (bs.map (fun (s, _, _) => BitVec.ofNat 8 s), bs.flatMap (fun (_, cs, _) => codesBytes f cs),
   bs.foldl (fun st (_, _, st') => st.join st') {})

/-- A line of values as FP32 or BF16. -/
def plainLine (f : NF) (sr : Nat → Option Nat) (ftz : Bool) (vals : List FVal) : List Byte × NumStat :=
  let cs := vals.zipIdx.map (fun (v, i) => convPlain f.fmt (sr i) ftz v)
  (cs.flatMap (fun (c, _) => leBytes (if f = .bf16 then 2 else 4) c), cs.foldl (fun st (_, st') => st.join st') {})

/-- A line converted to a format: element bytes, scale bytes and numeric effects. -/
def convLine (f : NF) (sr : Nat → Option Nat) (ftz : Bool) (vals : List FVal) : List Byte × List Byte × NumStat :=
  if f.scaled then let (sb, eb, st) := scaledLine f sr vals; (eb, sb, st)
  else let (eb, st) := plainLine f sr ftz vals; (eb, [], st)

/-- Lines written at a stride. -/
def Mem.writeLines (m : Mem) (a stride : Nat) : List (List Byte) → Mem
  | [] => m
  | l :: ls => Mem.writeLines (m.writeN a l) (a + stride) stride ls

/-- Column j of rows. -/
def column (rows : List (List FVal)) (j : Nat) : List FVal := rows.map (fun r => r.getD j .zero)

/-- Rows of values turned: column j becomes line j, blocked along the new axis by RNE, or transposed exactly (R183). -/
def turnLines (f : NF) (cols : Nat) (rows : List (List FVal)) : List (List Byte × List Byte) × NumStat :=
  let ls := (List.range cols).map (fun j => convLine f (fun _ => none) false (column rows j))
  (ls.map (fun (e, s, _) => (e, s)), if f.scaled then ls.foldl (fun st (_, _, st') => st.join st') {} else {})

/-- What a function's command draws with on a tile now: its active keys and the step of R54. -/
def State.draws (s : State) (t : Nat) (f : Fn) : Draws :=
  { keys := (s.keySt t f.val).active, step := if s.run.active then s.run.step else 0 }

/-- The random bits of R54 for element i of a tensor, under key 0. -/
def Draws.sr (d : Draws) (tid : Word) (i : Nat) : Nat := rand16 (d.keys.getD 0 0) tid d.step i
def State.srBits (s : State) (t : Nat) (f : Fn) (tid : Word) (i : Nat) : Nat := (s.draws t f).sr tid i

end Sys2Proof.Machine
end

