-- ==== Sys2Proof/Machine/Failure.lean ====
section
/-! DEFINITION. Retirement units, recovery classes and the declaration of a persistent failure (chapter 10, R277, R287 to
R293), shared by the engines that read and by the recovery events. -/
namespace Sys2Proof.Machine

/-- The tier of a local address, coded as R290 codes it: 0 scratchpad, 1 near tier, 2 far tier. -/
def tierCode (a : Nat) : Nat := if a < farBase then 1 else if a < farEnd then 2 else 0

/-- The tile of a near-tier or scratchpad address (R278). -/
def tileOf (a : Nat) : Nat := if a < farBase then a / 0x1000000000 else (a - 0x40000000000) / 0x10000000

/-- The retirement unit and the access unit an address lies in (R277). -/
def unitSize (a : Nat) : Nat := match tierCode a with | 0 => 64 | 1 => 2048 | _ => 4096
def accessSize (a : Nat) : Nat := match tierCode a with | 2 => 2048 | _ => 64
def unitOf (a : Nat) : Nat := a / unitSize a * unitSize a
def accessOf (a : Nat) : Nat := a / accessSize a * accessSize a

/-! ### Detection codes (R277, R281) -/

/-- One bit of the CRC-16 of polynomial 0x8BB7 without reflection. -/
def crc16Bit (c : Nat) : Nat := if 2 ^ 15 ≤ c then Nat.xor (c * 2 % 2 ^ 16) 0x8BB7 else c * 2
/-- The CRC-16 of bytes in address order, from 0. -/
def crc16 (bs : List Byte) : Nat :=
  bs.foldl (fun c b => (List.range 8).foldl (fun c _ => crc16Bit c) (Nat.xor c (b.toNat * 256))) 0

/-- The 16 parity bits of a scratchpad bank word, one for each 32 bits: with its bit every group of 33 has an even number of ones. -/
def parityCode (bs : List Byte) : List Bool := (chunks 4 bs).map (fun w => decide ((w.map (fun b => ((List.range 8).filter (fun i => b.getLsbD i)).length)).sum % 2 = 1))

/-- The CRC values of a far-tier stripe's 32 bursts, which lie on the 33rd channel (R281). -/
def stripeCodes (m : Mem) (a : Nat) : List Nat := (List.range 32).map (fun i => crc16 (Mem.readN m (accessOf a + 64 * i) 64))

/-- The detection code stored with an access unit: bank-word parity, a burst's CRC, or a stripe's CRCs. It is a function of the bytes, so the
state holds none. -/
def codeAt (m : Mem) (a : Nat) : List Nat :=
  match tierCode a with
  | 0 => (parityCode (Mem.readN m (accessOf a) 64)).map b2n
  | 1 => [crc16 (Mem.readN m (accessOf a) 64)]
  | _ => stripeCodes m a

/-- The access units that n bytes from an address lie in, by an address in each. -/
def accessesOf (a n : Nat) : List Nat :=
  if n = 0 then []
  else
    let w := accessSize a
    (List.range ((a + n - 1) / w - a / w + 1)).map (fun i => (a / w + i) * w)

/-- The physical carrier of a far-tier address (R282). -/
def State.carrierOf (s : State) (a : Nat) : Nat :=
  let e := (a - farBase) / 2 ^ 30
  s.tier.farMap.get e e / 512

/-- A carrier. -/
def State.carrier (s : State) (c : Nat) : Carrier := s.tier.carriers.get {} c
def State.setCarrier (s : State) (c : Nat) (v : Carrier) : State :=
  s.setTier { s.tier with carriers := s.tier.carriers.set c v }

/-- The region that holds an address, with its number (R292); a source buffer that has been freed holds none (R27). -/
def State.regionAt (s : State) (a : Nat) : Option (Nat × Region) :=
  List.find? (fun e => !e.2.idle && decide (e.2.base ≤ a) && decide (a < e.2.base + e.2.length)) s.tier.regions

/-! ### Tile groups and their page pools (R21, R244, R246, R250, R251, R369) -/

/-- The program that defines a tile group's serving settings. -/
def State.servingProg (s : State) (g : Nat) : Option Prog :=
  if (s.group g).prog = 0 then none else s.progAt (s.group g).prog
def State.servingCfg (s : State) (g : Nat) : Option ServingCfg := (s.servingProg g).bind (fun p => p.img.serving)

/-- Tiles of a group, and its first tile. -/
def State.groupTiles (s : State) (g : Nat) : Nat := max 1 (((s.servingProg g).map (·.img.tileGroup)).getD 1)
def State.firstTile (s : State) (g : Nat) : Nat := g * s.groupTiles g

/-- Bytes of a KV page for a model (R250): 256 positions, 33 bytes for 32 E4M3 elements or 2 for one of BF16. -/
def pageBytes (d : ModelDims) (bf16 : Bool) : Nat :=
  let n := 256 * d.layers * 2 * d.kvheads * d.headw
  roundUp (if bf16 then 2 * n else cdiv (33 * n) 32) 4096

/-- The page size of a group: that of the larger model where the teacher may generate too (DEDUCED, log entry 24). -/
def State.pageSize (s : State) (c : ServingCfg) : Nat :=
  let of (d : Option ModelDims) : Nat := (d.map (fun x => pageBytes x c.kvBf16)).getD 0
  if c.modelTeacherOk then max (of s.pair.teacher) (of s.pair.student) else of s.pair.student

/-- The page indices of each group, and a group's first: the 65,536 indices are divided evenly among the groups (R251; log entry 24). -/
def State.pageShare (s : State) (g : Nat) : Nat := 65536 / (4 / min 4 (s.groupTiles g))
def State.pageIndex0 (s : State) (g : Nat) : Nat := g * s.pageShare g

/-- The areas of a group's pool: near areas, between which its near pages go in turn, and the far area after them where FARKV is set. -/
def State.poolAreas (s : State) (g : Nat) : List (Nat × Nat) :=
  match s.servingCfg g with
  | none => []
  | some c =>
    let k := cdiv c.pagesNear (max 1 c.pageBase.length)
    c.pageBase.map (fun a => (a, k * s.pageSize c)) ++ (if c.farKv then [(c.farBase, c.pagesFar * s.pageSize c)] else [])

/-- The recovery class at an address (R292, R293): class K in a page pool (R251), class W in the pairing's placement, class X where no
region is declared. -/
def State.classAt (s : State) (a : Nat) : Nat :=
  if (List.range 4).any (fun g => (s.poolAreas g).any (fun e => decide (e.1 ≤ a) && decide (a < e.1 + e.2))) then 3
  else match s.regionAt a with
  | some (_, r) => r.cls
  | none => if List.any s.pair.extents (fun e => decide (e.1 ≤ a) && decide (a < e.1 + e.2)) then 0 else 5

/-- n bytes from each of a tensor's lines. -/
def lineRanges (a stride lines n : Nat) : List (Nat × Nat) := (List.range lines).map (fun i => (a + i * stride, n))

/-- Whether a local byte cannot be read: its access unit's failure is declared and not yet recovered (R287), it lies in an output marked
failed (R108), or its carrier was removed and its unit not yet recovered (R466). -/
def State.failedAt (s : State) (a : Nat) : Bool :=
  s.tier.failedOut.contains (accessOf a) ||
  s.tier.failed.any (fun f => f.accesses.contains (accessOf a)) ||
    (tierCode a == 2 && !(s.carrier (s.carrierOf a)).present && !s.tier.retiredUnits.contains (unitOf a))

/-- Stops the run at the next update boundary with a reason, unless a stop is pending (R15, R352). -/
def State.stopRun (s : State) (why : StopReason) : State :=
  if s.run.active && s.run.stop.isNone then s.setRun { s.run with stop := some why } else s

/-- A persistent failure is declared and reported (R289 events 1 to 3): the failed access unit joins its retirement
unit's recovery, and its reader waits. -/
def State.declareFailure (s : State) (reader : Src) (a : Nat) : State :=
  let u := unitOf a
  let acc := accessOf a
  let fs := s.tier.failed
  if fs.any (fun f => f.unit == u) then
    s.setTier { s.tier with failed := fs.map (fun f =>
      if f.unit == u then { f with accesses := unionNat [acc] f.accesses, waiters := f.waiters ++ [reader] } else f) }
  else
    s.setTier { s.tier with failed := fs ++ [{ tier := tierCode a, unit := u, accesses := [acc], waiters := [reader] }] }

/-- The access units of ranges that cannot be read: a read fails again, and joins the recovery (R287). -/
def State.failedIn (s : State) (rs : List (Nat × Nat)) : List Nat :=
  if s.tier.failed.isEmpty && s.tier.failedOut.isEmpty && (List.range 4).all (fun c => (s.carrier c).present) then []
  else (rs.flatMap (fun r => accessesOf r.1 r.2)).filter s.failedAt

/-- A reader joins the recovery of units it found failed. -/
def State.joinRecovery (s : State) (reader : Src) (us : List Nat) : State := us.foldl (fun s u => s.declareFailure reader u) s

/-- What a command does that finds failed units among the ranges it reads: none, it goes on; in class X only, it completes with DATA
(R293); else it waits for their recovery (R289). -/
def State.readOr (s : State) (src : Src) (tile kind num : Nat) (rs : List (Nat × Nat)) (go : State → State) : State :=
  match s.failedIn rs with
  | [] => go s
  | us => if us.all (fun u => s.classAt u == 5) then s.programFault src 0x0A tile kind num else s.joinRecovery src (us.filter (fun u => s.classAt u != 5 && !s.tier.failedOut.contains u))

/-- The far-tier stripes that writes cover only in part: each is read and merged (R281). -/
def mergedStripes (ws : List (Nat × Nat)) : List (Nat × Nat) :=
  ws.flatMap (fun (a, n) => ((accessesOf a n).filter (fun u => tierCode u == 2 && (decide (u < a) || decide (a + n < u + 2048)))).map (fun u => (u, 2048)))

/-- Whether extents in the CXL.mem window hold failed bytes of class X (R293). -/
def State.windowLost (s : State) (es : List Extent) : Bool :=
  es.any (fun (space, a, n) => space == 1 && (s.failedIn [(0x20000000000 + s.tier.windowBase * 2 ^ 30 + a, n)]).any (fun u => s.classAt u == 5))

/-- Whether a command's input descriptors name such bytes: it completes with DATA_LOST (R293). -/
def State.inputLost (s : State) (m : MCmd) (ds : List Desc) : Bool :=
  s.windowLost (((withLists ds m.lists).flatMap (fun x => if x.1.isList then x.2 else [x.1])).filter (fun d => !d.out) |>.map (fun d => (d.space, d.addr, d.len)))

/-- Whether a command is held on data it found failed, until the recovery releases it (R289 event 6). -/
def State.waits (s : State) (c : Src) : Bool := s.tier.failed.any (fun f => f.waiters.contains c)

/-- An output buffer is marked failed (R289 event 2, R108): its access units read as failed until they are recovered by class, or
written again. -/
def State.markFailed (s : State) (rs : List (Nat × Nat)) : State :=
  s.setTier { s.tier with failedOut := unionNat (rs.flatMap (fun r => accessesOf r.1 r.2)) s.tier.failedOut }
def State.clearFailed (s : State) (rs : List (Nat × Nat)) : State :=
  if s.tier.failedOut.isEmpty then s
  else
    let us := rs.flatMap (fun r => accessesOf r.1 r.2)
    s.setTier { s.tier with failedOut := s.tier.failedOut.filter (fun a => !us.contains a) }

/-- Spare units left where an address lies (R290). -/
def State.sparesLeft (s : State) (a : Nat) : Nat :=
  match tierCode a with
  | 0 => 16 - s.tier.spareWords.get 0 (tileOf a * 64 + (a / 64) % 64)
  | 1 => 64 - s.tier.spareRows.get 0 (tileOf a * 256 + (a / 2048) % 256)
  | _ => (s.carrier (s.carrierOf a)).spares

/-- The unit index of a MEM_RETIRED event (R290). -/
def State.retireIndex (s : State) (a cls : Nat) (early : Bool) : Nat :=
  cls + 16 * tierCode a + (if tierCode a = 2 then 256 * s.carrierOf a else 0) + (if early then 4096 else 0)

/-- A unit is remapped to a spare, counted in the health record, or taken out with its page where no spare is left
(R290). -/
def State.retireUnit (s : State) (a : Nat) : State :=
  if s.sparesLeft a = 0 then s.setTier { s.tier with lostPages := unionNat [a / 4096 * 4096] s.tier.lostPages }
  else
    let s := s.setTier { s.tier with retiredUnits := unionNat [unitOf a] s.tier.retiredUnits }
    match tierCode a with
    | 0 =>
      let k := tileOf a * 64 + (a / 64) % 64
      (s.setTier { s.tier with spareWords := s.tier.spareWords.upd 0 k (· + 1) }).setHealth
        { s.health with wordsRetired := s.health.wordsRetired.upd 0 (tileOf a) (· + 1) }
    | 1 =>
      let k := tileOf a * 256 + (a / 2048) % 256
      (s.setTier { s.tier with spareRows := s.tier.spareRows.upd 0 k (· + 1) }).setHealth
        { s.health with rowsRetired := s.health.rowsRetired.upd 0 (tileOf a) (· + 1) }
    | _ =>
      let c := s.carrierOf a
      let v := s.carrier c
      (s.setCarrier c { v with spares := v.spares - 1 }).setHealth
        { s.health with pagesRetired := s.health.pagesRetired.upd 0 c (· + 1) }

/-- The health events of a retirement (R290): MEM_RETIRED, and SPARES_LOW where the bank or carrier had no spare. -/
def State.retireEvent (s : State) (a cls : Nat) (early had : Bool) : State :=
  let tile := if tierCode a = 2 then 0xFF else tileOf a
  let n := s.sparesLeft a
  let s := s.healthEvent 0x103 tile (s.retireIndex a cls early) (unitOf a) n
  if had then s else s.healthEvent 0x104 tile (s.retireIndex a cls early) (unitOf a) n

/-- The class code of a MEM_RETIRED event: 0xF where the unit lies in no region (R290). -/
def State.retireClass (s : State) (a : Nat) : Nat :=
  match s.regionAt a with
  | some (_, r) => r.cls
  | none => if s.classAt a = 0 then 0 else 0xF

end Sys2Proof.Machine
end

