-- ==== Sys2Proof/Machine/Array.lean ====
section
/-! DEFINITION. Matrix arrays (chapter 3): the accumulator store, leases and the lease queue, the PRODUCT command with its
panel, stream and preload, and the delivery of gradient tiles to products. -/
namespace Sys2Proof.Machine

/-! ### The accumulator store (R70, R490) -/

/-- The values of a tile as an operation of its shape and mode sees them, hi then lo: what its slots hold where one tile
of that shape and mode wrote them all, zeros where nothing has written them, otherwise free values (R490). -/
def ArraySt.readTile (a : ArraySt) (fresh first : Nat) (shape : Shape) (comp : Bool) : List X32 × List X32 :=
  let slots := (List.range (shape.foot comp)).map (first + ·)
  let o : SlotOwner := { first := first, shape := shape, comp := comp }
  if slots.all (fun k => a.owners.find? k == some o) then
    match a.tiles.find? first with
    | some t => (t.hi, if comp then t.lo else List.replicate 1024 0)
    | none => (List.replicate 1024 0, List.replicate 1024 0)
  else if slots.all (fun k => (a.owners.find? k).isNone) then (List.replicate 1024 0, List.replicate 1024 0)
  else ((List.range 1024).map (Config.freeX32 fresh),
        if comp then (List.range 1024).map (fun k => Config.freeX32 fresh (1024 + k)) else List.replicate 1024 0)

/-- A tile's values written: its slots become this tile's. -/
def ArraySt.writeTile (a : ArraySt) (first : Nat) (shape : Shape) (comp : Bool) (hi lo : List X32) : ArraySt :=
  let o : SlotOwner := { first := first, shape := shape, comp := comp }
  { a with owners := ((List.range (shape.foot comp)).map (first + ·)).foldl (fun t k => t.set k o) a.owners,
           tiles := a.tiles.set first { shape := shape, comp := comp, hi := hi, lo := if comp then lo else [] } }

/-! ### Leases (R74 to R76) -/

/-- The slots of a lease and of a footprint overlap. -/
def Lease.overlaps (l : Lease) (first foot : Nat) : Bool := decide (l.first < first + foot) && decide (first < l.first + l.foot)

/-- The lease on the tile that starts at a slot. -/
def ArraySt.lease? (a : ArraySt) (first : Nat) : Option Lease := a.leases.find? (fun l => l.first == first)

def ArraySt.setLease (a : ArraySt) (l : Lease) : ArraySt :=
  { a with leases := l :: a.leases.filter (fun x => x.first != l.first) }

/-- A lease ends (R94 event 9). -/
def ArraySt.dropLease (a : ArraySt) (first : Nat) : ArraySt :=
  { a with leases := a.leases.filter (fun x => x.first != first) }

/-! ### Slot windows (R77, R371) -/

/-- The slots [base, base + size) of an array with their leases, and the operations of a function that wait there, counted
from base. -/
def ArraySt.cut (a : ArraySt) (f : Fn) (base size : Nat) : ArraySt :=
  let inside (k : Nat) : Bool := decide (base ≤ k) && decide (k < base + size)
  let owners := (List.filter (fun (e : Nat × SlotOwner) => inside e.1) a.owners).map (fun e => (e.1 - base, { e.2 with first := e.2.first - base }))
  let tiles := (List.filter (fun (e : Nat × AccTile) => inside e.1) a.tiles).map (fun e => (e.1 - base, e.2))
  let leases := (a.leases.filter (fun l => l.fn == f)).map (fun l => { l with first := l.first - base })
  { owners := owners, tiles := tiles, leases := leases, waiting := a.waiting.filter (fun w => w.src.fn == f) }

/-- An array without those slots, which read zero then, and without that function's operations. -/
def ArraySt.uncut (a : ArraySt) (f : Fn) (base size : Nat) : ArraySt :=
  let outside (k : Nat) : Bool := decide (k < base) || decide (base + size ≤ k)
  { a with owners := List.filter (fun (e : Nat × SlotOwner) => outside e.1) a.owners,
           tiles := List.filter (fun (e : Nat × AccTile) => outside e.1) a.tiles,
           leases := a.leases.filter (fun l => l.fn != f), waiting := a.waiting.filter (fun w => w.src.fn != f) }

/-- A cut window placed at a base. -/
def ArraySt.paste (a : ArraySt) (base : Nat) (x : ArraySt) : ArraySt :=
  let owners := x.owners.foldl (fun t e => t.set (e.1 + base) { e.2 with first := if e.2.first = 32 then 32 else e.2.first + base }) a.owners
  let tiles := x.tiles.foldl (fun t e => t.set (e.1 + base) e.2) a.tiles
  { a with owners := owners, tiles := tiles, leases := x.leases.map (fun l => { l with first := l.first + base }) ++ a.leases,
           waiting := a.waiting ++ x.waiting }

/-- The functions whose windows are saved in a gallery. -/
def State.awayFrom (s : State) (t g : Nat) : List Nat := s.sched.away.get [] (t * 10 + g)
def State.setAway (s : State) (t g : Nat) (fs : List Nat) : State :=
  s.setSched { s.sched with away := s.sched.away.set (t * 10 + g) fs }

/-- A function's window leaves the eight arrays of a gallery for its save area. -/
def State.saveWindow (s : State) (t g : Nat) (f : Fn) : State :=
  let w := s.windowIn t g f.val
  let s := (List.range 8).foldl (fun s i =>
    let p := s.phys t (g * 8 + i)
    let a := s.array t p
    if s.arr.arrays.has (t * 84 + p) then
      let s := s.setArray t p (a.uncut f w.base w.size)
      s.setArr { s.arr with saved := s.arr.saved.set (f.val * 320 + t * 80 + g * 8 + i) (a.cut f w.base w.size) }
    else s) s
  s.setAway t g (insertNat f.val (s.awayFrom t g))

/-- A saved window goes back into the arrays of a gallery; the next panel of an array that had one is read again (R373). -/
def State.restoreWindow (s : State) (t g : Nat) (f : Fn) : State :=
  let w := s.windowIn t g f.val
  let s := (List.range 8).foldl (fun s i =>
    let p := s.phys t (g * 8 + i)
    let k := f.val * 320 + t * 80 + g * 8 + i
    if s.arr.arrays.has (t * 84 + p) then
      let a := { (s.array t p).paste w.base (s.arr.saved.get {} k) with forceReload := true }
      (s.setArray t p a).setArr { (s.setArray t p a).arr with saved := s.arr.saved.del k }
    else s) s
  s.setAway t g ((s.awayFrom t g).filter (fun x => x != f.val))

/-- Bytes of a function's save area in each tile's near tier (R374). -/
def saveBytes (slots : Nat) : Nat := 0x100000 + slots * 348160

/-- Slots of an array zeroed, with the leases that start there. -/
def ArraySt.zero (a : ArraySt) (base size : Nat) : ArraySt :=
  let outside (k : Nat) : Bool := decide (k < base) || decide (base + size ≤ k)
  { a with owners := List.filter (fun (e : Nat × SlotOwner) => outside e.1) a.owners,
           tiles := List.filter (fun (e : Nat × AccTile) => outside e.1) a.tiles, leases := a.leases.filter (fun l => outside l.first) }

/-- A function's window shrinks to n slots: the slots it gives up are zeroed in every array and in every saved copy; with n = 0
nothing of it stays (R77, R353, R385). -/
def State.shrinkWindow (s : State) (f : Fn) (n : Nat) : State :=
  let w := s.window f.val
  let s := (List.range 40).foldl (fun s k =>
    let t := k / 10
    let g := k % 10
    if (s.awayFrom t g).contains f.val then
      let s := (List.range 8).foldl (fun s i =>
        let k := f.val * 320 + t * 80 + g * 8 + i
        let saved := if n = 0 || !s.arr.saved.has k then s.arr.saved.del k else s.arr.saved.set k ((s.arr.saved.get {} k).zero n (w.size - n))
        s.setArr { s.arr with saved := saved }) s
      if n = 0 then s.setAway t g ((s.awayFrom t g).filter (fun x => x != f.val)) else s
    else (List.range 8).foldl (fun s i =>
      let p := s.phys t (g * 8 + i)
      let here := s.windowIn t g f.val
      if s.arr.arrays.has (t * 84 + p) then s.setArray t p ((s.array t p).zero (here.base + n) (here.size - n)) else s) s) s
  let ws := if n = 0 then s.prog.windows.del f.val else s.prog.windows.set f.val { w with size := n }
  let gal := if n = 0 then s.arr.gal.map (fun (k, y) => (k, { y with moving := y.moving.del f.val })) else s.arr.gal
  (s.setProg { s.prog with windows := ws }).setArr { s.arr with gal := gal }

/-- Two windows overlap. -/
def Window.meets (a b : Window) : Bool := decide (a.base < b.base + b.size) && decide (b.base < a.base + a.size)

/-- The other functions whose windows are in a gallery's arrays and overlap a function's. -/
def State.rivals (s : State) (t g : Nat) (f : Fn) : List Fn :=
  (List.finRange 17).filter (fun h => h != f && !(s.awayFrom t g).contains h.val && (s.windowIn t g h.val).meets (s.windowIn t g f.val))

/-- Drained tiles of a function that wait on a tile's bus or paths move with its window in a gallery. -/
def State.moveDrained (s : State) (t g : Nat) (f : Fn) (old new : Nat) : State :=
  let s := s.setArr { s.arr with bus := s.arr.bus.set t ((s.arr.bus.get [] t).map (fun x =>
    if x.src.fn = f && x.array / 8 = g then { x with first := x.first - old + new } else x)) }
  let k := t * 2 + g % 2
  s.setEng { s.eng with packWait := s.eng.packWait.set k ((s.eng.packWait.get [] k).map (fun x =>
    if x.src.fn = f && x.array / 8 = g then { x with first := x.first - old + new } else x)) }

/-- A function's slots move in a gallery to its window's new place, as a turn switch moves them; where other windows lie in the way
they are saved until its turn (R77, R371). -/
def State.moveWindow (s : State) (t g : Nat) (f : Fn) (old : Window) : State :=
  if (s.awayFrom t g).contains f.val then s
  else
    let y := s.gallery t g
    let s := (s.setGallery t g { y with moving := y.moving.set f.val old }).saveWindow t g f
    let y := s.gallery t g
    let s := (s.setGallery t g { y with moving := y.moving.del f.val }).moveDrained t g f old.base (s.window f.val).base
    if (s.rivals t g f).isEmpty then s.restoreWindow t g f else s

/-- The move a gallery owes a function, at its next turn change for it. -/
def State.settleMove (s : State) (t g : Nat) (f : Fn) : State :=
  match (s.gallery t g).moving.find? f.val with
  | some old => s.moveWindow t g f old
  | none => s

/-- A gallery's turn passes to a function: the windows in its way are saved, and its own is restored if it was saved (R371). -/
def State.admitTurn (s : State) (t g : Nat) (f : Fn) : State :=
  let s := s.settleMove t g f
  if (s.awayFrom t g).contains f.val then
    ((s.rivals t g f).foldl (fun s h => s.saveWindow t g h) s).restoreWindow t g f
  else s

/-- A lease ends on an array of a tile, in the array or in the saved window of its function. -/
def State.release (s : State) (t a first : Nat) (f : Fn) : State :=
  if (s.awayFrom t (a / 8)).contains f.val then
    let k := f.val * 320 + t * 80 + a
    s.setArr { s.arr with saved := s.arr.saved.set k ((s.arr.saved.get {} k).dropLease (first - (s.windowIn t (a / 8) f.val).base)) }
  else s.setArray t (s.phys t a) ((s.array t (s.phys t a)).dropLease first)

/-- A drain is complete (R94 events 8 and 9): its statistics are written, its leases end, its command has completed, and its unit passes a
command boundary. -/
def State.drainEnds (s : State) (t a first : Nat) (src : Src) (also : Option Nat) (owed : List (Nat × List Byte)) : State :=
  let s := (s.setMem (Mem.place s.mem owed)).release t a first src.fn
  let s := match also with
    | some b => s.release t b first src.fn
    | none => s
  (s.cmdDone src t 1 (a / 8)).custSettle t

/-! ### The PRODUCT record (R78) -/

structure ProductRec where
  amask : Nat
  tile : Nat
  shape : Option Shape
  comp : Bool
  group : Nat
  init : Nat
  bcast : Nat
  pside : Bool
  flow : Bool
  reload : Bool
  ssrc : Bool
  turn : Bool
  pfmt : Nat
  sfmt : Nat
  tie : Nat
  share : Nat
  kblk : Nat
  saddr : Nat
  sscale : Nat
  sstride : Nat
  ssstride : Nat
  paddr : Nat
  pscale : Nat
  pstride : Nat
  psstride : Nat
  aoff : Nat
  asoff : Nat
  spoff : Nat
  spsoff : Nat
  laddr : Nat
  lfmt : Nat
  lkind : Nat
  lstride : Nat
  laoff : Nat
  /-- A reserved bit or the opcode field is not as R78 has it. -/
  bad : Bool
deriving DecidableEq, Repr

def productRec (w : List Word) : ProductRec :=
  { amask := fld w 0 27 20, tile := fld w 0 19 15, shape := Shape.ofCode (fld w 0 14 13), comp := flag w 0 12,
    group := fld w 0 11 10, init := fld w 0 9 8, bcast := fld w 0 7 6, pside := flag w 0 5, flow := flag w 0 4,
    reload := flag w 0 3, ssrc := flag w 0 2, turn := flag w 0 1, pfmt := fld w 1 31 28, sfmt := fld w 1 27 24,
    tie := fld w 1 23 16, share := fld w 1 15 8, kblk := fld w 2 23 0, saddr := fld w 3 27 0, sscale := fld w 4 27 0,
    sstride := fld w 5 31 16, ssstride := fld w 5 15 0, paddr := fld w 6 27 0, pscale := fld w 7 27 0,
    pstride := fld w 8 31 16, psstride := fld w 8 15 0, aoff := fld w 9 27 0, asoff := fld w 10 27 0,
    spoff := fld w 11 27 0, spsoff := fld w 12 27 0, laddr := fld w 13 27 0, lfmt := fld w 14 31 30,
    lkind := fld w 14 29 28, lstride := fld w 14 15 0, laoff := fld w 15 27 0,
    bad := fld w 0 31 28 != 1 || flag w 0 0 || fld w 1 7 0 != 0 || fld w 2 31 24 != 0 || fld w 14 27 16 != 0 ||
      [3, 4, 6, 7, 9, 10, 11, 12, 13, 15].any (fun i => fld w i 31 28 != 0) }

/-- The group size G of R45. -/
def ProductRec.g (r : ProductRec) : Nat := 4 * 2 ^ r.group
/-- The shape, where it is not reserved. -/
def ProductRec.sh (r : ProductRec) : Shape := r.shape.getD .s32x32
def ProductRec.foot (r : ProductRec) : Nat := r.sh.foot r.comp
/-- Lines the panel and the stream supply (R66, PSIDE). -/
def ProductRec.plines (r : ProductRec) : Nat := if r.pside then r.sh.rows else r.sh.cols
def ProductRec.slines (r : ProductRec) : Nat := if r.pside then r.sh.cols else r.sh.rows
/-- The array indices the mask names (R78). -/
def ProductRec.arrays (r : ProductRec) : List Nat := (List.range 8).filter (fun i => bitOf r.amask i)

/-- The operand pairs of R35. -/
def pairOk (pfmt sfmt : Nat) : Bool := (decide (pfmt ≤ 2) && decide (sfmt ≤ 1)) || (pfmt == 3 && sfmt == 3)

/-- The RESIDENT limit of R66. -/
def panelLimit (pfmt lines : Nat) : Nat :=
  (if pfmt = 2 then 122880 else if pfmt = 3 then 32768 else 63488) / lines

/-- Whether n lines of a stride, each b bytes, stay below the end of the scratchpad. -/
def extentFits (a stride n b : Nat) : Bool := decide (a + (n - 1) * stride + b ≤ spadEnd)

/-- The ADDR conditions of R79, with the line extents of R278. -/
def ProductRec.addrOk (r : ProductRec) : Bool :=
  let pf := (NF.ofCode r.pfmt).getD .e4m3
  let sf := (NF.ofCode r.sfmt).getD .e4m3
  let k := 32 * r.kblk
  r.arrays.all (fun i =>
    let p := if r.bcast = 1 then i / 2 else 0
    let (n, eb, sb) := if r.turn then (k, sf.bytes r.slines, cdiv r.slines 32) else (r.slines, sf.bytes k, r.kblk)
    extentFits (r.paddr + i * r.aoff) r.pstride r.plines (pf.bytes k) &&
    (!pf.scaled || extentFits (r.pscale + i * r.asoff) r.psstride r.plines r.kblk) &&
    (r.ssrc || (extentFits (r.saddr + p * r.spoff) r.sstride n eb &&
      (!sf.scaled || extentFits (r.sscale + p * r.spsoff) r.ssstride n sb))) &&
    (r.init != 1 ||
      (let w := if r.lfmt = 1 then 2 else 4
       if r.lkind = 0 then extentFits (r.laddr + i * r.laoff) r.lstride r.sh.rows (w * r.sh.cols)
       else extentFits (r.laddr + i * r.laoff) 0 1 (w * (if r.lkind = 1 then r.sh.cols else r.sh.rows)))))

/-- The scratchpad ranges a PRODUCT reads on a tile: panels that no lens buffer holds, streams, and preloads. -/
def ProductRec.reads (r : ProductRec) (t : Nat) (held : Nat → Bool) : List (Nat × Nat) :=
  let pf := (NF.ofCode r.pfmt).getD .e4m3
  let sf := (NF.ofCode r.sfmt).getD .e4m3
  let k := 32 * r.kblk
  let at_ (a : Nat) : Nat := spadBase t + a
  r.arrays.flatMap (fun i =>
    let p := if r.bcast = 1 then i / 2 else 0
    let (n, eb, sb) := if r.turn then (k, sf.bytes r.slines, cdiv r.slines 32) else (r.slines, sf.bytes k, r.kblk)
    (if held i then [] else lineRanges (at_ (r.paddr + i * r.aoff)) r.pstride r.plines (pf.bytes k) ++
      (if pf.scaled then lineRanges (at_ (r.pscale + i * r.asoff)) r.psstride r.plines r.kblk else [])) ++
    (if r.ssrc then [] else lineRanges (at_ (r.saddr + p * r.spoff)) r.sstride n eb ++
      (if sf.scaled then lineRanges (at_ (r.sscale + p * r.spsoff)) r.ssstride n sb else [])) ++
    (if r.init != 1 then []
     else
      let w := if r.lfmt = 1 then 2 else 4
      if r.lkind = 0 then lineRanges (at_ (r.laddr + i * r.laoff)) r.lstride r.sh.rows (w * r.sh.cols)
      else [(at_ (r.laddr + i * r.laoff), w * (if r.lkind = 1 then r.sh.cols else r.sh.rows))]))

/-- Whether an array's lens buffer holds the panel a RESIDENT command names, so that it is not read again (R67, R68). -/
def ArraySt.holds (a : ArraySt) (i : Nat) (r : ProductRec) : Bool :=
  !r.flow && !r.reload && !a.forceReload && (match a.lens with
    | some p => p.elem == r.paddr + i * r.aoff && p.scale == r.pscale + i * r.asoff && p.fmt == r.pfmt && p.lines == r.plines && p.kblk == r.kblk
    | none => false)

/-- The completion code of R79 that a PRODUCT earns before its leases are looked at, lowest code first (log entry 11). DESIGN CHOICE: KBLK =
0, outside the range of R78, is ALIGN; reserved LFMT and LKIND are judged only with INIT = PRELOAD, the only use of those fields (log
entry 58). -/
def ProductRec.code (r : ProductRec) (win : Window) : Nat :=
  if !pairOk r.pfmt r.sfmt then 1
  else if r.bad || r.shape.isNone || r.group == 3 || decide (1 < r.init) || decide (1 < r.bcast) || r.kblk == 0 || r.amask == 0 ||
      r.tile % r.foot != 0 || (r.ssrc && (r.sh != .s32x32 || r.bcast != 0)) ||
      (r.init == 1 && (decide (1 < r.lfmt) || r.lkind == 3)) then 2
  else if !r.flow && decide (panelLimit r.pfmt r.plines < 32 * r.kblk) then 4
  else if !r.addrOk then 5
  else if win.size < r.tile + r.foot then 6
  else 0

/-! ### Operands of a product -/

/-- Lines of a tensor in a tile's scratchpad. -/
def readLines (m : Mem) (t : Nat) (f : NF) (a sa stride sstride n k : Nat) : List (List Byte × List Byte) :=
  (List.range n).map (fun l => lineBytes m f (spadBase t + a + l * stride) (spadBase t + sa + l * sstride) k)

/-- The panel of array index i: the one held, or the one read (R67, R68), and the lens buffer after it. -/
def ArraySt.panel (a : ArraySt) (m : Mem) (t i : Nat) (r : ProductRec) : List (List Byte × List Byte) × Option LensPanel :=
  let f := (NF.ofCode r.pfmt).getD .e4m3
  let elem := r.paddr + i * r.aoff
  let scale := r.pscale + i * r.asoff
  let read := readLines m t f elem scale r.pstride r.psstride r.plines (32 * r.kblk)
  let named : LensPanel := { elem := elem, scale := scale, fmt := r.pfmt, lines := r.plines, kblk := r.kblk, data := read }
  if r.flow then (read, none)
  else match a.lens with
    | some p => if !r.reload && !a.forceReload && { p with data := read } == named then (p.data, some p) else (read, some named)
    | none => (read, some named)

/-- The stream lines of array index i from the scratchpad, through a turn engine where TURN is set (R69, R81, R183),
and the turn engine's numeric effects. -/
def streamLines (m : Mem) (t i : Nat) (r : ProductRec) : List (List FVal) × NumStat :=
  let f := (NF.ofCode r.sfmt).getD .e4m3
  let p := if r.bcast = 1 then i / 2 else 0
  let a := r.saddr + p * r.spoff
  let sa := r.sscale + p * r.spsoff
  let k := 32 * r.kblk
  if r.turn then
    let rows := (readLines m t f a sa r.sstride r.ssstride k r.slines).map (bytesVals f r.slines)
    let (ls, st) := turnLines f r.slines rows
    (ls.map (bytesVals f k), st)
  else ((readLines m t f a sa r.sstride r.ssstride r.slines k).map (bytesVals f k), {})

/-- Whether every gradient tile taken has the stream format a product names; otherwise its operands are not a row of R35. -/
def tilesFit (r : ProductRec) (ts : List GradTile) : Bool := ts.all (fun g => NF.ofCode r.sfmt == some g.fmt)

/-- The stream lines of gradient tiles in the order taken, each tile turned where TURN is set (R143). -/
def tileLines (r : ProductRec) (ts : List GradTile) : List (List FVal) × NumStat :=
  let vals := ts.map (fun g =>
    let rows := g.lines.map (bytesVals g.fmt 32)
    if r.turn then let (ls, st) := turnLines g.fmt 32 rows; (ls.map (bytesVals g.fmt 32), st) else (rows, ({} : NumStat)))
  ((List.range 32).map (fun l => vals.flatMap (fun (rows, _) => rows.getD l [])),
   vals.foldl (fun st (_, st') => st.join st') {})

/-- The preload of an opening command (R72, R50), row-major. -/
def preload (m : Mem) (t i : Nat) (r : ProductRec) : List X32 :=
  if r.init = 1 then
    let f : NF := if r.lfmt = 1 then .bf16 else .fp32
    let base := spadBase t + r.laddr + i * r.laoff
    (List.range r.sh.rows).flatMap (fun y => (List.range r.sh.cols).map (fun x =>
      if r.lkind = 0 then toX32 (elemVal m f (base + y * r.lstride) 0 x)
      else toX32 (elemVal m f base 0 (if r.lkind = 1 then x else y))))
  else List.replicate 1024 0

/-! ### Accumulation (R45 to R49) -/

/-- The exact products of two lines. -/
def lineProducts (xs ys : List FVal) : List FVal := List.zipWith FVal.mul xs ys

/-- The rounded group sums of a reduction in groups of g (R47); the scales are already in the values. -/
def groupSums (g : Nat) (xs ys : List FVal) : List X32 :=
  (chunks g (lineProducts xs ys)).map (fun ps =>
    match ps with
    | [] => 0
    | p :: r => toX32 (r.foldl FVal.add p))

/-- One group sum enters an accumulator entry (R47, R49). -/
def accumulate (comp : Bool) (acc : X32 × X32) (t : X32) : X32 × X32 :=
  let exact_ := (ofX32 acc.1).add (ofX32 t)
  let s := toX32 exact_
  if comp then
    let e := if (ofX32 s).special then FVal.zero else exact_.sub (ofX32 s)
    (s, toX32 ((ofX32 acc.2).add e))
  else (s, acc.2)

/-- All groups of a product enter a tile, row-major. -/
def reduceTile (r : ProductRec) (panel stream : List (List FVal)) (acc : List (X32 × X32)) : List (X32 × X32) :=
  acc.zipIdx.map (fun (e, n) =>
    let y := n / r.sh.cols
    let x := n % r.sh.cols
    let pl := panel.getD (if r.pside then y else x) []
    let sl := stream.getD (if r.pside then x else y) []
    (groupSums r.g pl sl).foldl (accumulate r.comp) e)

/-! ### Starting a product on one array -/

/-- Whether a product on a tile joins, waits, opens or breaks R76: the outcome of R75 and R76. -/
inductive LeaseVerdict
  | opens | joins (l : Lease) | waits | tieError
deriving DecidableEq, Repr

def ArraySt.verdict (a : ArraySt) (r : ProductRec) (first : Nat) : LeaseVerdict :=
  match a.leases.filter (fun l => l.overlaps first r.foot) with
  | [] => if a.retiring then .waits else .opens
  | ls =>
    match ls.find? (fun l => l.first == first && r.tie != 0 && l.tie == r.tie && !l.drained) with
    | some l => if l.shape = r.sh && l.comp = r.comp && r.init = 0 then .joins l else .tieError
    | none => .waits

/-- Whether the shape, the mode or INIT of a product breaks R76 against the lease it would join. -/
def joinBad (r : ProductRec) (sh : Shape) (comp : Bool) : Bool := !(sh == r.sh && comp == r.comp && r.init == 0)

/-- The tie tag, shape and mode a tile is leased under once the operations waiting on an array have run: none if its drain is among
them. -/
def tieAfter (tile : Nat) (fn : Fn) (now : Option (Nat × Shape × Bool)) : List WaitOp → Option (Nat × Shape × Bool)
  | [] => now
  | w :: ws =>
    let r := productRec w.words
    let next : Option (Nat × Shape × Bool) :=
      if w.src.fn != fn || r.tile != tile then now
      else if w.isDrain then none
      else match now with
        | some (tie, sh, c) => if r.tie != 0 && r.tie = tie then some (tie, sh, c) else some (r.tie, r.sh, r.comp)
        | none => some (r.tie, r.sh, r.comp)
    tieAfter tile fn next ws

/-- Whether a product breaks R76 on an array (R79 code 0x03), with what waits there before it. -/
def ArraySt.tieBad (a : ArraySt) (r : ProductRec) (fn : Fn) (first : Nat) : Bool :=
  let now := (a.lease? first).bind (fun l => if l.drained then none else some (l.tie, l.shape, l.comp))
  match tieAfter r.tile fn now a.waiting with
  | some (tie, sh, c) => r.tie != 0 && tie == r.tie && joinBad r sh c
  | none => false

/-- Whether some group of a product holds no NaN block, infinity or NaN at some position: only such a group is compared (R83). -/
def compared (r : ProductRec) (panel stream : List (List FVal)) : Bool :=
  let plain (ls : List (List FVal)) (j : Nat) : Bool := ls.any (fun l => ((l.drop (j * r.g)).take r.g).all (fun v => !v.special))
  (List.range (32 * r.kblk / r.g)).any (fun j => plain panel j && plain stream j)

/-- A product runs on one array: its groups enter the tile; a residue mismatch marks the lease and leaves the marked
entries free (R83, R84). A mismatch of a product with no group that is compared is none. -/
def State.runProduct (s : State) (t g i : Nat) (src : Src) (w : List Word) (mism : Bool) (stream : List (List FVal)) : State :=
  let r := productRec w
  let p := s.phys t (g * 8 + i)
  let a := s.array t p
  let first := (s.windowIn t g src.fn.val).base + r.tile
  let (panelB, lens) := a.panel s.mem t i r
  let panel := panelB.map (bytesVals ((NF.ofCode r.pfmt).getD .e4m3) (32 * r.kblk))
  let mism := mism && compared r panel stream
  let rec_ : LogRec := { words := w, ssrc := r.ssrc }
  let (l, start) : Lease × List (X32 × X32) :=
    match a.lease? first with
    | some l =>
      let (hi, lo) := a.readTile s.fresh first l.shape l.comp
      ({ l with log := if l.log.length < 8 then l.log ++ [rec_] else l.log,
                overflowed := l.overflowed || decide (8 ≤ l.log.length) }, hi.zip lo)
    | none =>
      ({ first := first, foot := r.foot, shape := r.sh, comp := r.comp, tie := r.tie, fn := src.fn, handle := src.handle,
         drained := false, mism := 0, log := [rec_], overflowed := false, marked := false, held := none },
       (preload s.mem t i r).map (fun x => (x, 0)))
  let out := if mism then (List.range 1024).map (fun k => (Config.freeX32 s.fresh k, if r.comp then Config.freeX32 s.fresh (1024 + k) else 0))
    else reduceTile r panel stream start
  let l := { l with marked := l.marked || mism, mism := l.mism + b2n mism }
  let a := (a.writeTile first r.sh r.comp (out.map (·.1)) (out.map (·.2))).setLease l
  let s := s.setArray t p { a with lens := lens, forceReload := false }
  if mism then s.useFree else s

/-- The numeric effects of a stream turned on its way, in its turn engine's stream, once for all the arrays it is broadcast to (R69,
R182, R183). -/
def State.countTurn (s : State) (t g : Nat) (st : NumStat) : State :=
  let k := t * 2 + g % 2
  s.setEng { s.eng with turn := s.eng.turn.set k ((s.eng.turn.get {} k).join st) }

/-- The arrays of a product that each turned stream's effects are counted for: with BCAST = ALL the first one named, with TWIN the first of
each pair (R183). -/
def ProductRec.counts (r : ProductRec) (i : Nat) : Bool :=
  r.turn && (if r.bcast = 1 then (r.arrays.filter (fun j => j / 2 == i / 2)).head? == some i else r.arrays.head? == some i)

/-! ### Gradient tiles on their way to products (R143) -/

/-- Tiles of the delivery sequence go to the product whose turn it is, one by one. -/
def feedOps (id : Nat) (tile : GradTile) (ws : List WaitOp) : List WaitOp :=
  ws.map (fun w => if w.id == id && w.taken.length < w.need then { w with taken := w.taken ++ [tile] } else w)

/-- The share port (pair × 256 + SHARE) of a gallery on a tile, as one key. -/
def GallerySt.port (g : GallerySt) (k : Nat) : List GradTile := g.share.get [] k

/-- The share port of a program's twin pair under a SHARE tag, as one key. -/
def portKey (handle i share : Nat) : Nat := (handle * 4 + i / 2) * 256 + share

/-- One tile leaves the delivery buffer for the first taker of its program, while that program's window is in the arrays and the share
ports it enters have room: a port holds up to four tiles (R82). -/
def State.feedOne (s : State) (t g : Nat) : State :=
  let y := s.gallery t g
  match y.delivery with
  | [] => s
  | tile :: rest =>
    match y.takers.find? (fun k => k.handle == tile.handle) with
    | none => s
    | some k =>
      let away := match s.progAt k.handle with
        | some p => (s.awayFrom t g).contains p.fn.val
        | none => false
      if away || k.ports.any (fun q => decide (4 ≤ (y.port q).length)) then s
      else
        let s := k.arrays.foldl (fun s i =>
          let p := s.phys t (g * 8 + i)
          let a := s.array t p
          s.setArray t p { a with waiting := feedOps k.id tile a.waiting }) s
        let share := k.ports.foldl (fun sh q => sh.set q (sh.get [] q ++ [tile])) y.share
        let takers := (y.takers.map (fun x => if x.id == k.id then { x with left := x.left - 1 } else x)).filter (fun x => x.left != 0)
        s.setGallery t g { y with delivery := rest, share := share, takers := takers }

/-- Tiles leave the delivery buffer while a product takes them: at most 16 are there. -/
def State.feed (s : State) (t g : Nat) : State := (List.range 16).foldl (fun s _ => s.feedOne t g) s

/-- A product of the array that does not take from the gallery's sequence takes from its share port (R143), which then has room for more
(R82). -/
def State.takeShare (s : State) (t g i : Nat) (w : WaitOp) : State × WaitOp :=
  let r := productRec w.words
  let y := s.gallery t g
  let k := portKey w.src.handle i r.share
  if r.ssrc && r.share != 0 && y.taker.has k && y.taker.get 0 k != i then
    let n := w.need - w.taken.length
    ((s.setGallery t g { y with share := y.share.set k ((y.port k).drop n) }).feed t g, { w with taken := w.taken ++ (y.port k).take n })
  else (s, w)

/-- Whether no array of a gallery still holds an operation of a command. -/
def State.allStarted (s : State) (t g : Nat) (src : Src) : Bool :=
  (List.range 8).all (fun i => (s.array t (s.phys t (g * 8 + i))).waiting.all (fun w => w.src != src))

/-- The first product of an array's lease queue starts if it can: its tiles have come, and its tile is free or joined. Gradient tiles
of another format than the stream's complete it with FMT (R35), a TIE error with its code. The command completes with its last array. -/
def State.startProduct (s : State) (t g i : Nat) (w : WaitOp) : State :=
  let (s, w) := s.takeShare t g i w
  let r := productRec w.words
  let a := s.array t (s.phys t (g * 8 + i))
  let first := (s.windowIn t g w.src.fn.val).base + r.tile
  let s := s.setArray t (s.phys t (g * 8 + i)) { a with waiting := w :: a.waiting.tail }
  let done (s : State) : State :=
    let a := s.array t (s.phys t (g * 8 + i))
    s.setArray t (s.phys t (g * 8 + i)) { a with waiting := a.waiting.tail }
  match a.verdict r first with
  | .waits => s
  | .tieError => (done s).programFault w.src 3 t 0 (g * 8 + i)
  | _ =>
    if w.taken.length < w.need then s
    else if r.ssrc && !tilesFit r w.taken then (done s).programFault w.src 1 t 0 (g * 8 + i)
    else
      let (stream, st) := if r.ssrc then tileLines r w.taken else streamLines s.mem t i r
      let s := (done s).runProduct t g i w.src w.words w.mism stream
      let s := if r.counts i then s.countTurn t g st else s
      if s.allStarted t g w.src then s.cmdDone w.src t 0 g else s

/-! ### The command -/

/-- Whether a gallery may run a function's command: engines out of reset (R434), the gallery awake, its tile not held (R433), the program
not stopped (R80), the turn open to the function (R370), its window in the arrays (R371). -/
def State.galleryOpen (s : State) (t g : Nat) (src : Src) : Bool :=
  s.released && !(s.gallery t g).gated && !(s.tilePwr t).hold && !s.stopped src && s.turnOpen src t 0 g && !(s.awayFrom t g).contains src.fn.val

/-- Whether a drain of a program is stopped at a preemption point in a gallery (R95): it goes on before its program's next command. -/
def State.drainStopped (s : State) (t g : Nat) (src : Src) : Bool :=
  (List.range 8).any (fun i => (s.array t (s.phys t (g * 8 + i))).leases.any (fun l => l.handle == src.handle && l.part.isSome))

/-- Whether a gallery takes a new command: open to it, no drain of its program stopped there, and the command ready in its queue. -/
def State.galleryTakes (s : State) (t g : Nat) (src : Src) (ws ext : List Word) : Bool :=
  s.galleryOpen t g src && !s.drainStopped t g src && s.ready src (queueCode t 0 g) (EngCmd.is ws ext)

/-- Whether a footprint lies in the window a gallery still has of a function, before its move (R77). -/
def State.slotsHere (s : State) (t g : Nat) (f : Fn) (tile foot : Nat) : Bool :=
  match (s.gallery t g).moving.find? f.val with
  | some w => decide (tile + foot ≤ w.size)
  | none => true

/-- The array indices of a product that take tiles from the gallery's sequence (R143): all without a SHARE tag, else
those that are, or become, their pair's taking array. -/
def takingArrays (y : GallerySt) (handle : Nat) (r : ProductRec) : List Nat :=
  r.arrays.filter (fun i => r.share == 0 || y.taker.get i (portKey handle i r.share) == i)

/-- PRODUCT enters the queue of every array it names; a product with SSRC = 1 takes its place in the gallery's
sequence. On an array whose lease queue was empty it starts at once if it can (R75, R143). A product that fails on one of its arrays
starts on none (R79), and one whose operands have failed waits or completes with DATA (R287, R293). PROGRAM_FAULT names the first array of AMASK, or array index 0 where AMASK names none (DESIGN CHOICE, log entry
58). -/
def execProduct (t : TileIx) (g : Fin 10) (src : Src) (ws : List Word) (mism : BitVec 8) (s : State) :
    Host.Outcome State Fault Refusal :=
  let r := productRec ws
  if !s.galleryTakes t g src ws [] || !s.slotsHere t g src.fn r.tile r.foot then .next s
  else
    let code := r.code (s.window src.fn.val)
    let first := (s.windowIn t g src.fn.val).base + r.tile
    if code ≠ 0 then .next (s.programFault src code t 0 (g.val * 8 + (r.arrays.headD 0)))
    else
    match r.arrays.find? (fun i => (s.array t (s.phys t (g.val * 8 + i))).tieBad r src.fn first) with
    | some i => .next (s.programFault src 3 t 0 (g.val * 8 + i))
    | none => .next (s.readOr src t 0 (g.val * 8 + r.arrays.headD 0)
        (r.reads t (fun i => (s.array t (s.phys t (g.val * 8 + i))).holds i r)) (fun s =>
      let y := s.gallery t g
      let taking := takingArrays y src.handle r
      let ports := if r.share = 0 then [] else taking.map (fun i => portKey src.handle i r.share)
      let id := y.seq + 1
      let s := if r.ssrc then
          s.setGallery t g { y with
            seq := id,
            takers := if taking.isEmpty then y.takers
              else y.takers ++ [{ id := id, arrays := taking, ports := ports, handle := src.handle, left := r.kblk }],
            taker := if r.share = 0 then y.taker else taking.foldl (fun k i => k.set (portKey src.handle i r.share) i) y.taker }
        else s
      let free := r.arrays.filter (fun i => (s.array t (s.phys t (g.val * 8 + i))).waiting.isEmpty)
      let s := r.arrays.foldl (fun s i =>
        let p := s.phys t (g.val * 8 + i)
        let a := s.array t p
        let w : WaitOp := { isDrain := false, src := src, words := ws, ext := [], sideFailed := 0,
                            mism := mism.getLsbD i, id := if r.ssrc then id else 0, need := if r.ssrc then r.kblk else 0, taken := [] }
        s.setArray t p { a with waiting := a.waiting ++ [w] }) s
      let s := if r.ssrc then s.feed t g else s
      free.foldl (fun s i =>
        match (s.array t (s.phys t (g.val * 8 + i))).waiting with
        | w :: _ => s.startProduct t g i w
        | [] => s) (s.took src t 0 g)))

end Sys2Proof.Machine
end

