-- ==== Sys2Proof/Machine/Admit.lean ====
section
/-! DEFINITION. What a program holds while it is admitted, taken and given back: keys, slot windows and save areas, page pools,
retirement and replacement (R77, R175, R251, R349, R353, R371, R374). -/
namespace Sys2Proof.Machine

/-! ### Keys and programs -/

/-- A COMMIT of KEY(f) on a tile (R175): the staged keys are in force for every command that starts from now on; one under way keeps the
keys it started with. -/
def State.commitStaged (s : State) (t f : Nat) : State :=
  let k := s.keySt t f
  (s.setKeySt t f { k with active := k.staged, pending := true, units := List.range 9 }).keysSettle t

/-- A key of a function written and committed on every tile (R175). -/
def State.commitKey (s : State) (f j : Nat) (v : DWord) : State :=
  (List.range 4).foldl (fun s t =>
    let k := s.keySt t f
    (s.setKeySt t f { k with staged := k.staged.set j v }).commitStaged t f) s

/-- The slot window a function's remaining programs need (R77). -/
def State.windowNeed (s : State) (f : Fn) : Nat :=
  (s.prog.progs.filter (fun e => e.2.fn == f)).foldl (fun n e => max n e.2.img.slots) 0

/-- Whether some admitted program's image declares a group descriptor. -/
def State.groupInUse (s : State) (d : Nat) : Bool := List.any s.prog.progs (fun e => e.2.img.groups.any (fun g => g.desc == d))

/-- Formed serving steps are given up whole, or lose the parts of requests that have gone; what the samplers hold for them goes too. -/
def State.cutSteps (s : State) (whole : GroupSt → Bool) (gone : List Nat) : State :=
  let dead (x : GroupSt) (i : Nat) : Bool := whole x || gone.contains i
  let cut := s.serve.groups.flatMap (fun (e : Nat × GroupSt) =>
    match e.2.plan with | some pl => pl.slots.filter (fun y => dead e.2 y.req) | none => [])
  let groups := s.serve.groups.map (fun (g, x) => (g, { x with
    plan := if whole x then none else x.plan.map (fun pl => { pl with
      parts := pl.parts.filter (fun y => !gone.contains y.req), slots := pl.slots.filter (fun y => !gone.contains y.req) })
    badReqs := if whole x then [] else x.badReqs.filter (fun i => !gone.contains i) }))
  let samp := s.serve.samp.map (fun (t, e) => (t, ({
    open_ := e.open_.filter (fun o => !cut.any (fun x => x.tile == t && x.pidx == o.pidx))
    drawn := e.drawn.filter (fun d => !cut.any (fun x => x.req == d.req)) } : SampSt)))
  (List.range 4).foldl State.keysSettle (s.setServe { s.serve with groups := groups, samp := samp })

/-- A program is retired (R353): it stops, a serving step of it is given up, its plan's regions are released, and its function's window shrinks to the largest
of the remaining programs or is released with the last. -/
def State.retireProg (s : State) (h : Nat) : State :=
  match s.progAt h with
  | none => s
  | some p =>
    let s := (s.dropWork h).cutSteps (fun x => x.prog == h) []
    let s := s.setProg { s.prog with progs := s.prog.progs.del h }
    let s := s.setProg { s.prog with groups := s.prog.groups.filter (fun e => s.groupInUse e.1) }
    let s := s.setTier { s.tier with regions := s.tier.regions.filter (fun e => !p.regions.contains e.1) }
    let n := s.windowNeed p.fn
    let s := s.shrinkWindow p.fn (min n (s.window p.fn.val).size)
    let s := s.setProg { s.prog with saves := if n = 0 then s.prog.saves.del p.fn.val else s.prog.saves.set p.fn.val (saveBytes n) }
    s.setServe { s.serve with groups := s.serve.groups.map (fun (g, x) => (g, if x.prog = h then { x with prog := 0 } else x)) }

/-! ### Programs and groups (R21, R244, R246, R251, R369) -/

/-- The page indices of a group's pool that no request holds, within the group's share: near pages first, then far ones (R251). -/
def State.poolOf (s : State) (g : Nat) (c : ServingCfg) : List Nat × List Nat :=
  let k0 := s.pageIndex0 g
  let near := min c.pagesNear (s.pageShare g)
  let free (n k : Nat) : List Nat := ((List.range n).map (k0 + k + ·)).filter (fun i => !(s.serve.pages.has i))
  (free near 0, if c.farKv then free (min c.pagesFar (s.pageShare g - near)) near else [])

/-- A program becomes the one that defines its tile group's serving settings (R369). -/
def State.claimGroup (s : State) (h : Nat) : State :=
  match (s.progAt h).bind (fun p => p.img.serving) with
  | none => s
  | some c =>
    let s := s.setGroup c.group { s.group c.group with prog := h }
    let (near, far) := s.poolOf c.group c
    s.setGroup c.group { s.group c.group with freeNear := near, freeFar := far }

/-- A serving program that waits for its group's boundary takes the place of the one it replaces (R349). -/
def State.applyServeReplace (s : State) (g : Nat) : State :=
  match s.prog.serveNext.find? g with
  | none => s
  | some (old, new) => ((s.setProg { s.prog with serveNext := s.prog.serveNext.del g }).retireProg old).claimGroup new

/-! ### Requests that leave (R254, R257, R273) -/

/-- STATUS codes (R257). -/
def ReqStatus.code : ReqStatus → Nat
  | .queued => 0 | .prefill => 1 | .decode => 2 | .deferred => 3 | .finished => 4 | .cancelled => 5 | .deadline => 6
  | .paused => 7 | .aborted => 8 | .nopages => 9
def CancelSt.code : CancelSt → Nat
  | .none_ => 0 | .pending => 1 | .applied => 2 | .tooLate => 3
def Reason.code : Reason → Nat
  | .none_ => 0 | .eos => 1 | .maxlen => 2 | .stopseq => 3

/-- Generated tokens committed. -/
def Req.gen (q : Req) : Nat := q.generated.length
/-- AGE on its group's first tile (R255, R261). -/
def State.age (s : State) (q : Req) : Nat := s.watch q.home - q.accepted

/-- Pages a request needs for n positions. -/
def pagesFor (n : Nat) : Nat := cdiv n 256

/-- Page indices go back to their group's pool, kept rising. -/
def State.freePageList (s : State) (g : Nat) (c : ServingCfg) (ks : List Nat) : State :=
  let near := ks.filter (fun k => decide (k - s.pageIndex0 g < c.pagesNear))
  let far := ks.filter (fun k => !decide (k - s.pageIndex0 g < c.pagesNear))
  let x := s.group g
  let s := s.setGroup g { x with freeNear := unionNat near x.freeNear, freeFar := unionNat far x.freeFar }
  s.setServe { s.serve with pages := ks.foldl (fun t k => t.del k) s.serve.pages }

/-- The pages of a request beyond its first n go back (R254, R273). -/
def State.trimPages (s : State) (q : Req) (n : Nat) : State × Req :=
  match s.servingCfg q.group with
  | none => (s, { q with pages := q.pages.take n })
  | some c =>
    let gone := q.pages.drop n
    let s := s.freePageList q.group c gone
    let mem := (List.range gone.length).foldl (fun (m : Mem) j => m.writeN (spadBase q.home + q.pdir + 4 * (n + j)) (leBytes 4 0)) s.mem
    (s.setMem mem, { q with pages := q.pages.take n })

/-- DATA of REQ_DONE (R363). -/
def State.reqDoneData (s : State) (i : Nat) (q : Req) : List Byte :=
  leBytes 2 i ++ leBytes 1 (q.status.code + q.reason.code * 16 + q.cancel.code * 64) ++ [0] ++ leBytes 4 q.reqid.toNat ++ leBytes 4 q.gen ++
    leBytes 8 (s.age q) ++ leBytes 4 q.charged

/-- A terminal request leaves: pages and entry freed, its customer's or function's count (R257, R385, R390). -/
def State.leave (s : State) (i : Nat) (q : Req) : State :=
  let (s, _) := s.trimPages q 0
  let s := s.setServe { s.serve with reqs := s.serve.reqs.del i }
  let a := s.fnp.cust.get {} q.cust
  let a := if q.status == .finished then { a with nfin := (a.nfin + 1) % 2 ^ 32 } else { a with nend := (a.nend + 1) % 2 ^ 32 }
  let s := s.setFnp { s.fnp with cust := s.fnp.cust.set q.cust a }
  let f := s.fnp.acct.get {} q.fn.val
  if q.flr && q.status == .aborted then s.setFnp { s.fnp with acct := s.fnp.acct.set q.fn.val { f with aborted := satAdd64 f.aborted 1 } } else s

/-- Its REQ_DONE, unless its function was reset. -/
def State.reqDone (s : State) (i : Nat) (q : Req) : State := if q.flr then s else s.post q.fn.val 5 0 (s.reqDoneData i q)

/-- Every terminal request leaves, the steps it took part in among the rest; and those that left. -/
def State.leaveAll (s : State) : State × List (Nat × Req) :=
  let gone := List.filter (fun (e : Nat × Req) => e.2.status.terminal) s.serve.reqs
  ((gone.foldl (fun s e => s.leave e.1 e.2) s).cutSteps (fun _ => false) (gone.map (·.1)), gone)

/-! ### Slot windows (R77, R371, R374) -/

/-- Slots of other functions' windows that a window at a base overlaps. -/
def State.windowCost (s : State) (f : Fn) (base size : Nat) : Nat :=
  ((List.finRange 17).map (fun h =>
    let w := s.window h.val
    if h = f then 0 else min (base + size) (w.base + w.size) - max base w.base)).sum

/-- The base with the least overlap, the lowest among equals. -/
def State.windowBase (s : State) (f : Fn) (size : Nat) : Nat :=
  (List.range (33 - size)).foldl (fun b x => if s.windowCost f x size < s.windowCost f b size then x else b) 0

/-- A function's window grows to a size: it is placed anew, and its slots move with it in each gallery, at once where no turn of the
function is under way there, otherwise when that turn ends (R77). -/
def State.growWindow (s : State) (f : Fn) (size : Nat) : State :=
  let w := s.window f.val
  if size ≤ w.size then s
  else
    let s := s.setProg { s.prog with windows := s.prog.windows.set f.val { base := s.windowBase f size, size := size } }
    (List.range 40).foldl (fun s k =>
      let (t, g) := (k / 10, k % 10)
      let y := s.gallery t g
      if y.moving.has f.val then s
      else if (s.engSched (queueCode t 0 g)).current = some f.val && w.size != 0 then
        s.setGallery t g { y with moving := y.moving.set f.val w }
      else s.moveWindow t g f w) s

end Sys2Proof.Machine
end

