-- ==== Sys2Proof/Machine/Account.lean ====
section
/-! DEFINITION. What is charged to functions and customers (R388, R390). -/
namespace Sys2Proof.Machine

/-- A function's open record changed. -/
def State.charge (s : State) (f : Nat) (g : FnAcct → FnAcct) : State := s.setFnp { s.fnp with acct := s.fnp.acct.upd {} f g }
/-- A customer's record changed. -/
def State.chargeTo (s : State) (c : Nat) (g : CustAcct → CustAcct) : State := s.setFnp { s.fnp with cust := s.fnp.cust.upd {} c g }

/-- Engine time of a class, and bytes of a class, in a record. -/
def FnAcct.addTime (a : FnAcct) (cls n : Nat) : FnAcct := { a with cls := a.cls.upd 0 cls (fun x => satAdd64 x n) }
def FnAcct.addBytes (a : FnAcct) (cls n : Nat) : FnAcct := { a with bytes := a.bytes.upd 0 cls (fun x => satAdd64 x n) }
def State.addTime (s : State) (f cls n : Nat) : State := s.charge f (fun a => a.addTime cls n)

/-! ### The split of a serving step (R369, R388) -/

/-- An amount divided by weights (key, weight), a remainder going to the lowest key. -/
def shareOut (total : Nat) (ws : List (Nat × Nat)) : List (Nat × Nat) :=
  let sum := (ws.map (·.2)).sum
  let parts := ws.map (fun x => (x.1, if sum = 0 then 0 else total * x.2 / sum))
  let low := (ws.map (·.1)).foldl min ((ws.headD (0, 0)).1)
  let rest := total - (parts.map (·.2)).sum
  parts.map (fun x => if x.1 = low then (x.1, x.2 + rest) else x)

/-- Weights gathered by key. -/
def gather (ws : List (Nat × Nat)) : List (Nat × Nat) := ws.foldl (fun (t : Tab Nat) x => t.upd 0 x.1 (· + x.2)) []

/-- The positions of a formed step by record (function × 2, and 1 more for requests of a function that was reset, whose closed record
includes them, R387), and by customer. -/
def State.planFns (s : State) (pl : StepPlan) : List (Nat × Nat) :=
  gather (pl.parts.filterMap (fun x => (s.req? x.req).map (fun q => (q.fn.val * 2 + b2n q.flr, x.positions))))
def State.planCusts (s : State) (pl : StepPlan) : List (Nat × Nat) :=
  gather (pl.parts.filterMap (fun x => (s.req? x.req).map (fun q => (q.cust, x.positions))))

/-- A record changed, by its key; a closed record that has been read is no more, and the open one takes what comes. -/
def State.chargeRec (s : State) (k : Nat) (g : FnAcct → FnAcct) : State :=
  match (if k % 2 = 1 then s.fnp.closed.find? (k / 2) else none) with
  | some a => s.setFnp { s.fnp with closed := s.fnp.closed.set (k / 2) (g a) }
  | none => s.charge (k / 2) g

/-- The serving step that runs on a tile, if any. -/
def State.stepAt (s : State) (tile : Nat) : Option StepPlan :=
  if 4 ≤ tile then none else
  (List.range 4).findSome? (fun g =>
    if s.firstTile g ≤ tile && tile < s.firstTile g + s.groupTiles g then (s.group g).plan else none)

/-- An amount charged to a function, or, for the physical function on a tile whose group runs a serving step, to the functions of the step
by their positions. -/
def State.chargeStep (s : State) (tile f n : Nat) (g : Nat → FnAcct → FnAcct) : State :=
  match (if f = 0 then s.stepAt tile else none) with
  | none => s.charge f (g n)
  | some pl => (shareOut n (s.planFns pl)).foldl (fun s x => s.chargeRec x.1 (g x.2)) s

/-- Bytes of a class for a requester on a tile (4: the hub). -/
def State.addBytes (s : State) (tile f cls n : Nat) : State := if n = 0 then s else s.chargeStep tile f n (fun n a => a.addBytes cls n)

/-- Byte classes of R390. -/
def bytesBridge := 4
def bytesWidunOut := 5
def bytesWidunIn := 6
def bytesCxlOut := 7
def bytesCxlIn := 8

/-- n bytes at a local address, read or written by a requester on a tile (4: the hub): by tier, and over the tile bridges where
the address lies with another die. Scratchpad bytes have no class of their own. -/
def State.countBytes (s : State) (tile f a n : Nat) (write : Bool) : State :=
  let s := match tierCode a with
    | 1 => s.addBytes tile f (b2n write) n
    | 2 => s.addBytes tile f (2 + b2n write) n
    | _ => s
  let home := if tierCode a = 2 then 4 else tileOf a
  if home = tile then s else s.addBytes tile f bytesBridge n

end Sys2Proof.Machine
end

