-- ==== Sys2Proof/Machine/Flags.lean ====
section
/-! DEFINITION. Numeric status registers (R58, R59, R148, R173, R174) and what an OVF counts towards (R202). -/
namespace Sys2Proof.Machine

/-- A NUMSTAT register as it reads: OVF, UNF, NAN in bits 31 to 29 and, for a vector engine, SAT in bit 27. -/
def NumStat.word (st : NumStat) (sat : Bool) : Nat :=
  b2n st.ovf * 2 ^ 31 + b2n st.unf * 2 ^ 30 + b2n st.nan * 2 ^ 29 + (if sat then b2n st.sat * 2 ^ 27 else 0)

/-- The counters cleared (CNT_CLR). -/
def NumStat.clearCounts (st : NumStat) : NumStat := { st with vanished := 0, clipped := 0, satcnt := 0 }

/-- A write to a NUMSTAT register: W1C flags, then CNT_CLR (R58, R173). -/
def NumStat.write (st : NumStat) (sat : Bool) (v : Word) : NumStat :=
  let v := v.toNat
  let st := { st with ovf := st.ovf && !bitOf v 31, unf := st.unf && !bitOf v 30, nan := st.nan && !bitOf v 29,
                      sat := st.sat && !(sat && bitOf v 27) }
  if bitOf v 28 then st.clearCounts else st

/-- An OVF of a tile's source counts towards the step's overflow check (R202; sources as in R364). -/
def State.countOvf (s : State) (t source : Nat) (ovf : Bool) : State :=
  if ovf && s.run.active then
    (s.setEng { s.eng with check := insertNat (t * 6 + source) s.eng.check }).setRun { s.run with ovf := true }
  else s

end Sys2Proof.Machine
end

