-- ==== Sys2Proof/Machine/Approx.lean ====
section
/-! DEFINITION. The functions whose accuracy the spec states in units in the last place (R102, R124, R155). The exact
value is enclosed by fixed-point series far finer than a format's last place; the engine's answer is one of the values of the
format that lie within the stated distance of it, and which one is free (log entry 4). -/
namespace Sys2Proof.Machine

/-! ### The values within a distance of an exact one -/

/-- floor of m × 2^e in units of 2^q. -/
def floorAt (q : Int) (m : Nat) (e : Int) : Nat := if q ≤ e then m <<< (e - q).toNat else m >>> (q - e).toNat

/-- The exponent of a format's last place at a magnitude m × 2^e. -/
def Fmt.lastPlace (f : Fmt) (m : Nat) (e : Int) : Int :=
  let low : Int := 1 - (f.bias : Int) - f.fbits
  if m = 0 then low else max (floorLog2 m e - f.fbits) low

/-- The multiples of the last place that lie within w units of m × 2^e. The distance is taken to 40 bits below the last place, with a
slack of 2^-32 units for the error of the series. -/
def Fmt.within (f : Fmt) (w m : Nat) (e : Int) : List Int :=
  let v : Int := floorAt (f.lastPlace m e - 40) m e
  let k : Int := v / 2 ^ 40
  ((List.range (2 * w + 3)).map (fun i => k - w - 1 + (i : Int))).filter
    (fun j => decide ((j * 2 ^ 40 - v).natAbs ≤ w * 2 ^ 40 + 2 ^ 8))

/-- One of the values within w units in the last place of v: the pick-th, counted round the list. -/
def Fmt.nearby (f : Fmt) (w pick : Nat) (v : FVal) : FVal :=
  match v with
  | .fin n m e =>
    let l := f.within w m e
    let j := l.getD (pick % l.length) 0
    .fin (if j < 0 then !n else n) j.natAbs (f.lastPlace m e)
  | v => v

/-! ### Enclosures -/

/-- Bits of the fixed-point fractions below. -/
def fracBits : Nat := 160
def fixOne : Int := 2 ^ fracBits
/-- ln 2 and 1/√(2π), rounded down. -/
def fixLn2 : Int := 1013035739299659071135698605846798551586536899366
def fixInvSqrt2Pi : Int := 583054796007218040734191730443699882195345907504

/-- A finite value in fixed point, rounded towards zero. -/
def toFix (n : Bool) (m : Nat) (e : Int) : Int :=
  let a : Int := floorAt (-(fracBits : Int)) m e
  if n then -a else a
def ofFix (x : Int) : FVal := .fin (decide (x < 0)) x.natAbs (-(fracBits : Int))

/-- 1 + r/1 · (1 + r/2 · (1 + …)), i terms. -/
def expSeries (r : Int) : Nat → Int → Int
  | 0, acc => acc
  | i + 1, acc => expSeries r i (fixOne + r * acc / ((i + 1 : Nat) * fixOne))

/-- 2^k · e^r for a fixed-point r of at most about 1/2. -/
def expParts (k r : Int) : FVal := .fin false (expSeries r 40 fixOne).toNat (k - fracBits)

/-- e^v. Beyond 2^13 the result is far outside every format. -/
def FVal.exp (v : FVal) : FVal :=
  match v with
  | .nan => .nan
  | .inf n => if n then .zero else .inf false
  | .fin n m e =>
    if FVal.lt (.fin false 1 13) (.fin false m e) then .fin false 1 (if n then -8192 else 8192)
    else
      let y := toFix n m e
      let k := (y + fixLn2 / 2) / fixLn2
      expParts k (y - k * fixLn2)

/-- 2^v. -/
def FVal.exp2 (v : FVal) : FVal :=
  match v with
  | .nan => .nan
  | .inf n => if n then .zero else .inf false
  | .fin n m e =>
    if FVal.lt (.fin false 1 13) (.fin false m e) then .fin false 1 (if n then -8192 else 8192)
    else
      let y := toFix n m e
      let k := (y + fixOne / 2) / fixOne
      expParts k ((y - k * fixOne) * fixLn2 / fixOne)

/-- The odd series z + z³/3 + z⁵/5 + …: 1/(2i+1) + z²·(…), from its last term. -/
def atanhSeries (z2 : Int) : Nat → Int → Int
  | 0, acc => acc
  | i + 1, acc => atanhSeries z2 i (fixOne / (2 * i + 1 : Nat) + z2 * acc / fixOne)

/-- ln (m × 2^e) of a positive magnitude in fixed point: m = 2^k · f with f in [2/3, 4/3), ln f = 2 artanh ((f − 1)/(f + 1)). -/
def lnFix (m : Nat) (e : Int) : Int :=
  let l := Nat.log2 m
  let up := decide (4 * 2 ^ l ≤ 3 * m)
  let l := if up then l + 1 else l
  let f : Int := floorAt (-(fracBits : Int)) m (-(l : Int))
  let z := (f - fixOne) * fixOne / (f + fixOne)
  ((l : Int) + e) * fixLn2 + 2 * (z * atanhSeries (z * z / fixOne) 40 0 / fixOne)

/-- ln v and log2 v of a positive value. Of −0 both are −∞, as of +0: R155 names +0 and negative values only (DESIGN CHOICE, log entry 62). -/
def FVal.ln (v : FVal) : FVal :=
  match v with
  | .fin false m e => if m = 0 then .inf true else ofFix (lnFix m e)
  | .fin true m _ => if m = 0 then .inf true else .nan
  | .inf false => .inf false
  | _ => .nan
def FVal.log2 (v : FVal) : FVal :=
  match v with
  | .fin false m e => if m = 0 then .inf true else ofFix (lnFix m e * fixOne / fixLn2)
  | v => v.ln

/-- The logistic function 1/(1 + e^−v). -/
def FVal.logistic (v : FVal) : FVal := FVal.div .one (FVal.one.add v.neg.exp)

/-- tanh v: (1 − t)/(1 + t) with t = e^(−2|v|), and v itself below 2^-60. -/
def FVal.tanh (v : FVal) : FVal :=
  if v.abs.lt (.fin false 1 (-60)) then v
  else
    let t := (v.abs.scale 1).neg.exp
    let r := (FVal.one.sub t).div (FVal.one.add t)
    if v.isNeg then r.neg else r

/-- x + x³/3 + x⁵/15 + … divided by x, with x² given. -/
def phiSeries (x2 : Int) : Nat → Int → Int
  | 0, acc => acc
  | i + 1, acc => phiSeries x2 i (fixOne + x2 * acc / ((2 * i + 3 : Nat) * fixOne))

/-- x + 1/(x + 2/(x + 3/(…))), from its last term. -/
def tailFraction (x : Int) : Nat → Int → Int
  | 0, acc => acc
  | i + 1, acc => tailFraction x i (x + (i + 1 : Nat) * fixOne * fixOne / acc)

/-- The density φ of the normal distribution. -/
def FVal.density (v : FVal) : FVal := (ofFix fixInvSqrt2Pi).mul ((v.mul v).scale (-1)).neg.exp

/-- The normal distribution Φ: below 2 in magnitude by its series, beyond by the continued fraction of its tail. -/
def FVal.normal (v : FVal) : FVal :=
  match v with
  | .fin n m e =>
    if FVal.lt (.fin false 1 9) (.fin false m e) then (if n then .fin false 1 (-8192) else .one)
    else
      let x := toFix false m e
      if x < 2 * fixOne then
        let p := (v.density.mul (ofFix (x * phiSeries (x * x / fixOne) 60 fixOne / fixOne)))
        (FVal.fin false 1 (-1)).add (if n then p.neg else p)
      else
        let q := v.density.div (ofFix (tailFraction x 300 x))
        if n then q else FVal.one.sub q
  | .inf n => if n then .zero else .one
  | .nan => .nan

/-! ### Activation functions (R101) -/

/-- 0.797884561 and 0.044715. -/
def geluC : FVal := FVal.div (.ofNat 797884561) (.ofNat 1000000000)
def geluA : FVal := FVal.div (.ofNat 44715) (.ofNat 1000000)
def FVal.double (v : FVal) : FVal := v.scale 1

/-- Twice the argument of GELU_TANH's tanh, and its derivative. -/
def geluArg (x : FVal) : FVal := (geluC.mul (x.add (geluA.mul (x.mul (x.mul x))))).double
def geluArgDeriv (x : FVal) : FVal :=
  (geluC.mul (FVal.one.add ((geluA.mul (.ofNat 3)).mul (x.mul x)))).double

/-- f of R101 at a finite value, by ACT code 3 to 7. -/
def actReal (act : Nat) (x : FVal) : FVal :=
  match act with
  | 3 => x.mul x.normal
  | 4 => x.mul (geluArg x).logistic
  | 5 => x.mul x.logistic
  | 6 => x.logistic
  | _ => x.tanh

/-- f′ of R101 at a finite value, by ACT code 3 to 7. -/
def derivReal (act : Nat) (x : FVal) : FVal :=
  match act with
  | 3 => x.normal.add (x.mul x.density)
  | 4 => (geluArg x).logistic.mul (FVal.one.add ((x.mul (geluArgDeriv x)).mul (geluArg x).neg.logistic))
  | 5 => x.logistic.mul (FVal.one.add (x.mul x.neg.logistic))
  | 6 => x.logistic.mul x.neg.logistic
  | _ =>
    let s := x.double.logistic.mul x.double.neg.logistic
    s.scale 2

/-! ### The engines' answers -/

/-- A result within w units in the last place of X32 (R102, R124): which value is Config.ulpPick of the function and its operand. -/
def x32Near (fn a b : Nat) (v : FVal) : X32 := toX32 (fX32.nearby 2 (Config.ulpPick fn a b) v)

/-- A vector stage's result: exact for an operand that is infinite or NaN, else within w units in the last place of FP32 (R155). -/
def ulpResult (op w : Nat) (x : Word) (v : FVal) : Word :=
  if (ofFP32 x).special then toFP32 v else toFP32 (fFP32.nearby w (Config.ulpPick op x.toNat 0) v)

/-- The exponential and the logarithm of the engines (R124): exp(−∞) = +0 and exp(+0) = 1 exactly, else within 2 units in the last
place. Log entry 4. -/
def xexp (x : X32) : X32 := if x = 0 then xOne else if x = xNegInf then 0 else x32Near 0x100 x.toNat 0 (ofX32 x).exp
def xlog (x : X32) : X32 := x32Near 0x101 x.toNat 0 (ofX32 x).ln

end Sys2Proof.Machine
end

