-- ==== Sys2Proof/Machine/Pack.lean ====
section
/-! DEFINITION. Pack engines (R186 to R195): frames of E4M3 blocks, and the SAVE_DRAIN, SAVE_SPAD and EXPAND commands. -/
namespace Sys2Proof.Machine

/-! ### Frames (R188 to R192) -/

/-- A block of a frame: its scale code and 32 element codes. -/
abbrev PBlock := Nat × List Nat

/-- A block of S = 0x00 and every code 0x00 (R190). -/
def PBlock.allZero (b : PBlock) : Bool := b.1 == 0 && b.2.all (· == 0)

/-- The set bits of a SPARSE bitmap (R190). -/
def bitmapOf (cs : List Nat) : Nat := (cs.zipIdx.map (fun (c, i) => if c = 0 then 0 else 2 ^ i)).sum

/-- The entry of a block that is not all zero, against the previous scale (R190, R191). -/
def blockEntry (prev : Nat) (b : PBlock) : List Byte :=
  let d : Int := (b.1 : Int) - prev
  let esc := decide (d < -16) || decide (15 < d)
  let tag := (if esc then 32 else (d % 32).toNat)
  let scale := if esc then [BitVec.ofNat 8 b.1] else []
  let set := b.2.filter (· != 0)
  if set.length ≤ 27 then BitVec.ofNat 8 (0x80 + tag) :: scale ++ leBytes 4 (bitmapOf b.2) ++ set.map (BitVec.ofNat 8)
  else BitVec.ofNat 8 (0x40 + tag) :: scale ++ b.2.map (BitVec.ofNat 8)

/-- The entries of a frame: maximal runs of all-zero blocks, the rest one entry each; run counts blocks of the run under
way. -/
def frameEntries (prev run : Nat) : List PBlock → List Byte
  | [] => if run = 0 then [] else [BitVec.ofNat 8 (run - 1)]
  | b :: bs =>
    if PBlock.allZero b then frameEntries prev (run + 1) bs
    else (if run = 0 then [] else [BitVec.ofNat 8 (run - 1)]) ++ blockEntry prev b ++ frameEntries b.1 0 bs

/-- SBASE: the scale of the first block that is not all zero, or 0x00 (R190). -/
def frameBase (bs : List PBlock) : Nat := ((bs.find? (fun b => !PBlock.allZero b)).map (·.1)).getD 0

/-- A frame with its header (R189), padded with zeros to whole bursts (R188). -/
def frameBytes (bs : List PBlock) : List Byte :=
  let body := frameEntries (frameBase bs) 0 bs
  let flen := 8 + body.length
  let head := leBytes 8 (flen + bs.length * 2 ^ 16 + frameBase bs * 2 ^ 32)
  let all := head ++ body
  all ++ List.replicate (roundUp flen 64 - flen) 0

/-- The codes a SPARSE bitmap and its set codes spell. -/
def sparseCodes : List Bool → List Byte → List Nat
  | [], _ => []
  | true :: bs, c :: cs => c.toNat :: sparseCodes bs cs
  | true :: bs, [] => 0 :: sparseCodes bs []
  | false :: bs, cs => 0 :: sparseCodes bs cs

/-- The blocks of a frame's entries, at most fuel entries, or nothing where a tag is reserved or the entries overrun
FLEN or NBLK (R192). -/
def decodeEntries : Nat → Nat → Nat → List Byte → Option (List PBlock)
  | _, _, 0, [] => some []
  | 0, _, _, _ => none
  | _ + 1, _, _, [] => none
  | fuel + 1, prev, left, tag :: r =>
    let k := tag.toNat / 64
    let low := tag.toNat % 64
    if k = 0 then
      if low + 1 ≤ left then
        (decodeEntries fuel prev (left - (low + 1)) r).map (List.replicate (low + 1) ((0, List.replicate 32 0) : PBlock) ++ ·)
      else none
    else if k = 3 || left = 0 then none
    else
      let esc := bitOf low 5
      let d : Int := if low % 32 < 16 then (low % 32 : Nat) else (low % 32 : Nat) - 32
      let s := if esc then (r.headD 0).toNat else ((prev : Int) + d).toNat % 256
      let r' := if esc then r.drop 1 else r
      if esc && r.isEmpty then none
      else if k = 1 then
        if r'.length < 32 then none
        else (decodeEntries fuel s (left - 1) (r'.drop 32)).map ((s, (r'.take 32).map (·.toNat)) :: ·)
      else if r'.length < 4 then none
      else
        let bm := leNat (r'.take 4)
        let bits := (List.range 32).map (fun i => bitOf bm i)
        let n := (bits.filter id).length
        let r'' := r'.drop 4
        if r''.length < n then none
        else (decodeEntries fuel s (left - 1) (r''.drop n)).map ((s, sparseCodes bits (r''.take n)) :: ·)

/-- The blocks of the frame in a slot of 1,152 bytes (R188, R189, R192). -/
def decodeFrame (m : Mem) (a : Nat) : Option (List PBlock) :=
  let h := m.nat a 8
  let flen := bitsOf h 15 0
  let nblk := bitsOf h 21 16
  if flen < 8 || 1096 < flen || nblk = 0 || 32 < nblk then none
  else decodeEntries 64 (bitsOf h 39 32) nblk (m.readN (a + 8) (flen - 8))

/-! ### The pack record (R195) -/

structure PackRec where
  opc : Nat
  ofmt : Nat
  wide : Bool
  bf16 : Bool
  tid : Word
  ncol : Nat
  nrow : Nat
  dbase : Nat
  tr0 : Nat
  ntr : Nat
  saddr : Nat
  sscale : Nat
  sstride : Nat
  ssstride : Nat
  bad : Bool
deriving DecidableEq, Repr

def packRec (w : List Word) : PackRec :=
  let opc := fld w 0 31 28
  { opc := opc, ofmt := fld w 0 27 24, wide := flag w 0 23, bf16 := flag w 0 22, tid := w.getD 1 0, ncol := fld w 2 23 0,
    nrow := fld w 3 23 0, dbase := fld w 4 31 0 + fld w 5 10 0 * 2 ^ 32, tr0 := fld w 6 23 0, ntr := fld w 7 23 0,
    saddr := fld w 8 27 0, sscale := fld w 9 27 0, sstride := fld w 10 31 16, ssstride := fld w 10 15 0,
    bad := fld w 0 21 0 != 0 || fld w 2 31 24 != 0 || fld w 3 31 24 != 0 || fld w 5 31 11 != 0 || fld w 6 31 24 != 0 ||
      fld w 7 31 24 != 0 || fld w 8 31 28 != 0 || fld w 9 31 28 != 0 || [11, 12, 13, 14, 15].any (fun i => w.getD i 0 != 0) }

/-- Tile height and width by TSHAPE (R188). -/
def PackRec.h (r : PackRec) : Nat := if r.wide then 16 else 32
def PackRec.w (r : PackRec) : Nat := if r.wide then 64 else 32
/-- Tile columns of the tensor. -/
def PackRec.tcols (r : PackRec) : Nat := cdiv r.ncol r.w
/-- Bytes of the save region (R195). -/
def PackRec.size (r : PackRec) : Nat := cdiv r.nrow r.h * r.tcols * 1152

/-- Whether the save region lies within one tier: the near tier of one tile, or the far tier (R186, R195). -/
def saveRegionOk (a n : Nat) : Bool :=
  (List.range 4).any (fun t => decide (nearBase t ≤ a) && decide (a + n ≤ nearBase t + 0x1000000000)) ||
    (decide (farBase ≤ a) && decide (a + n ≤ farEnd))

/-- The completion code of a pack command (R195), lowest first (log entry 11). The scratchpad plane starts at SADDR with
the first row of tile row TR0 (log entry 15). -/
def PackRec.code (r : PackRec) (opc : Nat) : Nat :=
  let rows := min (r.ntr * r.h) (r.nrow - r.tr0 * r.h)
  let eb := if opc = 2 then (if r.bf16 then 2 * r.ncol else 4 * r.ncol) else if r.ofmt = 0 then roundUp r.ncol 32 else 4 * r.ncol
  if opc = 3 && !(r.ofmt == 0 || r.ofmt == 4) then 1
  else if r.opc != opc || r.bad || r.dbase % 64 != 0 || (opc != 3 && r.ofmt != 0) || (opc != 2 && r.bf16) then 2
  else if !saveRegionOk r.dbase r.size || (opc != 1 && rows != 0 && !extentFits r.saddr r.sstride rows eb) ||
      (opc == 3 && r.ofmt == 0 && rows != 0 && !extentFits r.sscale r.ssstride rows (cdiv r.ncol 32)) then 5
  else 0

/-! ### Packing a tile -/

/-- The E4M3 blocks of a tile's values in row-major order, formed with RNE (R186, R188), and their numeric effects. -/
def tileBlocks (vals : List FVal) : List PBlock × NumStat :=
  let bs := (chunks 32 vals).map (fun b => blockConv .e4m3 (fun _ => none) b)
  (bs.map (fun (s, cs, _) => (s, cs)), bs.foldl (fun st (_, _, st') => st.join st') {})

/-- A frame written in its slot of a tensor of ncol columns, and the pack engine's counts (R188, R193). -/
def State.writeFrame (s : State) (t p : Nat) (f : Fn) (r : PackRec) (ncol row col : Nat) (vals : List FVal) : State :=
  let (bs, st) := tileBlocks vals
  let a := r.dbase + (row / r.h * cdiv ncol r.w + col / r.w) * 1152
  let s := (s.setMem (Mem.writeN s.mem a (frameBytes bs))).countBytes t f.val a (frameBytes bs).length true
  s.setEng { s.eng with pack := s.eng.pack.set (t * 2 + p) ((s.eng.pack.get {} (t * 2 + p)).join st) }

/-- The extension record's placing words (R112): tensor identifier, ROW0, COL0, NCOL. -/
def extTid (e : List Word) : Word := e.getD 0 0
def extRow (e : List Word) : Nat := (e.getD 1 0).toNat
def extCol (e : List Word) : Nat := (e.getD 2 0).toNat
def extNcol (e : List Word) : Nat := (e.getD 3 0).toNat

/-- A drained tile enters the first open SAVE_DRAIN of its tensor, placed by its own extension (R187, R188); without one it waits on its
path. A SAVE_DRAIN completes with its last tile (R195). -/
def State.packOne (s : State) (t p : Nat) (x : PackTile) : Option State :=
  let k := t * 2 + p
  let saves := s.eng.saves.get [] k
  match saves.find? (fun o => (packRec o.words).tid == extTid x.ext) with
  | none => none
  | some o =>
    let r := packRec o.words
    let s := s.writeFrame t p o.src.fn r (extNcol x.ext) (extRow x.ext) (extCol x.ext) (x.vals.map ofFP32)
    let saves := (saves.map (fun q => if q == o then { q with left := q.left - 1 } else q)).filter (fun q => q.left != 0)
    let s := s.setEng { s.eng with saves := s.eng.saves.set k saves }
    some (if o.left ≤ 1 then s.cmdDone o.src t 3 p else s)

/-- Every drained tile on the path that some open SAVE_DRAIN names enters it, in order, and its lease ends. -/
def State.packPump (s : State) (t p : Nat) : State :=
  (s.eng.packWait.get [] (t * 2 + p)).foldl (fun s x =>
    match s.packOne t p x with
    | none => s
    | some s =>
      let k := t * 2 + p
      let s := s.setEng { s.eng with packWait := s.eng.packWait.set k ((s.eng.packWait.get [] k).erase x) }
      s.drainEnds t x.array x.first x.src x.also x.owed) s

/-- A drained tile arrives on the path to its gallery's pack engine (R109, R187). -/
def State.packArrive (s : State) (t p : Nat) (x : PackTile) : State :=
  let k := t * 2 + p
  (s.setEng { s.eng with packWait := s.eng.packWait.set k (s.eng.packWait.get [] k ++ [x]) }).packPump t p

/-! ### The commands -/

/-- Whether a pack, turn, row, vector or copy engine of a tile may run a program's command: engines out of reset, the tile not held
(R433), the program running and the turn open to it. A command that is held on failed data resumes after the recovery (R289). -/
def State.engineOpen (s : State) (t kind num : Nat) (src : Src) : Bool :=
  s.released && !(s.tilePwr t).hold && !s.stopped src && s.turnOpen src t kind num && !s.waits src

/-- Whether an engine takes a new command: open to it, and the command ready in its queue. -/
def State.engineTakes (s : State) (t kind num : Nat) (src : Src) (same : EngCmd → Bool) : Bool :=
  s.engineOpen t kind num src && s.ready src (queueCode t kind num) same

/-- SAVE_DRAIN opens, unless eight are open, and takes the tiles already waiting for it (R195). -/
def execSaveDrain (t : TileIx) (p : Fin 2) (src : Src) (ws : List Word) (s : State) : Host.Outcome State Fault Refusal :=
  let r := packRec ws
  let k := t.val * 2 + p.val
  let open_ := s.eng.saves.get [] k
  if !s.engineTakes t 3 p src (EngCmd.is ws []) then .next s
  else if r.code 1 ≠ 0 then .next (s.programFault src (r.code 1) t 3 p)
  else if 8 ≤ open_.length then .next s
  else if r.ntr = 0 then .next (s.finish src t 3 p)
  else .next ((s.setEng { s.eng with saves := s.eng.saves.set k (open_ ++ [{ src := src, words := ws, left := r.ntr }]) }).took src t 3 p |>.packPump t p)

/-- The values of a tile of a scratchpad tensor, zero beyond its rows and columns (R38). -/
def spadTile (m : Mem) (t : Nat) (r : PackRec) (tr tc : Nat) : List FVal :=
  let f : NF := if r.bf16 then .bf16 else .fp32
  (List.range r.h).flatMap (fun y => (List.range r.w).map (fun x =>
    let row := tr * r.h + y
    let col := tc * r.w + x
    if row < r.nrow && col < r.ncol then
      elemVal m f (spadBase t + r.saddr + (row - r.tr0 * r.h) * r.sstride) 0 col
    else .zero))

/-- SAVE_SPAD packs the tiles of NTR tile rows from TR0 (R187, R195). -/
def execSaveSpad (t : TileIx) (p : Fin 2) (src : Src) (ws : List Word) (s : State) : Host.Outcome State Fault Refusal :=
  let r := packRec ws
  if !s.engineTakes t 3 p src (EngCmd.is ws []) then .next s
  else if r.code 2 ≠ 0 then .next (s.programFault src (r.code 2) t 3 p)
  else
    let rows := min (r.ntr * r.h) (r.nrow - r.tr0 * r.h)
    let frames := mergedStripes [(r.dbase + r.tr0 * r.tcols * 1152, r.ntr * r.tcols * 1152)]
    .next (s.readOr src t 3 p (lineRanges (spadBase t + r.saddr) r.sstride rows ((if r.bf16 then 2 else 4) * r.ncol) ++ frames) (fun s =>
      (List.range r.ntr).foldl (fun s i =>
        (List.range r.tcols).foldl (fun s j =>
          s.writeFrame t p src.fn r r.ncol ((r.tr0 + i) * r.h) (j * r.w) (spadTile s.mem t r (r.tr0 + i) j)) s) s |>.finish src t 3 p))

/-- The values an expanded block writes in one row of the scratchpad: as saved, or as FP32 (R192). Expansion beyond the
FP32 range saturates (R55). -/
def expandBlock (m : Mem) (t : Nat) (r : PackRec) (row blk : Nat) (b : PBlock) : Mem × NumStat :=
  let line := row - r.tr0 * r.h
  if r.ofmt = 0 then
    ((m.writeN (spadBase t + r.saddr + line * r.sstride + 32 * blk) (b.2.map (BitVec.ofNat 8))).writeN
      (spadBase t + r.sscale + line * r.ssstride + blk) [BitVec.ofNat 8 b.1], {})
  else
    let vals := (b.2.map (scaledVal .e4m3 b.1)).take (r.ncol - 32 * blk)
    let (bytes, st) := plainLine .fp32 (fun _ => none) false vals
    (m.writeN (spadBase t + r.saddr + line * r.sstride + 128 * blk) bytes, st)

/-- The blocks of one frame written to the scratchpad. -/
def expandFrame (m : Mem) (t : Nat) (r : PackRec) (tr tc : Nat) (bs : List PBlock) : Mem × NumStat :=
  bs.zipIdx.foldl (fun (m, st) (b, i) =>
    let per := r.w / 32
    let row := tr * r.h + i / per
    let blk := tc * per + i % per
    if row < r.nrow && 32 * blk < r.ncol then
      let (m, st') := expandBlock m t r row blk b
      (m, st.join st')
    else (m, st)) (m, {})

/-- The scratchpad lines that tile column j of tile row TR0 + i expands to. -/
def PackRec.tileRanges (r : PackRec) (t i j : Nat) : List (Nat × Nat) :=
  let w := if r.ofmt = 0 then 1 else 4
  lineRanges (spadBase t + r.saddr + i * r.h * r.sstride + j * r.w * w) r.sstride r.h (r.w * w)

/-- EXPAND reads the frames of NTR tile rows; a frame that cannot be decoded is a persistent failure of its save region
(R192, R194). -/
def execExpand (t : TileIx) (p : Fin 2) (src : Src) (ws : List Word) (s : State) : Host.Outcome State Fault Refusal :=
  let r := packRec ws
  if !s.engineTakes t 3 p src (EngCmd.is ws []) then .next s
  else if r.code 3 ≠ 0 then .next (s.programFault src (r.code 3) t 3 p)
  else .next (s.readOr src t 3 p [(r.dbase + r.tr0 * r.tcols * 1152, r.ntr * r.tcols * 1152)] (fun s =>
    (List.range r.ntr).foldl (fun s i => (List.range r.tcols).foldl (fun s j =>
      let a := r.dbase + ((r.tr0 + i) * r.tcols + j) * 1152
      match decodeFrame s.mem a with
      | none => (s.declareFailure src a).markFailed (r.tileRanges t i j)
      | some bs =>
        let (m, st) := expandFrame s.mem t r (r.tr0 + i) j bs
        let s := (s.setMem m).countBytes t src.fn a (bitsOf (Mem.nat s.mem a 2) 15 0) false
        let k := t.val * 2 + p.val
        (s.setEng { s.eng with pack := s.eng.pack.set k ((s.eng.pack.get {} k).join st) }).clearFailed (r.tileRanges t i j)) s) s |>.finish src t 3 p))

end Sys2Proof.Machine
end

