-- ==== Sys2Proof/Machine/Drain.lean ====
section
/-! DEFINITION. The drain (chapter 4): the fused path from an output tile to its destination, the DRAIN command, the lease
queue's next start, the replay of a marked tile and the retirement of an array (R84 to R87). -/
namespace Sys2Proof.Machine

/-! ### The DRAIN record (R111) -/

structure DrainRec where
  lred : Nat
  ext : Bool
  aidx : Nat
  tile : Nat
  shape : Option Shape
  comp : Bool
  dest : Nat
  l0op : Nat
  act : Nat
  deriv : Bool
  ssq : Bool
  ofmt : Nat
  sr : Bool
  ftz : Bool
  oblk : Bool
  raxis : Bool
  bkind : Nat
  efmt : Nat
  dfmt : Nat
  bfmt : Bool
  grad : Bool
  scale : Word
  oaddr : Nat
  oscale : Nat
  ostride : Nat
  osstride : Nat
  eaddr : Nat
  escale : Nat
  estride : Nat
  esstride : Nat
  daddr : Nat
  dscale : Nat
  dstride : Nat
  dsstride : Nat
  baddr : Nat
  raddr : Nat
  naddr : Nat
  pidx : Nat
  tmode : Nat
  vside : Bool
  vend : Bool
  vidx : Nat
  bad : Bool
deriving DecidableEq, Repr

def drainRec (w : List Word) : DrainRec :=
  let dest := fld w 0 11 10
  { lred := fld w 0 27 26, ext := flag w 0 25, aidx := fld w 0 22 20, tile := fld w 0 19 15,
    shape := Shape.ofCode (fld w 0 14 13), comp := flag w 0 12, dest := dest, l0op := fld w 0 9 8, act := fld w 0 7 4,
    deriv := flag w 0 3, ssq := flag w 0 2, ofmt := fld w 1 31 28, sr := flag w 1 27, ftz := flag w 1 26,
    oblk := flag w 1 25, raxis := flag w 1 24, bkind := fld w 1 23 22, efmt := fld w 1 21 20, dfmt := fld w 1 19 18,
    bfmt := flag w 1 17, grad := flag w 1 16, scale := w.getD 2 0, oaddr := fld w 3 27 0, oscale := fld w 4 27 0,
    ostride := fld w 5 31 16, osstride := fld w 5 15 0, eaddr := fld w 6 27 0, escale := fld w 7 27 0,
    estride := fld w 8 31 16, esstride := fld w 8 15 0, daddr := fld w 9 27 0, dscale := fld w 10 27 0,
    dstride := fld w 11 31 16, dsstride := fld w 11 15 0, baddr := fld w 12 27 0, raddr := fld w 13 27 0,
    naddr := fld w 14 27 0, pidx := fld w 3 15 0, tmode := fld w 15 31 30, vside := flag w 15 29, vend := flag w 15 28,
    vidx := fld w 15 17 0,
    bad := fld w 0 31 28 != 2 || fld w 0 24 23 != 0 || fld w 0 1 0 != 0 || fld w 1 15 0 != 0 || fld w 15 27 18 != 0 ||
      (dest == 2 && fld w 3 27 16 != 0) || [3, 4, 6, 7, 9, 10, 12, 13, 14].any (fun i => fld w i 31 28 != 0) }

def DrainRec.sh (r : DrainRec) : Shape := r.shape.getD .s32x32
def DrainRec.foot (r : DrainRec) : Nat := r.sh.foot r.comp
/-- The output format (R111); Q4 and reserved codes are none. -/
def DrainRec.fmt? (r : DrainRec) : Option NF := if r.ofmt = 2 || r.ofmt = 7 then none else NF.ofCode r.ofmt
def DrainRec.fmt (r : DrainRec) : NF := r.fmt?.getD .fp32
/-- The format of a side tensor (R111 EFMT, DFMT). -/
def sideFmt : Nat → NF
  | 0 => .fp32
  | 1 => .bf16
  | 2 => .e4m3
  | _ => .e5m2
/-- Lines along which outputs are written, and their length (R105). -/
def DrainRec.lines (r : DrainRec) : Nat := if r.oblk then r.sh.cols else r.sh.rows
def DrainRec.linelen (r : DrainRec) : Nat := if r.oblk then r.sh.rows else r.sh.cols
/-- Whether the outputs go to the scratchpad and to the pack engine (R109). -/
def DrainRec.toSpad (r : DrainRec) : Bool := decide (r.dest ≤ 1)
def DrainRec.toPack (r : DrainRec) : Bool := r.dest == 1 || r.dest == 3
/-- Whether tensor D is read: DERIV with a function (R101). -/
def DrainRec.readsD (r : DrainRec) : Bool := r.deriv && r.act != 0

/-- Whether lines of a side tensor stay below the end of the scratchpad. -/
def sideFits (f : NF) (a sa stride sstride rows cols : Nat) : Bool :=
  extentFits a stride rows (f.bytes cols) && (!f.scaled || extentFits sa sstride rows (cdiv cols 32))

/-- The ADDR conditions of R113: the lines of every tensor in use, and every offset field. -/
def DrainRec.addrOk (r : DrainRec) : Bool :=
  let red := if r.raxis then r.sh.cols else r.sh.rows
  (!r.toSpad || sideFits r.fmt r.oaddr r.oscale r.ostride r.osstride r.lines r.linelen) &&
  (r.l0op == 0 || sideFits (sideFmt r.efmt) r.eaddr r.escale r.estride r.esstride r.sh.rows r.sh.cols) &&
  (!r.readsD || sideFits (sideFmt r.dfmt) r.daddr r.dscale r.dstride r.dsstride r.sh.rows r.sh.cols) &&
  (r.bkind == 0 || extentFits r.baddr 0 1 ((if r.bfmt then 2 else 4) * (if r.bkind = 1 then r.sh.cols else r.sh.rows))) &&
  (r.lred == 0 || extentFits r.raddr 0 1 ((if r.lred = 1 then 4 else 8) * red)) && (!r.ssq || extentFits r.naddr 0 1 4) &&
  ([if r.dest = 2 then 0 else r.oaddr, r.oscale, r.eaddr, r.escale, r.daddr, r.dscale, r.baddr, r.raddr, r.naddr] : List Nat).all
    (fun a => decide (a < spadEnd))

/-- The cases of R122 that the record and the configuration alone decide. -/
def DrainRec.targetBad (r : DrainRec) (vsize : Nat) : Bool :=
  (r.grad && (r.tmode == 0 || r.tmode == 3)) ||
  (let n := if r.vside then r.sh.rows else r.sh.cols
   r.vend != (decide (r.vidx ≤ vsize - 1) && decide (vsize - 1 < r.vidx + n))) ||
  (r.tmode == 2 && (r.sh != .s32x32 || r.vside))

/-- The completion code of a DRAIN (R113, with R105, R107, R109, R112, R115, R187) but for R122, lowest code first (log entry
11). held is the lease the tile is under, ext the extension record. -/
def DrainRec.ownCode (r : DrainRec) (ext : List Word) (win : Window) (custom : Bool) (held : Option Lease) : Nat :=
  if r.fmt?.isNone || (r.fmt.scaled && r.linelen == 16) || (r.ssq && r.dest == 2) || (r.dest == 2 && r.ofmt != 4) ||
      (r.sr && !r.ext) || (r.toPack && (!r.ext || r.sh == .s64x16)) || (r.act == 15 && !custom) then 1
  else if r.bad || r.lred == 3 || r.shape.isNone || r.l0op == 3 || (decide (8 ≤ r.act) && r.act != 15) || r.bkind == 3 ||
      r.tile % r.foot != 0 || (r.ext && (ext.drop 4).any (· != 0)) || (match held with | some l => l.shape != r.sh || l.comp != r.comp | none => false) then 2
  else if !r.addrOk then 5
  else if win.size < r.tile + r.foot then 6
  else 0

/-- The completion code of a DRAIN, R122 included. -/
def DrainRec.code (r : DrainRec) (ext : List Word) (win : Window) (vsize : Nat) (custom : Bool) (held : Option Lease) : Nat :=
  if r.dest == 2 && r.targetBad vsize then 1 else r.ownCode ext win custom held

/-! ### Activation functions (R101 to R104) -/

/-- A value rounded to X32 as a stage rounds it (R97). -/
def rx (v : FVal) : FVal := ofX32 (toX32 v)

/-- The piece a value selects (R104). -/
def custPiece (c : CustTable) (x : FVal) : Nat := (c.bnd.filter (fun b => !(x.lt (ofFP32 b)))).length

def custCoef (c : CustTable) (j k : Nat) : FVal := ofFP32 (c.coef.getD (4 * j + k) 0)

/-- The limit at an infinity of a polynomial whose coefficients are given from the highest degree down. -/
def polyLimit (neg : Bool) : List FVal → FVal
  | [] => .zero
  | [c] => c
  | c :: cs => if c.isZero then polyLimit neg cs else .inf (c.isNeg != (neg && cs.length % 2 == 1))

/-- CUSTOM and its derivative (R104): one rounding at every operation. At an infinity each takes the limit of its outer piece (R102; DEDUCED,
log entry 59). -/
def custEval (c : CustTable) (x : FVal) : FVal :=
  let j := custPiece c x
  match x with
  | .nan => .nan
  | .inf n => polyLimit n [custCoef c j 3, custCoef c j 2, custCoef c j 1, custCoef c j 0]
  | _ =>
    let f := rx ((custCoef c j 3).mul x)
    let f := rx ((rx (f.add (custCoef c j 2))).mul x)
    let f := rx ((rx (f.add (custCoef c j 1))).mul x)
    rx (f.add (custCoef c j 0))
def custDeriv (c : CustTable) (x : FVal) : FVal :=
  let j := custPiece c x
  match x with
  | .nan => .nan
  | .inf n => polyLimit n [custCoef c j 3, custCoef c j 2, custCoef c j 1]
  | _ =>
    let d := rx (((FVal.ofNat 3).mul (custCoef c j 3)).mul x)
    let d := rx ((rx (d.add ((FVal.ofNat 2).mul (custCoef c j 2)))).mul x)
    rx (d.add (custCoef c j 1))

/-- The limits at the infinities (R102): code, sign. -/
def actLimit (act : Nat) (neg : Bool) : FVal :=
  if act = 6 then (if neg then .zero else .one)
  else if act = 7 then (if neg then .fin true 1 0 else .one)
  else if neg then .zero else .inf false
def derivLimit (act : Nat) (neg : Bool) : FVal :=
  if act = 6 || act = 7 || neg then .zero else if act = 2 then .inf false else .one

/-- The two X32 values whose sum an exact value of stage 4 is: the nearest one, and what is left. -/
def x32Pair (v : FVal) : X32 × X32 :=
  let hi := toX32 v
  (hi, if v.special then 0 else toX32 (v.sub (ofX32 hi)))
def ofPair (p : X32 × X32) : FVal := if p.2 = 0 then ofX32 p.1 else (ofX32 p.1).add (ofX32 p.2)

/-- f of stage 4 on an exact value (R97, R98, R101): RELU and SQRELU round once, the other functions answer within 2 units in the last
place, the same for equal values (R102, log entry 4). -/
def actEval (act : Nat) (c : CustTable) (v : FVal) : FVal :=
  if v.isNan then .nan
  else if act = 15 then custEval c v
  else if act = 1 then rx (v.max .zero)
  else if act = 2 then rx ((v.max .zero).mul (v.max .zero))
  else match v with
    | .inf n => actLimit act n
    | _ => let (hi, lo) := x32Pair v; ofX32 (x32Near (0x200 + act) hi.toNat lo.toNat (actReal act v))

/-- f′ of a saved pre-activation (R101, R103). -/
def actDeriv (act : Nat) (c : CustTable) (p : FVal) : FVal :=
  if p.isNan then .nan
  else if act = 15 then custDeriv c p
  else if act = 1 then (if FVal.lt .zero p then .one else .zero)
  else if act = 2 then rx ((FVal.ofNat 2).mul (p.max .zero))
  else match p with
    | .inf n => derivLimit act n
    | _ => ofX32 (x32Near (0x300 + act) (toX32 p).toNat 0 (derivReal act p))

/-! ### The fused stages (R96 to R100) -/

/-- A value of a row-blocked side tensor at output (y, x), decoded into X32 (R97, R99). -/
def sideVal (m : Mem) (t : Nat) (f : NF) (a sa stride sstride y x : Nat) : FVal :=
  elemVal m f (spadBase t + a + y * stride) (spadBase t + sa + y * sstride) x

/-- Stages 1 to 4 on output (y, x), from the accumulator pair. -/
def fusedStages (m : Mem) (t : Nat) (r : DrainRec) (c : CustTable) (y x : Nat) (hi lo : X32) : FVal :=
  let v := if r.comp then (ofX32 hi).add (ofX32 lo) else ofX32 hi
  let e := sideVal m t (sideFmt r.efmt) r.eaddr r.escale r.estride r.esstride y x
  let v1 := if r.l0op = 1 then rx (v.add e) else if r.l0op = 2 then rx (v.mul e) else v
  let v2 := if r.scale = 0x3F800000 then v1 else rx (v1.mul (ofFP32 r.scale))
  let b := elemVal m (if r.bfmt then .bf16 else .fp32) (spadBase t + r.baddr) 0 (if r.bkind = 1 then x else y)
  let v3 := if r.bkind = 0 then v2 else rx (v2.add b)
  if r.act = 0 then v3
  else if r.deriv then rx (v3.mul (actDeriv r.act c (sideVal m t (sideFmt r.dfmt) r.daddr r.dscale r.dstride r.dsstride y x)))
  else rx (actEval r.act c v3)

/-! ### Statistics (R106, R107) -/

/-- Sum of squares of a line, each square and each addition rounded once to X32. -/
def sumSquaresFrom (acc : FVal) (vs : List FVal) : FVal := vs.foldl (fun acc v => rx (acc.add (rx (v.mul v)))) acc
def sumSquares (vs : List FVal) : FVal := sumSquaresFrom .zero vs

/-- Mean and population variance of a line by the single pass of R106. -/
def meanVar (vs : List FVal) : FVal × FVal :=
  let (n, mean, m2) := vs.foldl (fun (n, mean, m2) x =>
    let n := n + 1
    let d := rx (x.sub mean)
    let mean' := rx (mean.add (rx (d.div (.ofNat n))))
    (n, mean', rx (m2.add (rx (d.mul (rx (x.sub mean'))))))) ((0 : Nat), FVal.zero, FVal.zero)
  (mean, rx (m2.div (.ofNat n)))

/-- A statistic written as FP32: RNE, saturating with OVF (R106); the canonical NaN for a failed tile (R108). -/
def statWord (failed : Bool) (v : FVal) : List Byte × NumStat :=
  if failed then (leBytes 4 0x7FC00000, {}) else let (c, st) := convPlain fFP32 none false v; (leBytes 4 c, st)

/-- The lines of a row-major tile, rows or columns. -/
def tileLinesOf (sh : Shape) (byCol : Bool) (vals : List FVal) : List (List FVal) :=
  if byCol then (List.range sh.cols).map (fun x => (List.range sh.rows).map (fun y => vals.getD (y * sh.cols + x) .zero))
  else chunks sh.cols vals

/-- The line-reduction results in line order (R106). -/
def lineStats (r : DrainRec) (failed : Bool) (vals : List FVal) : List Byte × NumStat :=
  (tileLinesOf r.sh r.raxis vals).foldl (fun (bs, st) l =>
    if r.lred = 1 then let (b, st') := statWord failed (sumSquares l); (bs ++ b, st.join st')
    else
      let (mean, var) := meanVar l
      let (b1, st1) := statWord failed mean
      let (b2, st2) := statWord failed var
      (bs ++ b1 ++ b2, (st.join st1).join st2)) ([], {})

/-! ### Conversion and destinations (R105, R109) -/

/-- The tensor index of output (y, x) (R112). -/
def extIndex (ext : List Word) (y x : Nat) : Nat := (extRow ext + y) * extNcol ext + extCol ext + x

/-- Whether the outputs are converted line by line along columns: OBLK, but for the Target engine, whose tile is row-major (R105, R109,
R120). -/
def DrainRec.byCol (r : DrainRec) : Bool := r.oblk && r.dest != 2
def DrainRec.olines (r : DrainRec) : Nat := if r.byCol then r.sh.cols else r.sh.rows
def DrainRec.olen (r : DrainRec) : Nat := if r.byCol then r.sh.rows else r.sh.cols

/-- The random bits of the outputs of a line under SR. -/
def lineSr (d : Draws) (r : DrainRec) (ext : List Word) (l i : Nat) : Option Nat :=
  if r.sr then
    let (y, x) := if r.byCol then (i, l) else (l, i)
    some (d.sr (extTid ext) (extIndex ext y x))
  else none

/-- A drain as its unit runs it: tile, logical array whose unit it is, physical array of that unit, first slot, command, table, failed rows
of its side streams, whether the tile could not be replayed, the other array whose lease ends with it (R84), and what it rounds with. -/
structure DrainJob where
  t : Nat
  a : Nat
  dp : Nat
  first : Nat
  src : Src
  words : List Word
  ext : List Word
  table : CustTable
  sideFailed : BitVec 64
  poison : Bool
  also : Option Nat
  draws : Draws
deriving DecidableEq, Repr

/-- Output n of stage 4: as read before the drain was stopped, free in a row whose side stream failed, otherwise the fused stages'. -/
def State.drainOut (s : State) (j : DrainJob) (old : List (X32 × X32)) (vals : List X32 × List X32) (n : Nat) : FVal :=
  let r := drainRec j.words
  match old[n]? with
  | some p => ofPair p
  | none =>
    let y := n / r.sh.cols
    if j.sideFailed.getLsbD y then ofX32 (Config.freeX32 s.fresh n)
    else fusedStages s.mem j.t r j.table y (n % r.sh.cols) (vals.1.getD n 0) (vals.2.getD n 0)

/-- The outputs of converted lines as values in row-major order. -/
def writtenVals (r : DrainRec) (conv : List (List Byte × List Byte × NumStat)) : List FVal :=
  let ls := conv.map (fun (e, sb, _) => bytesVals r.fmt r.olen (e, sb))
  if r.byCol then (List.range 1024).map (fun n => (ls.getD (n % r.sh.cols) []).getD (n / r.sh.cols) .zero) else ls.flatten

/-- Bytes of a block of a group's gradient plane, from GFMT of the program's UPDATE commands for it (R230, R488). -/
def gradBlock (m : ProgImage) (desc : Nat) : Nat :=
  let ups := (keyedCmds m).filterMap (fun (_, c) =>
    if fld c.words 0 31 28 = 3 && fld c.words 2 31 0 + fld c.words 3 10 0 * 2 ^ 32 = desc then some (fld c.words 0 21 20) else none)
  match ups.head? with
  | some 0 => 128
  | some 1 => 64
  | _ => 32

/-- The groups of a program whose weight gradient lies at a local address: in a plane of a shard's tiles, or in the gradient plane. -/
def gradGroups (m : ProgImage) (a : Nat) : List Nat :=
  let within (lo n : Nat) : Bool := decide (lo ≤ a) && decide (a < lo + n)
  (m.groups.filter (fun g => within g.grad (gradBlock m g.desc * (g.rows * cdiv g.cols 32)) ||
    m.shards.any (fun d => d.group == g.desc && d.tiles.any (fun x => within x.addr (x.stride * cdiv d.count (max 1 g.cols)))))).map (·.desc)

/-- What a drain writes to the scratchpad of its tile; with DEST = TARGET or PACK, the place its word 3 names (DESIGN CHOICE, log entry
60). -/
def DrainRec.outRanges (r : DrainRec) (t : Nat) : List (Nat × Nat) :=
  if r.toSpad then
    lineRanges (spadBase t + r.oaddr) r.ostride r.olines (r.fmt.bytes r.olen) ++
      (if r.fmt.scaled then lineRanges (spadBase t + r.oscale) r.osstride r.olines (cdiv r.olen 32) else [])
  else [(spadBase t + r.oaddr, 1)]

/-- A drain of the run's program wrote a weight gradient with SSQ = 0: its groups take the fallback path in this step (R227). -/
def State.noteSsq (s : State) (src : Src) (r : DrainRec) (a : Nat) : State :=
  match s.progAt s.run.prog with
  | some p =>
    if s.run.active && src.handle == s.run.prog && r.grad && !r.ssq && r.toSpad then
      s.setRun { s.run with fallback := unionNat (gradGroups p.img a) s.run.fallback }
    else s
  | none => s

/-- A drain runs from where it stands, to its end or until it is stopped after so many row reads of 32 outputs (R93, R95): stages,
conversion, and the lines handed off; its drain unit's stream takes the numeric effects of each output as it is converted (R118). At its
end the statistics follow, and the tile goes to its destination; the lease ends where no destination withholds its acknowledge
(R94, R109). A failed destination is marked at word 3's offset in the scratchpad, for DEST = TARGET and PACK too (DESIGN CHOICE, log entry
60). With DEST = PACK the norm entry squares the values as OFMT converts them (DESIGN CHOICE, log entry 60). -/
def State.runDrain (s : State) (j : DrainJob) (old : List (X32 × X32)) (norm : X32) (stop : Option Nat) (vals : List X32 × List X32) : State :=
  let r := drainRec j.words
  let upto := match stop with
    | some k => max old.length (min (32 * k) 1024)
    | none => 1024
  let all := decide (upto = 1024)
  let out := (List.range upto).map (s.drainOut j old vals)
  let l0 := if r.byCol then 0 else old.length / r.olen
  let l1 := if all then r.olines else if r.byCol then 0 else upto / r.olen
  let lines := ((if all then tileLinesOf r.sh r.byCol out else chunks r.olen out).take l1).drop l0
  let conv := lines.zipIdx.map (fun (l, n) => convLine r.fmt (lineSr j.draws r j.ext (l0 + n)) r.ftz l)
  let st2 : NumStat := if r.dest = 3 then {} else conv.foldl (fun st (_, _, st') => st.join st') {}
  let packed := out.map (fun v => convPlain fFP32 none false v)
  let st3 : NumStat := if r.toPack then (packed.drop old.length).foldl (fun st (_, st') => st.join st') {} else {}
  let norm := toX32 (sumSquaresFrom (ofX32 norm) (writtenVals r conv))
  let mem : Mem := s.mem
  let m : Mem := if r.toSpad then
      let m := mem.writeLines (spadBase j.t + r.oaddr + l0 * r.ostride) r.ostride (conv.map (·.1))
      if r.fmt.scaled then m.writeLines (spadBase j.t + r.oscale + l0 * r.osstride) r.osstride (conv.map (·.2.1)) else m
    else mem
  let s := if j.sideFailed = 0 then s else s.useFree
  let s := s.setMem m
  let count (s : State) (st : NumStat) : State := (s.setDrnStat j.t j.dp ((s.drnStat j.t j.dp).join st)).countOvf j.t 0 (r.grad && st.ovf)
  let s := count s (st2.join st3)
  if !all then
    let p := s.phys j.t j.a
    let y := s.array j.t p
    match y.lease? j.first with
    | none => s
    | some l =>
      let part : DrainPart := { src := j.src, words := j.words, ext := j.ext, table := j.table, sideFailed := j.sideFailed,
                                outs := out.map x32Pair, norm := norm, draws := j.draws }
      s.setArray j.t p (y.setLease { l with part := some part })
  else
    let failed := j.sideFailed != 0 || j.poison
    let (lb, st1) := if r.lred = 0 then ([], {}) else lineStats r failed out
    let (nb, st4) := if r.ssq then statWord failed (ofX32 norm) else ([], {})
    let owed := (if r.lred = 0 then [] else [(spadBase j.t + r.raddr, lb)]) ++ (if r.ssq then [(spadBase j.t + r.naddr, nb)] else [])
    let s := count s (st1.join st4)
    let s := if failed then s.markFailed (r.outRanges j.t) else if r.toSpad then s.clearFailed (r.outRanges j.t) else s
    let s := (if j.poison then s.poison j.src j.t 1 (j.a / 8) else s).noteSsq j.src r (spadBase j.t + r.oaddr)
    if r.dest = 2 then
      let vs := conv.flatMap (fun (e, _, _) => (chunks 4 e).map (fun b => BitVec.ofNat 32 (leNat b)))
      s.setArr { s.arr with bus := s.arr.bus.set j.t (s.arr.bus.get [] j.t ++
        [{ array := j.a, first := j.first, src := j.src, words := j.words, shape := r.sh, vals := vs, also := j.also, owed := owed }]) }
    else if r.toPack then
      s.packArrive j.t (j.a / 8 % 2) { array := j.a, first := j.first, src := j.src, ext := j.ext, shape := r.sh,
                                       vals := packed.map (fun (c, _) => BitVec.ofNat 32 c), also := j.also, owed := owed }
    else s.drainEnds j.t j.a j.first j.src j.also owed

/-! ### The commands -/

/-- A drain at the head of its array's command order (R75, R90 to R92): it waits (none), it fails with a code, it is held for a replay, or
it runs, until it is stopped. -/
def State.startDrain (s : State) (t a : Nat) (src : Src) (w ext : List Word) (sideFailed : BitVec 64) (stop : Option Nat) : Option State :=
  let r := drainRec w
  let p := s.phys t a
  let y := s.array t p
  let first := (s.windowIn t (a / 8) src.fn.val).base + r.tile
  let held := y.lease? first
  let c := s.custSt t
  let code := r.code ext (s.window src.fn.val) (s.target t).active.vsize.toNat c.active.isSome held
  if s.drainBusy t a || (match held with | some l => l.drained | none => false) then none
  else if code ≠ 0 then some (s.programFault src code t 1 a)
  else if (y.leases.filter (fun l => l.overlaps first r.foot && l.first != first)).length ≠ 0 then none
  else
    let table := c.active.getD { bnd := c.bnd, coef := c.coef }
    let job : DrainJob := { t := t, a := a, dp := p, first := first, src := src, words := w, ext := ext, table := table,
                            sideFailed := sideFailed, poison := false, also := none, draws := s.draws t src.fn }
    match held with
    | some l =>
      if l.marked then
        let h : HeldDrain := { src := src, words := w, ext := ext, sideFailed := sideFailed, table := some table }
        some (s.setArray t p (y.setLease { l with drained := true, held := some h }))
      else
        let s := s.setArray t p (y.setLease { l with drained := true })
        some (s.runDrain job [] 0 stop (y.readTile s.fresh first r.sh r.comp))
    | none =>
      let lease : Lease :=
        { first := first, foot := r.foot, shape := r.sh, comp := r.comp, tie := 0, fn := src.fn, handle := src.handle,
          drained := true, mism := 0, log := [], overflowed := false, marked := false, held := none }
      let s' := s.setArray t p (y.setLease lease)
      some (s'.useFree.runDrain job [] 0 stop (y.readTile s.fresh first r.sh r.comp))

/-- A stopped drain goes on with its next row (R95), once its unit is free. -/
def State.resumeDrain (s : State) (t a : Nat) (l : Lease) (x : DrainPart) (stop : Option Nat) : State :=
  let p := s.phys t a
  let y := s.array t p
  if s.drainBusy t a then s
  else
    let job : DrainJob := { t := t, a := a, dp := p, first := l.first, src := x.src, words := x.words, ext := x.ext, table := x.table,
                            sideFailed := x.sideFailed, poison := false, also := none, draws := x.draws }
    ((s.setArray t p (y.setLease { l with part := none })).serveTurn x.src t 1 (a / 8)).runDrain job x.outs x.norm stop
      (y.readTile s.fresh l.first l.shape l.comp)

/-- The stopped drain on an array that a DRAIN command names again. -/
def ArraySt.stopped? (y : ArraySt) (src : Src) (ws : List Word) : Option (Lease × DrainPart) :=
  y.leases.findSome? (fun l => l.part.bind (fun x => if x.src == src && x.words == ws then some (l, x) else none))

/-- DRAIN goes on where it was stopped, or enters its array's queue; where nothing waits there it starts at once if it can (R89 to R92,
R95). -/
def execDrain (t : TileIx) (g : Fin 10) (src : Src) (ws ext : List Word) (sideFailed : Course (BitVec 64)) (s : State) :
    Host.Outcome State Fault Refusal :=
  let stop := sideFailed.stop
  let sideFailed := sideFailed.of
  let a := g.val * 8 + (drainRec ws).aidx
  let p := s.phys t a
  let y := s.array t p
  let op : WaitOp := { isDrain := true, src := src, words := ws, ext := ext, sideFailed := sideFailed, mism := false,
                       id := 0, need := 0, taken := [] }
  match (if s.galleryOpen t g src then y.stopped? src ws else none) with
  | some (l, x) => .next (s.resumeDrain t a l x stop)
  | none =>
    let s' := s.took src t 0 g
    let wait := s'.setArray t p { y with waiting := y.waiting ++ [op] }
    if !s.galleryTakes t g src ws ext || !s.slotsHere t g src.fn (drainRec ws).tile (drainRec ws).foot then .next s
    else if !y.waiting.isEmpty then .next wait
    else .next ((s'.startDrain t a src ws ext sideFailed stop).getD wait)

/-- LEASE_WAIT_RELEASE: the first waiting operation of an array's lease queue starts, if it can (R75, R94 event 9). -/
def execLeaseWaitRelease (t : TileIx) (a : Fin 80) (mism : Bool) (s : State) : Host.Outcome State Fault Refusal :=
  let p := s.phys t a
  let y := s.array t p
  match y.waiting with
  | [] => .next s
  | w :: rest =>
    if w.isDrain then
      .next (((s.setArray t p { y with waiting := rest }).startDrain t a w.src w.words w.ext w.sideFailed none).getD s)
    else .next (s.startProduct t (a.val / 8) (a.val % 8) { w with mism := w.mism || mism })

/-! ### Replay (R84, R85) -/

/-- The values of a replayed log: its products again, from the operands in the scratchpad, panels in FLOW mode. -/
def State.replayLog (s : State) (t i : Nat) (l : Lease) : List (X32 × X32) :=
  l.log.foldl (fun acc rec_ =>
    let r := productRec rec_.words
    let start := match acc with
      | [] => (preload s.mem t i r).map (fun x => (x, (0 : X32)))
      | _ => acc
    let f := (NF.ofCode r.pfmt).getD .e4m3
    let panel := (readLines s.mem t f (r.paddr + i * r.aoff) (r.pscale + i * r.asoff) r.pstride r.psstride r.plines (32 * r.kblk)).map
      (bytesVals f (32 * r.kblk))
    reduceTile r panel (streamLines s.mem t i r).1 start) []

/-- The twin of a logical array (R62). -/
def twinOf (a : Nat) : Nat := if a % 2 = 0 then a + 1 else a - 1

/-- A residue mismatch counts against a physical array, saturating at 127 in the health record; the second asks for its
retirement (R86, R468), unless that found no spare before (R87). -/
def State.countMismatch (s : State) (t p n : Nat) : State :=
  let y := s.array t p
  let s := s.setArray t p { y with mismatches := y.mismatches + n, retiring := y.retiring || (decide (2 ≤ y.mismatches + n) && !y.kept) }
  s.setHealth { s.health with mism := s.health.mism.upd 0 (t * 84 + p) (fun k => min 127 (k + n)) }

/-- Whether some command of a replayed log has a group that is compared (R83). -/
def State.logCompared (s : State) (t i : Nat) (l : Lease) : Bool :=
  l.log.any (fun x =>
    let r := productRec x.words
    let f := (NF.ofCode r.pfmt).getD .e4m3
    compared r ((readLines s.mem t f (r.paddr + i * r.aoff) (r.pscale + i * r.asoff) r.pstride r.psstride r.plines (32 * r.kblk)).map
      (bytesVals f (32 * r.kblk))) (streamLines s.mem t i r).1)

/-- TILE_REPLAY: the marked tile whose drain is held is recomputed in the twin's slots, under a lease of the twin, and its drain is emitted
by the twin's drain unit; both leases end with it. If the twin mismatches too, the tile is computed a third time on the original array, and
the original's drain unit emits and counts it (DESIGN CHOICE: R84 and R95 name the twin's for a replay on the twin, and no unit for the third
computation; log entry 61). A tile that cannot be replayed is emitted from the original with its destination marked failed, and completes
with POISON (R84, R85). It waits while the twin holds a lease on the slots, or the drain unit that is to emit it runs a drain (R92). -/
def execTileReplay (t : TileIx) (a : Fin 80) (slot : Nat) (twinMism origMism : Bool) (s : State) :
    Host.Outcome State Fault Refusal :=
  let p := s.phys t a
  let b := twinOf a.val
  let q := s.phys t b
  let y := s.array t p
  match y.lease? slot with
  | none => .next s
  | some l =>
    match l.held with
    | none => .next s
    | some h =>
      let able := !l.overflowed && !l.log.any (·.ssrc)
      let seen := s.logCompared t (a.val % 8) l
      let twin := able && !(twinMism && seen)
      let unit := if twin then b else a.val
      if (able && (s.array t q).leases.any (fun k => k.overlaps l.first l.foot)) || s.drainBusy t unit then .next s
      else
        let good := twin || (able && !(origMism && seen))
        let (hi, lo) := if good then
            let v := s.replayLog t (a.val % 8) l
            (v.map (·.1), v.map (·.2))
          else y.readTile s.fresh slot l.shape l.comp
        let s := if good then s else s.useFree
        let twinLease : Lease := { l with drained := true, held := none, marked := false, log := [] }
        let s := if twin then s.setArray t q (((s.array t q).writeTile slot l.shape l.comp hi lo).setLease twinLease)
          else if good then s.setArray t p { y.writeTile slot l.shape l.comp hi lo with leases := y.leases } else s
        let y := s.array t p
        let s := s.setArray t p (y.setLease { l with held := none })
        let c := s.custSt t
        let job : DrainJob := { t := t, a := unit, dp := if twin then q else p, first := slot, src := h.src, words := h.words, ext := h.ext,
                                table := h.table.getD { bnd := c.bnd, coef := c.coef }, sideFailed := h.sideFailed, poison := !good,
                                also := if twin then some a.val else none, draws := s.draws t h.src.fn }
        let s := s.runDrain job [] 0 none (hi, lo)
        let s := s.countMismatch t p (l.mism + b2n (able && !twin && !good))
        let s := if able && !twin then s.countMismatch t q 1 else s
        .next (s.healthEvent 0x10E t p 0 (s.array t p).mismatches)

/-- ARRAY_RETIRE: with its last lease drained, an array under its second mismatch gives its logical number to a spare,
which reloads its panel; without a spare it stays, SPARES_EXHAUSTED is posted, the run stops at the next update
boundary and the gallery's map is refused to later programs (R86, R87). -/
def execArrayRetire (t : TileIx) (a : Fin 80) (s : State) : Host.Outcome State Fault Refusal :=
  if s.keeper.kbusy then .next (s.owe (.arrayRetire t a)) else
  let p := s.phys t a
  let y := s.array t p
  if !y.retiring || y.retired || !y.leases.isEmpty then .next s
  else
    let used (q : Nat) : Bool := (s.array t q).retired || (List.range 80).any (fun b => s.phys t b == q)
    match ([80, 81, 82, 83] : List Nat).find? (fun q => !used q) with
    | some q =>
      let s := s.setArray t q { s.array t q with forceReload := true, waiting := y.waiting }
      let s := s.setArray t p { y with retiring := false, retired := true, waiting := [] }
      let s := s.setArr { s.arr with map := s.arr.map.set (t.val * 80 + a.val) q }
      .next (s.healthEvent 0x101 t p 0 q)
    | none =>
      let s := s.setArray t p { y with retiring := false, kept := true }
      let s := s.setHealth { s.health with badGalleries := unionNat [t.val * 10 + a.val / 8] s.health.badGalleries }
      .next ((s.healthEvent 0x102 t p 0 y.mismatches).stopRun .health)

/-- The write of DRN_CUST_COMMIT.COMMIT (R115, R116): refused unless the boundaries ascend strictly and every staged
value is finite. -/
def State.commitCust (s : State) (t : Nat) : State :=
  let c := s.custSt t
  let finite := (c.bnd ++ c.coef).all (fun w => !(ofFP32 w).special)
  let rising := (c.bnd.zip c.bnd.tail).all (fun (x, y) => (ofFP32 x).lt (ofFP32 y))
  if finite && rising then
    (s.setCust t { c with active := some { bnd := c.bnd, coef := c.coef }, pending := true, refused := false, units := List.range 80 }).custSettle t
  else s.setCust t { c with refused := true }

end Sys2Proof.Machine
end

