-- ==== Sys2Proof/Machine/Target.lean ====
section
/-! DEFINITION. The Target engine (chapter 5): the teacher pass and its records, the target ring and spill, the student
passes and their gradients and losses, record forwarding and the TCFG group. -/
namespace Sys2Proof.Machine

/-! ### Configuration (R129, R145, R146) -/

def Tcfg.k (c : Tcfg) : Nat := bitsOf c.mode.toNat 8 0
def Tcfg.proportional (c : Tcfg) : Bool := bitOf c.mode.toNat 9
def Tcfg.gcode (c : Tcfg) : Nat := bitsOf c.mode.toNat 11 10
def Tcfg.gfmt (c : Tcfg) : NF := match c.gcode with | 0 => .e4m3 | 1 => .e5m2 | _ => .bf16
def Tcfg.spillEn (c : Tcfg) : Bool := bitOf c.mode.toNat 12
/-- N: the largest power of two not above 65,536 nor above the slots the region holds (R129). -/
def Tcfg.n (c : Tcfg) : Nat := 2 ^ Nat.log2 (min 65536 (c.ringMib.toNat * 2 ^ 20 / (4 * c.k)))

/-- The address of a position's ring slot, and of its spill slot (R129, R133). -/
def Tcfg.ringAddr (c : Tcfg) (t p : Nat) : Nat := spadBase t + c.ringBase.toNat + p % c.n * (4 * c.k)
def Tcfg.spillAddr (c : Tcfg) (t p : Nat) : Nat :=
  nearBase t + c.spillBase.toNat * 65536 + p % 2 ^ c.spillLog2.toNat * (4 * c.k)

/-- Whether two areas share a byte. -/
def areasMeet (a n b m : Nat) : Bool := decide (a < b + m) && decide (b < a + n)

/-- The checks of a TCFG commit (R145 to R147). -/
def Tcfg.valid (c : Tcfg) : Bool :=
  let tau := ofFP32 c.tau
  let ring := c.ringMib.toNat * 2 ^ 20
  let (rb, pb, lb) := (c.ringBase.toNat, c.posBase.toNat, c.lossBase.toNat)
  !(tau.lt (.fin false 1 (-3))) && !(FVal.lt (.ofNat 16) tau) && !tau.special &&
  !(ofFP32 c.alpha).special && !(ofFP32 c.beta).special && !(ofFP32 c.gamma).special &&
  c.gcode != 3 && decide (1 ≤ c.k) && decide (c.k ≤ 256) && decide (1 ≤ c.vsize.toNat) && decide (c.vsize.toNat ≤ 262144) &&
  rb % 4096 == 0 && decide (1 ≤ c.ringMib.toNat) && decide (c.ringMib.toNat ≤ 96) && pb % 8 == 0 && lb % 16 == 0 &&
  decide (c.spillLog2.toNat ≤ 16) &&
  decide (rb + ring ≤ spadEnd) && decide (pb + 524288 ≤ spadEnd) && decide (lb + 1048576 ≤ spadEnd) &&
  !areasMeet rb ring pb 524288 && !areasMeet rb ring lb 1048576 && !areasMeet pb 524288 lb 1048576 &&
  (!c.spillEn || decide (c.spillBase.toNat * 65536 + 2 ^ c.spillLog2.toNat * (4 * c.k) ≤ 2 ^ 36))

/-- Whether the engine has an open position or an unconsumed record (R147). -/
def TargetSt.busy (e : TargetSt) : Bool := !e.open_.isEmpty || List.any e.slots (fun x => x.2.valid)

/-- A committed group takes effect when the engine is free of positions and records; invt is formed then (R124, R147). -/
def TargetSt.settle (e : TargetSt) : TargetSt :=
  match e.committed with
  | none => e
  | some c => if e.busy then e
    else { e with active := c, committed := none, invt := toX32 (FVal.div .one (ofFP32 c.tau)) }

/-- The write of TGT_COMMIT.COMMIT (R147). -/
def TargetSt.commit (e : TargetSt) : TargetSt :=
  if e.staged.valid then { e with committed := some e.staged, refused := false }.settle else { e with refused := true }

/-! ### Probabilities (R126) -/

def fP14 : Fmt := ⟨5, 9, 31, .none_⟩
/-- P14 of a probability, to nearest even. -/
def p14 (v : FVal) : Nat := match v with | .fin _ m e => (fP14.round none m e).code | _ => 0

/-! ### Positions of a tile on the drain bus (R120) -/

/-- Position lines and vocabulary lines of a bus tile. -/
def BusTile.npos (b : BusTile) : Nat := if (drainRec b.words).vside then b.shape.cols else b.shape.rows
def BusTile.nvoc (b : BusTile) : Nat := if (drainRec b.words).vside then b.shape.rows else b.shape.cols
/-- The position index of position line j. -/
def BusTile.pos (b : BusTile) (j : Nat) : Nat := ((drainRec b.words).pidx + j) % 65536
/-- The logit of position line j at vocabulary line i. -/
def BusTile.logit (b : BusTile) (j i : Nat) : X32 :=
  x32OfFP32 (b.vals.getD (if (drainRec b.words).vside then i * b.shape.cols + j else j * b.shape.cols + i) 0)
/-- The logits of position line j with their vocabulary indices, lines at or beyond VSIZE discarded. -/
def BusTile.logits (b : BusTile) (vsize j : Nat) : List (Nat × X32) :=
  (List.range b.nvoc).filterMap (fun i =>
    let v := (drainRec b.words).vidx + i
    if v < vsize then some (v, b.logit j i) else none)
/-- The next vocabulary index after the tile. -/
def BusTile.nextV (b : BusTile) : Nat := (drainRec b.words).vidx + b.nvoc

/-- The open state of a position. -/
def TargetSt.openAt (e : TargetSt) (p : Nat) : Option OpenPos := e.open_.find? (fun o => o.pos == p)
def TargetSt.setOpen (e : TargetSt) (o : OpenPos) : TargetSt :=
  { e with open_ := if e.open_.any (fun x => x.pos == o.pos) then e.open_.map (fun x => if x.pos == o.pos then o else x) else e.open_ ++ [o] }
def TargetSt.close (e : TargetSt) (p : Nat) : TargetSt := { e with open_ := e.open_.filter (fun x => x.pos != p) }
/-- Open positions in the SCORE half or in the LEARN half (R123). -/
def TargetSt.openCount (e : TargetSt) (score : Bool) : Nat := (e.open_.filter (fun o => (o.mode == .teacher) == score)).length

/-- The engine that accepts tiles of a target mode: the sampler engine for SAMPLE, else the Target engine (R109). -/
def tmodeKind (tmode : Nat) : Nat := if tmode = 3 then 8 else 6

/-- The first tile of an array on a tile's drain bus in a target mode; a held tile accepts none (R433), nor an engine whose turn is
another function's (R370). -/
def State.busTile (s : State) (t a tmode : Nat) : Option BusTile :=
  if (s.tilePwr t).hold then none else
  (s.arr.bus.get [] t).find? (fun b => b.array == a && (drainRec b.words).tmode == tmode && s.turnOpen b.src t (tmodeKind tmode) 0)

/-- A tile is off the drain bus, and FULL and WAITING follow. -/
def State.offBus (s : State) (t : Nat) (b : BusTile) : State :=
  (s.setArr { s.arr with bus := s.arr.bus.set t ((s.arr.bus.get [] t).filter (fun x => x.array != b.array)) }).settleWaits t

/-- A bus tile leaves the bus: it was accepted, and its drain ends (R94 events 7 to 9). -/
def State.busTake (s : State) (t : Nat) (b : BusTile) : State :=
  ((s.offBus t b).serveTurn b.src t (tmodeKind (drainRec b.words).tmode) 0).drainEnds t b.array b.first b.src b.also b.owed

/-- A bus tile waits under R130 or R131, from now where it did not wait before. -/
def State.busWait (s : State) (t : Nat) (b : BusTile) : State :=
  let mark (x : BusTile) : BusTile := if x.array == b.array && x.since.isNone then { x with since := some (s.watch t) } else x
  (s.setArr { s.arr with bus := s.arr.bus.set t ((s.arr.bus.get [] t).map mark) }).settleWaits t

/-- A bus tile fails with FMT (R122): its lease stays as it was, its drain is not issued any more, and its program stops. -/
def State.busFail (s : State) (t : Nat) (b : BusTile) : State :=
  let s := s.offBus t b
  let p := s.phys t b.array
  let y := s.array t p
  let y := match y.lease? b.first with
    | some l => if l.log.isEmpty then y.dropLease b.first else y.setLease { l with drained := false }
    | none => y
  ((s.setArray t p y).programFault b.src 1 t 1 b.array).custSettle t

/-- The positions of a tile that are open are not all in the same mode (R122). -/
def TargetSt.mixed (e : TargetSt) (ps : List Nat) : Bool :=
  let ms := ps.filterMap (fun p => (e.openAt p).map (·.mode))
  ms.any (fun m => ms.head? != some m)

/-! ### The teacher pass (R124 to R127) -/

/-- A candidate enters the top set in rank order: behind the entries that are not smaller. -/
def topInsert (v : Nat) (y : X32) : List (Nat × X32) → List (Nat × X32)
  | [] => [(v, y)]
  | (v', y') :: r => if (ofX32 y').lt (ofX32 y) then (v, y) :: (v', y') :: r else (v', y') :: topInsert v y r

/-- The top set after a candidate, at most k entries (R124). -/
def topAdd (k : Nat) (v : Nat) (y : X32) (top : List (Nat × X32)) : List (Nat × X32) :=
  let smallest := (top.getLast?.map (·.2)).getD 0
  if top.length < k || (ofX32 smallest).lt (ofX32 y) then (topInsert v y top).take k else top

/-- One logit of the teacher pass (R124). -/
def teacherLogit (k : Nat) (invt : X32) (o : OpenPos) (v : Nat) (z : X32) : OpenPos :=
  let y := xmul z invt
  if (ofX32 y).special then { o with bad := true }
  else
    let (m, s) := if (ofX32 o.m).lt (ofX32 y) then (y, xmul o.s (xexp (xsub o.m y))) else (o.m, o.s)
    { o with m := m, s := xadd s (xexp (xsub y m)), top := topAdd k v y o.top }

/-- The record of a position (R125): its pair block, NREAL and TAIL. -/
def formRecord (k : Nat) (o : OpenPos) : List Word × Nat × Nat :=
  if o.bad then (List.replicate k 0xFFFFFFFF, 0, 0)
  else
    let (pairs, n, t) := o.top.foldl (fun (ps, n, t) (v, y) =>
      let e := xexp (xsub y o.m)
      let c := p14 ((ofX32 (xdiv e o.s)).min .one)
      if c = 0 then (ps ++ [(0xFFFFFFFF : Word)], n, t)
      else (ps ++ [BitVec.ofNat 32 (v * 2 ^ 14 + c)], n + 1, xadd t e)) (([] : List Word), 0, (0 : X32))
    let tail := (fBF16.ieee ((ofX32 (xdiv (xsub o.s t) o.s)).max .zero))
    (pairs ++ List.replicate (k - pairs.length) 0xFFFFFFFF, n, tail)

/-- The slot a position opens with under R130 and R133: ring (false), spill (true), or none. -/
def TargetSt.slotFor (e : TargetSt) (p : Nat) : Option Bool :=
  let c := e.active
  if (e.slots.get {} p).valid || (e.openAt p).isSome then none
  else if !e.ringOcc.has (p % c.n) then some false
  else if c.spillEn && !e.spillOcc.has (p % 2 ^ c.spillLog2.toNat) then some true
  else none

/-- A slot becomes occupied by a position. -/
def TargetSt.occupy (e : TargetSt) (p : Nat) (spill : Bool) : TargetSt :=
  if spill then { e with spillOcc := e.spillOcc.set (p % 2 ^ e.active.spillLog2.toNat) p }
  else { e with ringOcc := e.ringOcc.set (p % e.active.n) p }

/-- A position's slot is free again (R130). -/
def TargetSt.vacate (e : TargetSt) (p : Nat) (spill : Bool) : TargetSt :=
  if spill then { e with spillOcc := e.spillOcc.del (p % 2 ^ e.active.spillLog2.toNat) }
  else { e with ringOcc := e.ringOcc.del (p % e.active.n) }

/-- Positions open for SCORE one by one, or none of them can (R130). -/
def TargetSt.openScore (e : TargetSt) : List Nat → Option TargetSt
  | [] => some e
  | p :: ps =>
    match e.slotFor p with
    | none => none
    | some sp =>
      TargetSt.openScore ((e.occupy p sp).setOpen { pos := p, mode := .teacher, spill := sp, m := xNegInf, gen := e.parity }) ps

/-- A record is written: pair block to its slot, slot word VALID (R125, R128, R133). -/
def State.writeRecord (s : State) (t p : Nat) (spill : Bool) (pairs : List Word) (w : SlotWord) : State :=
  let e := s.target t
  let a := if spill then e.active.spillAddr t p else e.active.ringAddr t p
  let s := s.setMem (Mem.writeN s.mem a (wordsBytes pairs))
  s.setTarget t { e with slots := e.slots.set p { w with spilled := spill },
                         spilled := if spill then satAdd32 e.spilled 1 else e.spilled }

/-- TEACHER_TILE: the engine accepts, fails or leaves waiting the teacher tile an array holds on the drain bus. -/
def execTeacherTile (t : TileIx) (a : Fin 80) (s : State) : Host.Outcome State Fault Refusal :=
  match s.busTile t a 0 with
  | none => .next s
  | some b =>
    let e := s.target t
    let r := drainRec b.words
    let ps := (List.range b.npos).map b.pos
    let opened := ps.filter (fun p => match e.openAt p with | some o => o.mode == .teacher | none => false)
    let fresh := ps.filter (fun p => !opened.contains p)
    let expects := opened.map (fun p => ((e.openAt p).map (·.expect)).getD 0)
    if e.mixed ps || expects.any (fun x => decide (r.vidx < x)) then .next (s.busFail t b)
    else if (!fresh.isEmpty && r.vidx != 0) || expects.any (fun x => x != r.vidx) then .next s
    else if 640 < e.openCount true + fresh.length then .next s
    else
      match e.openScore fresh with
      | none => .next (s.busWait t b)
      | some e1 =>
        let e2 := ps.zipIdx.foldl (fun e (p, j) =>
          match e.openAt p with
          | none => e
          | some o =>
            let o := (b.logits e.active.vsize.toNat j).foldl (fun o (v, z) => teacherLogit e.active.k e.invt o v z) o
            e.setOpen { o with expect := b.nextV }) e1
        let s := (s.setTarget t e2).busTake t b
        let s := if fresh.isEmpty then s else s.setRun { s.run with genScored := e.parity }
        if !r.vend then .next s
        else .next (ps.foldl (fun s p =>
          let e := s.target t
          match e.openAt p with
          | none => s
          | some o =>
            let (pairs, n, tail) := formRecord e.active.k o
            let s := s.writeRecord t p o.spill pairs { ptag := p, tail := tail, nreal := n, valid := true, bad := o.bad, gen := o.gen }
            s.setTarget t ((s.target t).close p)) s)

/-! ### Record forwarding (R134) -/

/-- Whether an end of a forward is another module. -/
def toModule : RecEnd → Bool
  | .tile _ => false
  | .module _ => true

/-- The fields of a slot word (R128). -/
def slotOf (w : Nat) : SlotWord :=
  { ptag := bitsOf w 63 48, tail := bitsOf w 47 32, nreal := bitsOf w 31 23, valid := bitOf w 22, bad := bitOf w 21,
    gen := bitOf w 20, spilled := bitOf w 19 }
def SlotWord.word (w : SlotWord) : Nat :=
  w.ptag * 2 ^ 48 + w.tail * 2 ^ 32 + w.nreal * 2 ^ 23 + b2n w.valid * 2 ^ 22 + b2n w.bad * 2 ^ 21 + b2n w.gen * 2 ^ 20 + b2n w.spilled * 2 ^ 19

/-- The pair block of a record held on a tile. -/
def State.pairsOf (s : State) (t p : Nat) : List Word :=
  let e := s.target t
  let a := if (e.slots.get {} p).spilled then e.active.spillAddr t p else e.active.ringAddr t p
  (List.range e.active.k).map (fun i => Mem.word s.mem (a + 4 * i))

/-- A record is consumed, discarded or moved away: VALID clears and its slot is free (R132, R134). -/
def State.dropRecord (s : State) (t p : Nat) : State :=
  let e := s.target t
  let w := e.slots.get {} p
  s.setTarget t ({ e with slots := e.slots.set p { w with valid := false } }.vacate p w.spilled)

/-- The positions that wait to be forwarded into an engine change. -/
def TargetSt.setFwds (e : TargetSt) (now : Nat) (ps : List Nat) : TargetSt := { e.catchUp now with fwds := ps }

/-- RECORD_FORWARD: a whole record moves from a tile or module to a tile or module; where the destination slot is occupied it waits, and
the time counts as SCORE's there (log entry 63). A record for another module is sent, and its source slot is freed when the same command
comes again with the slot word that the destination has then set VALID (log entry 63). -/
def execRecordForward (pos : Nat) (src dst : RecEnd) (pairs : List Word) (slotWord : DWord) (s : State) :
    Host.Outcome State Fault Refusal :=
  let p := pos % 65536
  let found : Option (List Word × SlotWord) := match src with
    | .tile t =>
      let e := s.target t
      let w := e.slots.get {} p
      if w.valid && (e.openAt p).isNone && (!e.forwarding.has p || toModule dst) then some (s.pairsOf t p, w) else none
    | .module _ => some (pairs, slotOf slotWord.toNat)
  let leave (s : State) : State := match src with
    | .tile t => s.dropRecord t p
    | .module _ => s
  match found with
  | none => .next s
  | some (ps, w) =>
    match dst with
    | .module m =>
      let sent (s : State) (f : Tab Nat → Tab Nat) : State := match src with
        | .tile t => s.setTarget t { s.target t with forwarding := f (s.target t).forwarding }
        | .module _ => s
      let away := match src with
        | .tile t => (s.target t).forwarding.find? p == some m
        | .module _ => false
      if !away then .next ((sent s (·.set p m)).send (.record m p ps (BitVec.ofNat 64 w.word)))
      else if bitOf slotWord.toNat 22 && bitsOf slotWord.toNat 63 48 == p then .next (leave (sent s (Tab.del · p)))
      else .next s
    | .tile d =>
      let e := s.target d
      match e.slotFor p with
      | none => .next (s.setTarget d (e.setFwds (s.watch d) (if e.fwds.contains p then e.fwds else e.fwds ++ [p])))
      | some sp =>
        let s := s.setTarget d ((e.setFwds (s.watch d) (e.fwds.filter (· != p))).occupy p sp)
        .next (leave (s.writeRecord d p sp ps { w with ptag := p, valid := true }))

/-! ### The student passes (R137 to R142) -/

/-- A position's record probability by token, and its tail (R139). -/
def OpenPos.inRecord (o : OpenPos) (v : Nat) : Option Nat := (o.rec_.find? (fun e => e.1 == v)).map (·.2)

/-- One logit of the normaliser pass (R138). -/
def normLogit (invt : X32) (o : OpenPos) (v : Nat) (z : X32) : OpenPos :=
  let u := xmul z invt
  let (mt, st, r) :=
    if (ofX32 o.m).lt (ofX32 u) then
      let f := xexp (xsub o.m u)
      (u, xmul o.s f, xmul o.r f)
    else (o.m, o.s, o.r)
  let x := xexp (xsub u mt)
  let r := if (o.inRecord v).isNone then xadd r x else r
  let (m1, s1) := if (ofX32 o.m1).lt (ofX32 z) then (z, xmul o.s1 (xexp (xsub o.m1 z))) else (o.m1, o.s1)
  { o with m := mt, s := xadd st x, r := r, m1 := m1, s1 := xadd s1 (xexp (xsub z m1)) }

/-- The normalisers at VEND (R138), and whether the proportional tail falls back to UNIFORM (R139). -/
def normEnd (c : Tcfg) (o : OpenPos) : OpenPos :=
  let rn := xdiv o.r o.s
  { o with mode := .grad, expect := 0, lt := xadd o.m (xlog o.s), l1 := xadd o.m1 (xlog o.s1), rn := rn,
           uniform := !c.proportional || (rn == 0 && c.vsize.toNat != o.rec_.length) }

/-- A position opens for LEARN: its record and its position-table entry are read (R131, R137), and TGT_LSCALE is taken, which scales its
gradients alone (R142, R145; DEDUCED: R145 says the opening and not which one; log entry 48). -/
def State.openLearn (s : State) (t p : Nat) : OpenPos :=
  let e := s.target t
  let w := e.slots.get {} p
  let pt := spadBase t + e.active.posBase.toNat + 8 * p
  let w0 := (Mem.word s.mem pt).toNat
  let rec_ := ((s.pairsOf t p).take w.nreal).map (fun x => (x.toNat / 2 ^ 14, x.toNat % 2 ^ 14))
  { pos := p, mode := .norm, spill := w.spilled, m := xNegInf, m1 := xNegInf, lscale := e.lscale, rec_ := rec_,
    tail := w.tail, recBad := w.bad, gen := w.gen, ignore := bitOf w0 31, label := bitsOf w0 17 0, adv := Mem.word s.mem (pt + 4) }

/-- STUDENT_NORM_TILE (R131, R138). TGT_PROPFALL counts a position when its normalisers are formed, one with IGNORE = 1 or a BAD record
too (DESIGN CHOICE: R139 does not say when; log entry 48). -/
def execStudentNormTile (t : TileIx) (a : Fin 80) (s : State) : Host.Outcome State Fault Refusal :=
  match s.busTile t a 1 with
  | none => .next s
  | some b =>
    let e := s.target t
    let r := drainRec b.words
    let ps := (List.range b.npos).map b.pos
    let inMode (m : PosMode) (p : Nat) : Bool := match e.openAt p with | some o => o.mode == m | none => false
    let opened := ps.filter (inMode .norm)
    let fresh := ps.filter (fun p => !opened.contains p)
    let expects := opened.map (fun p => ((e.openAt p).map (·.expect)).getD 0)
    if e.mixed ps || ps.any (inMode .grad) || expects.any (fun x => decide (r.vidx < x)) then .next (s.busFail t b)
    else if (!fresh.isEmpty && r.vidx != 0) || expects.any (fun x => x != r.vidx) then .next s
    else if fresh.any (fun p => let w := e.slots.get {} p; !(w.valid && w.ptag == p) || (e.openAt p).isSome) then
      .next (s.busWait t b)
    else if 640 < e.openCount false + fresh.length then .next s
    else
      let e1 := fresh.foldl (fun e p => e.setOpen (s.openLearn t p)) e
      let e2 := ps.zipIdx.foldl (fun e (p, j) =>
        match e.openAt p with
        | none => e
        | some o =>
          let o := (b.logits e.active.vsize.toNat j).foldl (fun o (v, z) => normLogit e.invt o v z) o
          let o := { o with expect := b.nextV }
          if r.vend then
            let o := normEnd e.active o
            let e := if e.active.proportional && o.uniform then { e with propfall := satAdd32 e.propfall 1 } else e
            e.setOpen o
          else e.setOpen o) e1
      .next ((s.setTarget t e2).busTake t b)

/-- The probability q a record gives a token (R139). -/
def recordQ (c : Tcfg) (o : OpenPos) (v : Nat) (pt : X32) : X32 :=
  match o.inRecord v with
  | some code => toX32 (fP14.decode code)
  | none =>
    let tail := toX32 (ofBF16 o.tail)
    if o.uniform then xdiv tail (toX32 (.ofNat (c.vsize.toNat - o.rec_.length))) else xdiv (xmul tail pt) o.rn

/-- One logit of the gradient pass (R139, R141): the position's running loss and its gradient, before the loss scale. -/
def gradLogit (c : Tcfg) (invt : X32) (o : OpenPos) (v : Nat) (z : X32) : OpenPos × X32 :=
  if o.ignore || o.recBad then (o, 0)
  else
    let u := xmul z invt
    let pt := xexp (xsub u o.lt)
    let p1 := xexp (xsub z o.l1)
    let q := recordQ c o v pt
    let kdpart := xmul (xmul (x32OfFP32 c.alpha) (x32OfFP32 c.tau)) (xsub pt q)
    let hit := v == o.label
    let hard := if c.vsize.toNat ≤ o.label then (0 : X32)
      else xmul (xadd (xmul (x32OfFP32 c.beta) (x32OfFP32 o.adv)) (x32OfFP32 c.gamma)) (xsub p1 (if hit then xOne else 0))
    let kd := if FVal.lt .zero (ofX32 q) then xadd o.kd (xmul q (xsub (xlog q) (xsub u o.lt))) else o.kd
    ({ o with kd := kd, zy := if hit then z else o.zy, zySeen := o.zySeen || hit }, xadd kdpart hard)

/-- The losses of a position, in X32 (R140, R141): KD, RWD, HARD, TOTAL. τ × τ is formed first, then α × τ², then its product with kd
(DESIGN CHOICE: R140 gives no order of rounding; log entry 48). -/
def losses (c : Tcfg) (o : OpenPos) : List X32 :=
  if o.ignore || o.recBad then [0, 0, 0, 0]
  else
    let tau := x32OfFP32 c.tau
    let kd := xmul (xmul (x32OfFP32 c.alpha) (xmul tau tau)) o.kd
    if c.vsize.toNat ≤ o.label then [kd, 0, 0, kd]
    else
      let d := xsub o.zy o.l1
      let nb := toX32 (ofFP32 c.beta).neg
      let ng := toX32 (ofFP32 c.gamma).neg
      let rwd := xmul (xmul nb (x32OfFP32 o.adv)) d
      let hard := xmul ng d
      [kd, rwd, hard, xadd (xadd kd rwd) hard]

/-- A position closes: losses written and summed, counters, and its record consumed (R132, R137, R141). -/
def State.closePos (s : State) (t p : Nat) : State :=
  let e := s.target t
  match e.openAt p with
  | none => s
  | some o =>
    let ws := (losses e.active o).map (fun x => BitVec.ofNat 32 (convInf fFP32 none false (ofX32 x)))
    let add (acc : X32) (i : Nat) : X32 := xadd acc (x32OfFP32 (ws.getD i 0))
    let s := s.setMem (Mem.writeN s.mem (spadBase t + e.active.lossBase.toNat + 16 * p) (wordsBytes ws))
    let noLabel := !o.ignore && !o.recBad && decide (e.active.vsize.toNat ≤ o.label)
    let e := { e with sumKd := add e.sumKd 0, sumRwd := add e.sumRwd 1, sumHard := add e.sumHard 2, sumTotal := add e.sumTotal 3,
                      badpos := satAdd32 e.badpos (b2n o.recBad), badlabel := satAdd32 e.badlabel (b2n noLabel) }
    ((s.setTarget t (e.close p)).setRun { s.run with genLearned := o.gen }).dropRecord t p

/-- The gradient line of a position: its 32 values times the loss scale, converted in GFMT (R142). -/
def gradLine (c : Tcfg) (lscale : Word) (gs : List X32) : (List Byte × List Byte) × NumStat :=
  let (eb, sb, st) := convLine c.gfmt (fun _ => none) false (gs.map (fun g => ofX32 (xmul g (x32OfFP32 lscale))))
  ((eb, sb), st)

/-- STUDENT_GRAD_TILE (R139 to R143): gradients delivered to the gallery; at VEND its positions close. -/
def execStudentGradTile (t : TileIx) (a : Fin 80) (s : State) : Host.Outcome State Fault Refusal :=
  match s.busTile t a 2 with
  | none => .next s
  | some b =>
    let e := s.target t
    let r := drainRec b.words
    let ps := (List.range b.npos).map b.pos
    let g := a.val / 8
    let os := ps.filterMap (fun p => match e.openAt p with | some o => if o.mode = .grad then some o else none | none => none)
    if e.mixed ps || os.any (fun o => decide (r.vidx < o.expect)) then .next (s.busFail t b)
    else if os.length != ps.length || os.any (fun o => o.expect != r.vidx) then .next s
    else if 16 ≤ (s.gallery t g).delivery.length then .next s
    else
      let lines := os.zipIdx.map (fun (o, j) =>
        (List.range b.nvoc).foldl (fun (o, gs) i =>
          let v := r.vidx + i
          if v < e.active.vsize.toNat then
            let (o, x) := gradLogit e.active e.invt o v (b.logit j i)
            (o, gs ++ [x])
          else (o, gs ++ [0])) (({ o with expect := b.nextV } : OpenPos), ([] : List X32)))
      let conv := lines.map (fun (o, gs) => gradLine e.active o.lscale gs)
      let st := conv.foldl (fun st (_, st') => NumStat.join st st') ({} : NumStat)
      let e := lines.foldl (fun e (o, _) => e.setOpen o) { e with stat := e.stat.join st }
      let tile : GradTile := { fmt := e.active.gfmt, handle := b.src.handle, lines := conv.map (·.1) }
      let s := ((s.setTarget t e).busTake t b).countOvf t 1 st.ovf
      let y := s.gallery t g
      let s := (s.setGallery t g { y with delivery := y.delivery ++ [tile] }).feed t g
      .next (if r.vend then ps.foldl (fun s p => s.closePos t p) s else s)

/-! ### The configuration commands -/

/-- TCFG_APPLY: a committed group takes effect once the engine holds no open position and no record (R147). -/
def execTcfgApply (t : TileIx) (s : State) : Host.Outcome State Fault Refusal :=
  .next (s.setTarget t (s.target t).settle)

/-- All records and open positions are discarded (R15), and the tiles that wait on the drain bus with them. -/
def TargetSt.discard (e : TargetSt) (now : Nat) : TargetSt :=
  { e.catchUp now with slots := e.slots.map (fun (k, w) => (k, { w with valid := false })), ringOcc := [], spillOcc := [], open_ := [],
                       full := false, waiting := false, fwds := [], forwarding := [] }

/-! ### TGT_STATUS and TGT_SLOTS as they read (R148) -/

/-- TGT_STATUS: the flags, SPILLING, FULL and WAITING. -/
def TargetSt.statusWord (e : TargetSt) : Word :=
  BitVec.ofNat 32 (b2n e.stat.ovf * 2 ^ 31 + b2n e.stat.unf * 2 ^ 30 + b2n e.stat.nan * 2 ^ 29 +
    b2n (List.any e.slots (fun x => x.2.valid && x.2.spilled)) * 4 + b2n e.full * 2 + b2n e.waiting)

/-- TGT_SLOTS: log2 N of the active group, and the records present, which ring and spill hold together. -/
def TargetSt.slotsWord (e : TargetSt) : Word :=
  BitVec.ofNat 32 (Nat.log2 e.active.n * 2 ^ 17 + (List.filter (fun (x : Nat × SlotWord) => x.2.valid) e.slots).length)

end Sys2Proof.Machine
end

