-- ==== Sys2Proof/Machine/Rings.lean ====
section
/-! DEFINITION. The rings in host memory (R325), the numeric report (R364), the step report (R210, R211) and the cascade
summary (R212). -/
namespace Sys2Proof.Machine

/-! ### Rings in host memory (R325) -/

/-- A ring as its control block describes it: PROD, CONS, ENTRIES, ESIZE, OVERFLOW, DROPPED. -/
def ringOf (addr : Nat) (bs : List Byte) : HostRing :=
  { addr := addr, prod := fieldAt bs 0 8, cons := fieldAt bs 8 8, entries := fieldAt bs 16 8, esize := fieldAt bs 24 8,
    overflow := fieldAt bs 32 8, dropped := fieldAt bs 40 8 }

/-- PROD and CONS count entries without wrapping, so a ring holds ENTRIES of them (DEDUCED, log entry 19). -/
def HostRing.full (r : HostRing) : Bool := decide (r.entries ≤ r.prod - r.cons)
/-- The index PROD stands at. -/
def HostRing.index (r : HostRing) : Nat := if r.entries = 0 then 0 else r.prod % r.entries
/-- The address of the entry at PROD. -/
def HostRing.slot (r : HostRing) : Nat := r.addr + 64 + r.index * r.esize

/-- The words the module writes: PROD, OVERFLOW, DROPPED. -/
def State.writeRing (s : State) (r : HostRing) : State :=
  let m : Mem := Mem.writeN s.hostMem r.addr (leBytes 8 r.prod)
  s.setHostMem (m.writeN (r.addr + 32) (leBytes 8 r.overflow ++ leBytes 8 r.dropped))

/-- An entry written at PROD, cut to ESIZE, and PROD moved on. -/
def State.ringPut (s : State) (r : HostRing) (bs : List Byte) : State × HostRing :=
  let s := s.setHostMem (Mem.writeN s.hostMem r.slot (bs.take r.esize))
  let r := { r with prod := r.prod + 1 }
  (s.writeRing r, r)

/-- Reports held while the ring was full leave in order, one for each unit of fuel; a step report posts STEP_REPORT to
the physical function and the run's function (R363). -/
def State.flushReports : Nat → State → State
  | 0, s => s
  | n + 1, s =>
    match s.run.heldReports with
    | [] => s
    | (bs, event) :: rest =>
      if s.run.report.full then s
      else
        let idx := s.run.report.index
        let (s, r) := s.ringPut s.run.report bs
        let s := s.setRun { s.run with report := r, heldReports := rest }
        let data := leBytes 8 (fieldAt bs 0 8 / 2 ^ 24) ++ leBytes 8 idx ++ List.replicate 8 0
        let s := if event then
            let s := s.post 0 3 0 data
            if s.run.fn.val = 0 then s else s.post s.run.fn.val 3 0 data
          else s
        State.flushReports n s

/-- A report for the report ring (R212): written, or held, at most 64, the oldest dropped and counted. -/
def State.putReport (s : State) (bs : List Byte) (event : Bool) : State :=
  let r := s.run.report
  if r.full then
    let lost := decide (64 ≤ s.run.heldReports.length)
    let r := { r with overflow := r.overflow + 1, dropped := r.dropped + b2n lost }
    let held := (if lost then s.run.heldReports.tail else s.run.heldReports) ++ [(bs, event)]
    (s.setRun { s.run with report := r, heldReports := held }).writeRing r
  else
    State.flushReports (s.run.heldReports.length + 1) (s.setRun { s.run with heldReports := s.run.heldReports ++ [(bs, event)] })

/-! ### The numeric report (R60, R364) -/

/-- The streams of a tile's source: index and status. Sources: 0 drains, 1 Target, 2 vector, 3 pack, 4 turn, 5 row. -/
def State.streams (s : State) (t source : Nat) : List (Nat × NumStat) :=
  match source with
  | 0 => (List.range 84).map (fun p => (p, s.drnStat t p))
  | 1 => [(0, (s.target t).stat)]
  | 2 => (List.range 8).map (fun e => (e, (s.vecEng t e).stat))
  | 3 => (List.range 2).map (fun p => (p, s.eng.pack.get {} (t * 2 + p)))
  | 4 => (List.range 2).map (fun p => (p, s.eng.turn.get {} (t * 2 + p)))
  | _ => (List.range 2).map (fun p => (p, s.eng.row.get {} (t * 2 + p)))

/-- FLAGS of a status without CHECK. -/
def NumStat.flagBits (x : NumStat) : Nat :=
  let atLimit := decide (x.vanished = 0xFFFFFFFF) || decide (x.clipped = 0xFFFFFFFF) || decide (x.satcnt = 0xFFFFFFFF)
  b2n x.ovf + 2 * b2n x.unf + 4 * b2n x.nan + 8 * b2n x.sat + 32 * b2n atLimit

/-- Flags of several streams together. -/
def flagsOr (xs : List NumStat) : Nat := xs.foldl (fun f x => f ||| NumStat.flagBits x) 0

/-- One 32-byte entry of the numeric report. -/
def State.numericEntry (s : State) (t source : Nat) : List Byte :=
  let xs := (s.streams t source).map (·.2)
  let check := if s.eng.check.contains (t * 6 + source) then 16 else 0
  leBytes 1 t ++ leBytes 1 source ++ leBytes 1 (flagsOr xs + check) ++ [0] ++ leBytes 4 (xs.filter (·.ovf)).length ++
    leBytes 8 ((xs.map (·.vanished)).sum) ++ leBytes 8 ((xs.map (·.clipped)).sum) ++ leBytes 8 ((xs.map (·.satcnt)).sum)

/-- The tile and source pairs in report order. -/
def tileSources : List (Nat × Nat) := (List.range 4).flatMap (fun t => (List.range 6).map (fun x => (t, x)))

/-- The numeric report of a step. -/
def State.numericReport (s : State) (step : Nat) : List Byte :=
  let ovf := tileSources.flatMap (fun (t, x) =>
    let check := if s.eng.check.contains (t * 6 + x) then 16 else 0
    ((s.streams t x).filter (fun p => p.2.ovf)).flatMap (fun p =>
      leBytes 1 t ++ leBytes 1 x ++ leBytes 2 p.1 ++ leBytes 1 (p.2.flagBits + check) ++ List.replicate 3 0))
  leBytes 2 24 ++ leBytes 2 (ovf.length / 8) ++ List.replicate 4 0 ++ leBytes 8 step ++
    tileSources.flatMap (fun (t, x) => s.numericEntry t x) ++ ovf

/-- Flags and counters of every stream read and cleared at an update boundary (R60, R148, R174), with the Target engines'
counters and batch sums (R137, R148). -/
def State.clearStreams (s : State) : State :=
  let s := s.setArr { s.arr with drn := [] }
  let s := s.setEng { s.eng with vec := s.eng.vec.map (fun (k, v) => (k, { v with stat := {} })), pack := [], turn := [], row := [], check := [] }
  s.setTgt (s.tgt.map (fun (k, e) =>
    let e := { e.catchUp (s.watch k) with stat := {}, scoreStall := 0, learnWait := 0, badpos := 0, spilled := 0, propfall := 0, badlabel := 0 }
    (k, { e with sumKd := 0, sumRwd := 0, sumHard := 0, sumTotal := 0 })))

/-! ### The step report (R210, R211) -/

/-- The batch sum of a loss over the tiles in FP32 (R137). -/
def State.lossSum (s : State) (f : TargetSt → X32) : Nat :=
  convInf fFP32 none false (ofX32 ((List.range 4).foldl (fun acc t => xadd acc (f (s.target t))) 0))

/-- The ROLLOUT phase begins on a tile (R26, R245): serving steps run there, and its time is counted. -/
def State.startRollout (s : State) (t : Nat) : State :=
  (s.setServe { s.serve with rollout := true, rolling := insertNat t s.serve.rolling }).phaseStart .rollout
/-- It begins on every tile, where no reshard delivers to it. -/
def State.startRollouts (s : State) : State := (List.range 4).foldl (fun s t => s.startRollout t) s

/-- Whether the run's program reshards into ROLLOUT, whose delivery then begins the phase (R26, R29). -/
def State.reshardsToRollout (s : State) : Bool :=
  match s.progAt s.run.prog with
  | some p => p.img.reshards.any (fun d => d.phase == 0)
  | none => false

/-- The outcome field of a straggler entry. -/
def StragglerOutcome.code : StragglerOutcome → Nat
  | .missed => 0
  | .folded => 1
  | .dropped => 2
  | .droppedOvf => 3

/-- Words 0 to 13 of the fixed part. lscale is the loss scale in force during the step, clean the count after it. -/
def State.reportWords (s : State) (skip : Bool) (lscale : Word) (clean : Nat) : List Nat :=
  let r := s.run
  let stall := ((List.range 4).map (fun t => ((s.target t).catchUp (s.watch t)).scoreStall)).foldl max 0
  let wait := ((List.range 4).map (fun t => ((s.target t).catchUp (s.watch t)).learnWait)).foldl max 0
  let flags := b2n skip * 2 ^ 13 + b2n r.prepassed * 2 ^ 12 + b2n r.genScored * 2 ^ 11 + b2n r.genLearned * 2 ^ 10 +
    b2n r.snapDone * 2 ^ 9 + b2n r.snapInc * 2 ^ 8 + b2n r.snapSkip * 2 ^ 7
  [r.step % 2 ^ 40 * 2 ^ 24 + s.moduleId * 2 ^ 14 + flags] ++ (List.range 4).map (fun p => r.phaseTime.get 0 p) ++
    [r.snapTime, r.snapStep % 2 ^ 40, stall, wait, r.upWait, lscale.toNat * 2 ^ 32 + clean * 2 ^ 16,
     s.lossSum (·.sumKd) * 2 ^ 32 + s.lossSum (·.sumRwd), s.lossSum (·.sumHard) * 2 ^ 32 + s.lossSum (·.sumTotal),
     r.reshards.length * 2 ^ 48 + r.stragglers.length * 2 ^ 32]

/-- The kind of a reshard of the run's program. -/
def State.reshardKind (s : State) (i : Nat) : Nat :=
  match s.progAt s.run.prog with
  | some p => ((p.img.reshards.find? (fun d => d.index == i)).map (·.kind)).getD 0
  | none => 0

/-- The whole report. -/
def State.reportBytes (s : State) (words : List Nat) : List Byte :=
  dwordsBytes (words ++ List.replicate (32 - words.length) 0) ++
    s.run.reshards.flatMap (fun (i, d) => leBytes 8 (i * 2 ^ 48 + s.reshardKind i * 2 ^ 40) ++ leBytes 8 d.duration) ++
    s.run.stragglers.flatMap (fun x =>
      leBytes 8 (x.module * 2 ^ 54 + x.outcome.code * 2 ^ 52 + x.shard % 2 ^ 20 * 2 ^ 32) ++ leBytes 8 (x.past.getD 0xFFFFFFFFFFFFFFFF)) ++
    s.numericReport s.run.step

/-! ### The cascade summary (R212) -/

/-- The largest value of word w and the lowest module that reported it. -/
def maxReport (rs : Tab (List Nat)) (w : Nat) : Nat × Nat :=
  rs.foldl (fun (v, m) (k, ws) => let x := ws.getD w 0; if v < x then (x, k) else (v, m)) ((rs.headD (0, [])).2.getD w 0, (rs.headD (0, [])).1)

/-- The summary: words 1 to 9, then the modules missing. -/
def summaryBytes (rs : Tab (List Nat)) (missing : List Nat) : List Byte :=
  ((List.range 9).flatMap (fun i => let (v, m) := maxReport rs (i + 1); leBytes 8 v ++ leBytes 8 m)) ++ missing.flatMap (leBytes 8)

/-- The Lead writes the summary it owes. -/
def State.writeSummary (s : State) : State :=
  match s.lead.summaryStep with
  | none => s
  | some _ =>
    let missing := s.present.filter (fun m => !(s.lead.stepReports.has m))
    let bs := summaryBytes s.lead.stepReports missing
    (s.setLead { s.lead with summaryStep := none, stepReports := [] }).putReport bs false

/-- A module's step report reaches the Lead; with the last one the summary is written. A report of the step in progress, which came
before the Lead's own boundary, is kept for it. -/
def State.noteStepReport (s : State) (m step : Nat) (words : List Nat) : State :=
  if s.lead.summaryStep = some step then
    let s := s.setLead { s.lead with stepReports := s.lead.stepReports.set m words }
    if s.present.all (fun k => s.lead.stepReports.has k) then s.writeSummary else s
  else if s.run.active && step == s.run.step then
    s.setLead { s.lead with early := s.lead.early.filter (fun x => x.1 != m || x.2.1 != step) ++ [(m, step, words)] }
  else s

/-- STEP_REPORT_RX (R212). -/
def execStepReportRx (module step : Nat) (words : List Nat) (s : State) : Host.Outcome State Fault Refusal :=
  if s.keeper.kbusy then .next (s.owe (.stepReportRx module step words)) else
  .next (if s.isLead && s.present.contains module then s.noteStepReport module step words else s)

end Sys2Proof.Machine
end

