-- ==== Sys2Proof/Machine/Route.lean ====
section
/-! DEFINITION. Addresses of chapter 10 (R214, R278, R280), the routes and the reduction tree of chapter 14 (R406, R407), and
the sending of link packets (R398, R399). -/
namespace Sys2Proof.Machine

/-! ### Addresses -/

/-- Where an address leads (R278, R280): a local address, another module's local address, or nowhere (ADDR). -/
inductive Place
  | here (a : Nat)
  | there (module a : Nat)
  | nowhere
deriving DecidableEq, Repr

/-- A 64-bit address of a copy command or a collective step. -/
def State.placeOf (s : State) (a : Nat) : Place :=
  let loc := bitsOf a 42 0
  let id := bitsOf a 57 48
  if bitsOf a 46 43 ≠ 0 || bitsOf a 63 58 ≠ 0 then .nowhere
  else if bitOf a 47 then (if id = s.moduleId then .here loc else .there id loc)
  else if id ≠ 0 then .nowhere else .here loc

/-- The planes of a group's two banks, side by side, with their lengths (R215, R488). -/
def groupPlanes (d : GroupDesc) : List (Nat × Nat × Nat) :=
  let n := d.rows * cdiv d.cols 32
  let t := cdiv d.rows 32 * d.cols
  let f := 2052 * (cdiv d.rows 256 * cdiv d.cols 256)
  let (p, q) := (d.bank0, d.bank1)
  [(p.master, q.master, 64 * n), (p.work, q.work, 32 * n), (p.workS, q.workS, n), (p.m, q.m, 32 * n), (p.mS, q.mS, n), (p.hdr, q.hdr, 16)] ++
  (if d.rule = 1 then [(p.r, q.r, 32 * n), (p.rS, q.rS, n)] else []) ++ (if d.rule = 0 then [(p.fs, q.fs, f)] else []) ++
  (if d.turn then [(p.turn, q.turn, 32 * t), (p.turnS, q.turnS, t)] else [])

/-- A bank-relative local address in the active bank (R214): an address in a plane of either bank names the same byte of
the active bank's plane. DEDUCED, log entry 18. -/
def State.inActiveBank (s : State) (a : Nat) : Nat :=
  let ps := (List.map Prod.snd s.prog.groups).flatMap groupPlanes
  match ps.find? (fun (p, q, n) => (decide (p ≤ a) && decide (a < p + n)) || (decide (q ≤ a) && decide (a < q + n))) with
  | some (p, q, n) =>
    let off := if p ≤ a && a < p + n then a - p else a - q
    (if s.run.bank then q else p) + off
  | none => a

/-! ### Routes (R392, R406, R407) -/

/-- Whether a port carries packets. -/
def Port.isUp (p : Port) : Bool := p.state == .up || p.state == .degraded

/-- The neighbour of a module through a port, under a table (R392). -/
def neighbourVia (t : SizeTable) (m p : Nat) : Nat :=
  let (x, y, z) := posOf m
  match p with
  | 0 => idOf ((x + 1) % t.nx) y z
  | 1 => idOf ((x + t.nx - 1) % t.nx) y z
  | 2 => idOf x ((y + 1) % t.ny) z
  | 3 => idOf x ((y + t.ny - 1) % t.ny) z
  | 4 => idOf x y ((z + 1) % t.nz)
  | _ => idOf x y ((z + t.nz - 1) % t.nz)

/-- Whether the next link through a port can be taken: it is not DOWN and does not lead to an absent module (R406). -/
def State.linkOk (s : State) (t : SizeTable) (p : Nat) : Bool :=
  (s.port p).isUp && t.present.has (neighbourVia t s.moduleId p)

/-- The port of departure for a destination (R406): dimension order, the shorter way unless that link is out. A packet that came
through a port of the same axis keeps its direction, as the route round a ring of R420's worked example does (DEDUCED, log
entry 27). -/
def State.routeVia (s : State) (came : Option Nat) (dest : Nat) : Option Nat :=
  match s.link.table with
  | none => none
  | some t =>
    let (cx, cy, cz) := posOf s.moduleId
    let (dx, dy, dz) := posOf dest
    let axis : Option (Nat × Nat × Nat × Nat) :=
      if cx ≠ dx then some (0, dx, cx, t.nx) else if cy ≠ dy then some (2, dy, cy, t.ny) else if cz ≠ dz then some (4, dz, cz, t.nz) else none
    match axis with
    | none => none
    | some (p, d, c, n) =>
      let dist := (d + n - c) % n
      let plus := match came with
        | some q => if q / 2 = p / 2 then q % 2 == 1 else decide (dist ≤ n - dist)
        | none => decide (dist ≤ n - dist)
      let first := if plus then p else p + 1
      let other := if plus then p + 1 else p
      if s.linkOk t first then some first else if s.linkOk t other then some other else none

/-- The port of departure of a move that starts at this module. -/
def State.routePort (s : State) (dest : Nat) : Option Nat := s.routeVia none dest

/-- The parent in the reduction tree (R407): one hop towards the Lead along X, then Y, then Z. -/
def parentOf (t : SizeTable) (m : Nat) : Nat :=
  let (x, y, z) := posOf m
  let step (c n : Nat) : Nat := if n - c ≤ c then (c + 1) % n else c - 1
  if x ≠ 0 then idOf (step x t.nx) y z else if y ≠ 0 then idOf x (step y t.ny) z else idOf x y (step z t.nz)

/-- The nearest ancestor that is PRESENT and that a route reaches, at most fuel hops up; the Lead at the end (R407). -/
def State.ancestor (s : State) (t : SizeTable) : Nat → Nat → Nat
  | 0, _ => 0
  | n + 1, m =>
    let p := parentOf t m
    if p = 0 || (t.present.has p && (s.routePort p).isSome) then p else State.ancestor s t n p

/-! ### Packets (R398, R399) -/

/-- Packet kinds of R398. -/
def kindData := 1
def kindControl := 2
def kindAck := 3
def kindNak := 4
def kindIdle := 5

/-- The last sequence number received in order (ACKSEQ). -/
def Port.ackSeq (p : Port) : Nat := (p.rxSeq + 4095) % 4096

/-- Bytes a packet takes in the replay buffer: header, payload, trailer. -/
def packetSize (p : Packet) : Nat := 24 + p.payload.length

/-- Whether a packet fits beside what the replay buffer of 512 KiB holds. -/
def Port.room (p : Port) (k : Packet) : Bool := decide ((p.replay.map packetSize).sum + packetSize k ≤ 524288)

/-- A packet with no sequence number of its own: ACK, NAK or IDLE. -/
def State.sendPlain (s : State) (p kind dest : Nat) : State :=
  let x := s.port p
  s.send (.packet p { kind := kind, seq := x.txSeq, ackseq := x.ackSeq, dest := dest, src := s.moduleId, move := 0, offset := 0,
                      payload := [], crcOk := true })

/-- A DATA or CONTROL packet leaves with the next sequence number and stays in the replay buffer. -/
def State.emit (s : State) (p : Nat) (k : Packet) : State :=
  let x := s.port p
  let k := { k with seq := x.txSeq, ackseq := x.ackSeq }
  (s.setPort p { x with txSeq := (x.txSeq + 1) % 4096, replay := x.replay ++ [k] }).send (.packet p k)

/-- Packets that waited leave while the replay buffer has room, one for each unit of fuel; CONTROL goes first (R402). -/
def State.pump : Nat → Nat → State → State
  | 0, _, s => s
  | n + 1, p, s =>
    let x := s.port p
    let next := (x.txWait.find? (fun k => k.kind == kindControl)).or x.txWait.head?
    match next with
    | none => s
    | some k =>
      if x.isUp && x.room k then State.pump n p ((s.setPort p { x with txWait := x.txWait.erase k }).emit p k) else s

/-- A packet is queued on a port and leaves when it can. -/
def State.enqueue (s : State) (p : Nat) (k : Packet) : State :=
  let x := s.port p
  State.pump (x.txWait.length + 1) p (s.setPort p { x with txWait := x.txWait ++ [k] })

/-- A packet that came through a port, or starts here, goes on its way to its destination; where no route leads there it is not
sent (R406). -/
def State.sendVia (s : State) (came : Option Nat) (k : Packet) : State :=
  match s.routeVia came k.dest with
  | none => s
  | some p => s.enqueue p k

/-- A packet that starts here is sent. -/
def State.sendTo (s : State) (k : Packet) : State := s.sendVia none k

/-- Bytes of a point-to-point move cut into packets of at most 1,024 bytes, the last one filled up to whole units of 64 bytes (R398). -/
def State.sendBytes (s : State) (move dest off : Nat) (bs : List Byte) : State :=
  (chunks 1024 bs).zipIdx.foldl (fun s (c, i) =>
    s.sendTo { kind := kindData, seq := 0, ackseq := 0, dest := dest, src := s.moduleId, move := move, offset := off + 1024 * i,
               payload := c ++ List.replicate ((64 - c.length % 64) % 64) 0, crcOk := true }) s

/-- A move opens: it is outstanding until its destination acknowledges it (R415). -/
def State.openMove (s : State) (move dest bytes : Nat) : State :=
  if s.link.moves.any (fun m => m.move == move && m.dest == dest) then
    s.setLink { s.link with moves := s.link.moves.map (fun m => if m.move == move && m.dest == dest then { m with bytes := m.bytes + bytes } else m) }
  else s.setLink { s.link with moves := s.link.moves ++ [{ move := move, dest := dest, bytes := bytes }] }

end Sys2Proof.Machine
end

