-- ==== Sys2Proof/Machine/Vector.lean ====
section
/-! DEFINITION. The vector engines (chapter 6): CHAIN with its stages, streams, compress and expand, reductions and
outputs, and SETLEN. -/
namespace Sys2Proof.Machine

/-! ### The record (R169) -/

structure VStage where
  op : Nat
  a : Nat
  b : Nat
  c : Nat
  sw : Nat
  uns : Bool
  param : Nat
deriving DecidableEq, Repr

structure VStream where
  fmt : Nat
  addr : Nat
  exp : Bool
  bmode : Nat
  saddr : Nat
  rstride : Nat
  sstride : Nat
deriving DecidableEq, Repr

structure ChainRec where
  nst : Nat
  osel : Nat
  rsel : Nat
  rop : Nat
  rrow : Bool
  msrc : Nat
  muse : Nat
  grad : Bool
  sr : Bool
  ftz : Bool
  oen : Bool
  rlen : Nat
  ibase : Nat
  istride : Nat
  tid : Word
  rstream : Word
  raddr : Nat
  caddr : Nat
  consts : List Word
  stages : List VStage
  ins : List VStream
  out : VStream
  bad : Bool
deriving DecidableEq, Repr

def vstage (w : List Word) (s : Nat) : VStage :=
  let i := 13 + s
  { op := fld w i 31 26, a := fld w i 25 22, b := fld w i 21 18, c := fld w i 17 14, sw := fld w i 13 12, uns := flag w i 11,
    param := fld w i 10 8 }
def vstream (w : List Word) (s : Nat) : VStream :=
  let i := 21 + 3 * s
  { fmt := fld w i 31 28, addr := fld w i 27 0, exp := flag w (i + 1) 30, bmode := fld w (i + 1) 29 28, saddr := fld w (i + 1) 27 0,
    rstride := fld w (i + 2) 31 16, sstride := fld w (i + 2) 15 0 }

def chainRec (w : List Word) : ChainRec :=
  let n := fld w 0 27 25 + 1
  { nst := n, osel := fld w 0 24 22, rsel := fld w 0 21 19, rop := fld w 0 18 16, rrow := flag w 0 15, msrc := fld w 0 14 11,
    muse := fld w 0 10 9, grad := flag w 0 8, sr := flag w 0 7, ftz := flag w 0 6, oen := flag w 0 5, rlen := fld w 1 23 0,
    ibase := fld w 2 31 0 + fld w 3 15 0 * 2 ^ 32, istride := fld w 4 31 0, tid := w.getD 5 0, rstream := w.getD 6 0,
    raddr := fld w 7 27 0, caddr := fld w 8 27 0, consts := (List.range 4).map (fun i => w.getD (9 + i) 0),
    stages := (List.range n).map (vstage w), ins := (List.range 4).map (vstream w), out := vstream w 4,
    bad := fld w 0 31 28 != 1 || fld w 0 4 0 != 0 || fld w 1 31 24 != 0 || fld w 3 31 16 != 0 || fld w 7 31 28 != 0 ||
      fld w 8 31 28 != 0 || (List.range 8).any (fun s => fld w (13 + s) 7 0 != 0) || (List.range 5).any (fun s => flag w (22 + 3 * s) 31) ||
      (List.range 12).any (fun i => w.getD (36 + i) 0 != 0) }

/-- The sources an operation reads (R154); none for a reserved code. -/
def opSources (st : VStage) : Option (List Nat) :=
  match st.op with
  | 0x00 | 0x07 | 0x08 | 0x09 | 0x0A | 0x0B | 0x0C | 0x0D => some [st.a]
  | 0x01 | 0x02 | 0x03 | 0x05 | 0x06 | 0x0E | 0x11 | 0x12 | 0x13 | 0x14 | 0x15 | 0x16 | 0x17 | 0x18 | 0x19 | 0x1A => some [st.a, st.b]
  | 0x04 | 0x1B => some [st.a, st.b, st.c]
  | 0x1C | 0x1D => some []
  | _ => none

/-- The input streams a command reads (R157): those a stage or the mask names. -/
def ChainRec.usedStreams (r : ChainRec) : List Nat :=
  let named := r.stages.flatMap (fun st => (opSources st).getD []) ++ (if r.muse = 0 then [] else [r.msrc])
  (List.range 4).filter (fun i => named.contains (8 + i))

def ChainRec.inAt (r : ChainRec) (i : Nat) : VStream := r.ins.getD i ⟨0, 0, false, 0, 0, 0, 0⟩

/-- The CHAIN causes of R170. -/
def ChainRec.chainBad (r : ChainRec) : Bool :=
  r.stages.zipIdx.any (fun (st, i) =>
    match opSources st with
    | none => true
    | some srcs => srcs.any (fun c => decide (i ≤ c) && decide (c < 8)) ||
        ((st.op == 0x0E || st.op == 0x1A) && decide (6 ≤ st.param)) || (st.op == 0x1C && st.param / 2 == 0)) ||
  (r.oen && decide (r.nst ≤ r.osel)) || (r.rop != 0 && decide (r.nst ≤ r.rsel)) ||
  (r.muse != 0 && decide (r.msrc < 8) && decide (r.nst ≤ r.msrc)) ||
  (r.muse == 2 && (decide (r.msrc < 8) || (decide (r.msrc < 12) && (r.inAt (r.msrc - 8)).exp) ||
    r.usedStreams.any (fun i => (r.inAt i).exp && (r.inAt i).bmode != 0)))

/-- The FMT causes of R170. -/
def ChainRec.fmtBad (r : ChainRec) : Bool :=
  r.usedStreams.any (fun i =>
    match NF.ofCode (r.inAt i).fmt with
    | none => true
    | some f => f.scaled && (r.inAt i).bmode == 3) ||
  (r.oen && ((NF.ofCode r.out.fmt).isNone || (r.out.fmt == 2 && r.muse != 0))) || (r.sr && r.tid == 0)

/-- The ALIGN causes of R170. -/
def ChainRec.alignBad (r : ChainRec) : Bool :=
  r.bad || decide (5 < r.rop) || r.muse == 3 || r.stages.any (fun st => (st.op == 0x11 || st.op == 0x12 || st.op == 0x13) && st.sw == 3) ||
    (r.oen && (r.out.bmode != 0 || r.out.exp))

/-! ### Addresses (R157, R158, R162) -/

/-- Whether n elements in rows of rlen, read or written through a stream, stay below the end of the scratchpad. -/
def VStream.fits (x : VStream) (rlen n dense : Nat) : Bool :=
  let f := (NF.ofCode x.fmt).getD .fp32
  if n = 0 then true
  else if x.exp then dense == 0 || (extentFits x.addr 0 1 (f.lineBytes dense) && (!f.scaled || extentFits x.saddr 0 1 (cdiv dense 32)))
  else
    let rows := cdiv n rlen
    let cols := min n rlen
    let eb := f.lineBytes cols
    match x.bmode with
    | 0 => extentFits x.addr x.rstride rows eb && (!f.scaled || extentFits x.saddr x.sstride rows (cdiv cols 32))
    | 1 => extentFits x.addr 0 1 (max 1 (f.bytes 1)) && (!f.scaled || extentFits x.saddr 0 1 1)
    | 2 => extentFits x.addr 0 1 eb && (!f.scaled || extentFits x.saddr 0 1 (cdiv cols 32))
    | _ => extentFits x.addr 0 1 (f.bytes rows)

/-- The scratchpad ranges of a stream of n elements. -/
def VStream.ranges (x : VStream) (t rlen n dense : Nat) : List (Nat × Nat) :=
  let f := (NF.ofCode x.fmt).getD .fp32
  let at_ (a : Nat) : Nat := spadBase t + a
  if n = 0 then []
  else if x.exp then (at_ x.addr, f.lineBytes dense) :: (if f.scaled then [(at_ x.saddr, cdiv dense 32)] else [])
  else
    let rows := cdiv n rlen
    let cols := min n rlen
    match x.bmode with
    | 0 => lineRanges (at_ x.addr) x.rstride rows (f.lineBytes cols) ++ (if f.scaled then lineRanges (at_ x.saddr) x.sstride rows (cdiv cols 32) else [])
    | 1 => (at_ x.addr, max 1 (f.bytes 1)) :: (if f.scaled then [(at_ x.saddr, 1)] else [])
    | 2 => (at_ x.addr, f.lineBytes cols) :: (if f.scaled then [(at_ x.saddr, cdiv cols 32)] else [])
    | _ => [(at_ x.addr, f.bytes rows)]

/-- Whether the output of n elements stays below the end of the scratchpad; scaled blocks are written whole (R159). -/
def VStream.outFits (x : VStream) (rlen n : Nat) : Bool :=
  let f := (NF.ofCode x.fmt).getD .fp32
  let rows := cdiv n rlen
  let cols := min n rlen
  n == 0 || (extentFits x.addr x.rstride rows (f.bytes (if f.scaled then roundUp cols 32 else cols)) &&
    (!f.scaled || extentFits x.saddr x.sstride rows (cdiv cols 32)))

/-! ### Lane values -/

/-- The lane value of an element code of a stream (R158), and the numeric effects of its expansion (R55). -/
def laneValue (f : NF) (scale code : Nat) : Word × NumStat :=
  match f with
  | .fp32 | .int32 => (BitVec.ofNat 32 code, {})
  | .bf16 => let (c, st) := convPlain fFP32 none false (ofBF16 code); (BitVec.ofNat 32 c, st)
  | _ => let (c, st) := convPlain fFP32 none false (scaledVal f scale code); (BitVec.ofNat 32 c, st)

/-- The value of stream element (y, x), or of dense element k of an expanded stream. -/
def VStream.value (x : VStream) (m : Mem) (t y col k : Nat) : Word × NumStat :=
  let f := (NF.ofCode x.fmt).getD .fp32
  let a := spadBase t + x.addr
  let sa := spadBase t + x.saddr
  let sc (p : Nat) : Nat := if f.scaled then (m.read p).toNat else 0
  if x.exp then laneValue f (sc (sa + k / 32)) (elemCode m f a k)
  else match x.bmode with
    | 0 => laneValue f (sc (sa + y * x.sstride + col / 32)) (elemCode m f (a + y * x.rstride) col)
    | 1 => laneValue f (sc sa) (elemCode m f a 0)
    | 2 => laneValue f (sc (sa + col / 32)) (elemCode m f a col)
    | _ => laneValue f (sc sa) (elemCode m f a y)

/-! ### Operations (R154 to R156) -/

/-- A conditional test by COND: EQ, NE, LT, LE, GT, GE. -/
def condHolds (cond : Nat) (lt eq : Bool) : Bool :=
  match cond with
  | 0 => eq
  | 1 => !eq
  | 2 => lt
  | 3 => lt || eq
  | 4 => !lt && !eq
  | _ => !lt

/-- The integer range of SW and UNS (R156). -/
def swRange (sw : Nat) (uns : Bool) : Int × Int :=
  let n := if sw = 0 then 8 else if sw = 1 then 16 else 32
  if uns then (0, 2 ^ n - 1) else (-(2 ^ (n - 1)), 2 ^ (n - 1) - 1)

/-- An exact integer clamped to its range (R156). -/
def satInt (sw : Nat) (uns : Bool) (v : Int) : Word × NumStat :=
  let (lo, hi) := swRange sw uns
  if v < lo then (BitVec.ofInt 32 lo, { sat := true, satcnt := 1 })
  else if hi < v then (BitVec.ofInt 32 hi, { sat := true, satcnt := 1 })
  else (BitVec.ofInt 32 v, {})

/-- One stage (R154) on 32-bit operands; rand and idx are its random bits and logical index. -/
def stageResult (st : VStage) (a b c : Word) (rand idx : Nat) : Word × NumStat :=
  let fa := ofFP32 a
  let fb := ofFP32 b
  let int (w : Word) : Int := if st.uns then w.toNat else w.toInt
  match st.op with
  | 0x00 => (a, {})
  | 0x01 => (toFP32 (fa.add fb), {})
  | 0x02 => (toFP32 (fa.sub fb), {})
  | 0x03 => (toFP32 (fa.mul fb), {})
  | 0x04 => (toFP32 ((fa.mul fb).add (ofFP32 c)), {})
  | 0x05 => (toFP32 (fa.min fb), {})
  | 0x06 => (toFP32 (fa.max fb), {})
  | 0x07 => (toFP32 fa.abs, {})
  | 0x08 => (toFP32 fa.neg, {})
  | 0x09 => (ulpResult 0x09 1 a (FVal.div .one fa), {})
  | 0x0A => (ulpResult 0x0A 1 a (FVal.div .one fa.sqrt), {})
  | 0x0B => (toFP32 fa.sqrt, {})
  | 0x0C => (ulpResult 0x0C 2 a fa.exp2, {})
  | 0x0D => (ulpResult 0x0D 2 a fa.log2, {})
  | 0x0E =>
    let nan := fa.isNan || fb.isNan
    ((if nan then (if st.param = 1 then 1 else 0) else if condHolds st.param (fa.lt fb) (fa.eq fb) then 1 else 0), {})
  | 0x11 => satInt st.sw st.uns (int a + int b)
  | 0x12 => satInt st.sw st.uns (int a - int b)
  | 0x13 => satInt st.sw st.uns (int a * int b)
  | 0x14 => (a <<< (b.toNat % 32), {})
  | 0x15 => (a >>> (b.toNat % 32), {})
  | 0x16 => (a.sshiftRight (b.toNat % 32), {})
  | 0x17 => (a &&& b, {})
  | 0x18 => (a ||| b, {})
  | 0x19 => (a ^^^ b, {})
  | 0x1A => ((if condHolds st.param (decide (int a < int b)) (a == b) then 1 else 0), {})
  | 0x1B => (if a ≠ 0 then b else c, {})
  | 0x1C => (BitVec.ofNat 32 rand, {})
  | 0x1D => (BitVec.ofNat 32 idx, {})
  | _ => (0, {})

/-- The value of a source code (R153). -/
def sourceOf (r : ChainRec) (vs ins : List Word) (code : Nat) : Word :=
  if code < 8 then vs.getD code 0 else if code < 12 then ins.getD (code - 8) 0 else r.consts.getD (code - 12) 0

/-- The random bits of a RAND stage for an element (R167). -/
def randBits (d : Draws) (r : ChainRec) (st : VStage) (e : Nat) : Nat :=
  let key := d.keys.getD (st.param / 2) 0
  if st.param % 2 = 1 then rand32 key r.rstream d.step e else rand16 key r.rstream d.step e

/-- The results of all stages for one element. -/
def runStages (d : Draws) (r : ChainRec) (ins : List Word) (e : Nat) : List Word × NumStat :=
  r.stages.foldl (fun (vs, st) g =>
    let src := sourceOf r vs ins
    let rand := if g.op = 0x1C then randBits d r g e else 0
    let (v, st') := stageResult g (src g.a) (src g.b) (src g.c) rand (e % 2 ^ 32)
    (vs ++ [v], NumStat.join st st')) (([] : List Word), ({} : NumStat))

/-- The logical index of an element (R160). -/
def ChainRec.index (r : ChainRec) (i : Nat) : Nat := r.ibase + i / r.rlen * r.istride + i % r.rlen

/-- One processed element: its stage results and its mask value. -/
structure Lane where
  i : Nat
  vs : List Word
  mask : Word
deriving DecidableEq, Repr

/-- The input values of element i: an expanded stream gives dense element k, or +0 under a zero mask (R162). -/
def chainInputs (m : Mem) (t : Nat) (r : ChainRec) (i k : Nat) (on : Bool) : List Word × NumStat :=
  (List.range 4).foldl (fun (ws, st) j =>
    if r.usedStreams.contains j then
      let x := r.inAt j
      if r.muse = 2 && x.exp && !on then (ws ++ [(0 : Word)], st)
      else
        let (w, st') := VStream.value { x with exp := r.muse == 2 && x.exp } m t (i / r.rlen) (i % r.rlen) k
        (ws ++ [w], NumStat.join st st')
    else (ws ++ [(0 : Word)], st)) (([] : List Word), ({} : NumStat))

/-- Whether the EXPAND mask of element i is not zero (R162). -/
def expandOn (m : Mem) (t : Nat) (r : ChainRec) (i : Nat) : Bool :=
  if r.msrc < 12 then
    (VStream.value { r.inAt (r.msrc - 8) with exp := false } m t (i / r.rlen) (i % r.rlen) 0).1 != 0
  else r.consts.getD (r.msrc - 12) 0 != 0

/-- Elements from i0 up to n in order, from expand pointer k. -/
def lanesFrom (m : Mem) (t : Nat) (d : Draws) (r : ChainRec) (i0 n k : Nat) : List Lane × NumStat × Nat :=
  (List.range (n - i0)).foldl (fun (ls, st, k) j =>
    let i := i0 + j
    let on := r.muse != 2 || expandOn m t r i
    let (ins, st1) := chainInputs m t r i k on
    let (vs, st2) := runStages d r ins (r.index i)
    let mask := sourceOf r vs ins r.msrc
    (ls ++ [({ i := i, vs := vs, mask := mask } : Lane)], (NumStat.join st st1).join st2, if on then k + 1 else k))
    (([] : List Lane), ({} : NumStat), k)

/-- All elements of a command in order. -/
def State.lanes (s : State) (t : Nat) (fn : Fn) (r : ChainRec) (n : Nat) : List Lane × NumStat :=
  let (ls, st, _) := lanesFrom s.mem t (s.draws t fn) r 0 n 0
  (ls, st)

/-- What an element leaves for the output, the reduction and COMPRESS. -/
def Lane.kept (r : ChainRec) (l : Lane) : Word × Word × Bool := (l.vs.getD r.osel 0, l.vs.getD r.rsel 0, l.mask != 0)

/-! ### Reductions (R163, R164) -/

/-- The sum of a run of beats, in beat order (R163). -/
def beatSum (sq : Bool) (vals : List FVal) : FVal :=
  (chunks 256 vals).foldl (fun acc beat =>
    let xs := if sq then beat.map (fun v => v.mul v) else beat
    match xs with
    | [] => acc
    | x :: r =>
      let t := ofFP32 (toFP32 (r.foldl FVal.add x))
      ofFP32 (toFP32 (acc.add t))) .zero

/-- ARGMAX: the maximum and its lowest index, or NaN and the first NaN's (R164). -/
def argMax (vals : List (FVal × Nat)) : FVal × Nat :=
  match vals.find? (fun v => v.1.isNan) with
  | some (_, i) => (.nan, i)
  | none => match vals with
    | [] => (.inf true, 0xFFFFFFFF)
    | v :: r => r.foldl (fun best v => if best.1.below v.1 then v else best) v

/-- One reduction result as words, and its numeric effects. -/
def reduceOne (rop : Nat) (failed : Bool) (vals : List (FVal × Nat)) : List Word × NumStat :=
  let fs := vals.map (·.1)
  let (v, i) : FVal × Nat :=
    match rop with
    | 1 => (beatSum false fs, 0)
    | 2 => (beatSum true fs, 0)
    | 3 => (match fs with | [] => .inf true | x :: r => r.foldl FVal.max x, 0)
    | 4 => (match fs with | [] => .inf false | x :: r => r.foldl FVal.min x, 0)
    | _ => argMax vals
  let v := if failed then FVal.nan else v
  let i := if failed then 0xFFFFFFFF else i
  (if rop = 5 then [toFP32 v, BitVec.ofNat 32 i] else [toFP32 v], if v.special then specialStat else {})

/-- All reduction results of a command, in row order. -/
def reductions (r : ChainRec) (failed : Bool) (ls : List (Word × Word × Bool)) : List Word × NumStat :=
  if r.rop = 0 then ([], {})
  else
    let vals := ls.zipIdx.map (fun (l, i) => (ofFP32 l.2.1, i))
    let groups := if r.rrow then (chunks r.rlen vals).map (fun g => g.map (fun (v, i) => (v, i % r.rlen))) else [vals]
    groups.foldl (fun (ws, st) g => let (w, st') := reduceOne r.rop failed g; (ws ++ w, NumStat.join st st')) (([] : List Word), ({} : NumStat))

/-! ### Outputs (R159 to R161) -/

/-- One output row converted: element bytes, scale bytes, numeric effects; es gives the logical index of each element. -/
def outRow (d : Draws) (r : ChainRec) (ws : List Word) (es : List Nat) : List Byte × List Byte × NumStat :=
  let f := (NF.ofCode r.out.fmt).getD .fp32
  match f with
  | .int32 => (wordsBytes ws, [], {})
  | .fp32 =>
    let out := ws.map (fun w =>
      match ofFP32 w with
      | .fin n m _ => if r.ftz && m != 0 && fld [w] 0 30 23 == 0 then (BitVec.ofNat 32 (b2n n * 2 ^ 31), ({ unf := true } : NumStat)) else (w, {})
      | _ => (w, specialStat))
    (wordsBytes (out.map (·.1)), [], out.foldl (fun st (_, st') => NumStat.join st st') {})
  | _ =>
    let sr (i : Nat) : Option Nat := if r.sr then some (d.sr r.tid (es.getD i 0)) else none
    convLine f sr r.ftz (ws.map ofFP32)

/-- A run of outputs in one row: the row, its first column, and its words with their logical indices. -/
structure OutPiece where
  row : Nat
  col : Nat
  ws : List Word
  es : List Nat
deriving DecidableEq, Repr

/-- Outputs from position p on, cut at the ends of rows of len; the first argument bounds the number of pieces. -/
def piecesOf (index : Nat → Nat) (len : Nat) : Nat → Nat → List Word → List OutPiece
  | 0, _, _ => []
  | _, _, [] => []
  | fuel + 1, p, ws =>
    let n := len - p % len
    let here := ws.take n
    { row := p / len, col := p % len, ws := here, es := (List.range here.length).map (fun j => index (p + j)) } ::
      piecesOf index len fuel (p + n) (ws.drop n)

/-- The output words of a command in order: those COMPRESS keeps, or all. -/
def outWords (r : ChainRec) (ls : List (Word × Word × Bool)) : List Word :=
  (if r.muse = 1 then ls.filter (fun l => l.2.2) else ls).map (·.1)

/-- How many of so many outputs can be written: all, or, where more are to come, those of whole blocks of a scaled row (R152). -/
def ChainRec.writable (r : ChainRec) (all : Bool) (n : Nat) : Nat :=
  let f := (NF.ofCode r.out.fmt).getD .fp32
  if all || !f.scaled then n
  else if r.muse = 1 then n / 32 * 32
  else n / r.rlen * r.rlen + n % r.rlen / 32 * 32

/-- The pieces a command writes from output position w0 up to w1: one dense row under COMPRESS, else the rows of R157. -/
def outPieces (r : ChainRec) (ls : List (Word × Word × Bool)) (w0 w1 : Nat) : List OutPiece :=
  let ws := ((outWords r ls).take w1).drop w0
  if r.muse = 1 then piecesOf (r.ibase + ·) (w1 + 1) (ws.length + 1) w0 ws else piecesOf r.index r.rlen (ws.length + 1) w0 ws

/-- The pieces written to the output stream, with the numeric effects. -/
def writePieces (m : Mem) (t : Nat) (d : Draws) (r : ChainRec) (ps : List OutPiece) : Mem × NumStat :=
  let f := (NF.ofCode r.out.fmt).getD .fp32
  ps.foldl (fun (m, st) p =>
    let (e, sb, st') := outRow d r p.ws p.es
    let m : Mem := Mem.writeN m (spadBase t + r.out.addr + p.row * r.out.rstride + f.bytes p.col) e
    let m := if f.scaled then m.writeN (spadBase t + r.out.saddr + p.row * r.out.sstride + p.col / 32) sb else m
    (m, NumStat.join st st')) (m, ({} : NumStat))

/-- The highest logical index among n elements: the last of the last full row, or the last of all (R160). -/
def ChainRec.topIndex (r : ChainRec) (n : Nat) : Nat := max (r.index (n - 1)) (if n < r.rlen then 0 else r.index (n / r.rlen * r.rlen - 1))

/-- The completion code of a CHAIN (R170), lowest first (log entry 11); n is its length and kept the elements a COMPRESS
keeps or an EXPAND reads. -/
def ChainRec.code (r : ChainRec) (n kept : Nat) : Nat :=
  let results := if r.rop = 0 then 0 else (if r.rop = 5 then 8 else 4) * (if r.rrow then cdiv n r.rlen else 1)
  if r.fmtBad then 1
  else if r.alignBad then 2
  else if !(r.usedStreams.all (fun i => (VStream.fits { r.inAt i with exp := r.muse == 2 && (r.inAt i).exp } r.rlen n kept))) ||
      (r.oen && !(if r.muse = 1 then r.out.outFits kept kept else r.out.outFits r.rlen n)) ||
      (results != 0 && !extentFits r.raddr 0 1 results) || (r.muse == 1 && !extentFits r.caddr 0 1 4) then 5
  else if r.chainBad then 8
  else if r.rlen = 0 || (decide (n ≠ 0) &&
      ((r.sr && r.oen && decide (2 ^ 43 ≤ (if r.muse = 1 then r.ibase + kept - 1 else r.topIndex n))) ||
       r.stages.any (fun st => st.op == 0x1C && decide ((if st.param % 2 = 1 then 2 ^ 42 else 2 ^ 43) ≤ r.topIndex n)))) then 9
  else 0

/-- Lengths staged behind a chain take over once it is complete (R172). -/
def VecSt.settle (v : VecSt) : VecSt :=
  v.staged.foldl (fun v (f, n) => if v.parts.has f then v else { v with len := v.len.set f n, staged := v.staged.del f }) v

/-- The elements processed by the end of beat b (R149, R163): 256 to a beat, and with RROW every row begins a new beat. -/
def ChainRec.atBeat (r : ChainRec) (n b : Nat) : Nat :=
  let per := cdiv r.rlen 256
  min n (if r.rrow && r.rop != 0 then b / per * r.rlen + min r.rlen (256 * (b % per)) else 256 * b)

/-- A chain runs from where it stands to beat stop, or to its end: outputs as far as they can be written, numeric effects; at its end the
reductions and the compress count (R149 to R164, R152, R176). failed: an input stream failed persistently ("Situations at the edges" of
chapter 6). -/
def State.runChain (s : State) (t e : Nat) (x : ChainPart) (stop : Option Nat) : State :=
  let r := chainRec x.words
  let i0 := x.vals.length
  let i1 := match stop with
    | some b => max i0 (r.atBeat x.len b)
    | none => x.len
  let all := decide (i1 = x.len)
  let (ls, st1, ptr) := lanesFrom s.mem t x.draws r i0 i1 x.ptr
  let vals := x.vals ++ ls.map (fun l => let (a, b, k) := l.kept r; (if x.failed then BitVec.ofNat 32 (Config.freeNat s.fresh l.i) else a, b, k))
  let w1 := if r.oen then r.writable all (outWords r vals).length else 0
  let (m, st2) := writePieces s.mem t x.draws r (if r.oen then outPieces r vals x.written w1 else [])
  let s := if x.failed then s.useFree else s
  if !all then
    let v := s.vecEng t e
    let v := { v with stat := (v.stat.join st1).join st2, mode := if stop = some 0 && v.mode == VMode.update then .switching else .chain }
    ((s.setMem m).setVecEng t e { v with
      parts := v.parts.set x.src.fn { x with vals := vals, written := w1, ptr := ptr } }).countOvf t 2 (r.grad && (st1.join st2).ovf)
  else
    let kept := (vals.filter (fun l => l.2.2)).length
    let (red, st3) := reductions r x.failed vals
    let m : Mem := Mem.writeN m (spadBase t + r.raddr) (wordsBytes red)
    let m : Mem := if r.muse = 1 then m.writeN (spadBase t + r.caddr) (leBytes 4 kept) else m
    let st := (st1.join st2).join st3
    let v := s.vecEng t e
    let v := { v with stat := v.stat.join st, cnt := if r.muse = 1 then v.cnt.set x.src.fn kept else v.cnt, parts := v.parts.del x.src.fn, mode := .idle }
    let s := (((s.setMem m).setVecEng t e v.settle).countOvf t 2 (r.grad && st.ovf)).keysSettle t
    let out := if r.oen then { r.out with exp := false, bmode := 0 }.ranges t r.rlen (if r.muse = 1 then kept else x.len) 0 else []
    (if x.failed then s.markFailed out else s.clearFailed out).cmdDone x.src t 2 e

/-- Whether a vector engine takes a function's next command: open to it, the command ready, and no chain of the function stopped there. -/
def State.vecTakes (s : State) (t e : Nat) (src : Src) (ws : List Word) : Bool :=
  s.engineTakes t 2 e src (EngCmd.is ws []) && !(s.vecEng t e).parts.has src.fn

/-- CHAIN (R149 to R164): it goes on where it was stopped (R152), or starts. -/
def execChain (t : TileIx) (e : Fin 8) (src : Src) (ws : List Word) (failed : Course Bool) (s : State) :
    Host.Outcome State Fault Refusal :=
  let stop := failed.stop
  let failed := failed.of
  let r := chainRec ws
  let v := (s.vecEng t e).settle
  let n := v.len.get 0 src.fn.val
  let part := (v.parts.find? src.fn).filter (fun x => x.src == src && x.words == ws && s.engineOpen t 2 e src)
  match part with
  | some x => .next ((s.setVecEng t e { v with shown := src.fn }).serveTurn src t 2 e |>.runChain t e { x with failed := x.failed || failed } stop)
  | none =>
    if !s.vecTakes t e src ws then .next s
    else
      let bad := r.fmtBad || r.alignBad || r.chainBad || r.rlen == 0
      let ls := if bad then [] else (s.lanes t src.fn r n).1
      let kept := if r.muse = 2 then ((List.range n).filter (expandOn s.mem t r)).length else (ls.filter (fun l => l.mask != 0)).length
      let code := r.code n kept
      let s := s.setVecEng t e { v with shown := src.fn }
      if code ≠ 0 then .next ((s.setVecEng t e { v with shown := src.fn, mode := .idle }).programFault src code t 2 e)
      else
        let x : ChainPart := { src := src, words := ws, len := n, vals := [], written := 0, ptr := 0, failed := failed, draws := s.draws t src.fn }
        .next (s.readOr src t 2 e (r.usedStreams.flatMap (fun i => (r.inAt i).ranges t r.rlen n kept)) (fun s =>
          (s.took src t 2 e).runChain t e x stop))

/-- SETLEN (R150, R172): from the immediate or from the function's compress count. Behind a chain of its function that is not complete, the
immediate is staged, and the count is waited for. -/
def execSetlen (t : TileIx) (e : Fin 8) (src : Src) (w : Word) (rest : List Word) (s : State) : Host.Outcome State Fault Refusal :=
  let ws := w :: rest
  let v := (s.vecEng t e).settle
  let fromCnt := flag ws 0 27
  let n := if fromCnt then v.cnt.get 0 src.fn else fld ws 1 23 0
  let bad := fld ws 0 31 28 != 2 || fld ws 0 26 0 != 0 || fld ws 1 31 24 != 0 || (List.range 14).any (fun i => ws.getD (2 + i) 0 != 0)
  let behind := v.parts.has src.fn
  if !s.engineTakes t 2 e src (EngCmd.is ws []) || (behind && fromCnt) then .next s
  else if bad then .next ((s.setVecEng t e { v with shown := src.fn }).programFault src 2 t 2 e)
  else if behind then .next (s.setVecEng t e { v with shown := src.fn, mode := .chain, staged := v.staged.set src.fn n } |>.finish src t 2 e)
  else .next (s.setVecEng t e { v with shown := src.fn, mode := .idle, len := v.len.set src.fn n } |>.finish src t 2 e)

end Sys2Proof.Machine
end

