-- ==== Sys2Proof/Machine/Update.lean ====
section
/-! DEFINITION. The UPDATE command (chapter 8, R213 to R233): the four rules, the factor statistics, the planes of the two
banks and the prepass. -/
namespace Sys2Proof.Machine

/-! ### FP32 arithmetic, one rounding an operation (R221) -/

def fadd (a b : Word) : Word := toFP32 ((ofFP32 a).add (ofFP32 b))
def fsub (a b : Word) : Word := toFP32 ((ofFP32 a).sub (ofFP32 b))
def fmul (a b : Word) : Word := toFP32 ((ofFP32 a).mul (ofFP32 b))
def fdiv (a b : Word) : Word := toFP32 ((ofFP32 a).div (ofFP32 b))
def fsqrt (a : Word) : Word := toFP32 (ofFP32 a).sqrt
def fOne : Word := 0x3F800000
/-- sign(x): +1, −1 or 0, with sign(−0) = 0; a NaN stays a NaN (R221). -/
def fsign (a : Word) : Word :=
  match ofFP32 a with
  | .nan => toFP32 .nan
  | .inf n => if n then 0xBF800000 else fOne
  | .fin n m _ => if m = 0 then 0 else if n then 0xBF800000 else fOne

/-- β^T by repeated squaring on the bits of T, lowest bit first, one rounding at each multiplication (R222). -/
def powBits : Nat → Word → Nat → Word → Word
  | 0, _, _, acc => acc
  | n + 1, b, t, acc =>
    if t = 0 then acc else powBits n (fmul b b) (t / 2) (if t % 2 = 1 then fmul acc b else acc)
def betaPow (b : Word) (t : Nat) : Word := powBits 64 b t fOne

/-! ### The record (R230) -/

structure UpdRec where
  rule : Nat
  prepass : Bool
  sr : Bool
  mirror : Bool
  turn : Bool
  gfmt : Nat
  ucb : Nat
  desc : Nat
  blk0 : Nat
  nblk : Nat
  naddr : Nat
  bad : Bool
deriving DecidableEq, Repr

def updRec (w : List Word) : UpdRec :=
  { rule := fld w 0 27 26, prepass := flag w 0 25, sr := flag w 0 24, mirror := flag w 0 23, turn := flag w 0 22, gfmt := fld w 0 21 20,
    ucb := fld w 1 27 0, desc := fld w 2 31 0 + fld w 3 10 0 * 2 ^ 32, blk0 := fld w 4 31 0, nblk := fld w 5 31 0,
    naddr := fld w 6 27 0,
    bad := fld w 0 31 28 != 3 || fld w 0 19 0 != 0 || fld w 1 31 28 != 0 || fld w 3 31 11 != 0 || fld w 6 31 28 != 0 ||
      (List.range 9).any (fun i => w.getD (7 + i) 0 != 0) }

/-- The gradient format (R230 GFMT). -/
def UpdRec.fmt (r : UpdRec) : NF := match r.gfmt with | 0 => .fp32 | 1 => .bf16 | 2 => .e5m2 | _ => .e4m3

/-! ### The group's geometry (R213, R217, R488) -/

/-- Blocks in a row, and in the group. -/
def groupNb (d : GroupDesc) : Nat := cdiv d.cols 32
def groupBlocks (d : GroupDesc) : Nat := d.rows * groupNb d

/-- Rows and blocks of a norm entry's drain tile (R227): its first and last rows and its column blocks. -/
def entryRows (d : GroupDesc) (e : NormEntry) : List Nat :=
  (List.range e.shape.rows).filterMap (fun i => if e.row + i < d.rows then some (e.row + i) else none)
def entryCols (d : GroupDesc) (e : NormEntry) : List Nat :=
  (List.range e.shape.cols).filterMap (fun j => if e.col + j < d.cols then some (e.col + j) else none)
def entryBlocks (d : GroupDesc) (e : NormEntry) : List Nat :=
  unionNat ((entryRows d e).flatMap (fun i => (entryCols d e).map (fun j => i * groupNb d + j / 32))) []

def UpdRec.covers (r : UpdRec) (b : Nat) : Bool := decide (r.blk0 ≤ b) && decide (b < r.blk0 + r.nblk)

/-- Whether a range starts and ends at bands of n rows (R225, R232). -/
def UpdRec.wholeBands (r : UpdRec) (d : GroupDesc) (n : Nat) : Bool :=
  let k := n * groupNb d
  r.blk0 % k == 0 && ((r.blk0 + r.nblk) % k == 0 || r.blk0 + r.nblk == groupBlocks d)

/-- Bands of n rows. -/
def bandsOf (d : GroupDesc) (n : Nat) : Nat := cdiv d.rows n

/-- The planes a command touches, as address and length (R215, R216, R488). -/
def UpdRec.planes (r : UpdRec) (d : GroupDesc) : List (Nat × Nat) :=
  let n := groupBlocks d
  let grad := if r.fmt.scaled then [(d.grad, 32 * n), (d.gradS, n)] else [(d.grad, r.fmt.bytes (32 * n))]
  let bank (p : Planes) : List (Nat × Nat) :=
    [(p.master, 64 * n), (p.work, 32 * n), (p.workS, n), (p.m, 32 * n), (p.mS, n), (p.hdr, 16)] ++
    (if d.rule = 1 then [(p.r, 32 * n), (p.rS, n)] else []) ++
    (if d.rule = 0 then [(p.fs, 2052 * (bandsOf d 256 * cdiv d.cols 256))] else []) ++
    (if r.turn then [(p.turn, 32 * (bandsOf d 32 * d.cols)), (p.turnS, bandsOf d 32 * d.cols)] else [])
  if r.prepass then grad else grad ++ [(d.mask, cdiv n 8)] ++ bank d.bank0 ++ bank d.bank1

/-- The completion code on a tile (R232, with R170), lowest first (log entry 11). A group's blocks are updated only by the tile that owns
it (R213): on another tile DESC names no group there, ADDR (DESIGN CHOICE, log entry 70). -/
def UpdRec.code (r : UpdRec) (t : Nat) (d : Option GroupDesc) : Nat :=
  match d with
  | none => if r.bad then 2 else 5
  | some d =>
    let touched := d.entries.filter (fun e => (entryBlocks d e).any r.covers)
    if r.rule != d.rule || (r.sr && d.tid == 0) then 1
    else if r.bad then 2
    else if d.tile.val != t || !((r.planes d).all (fun (a, n) => localOk a n)) || decide (spadEnd < r.ucb + 64) ||
        (r.prepass && decide (spadEnd < r.naddr + 4 * touched.length)) then 5
    else if r.nblk = 0 || groupBlocks d < r.blk0 + r.nblk || (d.rule == 0 && !r.wholeBands d 256) ||
        (r.turn && !r.wholeBands d 32) || (r.prepass && touched.any (fun e => !((entryBlocks d e).all r.covers))) then 9
    else 0

/-! ### Reading the active bank -/

/-- The gradient stored for element j of block b, as FP32 (R55, R221). -/
def gradStored (m : Mem) (f : NF) (d : GroupDesc) (b j : Nat) : Word × NumStat :=
  laneValue f (if f.scaled then (m.read (d.gradS + b)).toNat else 0) (elemCode m f (d.grad + f.bytes 32 * b) j)

/-- An element of a scaled plane, as FP32. -/
def planeVal (m : Mem) (a sa b j : Nat) : Word × NumStat := laneValue .e4m3 (m.read (sa + b)).toNat (elemCode m .e4m3 (a + 32 * b) j)

/-- An element of a master plane. -/
def masterCode (m : Mem) (p : Planes) (b j : Nat) : Nat := m.nat (p.master + 64 * b + 2 * j) 2

/-- Whether a block is frozen (R216). -/
def frozenBlock (m : Mem) (d : GroupDesc) (b : Nat) : Bool := bitOf (m.read (d.mask + b / 8)).toNat (b % 8)

/-- A word of the factor statistics of tile (band, ct): R, C, then RM (R217, R488). -/
def statAt (m : Mem) (d : GroupDesc) (p : Planes) (band ct i : Nat) : Word :=
  m.word (p.fs + 2052 * (band * cdiv d.cols 256 + ct) + 4 * i)

/-! ### The rules (R222) -/

/-- New weight, moment and root of the second moment of one element. vh is FACTOR's denominator. -/
def ruleStep (d : GroupDesc) (t : Nat) (b1t b2t g w m r vh : Word) : Word × Word × Word :=
  let decay (x : Word) : Word := fsub w (fmul d.eta (fadd x (fmul d.lam w)))
  let blend (b x y : Word) : Word := fadd (fmul b x) (fmul (fsub fOne b) y)
  match d.rule with
  | 0 =>
    if t = 1 then (w, 0, 0)
    else
      let m' := blend d.beta1 m (fdiv g (fsqrt vh))
      (decay m', m', 0)
  | 1 =>
    let m' := blend d.beta1 m g
    let v := blend d.beta2 (fmul r r) (fmul g g)
    let mh := fdiv m' (fsub fOne b1t)
    let vh := fdiv v (fsub fOne b2t)
    (decay (fdiv mh (fadd (fsqrt vh) d.eps)), m', fsqrt v)
  | 2 =>
    let m' := fadd (fmul d.beta1 m) g
    (decay m', m', 0)
  | _ => (decay (fsign (blend d.beta1 m g)), blend d.beta2 m g, 0)

/-- A block as it will stand in the shadow bank: master codes, and the element and scale bytes of its scaled planes. -/
structure NewBlock where
  b : Nat
  master : List Nat
  work : List Byte × List Byte
  m : List Byte × List Byte
  r : List Byte × List Byte
  stat : NumStat
  ovf : Bool
deriving DecidableEq, Repr

/-- A scaled E4M3 block by RNE (R225). -/
def scaledBlock (vals : List FVal) : (List Byte × List Byte) × NumStat :=
  let (e, sb, st) := convLine .e4m3 (fun _ => none) false vals
  ((e, sb), st)

/-- One element as its rule leaves it: BF16 code, moment, root, the conversion's status, what reading its planes noted (R55), and whether
its gradient is infinite or NaN (R233). -/
structure NewElem where
  code : Nat
  m : Word
  r : Word
  conv : NumStat
  read : NumStat
  special : Bool
deriving DecidableEq, Repr

/-- Element j of block b updated (R221, R222, R225). -/
def updateElem (mem : Mem) (x : Draws) (r : UpdRec) (d : GroupDesc) (p : Planes) (k : Word) (tt : Nat) (b1t b2t : Word) (b j : Nat) : NewElem :=
  let nb := groupNb d
  let i := b / nb
  let col := 32 * (b % nb) + j
  let (g, st1) := gradStored mem r.fmt d b j
  let w := BitVec.ofNat 32 (masterCode mem p b j * 65536)
  let (m, st2) := planeVal mem p.m p.mS b j
  let (rt, st3) := if d.rule = 1 then planeVal mem p.r p.rS b j else (0, {})
  let st (n : Nat) : Word := statAt mem d p (i / 256) (col / 256) n
  let vh := if d.rule = 0 then fdiv (fmul (st (i % 256)) (st (256 + col % 256))) (st 512) else 0
  let (w', m', r') := ruleStep d tt b1t b2t (fmul k g) w m rt vh
  let (c, cs) := convPlain fBF16 (if r.sr then some (x.sr d.tid (i * d.cols + col)) else none) false (ofFP32 w')
  { code := c, m := m', r := r', conv := cs, read := (st1.join st2).join st3, special := (ofFP32 g).special }

/-- One block updated (R216, R221 to R225). A frozen block's planes are copied, and its gradient is not read. -/
def updateBlock (mem : Mem) (x : Draws) (r : UpdRec) (d : GroupDesc) (p : Planes) (k : Word) (tt : Nat) (b1t b2t : Word) (b : Nat) : NewBlock :=
  let n := min 32 (d.cols - 32 * (b % groupNb d))
  if frozenBlock mem d b then
    { b := b, master := (List.range 32).map (masterCode mem p b), work := (mem.readN (p.work + 32 * b) 32, [mem.read (p.workS + b)]),
      m := (mem.readN (p.m + 32 * b) 32, [mem.read (p.mS + b)]), r := (mem.readN (p.r + 32 * b) 32, [mem.read (p.rS + b)]),
      stat := {}, ovf := false }
  else
    let es := (List.range n).map (updateElem mem x r d p k tt b1t b2t b)
    let masters := es.map (·.code)
    let (wk, st1) := scaledBlock (masters.map ofBF16)
    let (mb, st2) := scaledBlock (es.map (fun x => ofFP32 x.m))
    let (rb, st3) := scaledBlock (es.map (fun x => ofFP32 x.r))
    let st0 := es.foldl (fun st x => NumStat.join st x.conv) ({} : NumStat)
    let rd := es.foldl (fun st x => NumStat.join st x.read) ({} : NumStat)
    let st3 := if d.rule = 1 then st3 else {}
    let ovf := st0.ovf || st2.ovf || st3.ovf || es.any (·.special)
    { b := b, master := masters ++ List.replicate (32 - n) 0, work := wk, m := mb, r := rb,
      stat := ((((st0.join rd).join st1).join (st2.join st3)).join { ovf := ovf }), ovf := ovf }

/-- A block written to the shadow bank (R488). -/
def writeBlock (d : GroupDesc) (q : Planes) (mem : Mem) (x : NewBlock) : Mem :=
  let mem := mem.writeN (q.master + 64 * x.b) (x.master.flatMap (leBytes 2))
  let mem := (mem.writeN (q.work + 32 * x.b) x.work.1).writeN (q.workS + x.b) x.work.2
  let mem := (mem.writeN (q.m + 32 * x.b) x.m.1).writeN (q.mS + x.b) x.m.2
  if d.rule = 1 then (mem.writeN (q.r + 32 * x.b) x.r.1).writeN (q.rS + x.b) x.r.2 else mem

/-- The rows of a band of 32 rows. -/
def bandRows (d : GroupDesc) (band : Nat) : List Nat := (List.range 32).filterMap (fun i => if band * 32 + i < d.rows then some (band * 32 + i) else none)

/-- The turned block of a column in a band: formed from the new masters (R225, R488), or copied from the active bank p where every row's
block is frozen (R216). -/
def turnedBlock (d : GroupDesc) (p : Option Planes) (q : Planes) (mem : Mem) (band col : Nat) : (List Byte × List Byte) × NumStat :=
  let n := band * d.cols + col
  match p.filter (fun _ => (bandRows d band).all (fun i => frozenBlock mem d (i * groupNb d + col / 32))) with
  | some p => ((mem.readN (p.turn + 32 * n) 32, [mem.read (p.turnS + n)]), {})
  | none => scaledBlock ((bandRows d band).map (fun i => ofBF16 (masterCode mem q (i * groupNb d + col / 32) (col % 32))))

/-- The turned working copy of a band, one block a column, with what the conversions note. -/
def writeTurned (d : GroupDesc) (p : Option Planes) (q : Planes) (x : Mem × NumStat) (band : Nat) : Mem × NumStat :=
  (List.range d.cols).foldl (fun (mem, st) col =>
    let (b, st') := turnedBlock d p q mem band col
    let n := band * d.cols + col
    ((Mem.writeN mem (q.turn + 32 * n) b.1).writeN (q.turnS + n) b.2, NumStat.join st st')) x

/-! ### Factor statistics (R223, R224) -/

/-- A mean in X32, rounded once to FP32 (R223). -/
def meanFP32 (vs : List FVal) : Word :=
  toFP32 (rx ((vs.foldl (fun acc v => rx (acc.add v)) .zero).div (.ofNat vs.length)))

/-- The square of g of element (i, col), rounded to X32; the gradient of a frozen block is not read, so what it adds to the mean of a row
or a column that is not frozen is a free value (R216, R223, log entry 3). -/
def State.gSquare (s : State) (r : UpdRec) (d : GroupDesc) (k : Word) (i col : Nat) : FVal :=
  let b := i * groupNb d + col / 32
  let g := if frozenBlock s.mem d b then ofX32 (Config.freeX32 s.fresh (i * d.cols + col))
    else ofFP32 (fmul k (gradStored s.mem r.fmt d b (col % 32)).1)
  rx (g.mul g)

/-- The new statistics of factor tile (band, ct) as its record's 513 words: the blend with the active bank's, or at T = 1 the plain means,
to which R224 adds nothing (log entry 16). A row, a column or a tile whose blocks are all frozen keeps its statistics (R216). -/
def State.factorStats (s : State) (r : UpdRec) (d : GroupDesc) (p : Planes) (k : Word) (tt band ct : Nat) : List Word :=
  let rows := (List.range 256).filter (fun i => decide (band * 256 + i < d.rows))
  let cols := (List.range 256).filter (fun j => decide (ct * 256 + j < d.cols))
  let sq (i j : Nat) : FVal := s.gSquare r d k (band * 256 + i) (ct * 256 + j)
  let frozen (i j : Nat) : Bool := frozenBlock s.mem d ((band * 256 + i) * groupNb d + (ct * 256 + j) / 32)
  let old (n : Nat) : Word := statAt s.mem d p band ct n
  let next (n : Nat) (kept : Bool) (mean : Word) : Word :=
    if kept then old n
    else if tt = 1 then mean
    else fadd (fmul d.beta2 (old n)) (fmul (fsub fOne d.beta2) (fadd mean d.eps1))
  let rnew := rows.map (fun i => next i (cols.all (frozen i)) (meanFP32 (cols.map (sq i))))
  let cnew := cols.map (fun j => next (256 + j) (rows.all (fun i => frozen i j)) (meanFP32 (rows.map (fun i => sq i j))))
  let rm := if rows.all (fun i => cols.all (frozen i)) then old 512 else meanFP32 (rnew.map ofFP32)
  rnew ++ List.replicate (256 - rnew.length) 0 ++ cnew ++ List.replicate (256 - cnew.length) 0 ++ [rm]

/-! ### The command -/

/-- An update OVF (R233): the Lead hears of it with READY, and it counts towards the step's overflow check (R364). -/
def State.noteUpdOvf (s : State) (t : Nat) (ovf : Bool) : State :=
  if ovf then (s.setEng { s.eng with check := insertNat (t * 6 + 2) s.eng.check }).setRun { s.run with updOvf := true } else s

/-- Conversions of an engine enter its numeric status (R173). -/
def State.vecNote (s : State) (t e : Nat) (st : NumStat) : State :=
  let v := s.vecEng t e
  s.setVecEng t e { v with stat := v.stat.join st }

/-- A prepass (R227): one entry for each drain tile whose rows lie in the range, by R107 on the stored gradient. -/
def State.runPrepass (s : State) (t e : Nat) (r : UpdRec) (d : GroupDesc) : State :=
  let hit := d.entries.zipIdx.filter (fun (x, _) => (entryBlocks d x).any r.covers)
  let out := hit.map (fun (x, n) =>
    let gs : List (Word × NumStat) := (entryRows d x).flatMap (fun i => (entryCols d x).map (fun j => gradStored s.mem r.fmt d (i * groupNb d + j / 32) (j % 32)))
    let vs := gs.map (fun (g : Word × NumStat) => ofFP32 g.1)
    let (c, st) := convPlain fFP32 none false (sumSquares vs)
    (n, BitVec.ofNat 32 c, gs.foldl (fun st (g : Word × NumStat) => NumStat.join st g.2) st, vs.any (·.special)))
  let s := s.setMem (Mem.writeN s.mem (spadBase t + r.naddr) (wordsBytes (out.map (·.2.1))))
  let s := s.setRun { s.run with rebuilt := out.foldl (fun tb x => tb.set (d.desc * 2 ^ 20 + x.1) x.2.1) s.run.rebuilt, prepassed := true }
  (s.vecNote t e (out.foldl (fun st x => (NumStat.join st x.2.2.1).join { ovf := x.2.2.2 }) {})).noteUpdOvf t (out.any (fun x => x.2.2.2))

/-- What an UPDATE reads from its update control block and its group's header: the active bank's planes and the shadow's, k and T
(R222, R231). -/
def updateBanks (mem : Mem) (t : Nat) (r : UpdRec) (d : GroupDesc) : Planes × Planes × Word × Nat :=
  let ucb := spadBase t + r.ucb
  let (p, q) := if bitOf (mem.nat (ucb + 16) 8) 0 then (d.bank1, d.bank0) else (d.bank0, d.bank1)
  (p, q, mem.word ucb, (mem.nat p.hdr 8 + 1) % 2 ^ 64)

/-- Blocks n0 to n1 of an UPDATE's range written into the shadow bank (R221, R222, R225). -/
def State.updateRange (s : State) (t e : Nat) (x : UpdPart) (d : GroupDesc) (n0 n1 : Nat) : State :=
  let r := updRec x.words
  let mem : Mem := s.mem
  let (p, q, k, tt) := updateBanks mem t r d
  let (b1t, b2t) := (betaPow d.beta1 tt, betaPow d.beta2 tt)
  let xs := (List.range (n1 - n0)).map (fun n => updateBlock mem x.draws r d p k tt b1t b2t (r.blk0 + n0 + n))
  let live := (xs.filter (fun x => !frozenBlock mem d x.b)).length
  let moved := (64 + 33) + 33 * b2n (d.rule == 1)
  let f := x.src.fn.val
  let s := s.setMem (xs.foldl (writeBlock d q) mem)
  let s := ((s.countBytes t f p.master (live * moved) false).countBytes t f d.grad (live * (r.fmt.bytes 32 + b2n r.fmt.scaled)) false)
  let s := (s.countBytes t f q.master (xs.length * (moved + 33)) true)
  let s := s.setRun { s.run with shadow := true }
  (s.vecNote t e (xs.foldl (fun st x => NumStat.join st x.stat) {})).noteUpdOvf t (xs.any (·.ovf))

/-- What an UPDATE writes once its last block stands: the factor statistics, the turned copy and the header (R222 to R225). -/
def State.updateEnd (s : State) (t e : Nat) (r : UpdRec) (d : GroupDesc) : State :=
  let mem : Mem := s.mem
  let (p, q, k, tt) := updateBanks mem t r d
  let nb := groupNb d
  let (row0, row1) := (r.blk0 / nb, (r.blk0 + r.nblk) / nb)
  let bands (n : Nat) : List Nat := (List.range (bandsOf d n)).filter (fun b => decide (row0 ≤ b * n) && decide (b * n < row1))
  let stats := if d.rule = 0 then
      (bands 256).flatMap (fun b =>
        (List.range (cdiv d.cols 256)).map (fun c => (q.fs + 2052 * (b * cdiv d.cols 256 + c), wordsBytes (s.factorStats r d p k tt b c))))
    else []
  let m : Mem := mem.place stats
  let (m, st) := if r.turn then (bands 32).foldl (writeTurned d (some p) q) (m, {}) else (m, {})
  let s := s.setMem (Mem.writeN m q.hdr (leBytes 8 tt))
  (if d.rule = 0 then s.useFree else s).vecNote t e st

/-- An UPDATE of the step is done (R234 event 4, or the second report of R228). -/
def State.updateDone (s : State) (t e : Nat) (src : Src) (prepass : Bool) : State :=
  let k := cmdKey (queueCode t 2 e) src.index
  s.setRun (if prepass then { s.run with prepDone := insertNat k s.run.prepDone } else { s.run with updated := insertNat k s.run.updated })

/-- An UPDATE goes on from the block it stands at to block stop of its range, or to its end (R168, R221 to R227). -/
def State.runUpdate (s : State) (t e : Nat) (x : UpdPart) (d : GroupDesc) (stop : Option Nat) : State :=
  let r := updRec x.words
  let n1 := match stop with
    | some b => max x.block (min b r.nblk)
    | none => r.nblk
  let all := decide (n1 = r.nblk)
  let s := if r.prepass then s else s.updateRange t e x d x.block n1
  let v := s.vecEng t e
  let rest := v.upds.filter (fun y => !(y.src == x.src && y.words == x.words))
  if !all then
    s.setVecEng t e { v with upds := rest ++ [{ x with block := n1 }], mode := if n1 = 0 && v.mode != VMode.update then .switching else .update }
  else
    let s := s.setVecEng t e { v with upds := rest, mode := .update }
    let s := if r.prepass then s.runPrepass t e r d else s.updateEnd t e r d
    (s.updateDone t e x.src r.prepass).cmdDone x.src t 2 e

/-- Whether a command waits: PASS = 0 at the update gate, PASS = 1 at the PREPASS gate (R231), which the run opens for its
own program, once a step; event 4 of R234 also waits for the SNAPSHOT, and a command held on failed data for its recovery (R289). -/
def State.updateWaits (s : State) (t e : Nat) (src : Src) (prepass : Bool) : Bool :=
  let k := cmdKey (queueCode t 2 e) src.index
  s.waits src || !s.run.active || src.handle != s.run.prog ||
    (if prepass then !s.run.prepassGate || s.run.prepDone.contains k
     else !s.run.gateOpen || s.run.snap.isSome || !s.run.snapDue.isEmpty || s.run.updated.contains k)

/-- UPDATE (R230 to R233): it goes on where it was stopped (R168), or starts. Its rounding draws with the run's seed (R225). -/
def execUpdate (t : TileIx) (e : Fin 8) (src : Src) (ws : Course (List Word)) (s : State) : Host.Outcome State Fault Refusal :=
  let stop := ws.stop
  let ws := ws.of
  let r := updRec ws
  let v := (s.vecEng t e).settle
  let d := s.prog.groups.find? r.desc
  let part := v.upds.find? (fun x => x.src == src && x.words == ws)
  match part, d with
  | some x, some d =>
    .next (if !s.engineOpen t 2 e src || s.updateWaits t e src r.prepass then s
      else ((s.setVecEng t e { v with shown := src.fn }).serveTurn src t 2 e).runUpdate t e x d stop)
  | _, _ =>
    if !s.vecTakes t e src ws || s.updateWaits t e src r.prepass then .next s
    else
      let s := s.setVecEng t e { v with shown := src.fn }
      let code := r.code t d
      if code ≠ 0 then .next (s.programFault src code t 2 e)
      else match d with
        | none => .next s
        | some d =>
          let x : UpdPart := { src := src, words := ws, block := 0, draws := { keys := [s.run.seed], step := s.run.step } }
          .next ((s.took src t 2 e).runUpdate t e x d stop)

end Sys2Proof.Machine
end

