-- ==== Sys2Proof/Machine/Collective.lean ====
section
/-! DEFINITION. The collective engine and the gradient exchange (R205 to R209, R218, R239, R413, R414), and reshards (R26, R28). -/
namespace Sys2Proof.Machine

/-! ### The run's program -/

/-- The image of the run's program. -/
def State.runImage (s : State) : Option ProgImage := (s.progAt s.run.prog).map (·.img)
/-- The groups of the run's program as admission recorded them; every admitted program's where none has run. -/
def State.runGroups (s : State) : List GroupDesc :=
  match s.runImage with
  | some m => m.groups.map (fun g => s.prog.groups.get g g.desc)
  | none => List.map (fun (e : Nat × GroupDesc) => e.2) s.prog.groups
/-- A shard of the run's program. -/
def State.shardDesc (s : State) (i : Nat) : Option ShardDesc := s.runImage.bind (fun m => m.shards.find? (fun d => d.index == i))
def State.shard (s : State) (i : Nat) : ShardSt := s.run.shards.get {} i
def State.setShard (s : State) (i : Nat) (v : ShardSt) : State := s.setRun { s.run with shards := s.run.shards.set i v }

/-- Who owns a shard: its owner, or the owner's mirror partner once the owner is absent (R237). -/
def State.ownerOf (s : State) (d : ShardDesc) : Nat :=
  if s.run.absent.contains d.owner then
    match s.link.table with
    | some t => t.present.get d.owner d.owner
    | none => d.owner
  else d.owner

/-- Whether this module is the mirror partner of another (R239). -/
def State.mirrors (s : State) (m : Nat) : Bool :=
  match s.link.table with
  | some t => t.present.get m m == s.moduleId && t.present.has m
  | none => false

/-- The modules that still contribute to a shard: those present whose span groups are whole (R237, R412). -/
def State.contributors (s : State) (d : ShardDesc) : List Nat :=
  d.replicas.filter (fun m => !s.run.absent.contains m && !(match s.link.table with | some t => t.idles m | none => false))

/-! ### Forming a contribution (R414) -/

/-- Columns of a shard's rows: those of its group, or one row where the group is not known. -/
def State.shardCols (s : State) (d : ShardDesc) : Nat :=
  match s.prog.groups.find? d.group with
  | some g => g.cols
  | none => d.count

/-- Values of one plane of a shard, decoded into X32. -/
def planeVals (m : Mem) (x : TStream) (cols count : Nat) : List X32 :=
  (List.range (cdiv count cols)).flatMap (fun i =>
    (lineVals m x.fmt (x.addr + i * x.stride) (x.scale + i * x.sstride) (min cols (count - i * cols))).map toX32)

/-- The module's contribution: its tiles' planes in ascending tile order, each addition rounded once to X32. -/
def State.ownContribution (s : State) (d : ShardDesc) : List X32 :=
  d.tiles.foldl (fun acc x => (acc.zip (planeVals s.mem x (s.shardCols d) d.count)).map (fun (a, b) => xadd a b)) (List.replicate d.count 0)

/-! ### Closing a sum (R205, R206, R208, R209, R218, R414) -/

/-- Contributions in ascending module identifier. -/
def insertContribution (c : Contribution) : List Contribution → List Contribution
  | [] => [c]
  | x :: r => if c.module < x.module then c :: x :: r else x :: insertContribution c r
def sortContributions (cs : List Contribution) : List Contribution := cs.foldl (fun acc c => insertContribution c acc) []

/-- The sum of a shard: on-time contributions, then λ times the folded ones. -/
def sumShard (n : Nat) (lam : Word) (onTime folded : List Contribution) : List X32 :=
  let acc := (sortContributions onTime).foldl (fun acc c => (acc.zip c.vals).map (fun (a, b) => xadd a b)) (List.replicate n (0 : X32))
  (sortContributions folded).foldl (fun acc c => (acc.zip c.vals).map (fun (a, b) => xadd a (xmul (x32OfFP32 lam) b))) acc

/-- A row of a gradient plane by the collective engine's conversion (R55): overflow is an infinity, or a NaN block. -/
def gradRow (f : NF) (vs : List FVal) : List Byte × List Byte :=
  if f.scaled then
    let bs := (chunks 32 vs).map (fun b => blockConvInf f (fun _ => none) b)
    (bs.flatMap (fun (_, cs) => codesBytes f (cs ++ List.replicate (32 - cs.length) 0)), bs.map (fun (sc, _) => BitVec.ofNat 8 sc))
  else (vs.flatMap (fun v => leBytes (if f = .bf16 then 2 else 4) (convInf f.fmt none false v)), [])

/-- A sum written to the shard's gradient plane. -/
def writeShard (m : Mem) (x : TStream) (cols : Nat) (vals : List X32) : Mem :=
  let rows := (chunks cols vals).map (fun r => gradRow x.fmt (r.map ofX32))
  let m := m.writeLines x.addr x.stride (rows.map (·.1))
  if x.fmt.scaled then m.writeLines x.scale x.sstride (rows.map (·.2)) else m

/-- The first row of its group a shard holds, from where its plane lies in the group's (R488). -/
def shardRow0 (d : ShardDesc) (g : GroupDesc) : Nat := (d.out.addr - g.grad) / max 1 (d.out.fmt.bytes (32 * groupNb g))

/-- The rows of a group whose shards this module owns, as first row and number (R20, R213, R237). A group of no shard belongs to the
module that holds it, unless it is a mirror copy. -/
def State.ownedRows (s : State) (g : GroupDesc) : List (Nat × Nat) :=
  let ds := ((s.runImage.map (·.shards)).getD []).filter (fun d => d.group == g.desc)
  if ds.isEmpty then (if g.mirror then [] else [(0, g.rows)])
  else (ds.filter (fun d => s.ownerOf d == s.moduleId)).map (fun d => (shardRow0 d g, d.count / max 1 g.cols))

/-- The norm entries of the drain tiles that lie in a shard, with their places in the group's array. -/
def shardEntries (d : ShardDesc) (g : GroupDesc) : List (NormEntry × Nat) :=
  let (r0, n) := (shardRow0 d g, d.count / max 1 g.cols)
  g.entries.zipIdx.filter (fun (e, _) => decide (r0 ≤ e.row) && decide (e.row < r0 + n))

/-- The entries of a shard as its one contributor's drains left them (R218). -/
def readNorms (m : Mem) (d : ShardDesc) (g : GroupDesc) : List Word := (shardEntries d g).map (fun (_, i) => m.word (g.norm + 4 * i))
def placeNorms (m : Mem) (d : ShardDesc) (g : GroupDesc) (ns : List Word) : Mem :=
  ((shardEntries d g).zip ns).foldl (fun m (x, w) => m.writeN (g.norm + 4 * x.2) (leBytes 4 w.toNat)) m

/-- The entries of a shard formed from the written values (R107, R218). -/
def writeNorms (m : Mem) (d : ShardDesc) (g : GroupDesc) : Mem :=
  (shardEntries d g).foldl (fun m (e, i) =>
    let vs := (entryRows g e).flatMap (fun r => (entryCols g e).map (fun c =>
      let b := r * groupNb g + c / 32
      elemVal m d.out.fmt (g.grad + d.out.fmt.bytes (32 * b)) (g.gradS + b) (c % 32)))
    let (code, _) := convPlain fFP32 none false (sumSquares vs)
    m.writeN (g.norm + 4 * i) (leBytes 4 code)) m

/-- The mirror copy on this module of a group that a module owns rows of: the group of the same tensor marked as one, on the paired tile
(T0 with T1, T2 with T3) in a one-module table, else on the owner's partner (R239). -/
def State.mirrorGroup (s : State) (g : GroupDesc) (owner : Nat) : Option GroupDesc :=
  let pair := if g.tile.val % 2 = 0 then g.tile.val + 1 else g.tile.val - 1
  ((s.prog.groups.filter (fun e => e.2.mirror && e.2.tid == g.tid &&
    (if s.alone then e.2.tile.val == pair else s.mirrors owner))).head?).map (·.2)

/-- A closed shard's bytes: elements, scales, norm entries. -/
def State.shardBytes (s : State) (d : ShardDesc) (g : GroupDesc) : List Byte × List Byte × List Byte :=
  let n := d.count / max 1 g.cols
  let blocks := n * groupNb g
  (Mem.readN s.mem d.out.addr (d.out.fmt.bytes (32 * blocks)), if d.out.fmt.scaled then Mem.readN s.mem d.out.scale blocks else [],
   Mem.readN s.mem g.norm (4 * g.entries.length))

/-- A closed shard copied to the mirror copy that this module holds of its group. -/
def State.copyToMirror (s : State) (d : ShardDesc) (g : GroupDesc) : State :=
  match s.mirrorGroup g d.owner with
  | none => s
  | some m =>
    let (e, sc, ns) := s.shardBytes d g
    let mem : Mem := Mem.writeN s.mem (m.grad + (d.out.addr - g.grad)) e
    let mem := mem.writeN (m.gradS + (d.out.scale - g.gradS)) sc
    s.setMem (mem.writeN m.norm ns)

/-- The owner closes a shard's sum. Late contributions with λ = 0 are dropped. A partner that has become the owner updates the shard in
its mirror copy (R237). -/
def State.closeShard (s : State) (i : Nat) (d : ShardDesc) : State :=
  let x := s.shard i
  let own : List Contribution := match x.own with
    | some v => if d.replicas.contains s.moduleId then [{ module := s.moduleId, step := s.run.step, vals := v, norms := x.ownNorms, late := false }] else []
    | none => []
  let onTime := own ++ x.arrived.filter (fun c => !c.late && !s.run.absent.contains c.module)
  let fold := !(ofFP32 s.run.stale).isZero
  let folded := if fold then x.folded else []
  let vals := sumShard d.count s.run.stale onTime folded
  let m : Mem := writeShard s.mem d.out (s.shardCols d) vals
  let m : Mem := match s.prog.groups.find? d.group with
    | some g => (match onTime, folded with
      | [c], [] => if c.norms.isEmpty then writeNorms m d g else placeNorms m d g c.norms
      | _, _ => writeNorms m d g)
    | none => m
  let missing := (s.contributors d).filter (fun k => !(onTime.any (fun c => c.module == k)))
  let late : List Straggler := x.folded.map (fun c =>
    { module := c.module, outcome := if fold then .folded else .dropped, shard := i, past := some c.past })
  let miss : List Straggler := missing.map (fun k => { module := k, outcome := .missed, shard := i, past := none })
  let s := s.setMem m
  let s := match s.prog.groups.find? d.group with
    | some g => if d.owner != s.moduleId then s.copyToMirror d g else s
    | none => s
  let s := s.setShard i { x with closed := true, missed := missing }
  s.setRun { s.run with stragglers := s.run.stragglers ++ late ++ miss,
                        fallback := if folded.isEmpty then s.run.fallback else insertNat d.group s.run.fallback }

/-- A shard whose contributions are all in is closed. -/
def State.tryClose (s : State) (i : Nat) (d : ShardDesc) : State :=
  let x := s.shard i
  let here (k : Nat) : Bool := k == s.moduleId || x.arrived.any (fun c => c.module == k && !c.late)
  if x.armed && !x.closed && (s.contributors d).all here then s.closeShard i d else s

/-! ### Missing a commit (R238) -/

/-- The parts of a bank's planes that hold n rows of a group from row0 on (R215, R488). -/
def bankPieces (d : GroupDesc) (p : Planes) (row0 n : Nat) : List (Nat × Nat) :=
  let (b, k) := (row0 * groupNb d, n * groupNb d)
  let ct := cdiv d.cols 256
  [(p.master + 64 * b, 64 * k), (p.work + 32 * b, 32 * k), (p.workS + b, k), (p.m + 32 * b, 32 * k), (p.mS + b, k), (p.hdr, 16)] ++
    (if d.rule = 1 then [(p.r + 32 * b, 32 * k), (p.rS + b, k)] else []) ++
    (if d.rule = 0 then [(p.fs + 2052 * ct * (row0 / 256), 2052 * ct * cdiv n 256)] else []) ++
    (if d.turn then [(p.turn + 32 * d.cols * (row0 / 32), 32 * d.cols * cdiv n 32), (p.turnS + d.cols * (row0 / 32), d.cols * cdiv n 32)] else [])

/-- What a module that rejoins fetches into its active bank: the shards it owns and the mirror copies it holds (R238; log entry 28). -/
def State.fetchList (s : State) : List (Nat × Nat) :=
  let bank (g : GroupDesc) : Planes := if s.run.bank then g.bank1 else g.bank0
  let own := s.prog.groups.flatMap (fun e => (s.ownedRows e.2).flatMap (fun (r, n) => bankPieces e.2 (bank e.2) r n))
  let copies := ((s.runImage.map (·.shards)).getD []).flatMap (fun d =>
    match s.prog.groups.find? d.group with
    | none => []
    | some g => match s.mirrorGroup g d.owner with
      | none => []
      | some m => bankPieces m (bank m) (shardRow0 d g) (d.count / max 1 g.cols))
  (own ++ copies).filter (fun x => x.2 != 0)

/-- DATA of REJOIN (R363): the step. -/
def rejoinData (step : Nat) : List Byte := leBytes 8 step ++ List.replicate 16 0

/-- Ranges without n bytes from an address. -/
def lessRange (rs : List (Nat × Nat)) (a n : Nat) : List (Nat × Nat) :=
  rs.flatMap (fun (b, k) => [(b, min (b + k) a - b), (max b (a + n), b + k - max b (a + n))].filter (fun x => x.2 != 0))

/-- Bytes that arrive may be planes a rejoining module fetches; one that rejoins at RUN_START posts REJOIN with the last (R417). -/
def State.fetched (s : State) (a n : Nat) : State :=
  let rest := lessRange s.run.fetch a n
  let s := s.setRun { s.run with fetch := rest }
  match rest, s.run.fetchTop with
  | [], some top => (s.setRun { s.run with needRejoin := false, fetchTop := none }).post 0 8 0 (rejoinData top)
  | _, _ => s

/-- A module that finds it missed a commit discards its shadow and asks to rejoin; until then it sends no contribution, and the time of
its fetch counts as UPDATE's. -/
def State.missedCommit (s : State) : State :=
  if s.run.needRejoin then s
  else
    let on := s.run.phaseOn.filter (fun x => x.1 != .update) ++ [(.update, s.watch 4)]
    let r := { s.run with needRejoin := true, shadow := false, gateOpen := false, prepassGate := false, fetch := s.fetchList }
    (s.setRun { r with phaseOn := on, phaseTime := r.phaseTime.set 3 0 }).send (.rejoin s.run.step)

/-- A message for a later step while a shadow is unapplied, or while the module must rejoin or has fallen silent. -/
def State.behind (s : State) (step : Nat) : Bool :=
  s.run.active && decide (s.run.step < step) && (s.run.shadow || s.run.needRejoin || s.run.silent)

/-! ### Contributions (R205 to R209) -/

/-- When a shard's stopwatch started in a step of the run. -/
def State.armedIn (s : State) (x : ShardSt) (step : Nat) : Nat :=
  if step = s.run.step then x.armedAt else ((x.was.find? (fun e => e.1 == step)).map (·.2)).getD 0

/-- OVF that a late contribution's sender reported counts in the step it arrives in (R207): with the module's report, after that with its
READY, which goes out again where it has gone, and after COMMIT in the next step (log entry 67). -/
def State.lateOvf (s : State) : State :=
  if !s.run.reported then s.setRun { s.run with ovf := true }
  else
    let s := s.setRun { s.run with updOvf := true }
    if !s.run.readied then s
    else if s.isLead then s.setLead { s.lead with readies := s.lead.readies.upd { ovf := true, owned := [], mirrored := [] } s.moduleId (fun r => { r with ovf := true }) }
    else s.send (.ready s.run.step true [] [])

/-- CONTRIBUTION_ARRIVAL (R205 to R209): summed, kept to be folded into the next sum, or dropped; a message of a later step tells a module
that it missed a commit (R238). -/
def execContributionArrival (shard module step : Nat) (vals : ShardVals) (ovf : Bool) (s : State) :
    Host.Outcome State Fault Refusal :=
  if s.behind step then .next s.missedCommit else
  match s.shardDesc shard with
  | none => .next s
  | some d =>
    let x := s.shard shard
    let past := s.watch 4 - (s.armedIn x step + s.run.late)
    let entry (o : StragglerOutcome) : Straggler := { module := module, outcome := o, shard := shard, past := some past }
    let note (s : State) (o : StragglerOutcome) : State := s.setRun { s.run with stragglers := s.run.stragglers ++ [entry o] }
    let c (late : Bool) : Contribution := { module := module, step := step, vals := vals.vals, norms := vals.norms, late := late, past := if late then past else 0 }
    let known := (x.arrived ++ x.folded).any (fun c => c.module == module && c.step == step)
    if !s.run.active || s.ownerOf d != s.moduleId || module == s.moduleId || !(d.replicas.contains module) || known ||
        s.run.absent.contains module then .next s
    else if step = s.run.step then
      if x.closed && ovf then .next (note s .droppedOvf).lateOvf
      else .next ((s.setShard shard { x with arrived := x.arrived ++ [c x.closed] }).tryClose shard d)
    else if s.run.step < step then .next s
    else if ovf then .next (note s .droppedOvf).lateOvf
    else if step + 1 = s.run.step && !x.closed then .next (s.setShard shard { x with folded := x.folded ++ [c true] })
    else .next (note s .dropped)

/-- LATE_LIMIT_EXPIRY (R205). -/
def execLateLimitExpiry (shard : Nat) (s : State) : Host.Outcome State Fault Refusal :=
  match s.shardDesc shard with
  | none => .next s
  | some d =>
    let x := s.shard shard
    .next (if s.run.active && s.ownerOf d == s.moduleId && x.armed && !x.closed && s.run.late != 0 && !s.alone then s.closeShard shard d else s)

/-! ### Collective steps (R413) -/

/-- The owner forwards a closed shard to its mirror partner: to the other tile of the pair in a one-module table, else to the
partner module (R239). -/
def State.forwardMirror (s : State) (i : Nat) (d : ShardDesc) : State :=
  match s.prog.groups.find? d.group with
  | none => s
  | some g =>
    if s.alone then s.copyToMirror d g
    else let (e, sc, ns) := s.shardBytes d g; s.send (.mirrorCopy i (e ++ sc ++ ns))

/-- Whether the collective engine takes a command: its turn, and ready in the hub's queue (R7, R177, R370). Its words are the image's own. -/
def State.collTakes (s : State) (src : Src) : Bool :=
  s.released && !s.halted src && s.turnOpen src 0xFF 10 0 && s.ready src (queueCode 0xFF 10 0) (fun _ => true)

/-- This module forms its contribution to a shard, which ends its LEARN (R29 events 9 and 10, R414): it is its own part of a sum it owns,
whose stopwatch starts, or leaves for the owner. A module that takes no part in LEARN has none, and starts the stopwatch alone (R412). -/
def State.contribute (s : State) (i : Nat) (d : ShardDesc) : State :=
  if s.spanIdle then
    if s.ownerOf d = s.moduleId && !(s.shard i).armed then (s.setShard i { s.shard i with armed := true, armedAt := s.watch 4 }).tryClose i d else s
  else
  let v := s.ownContribution d
  let ns := match s.prog.groups.find? d.group with
    | some g => if d.tiles.length = 1 then readNorms s.mem d g else []
    | none => []
  let s := s.phaseStop .learn
  let s := s.setShard i { s.shard i with own := some v, ownNorms := ns }
  if s.ownerOf d = s.moduleId then (s.setShard i { s.shard i with armed := true, armedAt := s.watch 4 }).tryClose i d
  else s.send (.contribution i (s.ownerOf d) s.run.step v ns s.run.ovf)

/-- The byte of a move that has arrived for an offset: that of the payload that starts last, as the end of a payload may be padding. -/
def State.arrived? (s : State) (src move pos : Nat) : Option Byte :=
  let es := s.link.inbox.filter (fun e => e.src == src && e.move == move && decide (e.off ≤ pos) && decide (pos < e.off + e.data.length))
  (es.find? (fun e => es.all (fun x => decide (x.off ≤ e.off)))).bind (fun e => e.data[pos - e.off]?)
/-- The bytes of a move from an offset on, once all have arrived. -/
def State.received (s : State) (src move off len : Nat) : Option (List Byte) := (List.range len).mapM (fun i => s.arrived? src move (off + i))

/-- A collective step takes what has arrived for it: the payloads are emptied, and remembered so that duplicates are discarded (R402), and the
move's source is acknowledged end to end by a CONTROL packet that names the move (R398, R415; log entry 68). -/
def State.takeArrivals (s : State) (src move off len : Nat) : State :=
  let inbox := s.link.inbox.map (fun e =>
    if e.src == src && e.move == move && decide (off ≤ e.off) && decide (e.off < off + len) then { e with data := [] } else e)
  (s.setLink { s.link with inbox := inbox }).sendTo
    { kind := kindControl, seq := 0, ackseq := 0, dest := src, src := s.moduleId, move := move, offset := off, payload := List.replicate 64 0, crcOk := true }

/-- COLLECTIVE_STEP (R413, R414). A receiving step waits until what it takes has arrived. -/
def execCollectiveStep (src : Src) (op : CollOp) (s : State) : Host.Outcome State Fault Refusal :=
  if !s.collTakes src then .next s
  else match op with
  | .send move dest a off len =>
    match s.placeOf a with
    | .here x =>
      if localOk x len then
        let s := ((s.openMove move dest len).sendBytes move dest off (Mem.readN s.mem x len)).countBytes 4 src.fn x len false
        .next ((s.addBytes 4 src.fn bytesWidunOut len).finish src 0xFF 10 0)
      else .next (s.programFault src 5 0xFF 10 0)
    | _ => .next (s.programFault src 5 0xFF 10 0)
  | .recv move from_ a off len fwd =>
    match s.placeOf a with
    | .here x =>
      if localOk x len then
        match s.received from_ move off len with
        | none => .next s
        | some data =>
          let s := ((s.setMem (Mem.writeN s.mem x data)).countBytes 4 src.fn x len true).addBytes 4 src.fn bytesWidunIn len
          let s := (s.takeArrivals from_ move off len).fetched x len
          match fwd with
          | none => .next (s.finish src 0xFF 10 0)
          | some k => .next ((((s.openMove move k len).sendBytes move k off data).addBytes 4 src.fn bytesWidunOut len).finish src 0xFF 10 0)
      else .next (s.programFault src 5 0xFF 10 0)
    | _ => .next (s.programFault src 5 0xFF 10 0)
  | .contribute i =>
    match s.shardDesc i with
    | none => .next s
    | some d =>
      let s := s.finish src 0xFF 10 0
      .next (if !s.run.active || s.run.needRejoin || s.run.silent || (s.shard i).own.isSome then s else s.contribute i d)
  | .mirror i =>
    match s.shardDesc i with
    | none => .next s
    | some d =>
      .next (if s.run.active && s.ownerOf d == s.moduleId && (s.shard i).closed then (s.forwardMirror i d).finish src 0xFF 10 0 else s)
  | .copies module entries =>
    let old := s.serve.copies.filter (fun c => !entries.any (fun a => a.module == c.module && a.reqid == c.reqid))
    let new := entries.filter (fun a => a.module == module && !a.ended)
    .next (if s.run.active && s.mirrors module then (s.setServe { s.serve with copies := old ++ new }).finish src 0xFF 10 0 else s)

/-! ### Reshards (R26 to R29) -/

/-- Whether a reshard into a tile may complete now (R26, R29 event 5): the commands that produce its source have completed in this round, and
finished rollouts move on only after the ROLLOUT that made them, where the module serves (log entry 57). -/
def State.reshardReady (s : State) (p : Prog) (d : ReshardDesc) (t : Nat) : Bool :=
  let n := p.delivered.get 0 (d.index * 4 + t)
  d.producers.all (fun (k, i) => decide (n < p.dones.get 0 (cmdKey k i))) &&
    (d.kind != 2 || (d.phase != 1 && d.phase != 2) || decide (n < s.run.rolls) || List.all s.serve.groups (fun e => e.2.prog == 0))

/-- The source buffers of a reshard that has completed on every destination are free until the next step (R27). -/
def State.freeSources (s : State) (p : Prog) (d : ReshardDesc) : State :=
  let ks := d.sourceRegions.filterMap (fun i => p.regions[i]?)
  s.setTier { s.tier with regions := s.tier.regions.map (fun (k, r) => (k, if ks.contains k then { r with idle := true } else r)) }

/-- RESHARD_COMPLETE: delivered to a tile after a duration on the module's stopwatch; the receiving phase begins there (R26,
R28). Its duration is that of the last tile. -/
def execReshardComplete (index : Nat) (t : TileIx) (duration : Nat) (s : State) : Host.Outcome State Fault Refusal :=
  if s.keeper.kbusy then .next (s.owe (.reshardComplete index t duration)) else
  match s.progAt s.run.prog with
  | none => .next s
  | some p =>
    match p.img.reshards.find? (fun d => d.index == index) with
    | none => .next s
    | some d =>
      if !s.run.active || !(d.tiles.contains t) || !s.reshardReady p d t then .next s
      else
        let x := s.run.reshards.get {} index
        let tiles := insertNat t x.tiles
        let s := s.setRun { s.run with reshards := s.run.reshards.set index { tiles := tiles, duration := max x.duration duration } }
        let p := { p with delivered := p.delivered.upd 0 (index * 4 + t) (· + 1) }
        let s := s.setProg { s.prog with progs := s.prog.progs.set s.run.prog p }
        let s := if d.tiles.all (fun k => tiles.contains k.val) then s.freeSources p d else s
        .next (match d.phase with
          | 0 => s.startRollout t
          | 1 => if s.spanIdle then s else s.phaseStart .score
          | _ => s.settlePhases)

end Sys2Proof.Machine
end

