-- ==== Sys2Proof/Machine/Boundary.lean ====
section
/-! DEFINITION. What happens at an update boundary (R15 to R19, R23, R136, R201, R234): refreshes, SNAPSHOTs, the step report,
program replacement, the end of a run and the next step. -/
namespace Sys2Proof.Machine

/-! ### Refreshes (R17 to R19, R136, R347) -/

/-- A teacher refresh takes effect: weights placed, the generation parity inverted. -/
def State.applyTeacher (s : State) (img : WeightImage) : State :=
  let s := s.setMem (Mem.place s.mem img.placed)
  let s := s.setPair { s.pair with parity := !s.pair.parity, refreshes := s.pair.refreshes + 1 }
  (List.range 4).foldl (fun s t => let e := s.target t; s.setTarget t { e with parity := !e.parity }) s

/-- The master plane of a group in a bank, its working copy and, where the group has one, its turned copy (R19, R225). -/
def writeMasters (d : GroupDesc) (q : Planes) (mem : Mem) (master : List Byte) : Mem :=
  let nb := groupNb d
  let mem := mem.writeN q.master (master.take (64 * groupBlocks d))
  let mem := (List.range (groupBlocks d)).foldl (fun mem b =>
    let n := min 32 (d.cols - 32 * (b % nb))
    let (x, _) := scaledBlock ((List.range n).map (fun j => ofBF16 (masterCode mem q b j)))
    (mem.writeN (q.work + 32 * b) x.1).writeN (q.workS + b) x.2) mem
  if d.turn then ((List.range (bandsOf d 32)).foldl (writeTurned d none q) (mem, {})).1 else mem

/-- The optimizer state of a group in a bank: zero, or what a state image supplies (R19). -/
def writeState (d : GroupDesc) (q : Planes) (mem : Mem) (st : Option GroupState) : Mem :=
  let n := groupBlocks d
  let z (k : Nat) (f : GroupState → List Byte) : List Byte := match st with
    | none => List.replicate k 0
    | some g => (f g).take k
  let mem := (mem.writeN q.m (z (32 * n) (·.m))).writeN q.mS (z n (·.mS))
  let mem := mem.writeN q.hdr (z 16 (·.hdr))
  let mem := if d.rule = 1 then (mem.writeN q.r (z (32 * n) (·.r))).writeN q.rS (z n (·.rS)) else mem
  if d.rule = 0 then mem.writeN q.fs (z (2052 * (bandsOf d 256 * cdiv d.cols 256)) (·.fs)) else mem

/-- Whether a state image covers every parameter group (R347). -/
def State.coversGroups (s : State) (img : WeightImage) : Bool :=
  match img.state with
  | none => true
  | some gs => List.all s.prog.groups (fun e => gs.any (fun g => g.desc == e.1))

/-- A student refresh takes effect: masters, working copies and state in both banks (R19, and chapter 8's decided cases). -/
def State.applyStudent (s : State) (img : WeightImage) : State :=
  let mem := s.prog.groups.foldl (fun mem (a, d) =>
    let st := img.state.bind (fun gs => gs.find? (fun g => g.desc == a))
    match img.masters.find? (fun x => x.1 == a) with
    | none => mem
    | some (_, bs) =>
      let mem := writeState d d.bank0 (writeMasters d d.bank0 mem bs) st
      writeState d d.bank1 (writeMasters d d.bank1 mem bs) st) s.mem
  (s.setMem (Mem.place mem img.placed)).setPair { s.pair with studentState := img.state.isSome, refreshes := s.pair.refreshes + 1 }

/-- OP_DONE of a refresh. -/
def State.refreshOver (s : State) (h : HeldRefresh) (k : OpKind) (code : Nat) : State :=
  s.opDone { kind := k, fn := h.fn, seq := h.seq, opcode := 0x102, payload := [] } code

/-- The held teacher refresh takes effect. -/
def State.applyHeldTeacher (s : State) : State :=
  match s.pair.heldTeacher with
  | none => s
  | some h =>
    let s := s.applyTeacher h.img
    (s.setPair { s.pair with heldTeacher := none }).refreshOver h .refreshTeacher codeOk

/-- The held student refresh takes effect; OP_DONE carries MISMATCH for a state image that leaves a group out. -/
def State.applyHeldStudent (s : State) : State :=
  match s.pair.heldStudent with
  | none => s
  | some h =>
    if s.coversGroups h.img then
      let s := s.applyStudent h.img
      (s.setPair { s.pair with heldStudent := none }).refreshOver h .refreshStudent codeOk
    else (s.setPair { s.pair with heldStudent := none }).refreshOver h .refreshStudent codeMismatch

/-- The refreshes held for the boundary take effect. -/
def State.applyHeld (s : State) : State := s.applyHeldTeacher.applyHeldStudent

/-! ### SNAPSHOT (R241 to R243) -/

/-- The pieces of an image: a group of the run's program and the rows of it that this module owns, by tensor identifier and first row. -/
def insertPiece (p : GroupDesc × Nat × Nat) : List (GroupDesc × Nat × Nat) → List (GroupDesc × Nat × Nat)
  | [] => [p]
  | x :: r =>
    if p.1.tid.toNat < x.1.tid.toNat || (p.1.tid == x.1.tid && decide (p.2.1 < x.2.1)) then p :: x :: r else x :: insertPiece p r
def State.snapPieces (s : State) : List (GroupDesc × Nat × Nat) :=
  (s.runGroups.flatMap (fun g => (s.ownedRows g).map (fun (r, n) => (g, r, n)))).foldl (fun acc p => insertPiece p acc) []

/-- The BF16 data of a piece, row-major without padding, from the active bank. -/
def State.pieceData (s : State) (d : GroupDesc) (row0 n : Nat) : List Byte :=
  let q := if s.run.bank then d.bank1 else d.bank0
  (List.range n).flatMap (fun i => Mem.readN s.mem (q.master + 64 * ((row0 + i) * groupNb d)) (2 * d.cols))

/-- Entries and data of the pieces from an offset on. -/
def State.pieces (s : State) : Nat → List (GroupDesc × Nat × Nat) → List Byte × List Byte
  | _, [] => ([], [])
  | off, (d, row0, n) :: ds =>
    let start := roundUp off 4096
    let data := s.pieceData d row0 n
    let (es, rest) := State.pieces s (start + data.length) ds
    (leBytes 4 d.tid.toNat ++ leBytes 4 d.rows ++ leBytes 4 d.cols ++ leBytes 4 row0 ++ leBytes 4 n ++ leBytes 4 (crc32c data) ++
       leBytes 8 start ++ es, List.replicate (start - off) 0 ++ data ++ rest)

/-- The 64-byte header (R241). -/
def State.snapHeader (s : State) (step n dataBytes state : Nat) : List Byte :=
  leBytes 4 0x4C4B5331 ++ leBytes 2 1 ++ [0, 0] ++ leBytes 8 step ++ leBytes 2 s.moduleId ++ leBytes 2 s.present.length ++
    leBytes 4 n ++ leBytes 4 state ++ List.replicate 4 0 ++ leBytes 8 dataBytes ++ leBytes 8 s.run.runTag.toNat ++ List.replicate 16 0

/-- SNAPSHOT_DONE to the physical function (R363). -/
def State.snapDonePost (s : State) (seq : Option (Fn × Nat)) (code state step index : Nat) : State :=
  s.post 0 4 ((seq.map (·.2)).getD 0) (leBytes 1 code ++ leBytes 1 state ++ List.replicate 6 0 ++ leBytes 8 step ++ leBytes 8 index)

/-- Images of the run's ring that are written or wait to be. -/
def State.snapsHeld (s : State) : Nat := ((s.run.snap.toList ++ s.run.snapDue).filter (fun x => !x.outside)).length

/-- A SNAPSHOT is due: a ring without a free buffer skips it (R243); otherwise the image stands in the next buffer with STATE 0, as the
weights are at its boundary, and is written after those before it. Its STEP is that of the last commit (R241; 0 before any: DESIGN CHOICE,
log entry 65). -/
def State.startSnap (s : State) (ring : HostRing) (seq : Option (Fn × Nat)) (outside : Bool) : State :=
  let step := s.run.committed.getD 0
  let next := { ring with prod := ring.prod + (if outside then 0 else s.snapsHeld) }
  if next.full then
    let ring := { ring with overflow := ring.overflow + 1, dropped := ring.dropped + 1 }
    let s := s.writeRing ring
    let s := if outside then s else s.setRun { s.run with snaps := ring, snapSkip := true }
    s.snapDonePost seq codeCapacity 0 step 0
  else
    let gs := s.snapPieces
    let (es, data) := s.pieces (64 + 32 * gs.length) gs
    let img := s.snapHeader step gs.length data.length 0 ++ es ++ data
    let s := s.setHostMem (Mem.writeN s.hostMem next.slot (img.take ring.esize))
    let x : SnapSt := { step := step, slot := next.index, seq := seq, ring := next, startedAt := s.watch 4, outside := outside }
    s.setRun (if s.run.snap.isNone then { s.run with snap := some x } else { s.run with snapDue := s.run.snapDue ++ [x] })

/-- The SNAPSHOT being written ends with STATE 1 or 2 (R242): STATE is written last, PROD moves on, SNAPSHOT_DONE is posted, and the next
one goes on. With the last, an UPDATE that waited begins (R22). -/
def State.endSnap (s : State) (state : Nat) : State :=
  match s.run.snap with
  | none => s
  | some x =>
    let now := s.watch 4
    let s := s.setHostMem (Mem.writeN s.hostMem (x.ring.slot + 0x18) (leBytes 4 state))
    let ring := if x.outside then x.ring else s.run.snaps
    let ring := { ring with prod := ring.prod + 1 }
    let s := s.writeRing ring
    let next := s.run.snapDue.head?.map (fun y => { y with startedAt := now })
    let run := { s.run with snap := next, snapDue := s.run.snapDue.tail, snaps := if x.outside then s.run.snaps else ring }
    let run := match next, run.upWaitFrom with
      | none, some w => { run with upWait := run.upWait + (now - w), upWaitFrom := none }
      | _, _ => run
    let run := if x.outside then run
      else { run with snapDone := run.snapDone || state == 1, snapInc := run.snapInc || state == 2, snapTime := now - x.startedAt, snapStep := x.step }
    let s := s.setRun run
    let s := if next.isNone && s.run.gateOpen then s.phaseStart .update else s
    s.snapDonePost x.seq (if state = 1 then codeOk else codeIncomplete) state x.step x.slot

/-- The SNAPSHOTs in progress are abandoned (R15). -/
def State.abandonSnaps (s : State) : State := (List.range (s.run.snapDue.length + 1)).foldl (fun s _ => s.endSnap 2) s

/-- SNAPSHOT_COMPLETE (R242); readFailed: a master plane could not be recovered in time. -/
def execSnapshotComplete (readFailed : Bool) (s : State) : Host.Outcome State Fault Refusal :=
  .next (s.endSnap (if readFailed then 2 else 1))

/-! ### The end of a run -/

/-- The reason byte of RUN_STOPPED (R363). -/
def StopReason.code : StopReason → Nat
  | .count => 0
  | .command => 1
  | .lscaleFloor => 2
  | .fault => 3
  | .health => 4
  | .stateLost => 5

/-- What belongs to one step and is empty at the start of the next. -/
def Run.clearStep (r : Run) : Run :=
  let r := { r with ovf := false, updOvf := false, fallback := [], prepassed := false, rebuilt := [], reported := false, gateOpen := false, silent := false }
  let r := { r with updated := [], prepDone := [] }
  let r := { r with prepassGate := false, shadow := false, markApplied := false, readied := false, stragglers := [], reshards := [], phaseTime := [] }
  { r with upWait := 0, upWaitFrom := none, snapDone := false, snapInc := false, snapSkip := false, snapTime := 0, snapStep := 0 }

/-- Modules marked absent, by the Lead or by the step's ABORT (R237). -/
def State.markedAbsent (s : State) : List Nat := unionNat s.lead.absent s.run.absent

/-- Whether a table is the one in force with PRESENT cleared for absent modules, their partners' MIRROR aside (R412). -/
def tableShrinks (cur new : SizeTable) (absent : List Nat) : Bool :=
  cur.nx == new.nx && cur.ny == new.ny && cur.nz == new.nz && cur.sspan == new.sspan && cur.lspan == new.lspan && cur.fogwin == new.fogwin &&
    List.all new.present (fun e => cur.present.has e.1) &&
    List.all cur.present (fun e =>
      if new.present.has e.1 then new.present.get 0 e.1 == e.2 || absent.contains e.2 else absent.contains e.1)

/-- A pending table comes into force (R410). -/
def State.tableInForce (s : State) (t : SizeTable) (f : Fn) (seq : Nat) : State :=
  let s := s.setLink { s.link with table := some t, pendingTable := none, confirmed := false }
  let s := s.setRun { s.run with absent := s.run.absent.filter t.present.has }
  s.opDone { kind := .sizeTable, fn := f, seq := seq, opcode := 0x500, payload := [] } codeOk

/-- At the update boundary a table that the Lead's CRC and the census have confirmed during the run, and that shrinks the cascade,
comes into force (R359, R410, R412). -/
def State.applyShrink (s : State) : State :=
  match s.link.pendingTable, s.link.table with
  | some (t, f, seq), some cur => if s.link.confirmed && tableShrinks cur t s.markedAbsent then s.tableInForce t f seq else s
  | _, _ => s

/-- A confirmed table comes into force once no run is active. -/
def State.settleTable (s : State) : State :=
  match s.link.pendingTable with
  | some (t, f, seq) => if s.link.confirmed && !s.run.active then s.tableInForce t f seq else s
  | none => s

/-- The run is over (R15): records not consumed are discarded, KEY0 is zero again (R175), its program rests, RUN_STOPPED goes to
the physical function and the run's function. Its LEARN requests that are not terminal become ABORTED and leave (R257). -/
def State.endRun (s : State) (why : StopReason) : State :=
  let f := s.run.fn
  let h := s.run.prog
  let data := leBytes 8 (s.run.last.getD 0xFFFFFFFFFFFFFFFF) ++ leBytes 1 why.code ++ List.replicate 15 0
  let s := s.dropWork h
  let s := s.setTgt (s.tgt.map (fun x => (x.1, x.2.discard (s.watch x.1))))
  let s := s.commitKey f.val 0 0
  let s : State := match s.progAt h with
    | some p => if p.state == ProgState.running then s.setProg { s.prog with progs := s.prog.progs.set h { p with state := .ready } } else s
    | none => s
  let seq := ((s.findOp .runStop).map (·.seq)).getD 0
  let s := s.setKeeper { s.keeper with ops := s.keeper.ops.filter (fun o => o.kind != .runStop) }
  let r := s.run.clearStep
  let s := s.setRun { r with active := false, stop := none, shards := [], phaseOn := [], snapAsked := [], needRejoin := false, fetch := [], fetchTop := none }
  let reqs := s.serve.reqs.map (fun x => (x.1, if x.2.learn && !x.2.status.terminal then { x.2 with status := ReqStatus.aborted } else x.2))
  let s := s.setServe { s.serve with rollout := false, rolling := [], batchClosed := false, reqs := reqs, finished := [], batch := [] }
  let (s, gone) := s.leaveAll
  let s := gone.foldl (fun s e => s.reqDone e.1 e.2) s
  let s := s.setLead { s.lead with reports := [], seconds := [], readies := [], decision := .none_, early := [] }
  let s := s.post 0 2 seq data
  (if f.val = 0 then s else s.post f.val 2 0 data).settleTable

/-! ### The boundary -/

/-- TGT_LSCALE on every Target engine (R142, R201). -/
def State.writeLscale (s : State) (v : Word) : State :=
  (List.range 4).foldl (fun s t => s.setTarget t { s.target t with lscale := v }) s

/-- Modules the Lead took as failed with no replay are marked absent from the next step, and a partner posts MIRROR_LOST (chapter 8,
decided cases). -/
def State.noteAbsent (s : State) : State :=
  (s.lead.absent.filter (fun m => !s.run.absent.contains m)).foldl (fun s m =>
    let s := s.setRun { s.run with absent := insertNat m s.run.absent }
    if s.mirrors m then s.healthEvent 0x109 0xFF 0 m 1 else s) s

/-- A round of the run's program is over: its source buffers are allocated again, and its stopped UPDATEs are gone. -/
def State.roundOver (s : State) : State :=
  match s.progAt s.run.prog with
  | none => s
  | some p =>
    let s := s.setProg { s.prog with progs := s.prog.progs.set s.run.prog p.nextRound }
    let s := s.setEng { s.eng with vec := s.eng.vec.map (fun (k, v) => (k, { v with upds := [] })) }
    s.setTier { s.tier with regions := s.tier.regions.map (fun (k, r) => (k, if p.regions.contains k then { r with idle := false } else r)) }

/-- Whether the run's program is pipelined (R24). -/
def State.pipelined (s : State) : Bool := (s.runImage.map (fun m => m.pipelined != 0)).getD false

/-- The next step begins: what is late in a closed shard may still be folded into the new sum (R206), an OVF that came after COMMIT counts
in it (R207; log entry 67), payloads taken are forgotten (log entry 68), and in a pipelined run SCORE's time begins, its wait for the rollouts with it (R30). -/
def State.nextStep (s : State) (carry : Bool) : State :=
  let shards := s.run.shards.map (fun (k, x) =>
    (k, ({ folded := x.arrived.filter (·.late), was := x.was ++ [(s.run.step, x.armedAt)] } : ShardSt)))
  let r := s.run.clearStep
  let s := s.setRun { r with step := s.run.step + 1, shards := shards, ovf := carry }
  let s := (if s.reshardsToRollout then s else s.startRollouts).noteAbsent
  let s := if s.pipelined && !s.spanIdle then s.phaseStart .score else s
  let s := s.setLink { s.link with inbox := s.link.inbox.filter (fun e => !e.data.isEmpty) }
  (s.setLead { s.lead with reports := [], seconds := [], readies := [], decision := .none_, mismatch := [] }).settlePhases

/-- The reports of event 14 of R29. On the Lead the reports of the step that came before are taken in. -/
def State.reportStep (s : State) (skip : Bool) (lscale : Word) (clean : Nat) : State :=
  let words := s.reportWords skip lscale clean
  let s := s.putReport (s.reportBytes words) true
  if s.isLead then
    let s := s.writeSummary
    let early := s.lead.early.filter (fun x => x.2.1 == s.run.step)
    let s := s.setLead { s.lead with summaryStep := some s.run.step, stepReports := [], early := [] }
    ((s.moduleId, s.run.step, words) :: early).foldl (fun s x => s.noteStepReport x.1 x.2.1 x.2.2) s
  else s.send (.stepReport s.run.step words)

/-- A pipelined program that takes over from another finds the batch after its first one scored already: its SCORE commands and the
deliveries into SCORE and LEARN count once (R24, R25; log entry 57). -/
def Prog.scoredAhead (p : Prog) : Prog :=
  let ks := ((keyedCmds p.img).filter (fun x => x.2.phase == 1)).map (·.1)
  let one (t : Tab Nat) : Tab Nat := ks.foldl (fun t k => t.set k 1) t
  let rs := p.img.reshards.filter (fun d => d.phase == 1 || d.phase == 2)
  let got := (rs.flatMap (fun d => d.tiles.map (fun t => d.index * 4 + t.val))).foldl (fun (t : Tab Nat) k => t.set k 1) p.delivered
  { p with taken := one p.taken, dones := one p.dones, delivered := got }

/-- A program that replaces the run's program takes its place (R24, R349). -/
def State.applyReplace (s : State) : State :=
  match s.prog.replace_ with
  | none => s
  | some (old, new) =>
    let before := s.pipelined
    let s := (s.setProg { s.prog with replace_ := none }).retireProg old
    let s := (s.setRun { s.run with prog := new }).claimGroup new
    match s.progAt new with
    | some p =>
      let ahead := before && p.img.pipelined != 0
      let p := { p.fromStart with state := .running }
      let s := s.setRun { s.run with rolls := b2n ahead }
      s.setProg { s.prog with progs := s.prog.progs.set new (if ahead then p.scoredAhead else p) }
    | none => s

/-- The SNAPSHOTs due at a boundary (R23), each with the SNAP_REQUEST it answers. -/
def State.snapsDue (s : State) (skip : Bool) : List (Option (Fn × Nat)) :=
  (if !skip && s.run.snapInt != 0 && s.run.commits % s.run.snapInt == 0 then [none] else []) ++ s.run.snapAsked.map some

/-- The update boundary of the step (R16, R234): the mark or the skip applied, with the loss scale and the clean count that
travel with it. Where the run ends here, the SNAPSHOTs in progress are abandoned, those behind the first with it, and one that is due at
this last boundary is written after the run has ended (DESIGN CHOICE, log entry 65). -/
def State.atBoundary (s : State) (skip : Bool) (lscale : Word) (clean : Nat) : State :=
  let old := s.run.lscale
  let s := ((s.phaseStop .update).phaseStop .learn).phaseStop .score
  let r := s.run
  let carry := !skip && r.updOvf
  let s := s.setRun { r with bank := (if skip then r.bank else !r.bank), shadow := false, last := some r.step, commits := r.commits + b2n (!skip),
                             committed := if skip then r.committed else some r.step, lscale := lscale, clean := clean }
  let why := s.run.stop.or (if s.run.steps ≠ 0 && s.run.steps ≤ s.run.step + 1 then some StopReason.count else none)
  let s := if why.isSome then s.abandonSnaps else s
  let s := s.writeLscale lscale
  let due := s.snapsDue skip
  let s := due.foldl (fun s q => s.startSnap s.run.snaps q false) (s.setRun { s.run with snapAsked := [] })
  let s := s.applyHeld
  let s := (s.reportStep skip old clean).clearStreams
  let s := s.applyShrink.roundOver.applyReplace
  match why with
  | some w => s.endRun w
  | none => s.nextStep carry

end Sys2Proof.Machine
end

