-- ==== Sys2Proof/Machine/Commit.lean ====
section
/-! DEFINITION. The commit protocol (R201 to R203, R219, R220, R228, R234 to R240, R416, R417): the Lead's decisions and each
module's part in them. -/
namespace Sys2Proof.Machine

/-! ### A module's report (R219, R227, R234) -/

/-- The norm entries of a group: those a prepass rebuilt, else those in its norm-entry array. -/
def State.normEntries (s : State) (g : GroupDesc) : List Word :=
  (List.range g.entries.length).map (fun i => (s.run.rebuilt.find? (g.desc * 2 ^ 20 + i)).getD (Mem.word s.mem (g.norm + 4 * i)))

/-- The groups a module owns rows of, in program order; mirror copies are not counted. -/
def State.ownGroups (s : State) : List GroupDesc := s.runGroups.filter (fun g => !(s.ownedRows g).isEmpty)

/-- The norm entries of the drain tiles in the rows of a group that a module owns, in array order. -/
def State.ownEntries (s : State) (g : GroupDesc) : List Word :=
  let rows := s.ownedRows g
  ((g.entries.zip (s.normEntries g)).filter (fun (e, _) => rows.any (fun (r, n) => decide (r ≤ e.row) && decide (e.row < r + n)))).map (·.2)

/-- The module partial (R219): each addition rounds once to X32, the sum is FP32. -/
def State.normPartial (s : State) : Word :=
  let sum := (s.ownGroups.flatMap s.ownEntries).foldl (fun acc w => xadd acc (x32OfFP32 w)) (0 : X32)
  toFP32 (ofX32 sum)

/-- Whether a group takes the fallback path (R227). -/
def State.onFallback (s : State) (g : GroupDesc) : Bool :=
  !g.ssqAll || s.run.fallback.contains g.desc || (s.ownEntries g).any (fun w => (ofFP32 w).isNan)
def State.hasFallback (s : State) : Bool := s.ownGroups.any s.onFallback

/-- The UPDATE commands of the run's program with a PASS bit, with the group each names. -/
def State.updates (s : State) (prepass : Bool) : List (Nat × Nat) :=
  ((s.runImage.map keyedCmds).getD []).filterMap (fun (k, c) =>
    if isUpdate (k / 2 ^ 20) c && (updRec c.words).prepass == prepass then some (k, (updRec c.words).desc) else none)

/-- Whether the last block of the last group has been written (R234 event 4), or the prepass of every group on the fallback path (R228). -/
def State.updatesDone (s : State) : Bool := (s.updates false).all (fun x => s.run.updated.contains x.1)
def State.prepassesDone (s : State) : Bool :=
  let gs := (s.ownGroups.filter s.onFallback).map (·.desc)
  (s.updates true).all (fun x => !gs.contains x.2 || s.run.prepDone.contains x.1)

/-- Every shard the module owns is closed: event 10 of R29. -/
def State.exchangeDone (s : State) : Bool :=
  ((s.runImage.map (·.shards)).getD []).all (fun d => s.ownerOf d != s.moduleId || (s.shard d.index).closed)

/-! ### The Lead -/

/-- The modules whose messages the Lead waits for. -/
def State.expected (s : State) : List Nat := s.present.filter (fun m => !s.lead.absent.contains m && !s.run.absent.contains m)

/-- N2 from the partials in ascending module identifier (R219). -/
def sumPartials (ps : List Word) : Word := toFP32 (ofX32 (ps.foldl (fun acc w => xadd acc (x32OfFP32 w)) (0 : X32)))

/-- k (R220), each operation rounding once to FP32. -/
def updateFactor (n2 clip lscale : Word) : Word :=
  let ns := fsqrt n2
  if (FVal.lt .zero (ofFP32 clip)) && (ofFP32 (fmul clip lscale)).lt (ofFP32 ns) then fdiv clip ns else fdiv fOne lscale

/-- The loss scale and the clean count after a step (R201). -/
def nextScale (ovf : Bool) (interval : Nat) (scale : Word) (clean : Nat) : Word × Nat :=
  if ovf then (let h := fmul scale 0x3F000000; (if (ofFP32 h).lt .one then fOne else h, 0))
  else if clean + 1 = interval then
    let d := fmul scale 0x40000000
    (if (FVal.ofNat (2 ^ 24)).lt (ofFP32 d) then 0x4B800000 else d, 0)
  else (scale, clean + 1)

/-- The Lead decides SKIP: the scale halves, and skips at scale 1 are counted (R201, R203). -/
def State.decideSkip (s : State) : State :=
  let (sc, cl) := nextScale true s.run.interval s.run.lscale s.run.clean
  let floor := if s.run.lscale = fOne then s.lead.floor + 1 else 0
  (s.setLead { s.lead with decision := .skip, lscale := sc, clean := cl, floor := floor }).send (.skip s.run.step sc cl)

/-- The Lead decides GO with k (R220, R234). -/
def State.decideGo (s : State) (ps : List Word) : State :=
  let n2 := sumPartials ps
  let k := updateFactor n2 s.run.clip s.run.lscale
  (s.setLead { s.lead with decision := .go, n2 := n2, k := k, lscale := s.run.lscale, clean := s.run.clean }).send
    (.go s.run.step k s.run.lscale s.run.clean)

/-- What the Lead does once every report, or every second partial, is in (R228, R234, R235). -/
def State.leadDecide (s : State) : State :=
  let ms := s.expected
  let partials (tab : Tab LeadReport) : List Word := ms.map (fun m => ((tab.find? m).map (·.part)).getD 0)
  match s.lead.decision with
  | .none_ =>
    if !ms.all (fun m => s.lead.reports.has m) then s
    else if List.any s.lead.reports (fun e => e.2.ovf) then s.decideSkip
    else if ms.any (fun m => ((s.lead.reports.find? m).map (·.fallback)).getD false) then
      (s.setLead { s.lead with decision := .prepass }).send (.prepass s.run.step)
    else s.decideGo (partials s.lead.reports)
  | .prepass => if ms.all (fun m => s.lead.seconds.has m) then s.decideGo (partials s.lead.seconds) else s
  | _ => s

/-- What the Lead does once every READY is in: SKIP on an update OVF, else COMMIT with the beacon pulse, 1 µs for an even step
and 3 µs for an odd one (R234, R235, R240, R441). -/
def State.leadCommit (s : State) : State :=
  if s.lead.decision != .go || !s.expected.all (fun m => s.lead.readies.has m) then s
  else if List.any s.lead.readies (fun e => e.2.ovf) then s.decideSkip
  else
    let (sc, cl) := nextScale false s.run.interval s.run.lscale s.run.clean
    let s := s.setLead { s.lead with decision := .commit, lscale := sc, clean := cl, floor := 0 }
    (s.send (.commit s.run.step sc cl)).send (.commitPulse (if s.run.step % 2 = 0 then 1000 else 3000))

/-- The Lead takes a module as failed (R236, R237): marked absent; before a decision an OVF already reported still skips the
step, otherwise the step is replayed without the module; after COMMIT nothing else changes. -/
def State.failModule (s : State) (m : Nat) : State :=
  if !s.isLead || !s.run.active || m == s.moduleId || s.lead.absent.contains m || !s.present.contains m then s
  else
    let ovf := List.any s.lead.reports (fun e => e.2.ovf)
    let s := s.setLead { s.lead with absent := insertNat m s.lead.absent }
    match s.lead.decision with
    | .commit | .skip => s
    | .none_ => if ovf then s.leadDecide else (s.setLead { s.lead with reports := [] }).send (.abort s.run.step m)
    | _ => (s.setLead { s.lead with reports := [], seconds := [], readies := [], decision := .none_ }).send (.abort s.run.step m)

/-- Modules the fog signal reports failed (R236, R416). -/
def State.failFogged (s : State) : State :=
  (s.link.leadFog.filter (·.failed)).foldl (fun s e => s.failModule e.subject) s

/-! ### Rejoining (R238) -/

/-- A program's commands and reshards as they stand at the start of round n, for a module that joins there. -/
def Prog.atRound (p : Prog) (n : Nat) : Prog :=
  let ahead := b2n (p.img.pipelined != 0)
  let put (t : Tab Nat) : Tab Nat := (keyedCmds p.img).foldl (fun t (k, c) => if c.phase = 0 then t else t.set k (if c.phase = 1 then n + ahead else n)) t
  let got := p.img.reshards.foldl (fun t d => d.tiles.foldl (fun (t : Tab Nat) x =>
    t.set (d.index * 4 + x.val) (if d.phase = 1 || d.phase = 2 then n + ahead else n)) t) p.delivered
  { p with rounds := n, taken := put p.taken, dones := put p.dones, delivered := got }

/-- The module takes the loss scale, the clean count and the step from the Lead, and posts REJOIN (R238). -/
def State.rejoin (s : State) (step : Nat) (lscale : Word) (clean : Nat) : State :=
  let s := s.phaseStop .update
  let s := match s.progAt s.run.prog with
    | some p => s.setProg { s.prog with progs := s.prog.progs.set s.run.prog (p.atRound (p.rounds + (step - s.run.step))) }
    | none => s
  let r := { s.run.clearStep with phaseTime := [(3, s.run.phaseTime.get 0 3)] }
  let s := s.setRun { r with needRejoin := false, step := step, last := some (step - 1), committed := some (step - 1), lscale := lscale, clean := clean, shards := [] }
  (s.writeLscale lscale).post 0 8 0 (rejoinData (step - 1))

/-- A module that is behind and learns from the Lead where a step starts rejoins there once its planes are fetched (R238). -/
def State.catchStep (s : State) (step : Nat) (lscale : Word) (clean : Nat) : State :=
  let s := s.missedCommit
  if s.run.fetch.isEmpty then s.rejoin step lscale clean else s

/-- A further commit that it misses makes its fetched planes old: it fetches them again. -/
def State.missAgain (s : State) (step : Nat) (lscale : Word) (clean : Nat) : State :=
  let s := s.missedCommit
  (s.setRun { s.run with fetch := s.fetchList }).catchStep step lscale clean

/-! ### Events 1 to 3 (R228, R234) -/

/-- OVERFLOW_REPORT. A module's own report carries its own state: at the Lead it is taken in, elsewhere it is sent. Another
module's report reaches the Lead as it was sent. While the Keeper restarts the report is owed, and the wait is UPDATE's (R336). -/
def execOverflowReport (module step : Nat) (ovf : Bool) (partial_ : Word) (fallback second : Bool) (s : State) :
    Host.Outcome State Fault Refusal :=
  if s.keeper.kbusy then
    let ends := s.run.active && step == s.run.step && module == s.moduleId && s.exchangeDone && !second
    .next ((if ends then (s.phaseStop .learn).phaseStart .update else s).owe (.overflowReport module step ovf partial_ fallback second))
  else if !s.run.active || step != s.run.step then .next (if s.behind step then s.missedCommit else s)
  else
    let own := module == s.moduleId
    let r : LeadReport := if own then { ovf := s.run.ovf, part := s.normPartial, fallback := s.hasFallback }
      else { ovf := ovf, part := partial_, fallback := fallback }
    if own && (s.run.needRejoin || s.run.silent || !s.exchangeDone || (second && !(s.run.prepassGate && s.prepassesDone))) then .next s
    else
      let s := if own then (s.phaseStop .learn).setRun { (s.phaseStop .learn).run with reported := true } else s
      if s.isLead then
        if s.lead.absent.contains module then .next s
        else if second then .next ((s.setLead { s.lead with seconds := s.lead.seconds.set module r }).leadDecide)
        else .next ((s.setLead { s.lead with reports := s.lead.reports.set module r }).leadDecide)
      else if own then .next (s.send (.report s.run.step r.ovf r.part r.fallback second))
      else .next s

/-- Whether a message of the Lead is taken: for this step, by a module that need not rejoin and, on the Lead itself, once it has decided
so. -/
def State.takes (s : State) (step : Nat) (d : Decision) : Bool :=
  s.run.active && step == s.run.step && !s.run.needRejoin && (!s.isLead || s.lead.decision == d)

/-- PREPASS_RX: the PREPASS gate opens; a module with no fallback group sends its first partial again (R228). -/
def execPrepassRx (step : Nat) (s : State) : Host.Outcome State Fault Refusal :=
  if s.keeper.kbusy then .next (s.owe (.prepassRx step)) else
  if !s.takes step .prepass then .next (if s.behind step then s.missedCommit else s)
  else
    let s := s.setRun { s.run with prepassGate := true }
    if s.hasFallback then .next s
    else if s.isLead then
      let r : LeadReport := { ovf := s.run.ovf, part := s.normPartial, fallback := false }
      .next ((s.setLead { s.lead with seconds := s.lead.seconds.set s.moduleId r }).leadDecide)
    else .next (s.send (.report step s.run.ovf s.normPartial false true))

/-- The update control block on each tile (R231). -/
def State.writeUcb (s : State) (k : Word) : State :=
  let offs := (s.runImage.map (·.ucb)).getD []
  let words := [k.toNat, s.run.step, b2n s.run.bank] ++ List.replicate 5 0
  s.setMem (offs.zipIdx.foldl (fun m (o, t) => Mem.writeN m (spadBase t + o) (dwordsBytes words)) s.mem)

/-- GO_RX: the update control block is written and the update gate opens; UPDATE waits for a SNAPSHOT still being written, and its time
begins after it (R22, R231, R234). -/
def execGoRx (step : Nat) (k lscale : Word) (clean : Nat) (s : State) : Host.Outcome State Fault Refusal :=
  if s.keeper.kbusy then .next (s.owe (.goRx step k lscale clean)) else
  if s.behind step then .next (s.catchStep step lscale clean)
  else if !s.takes step .go then .next s
  else
    let k := if s.isLead then s.lead.k else k
    let waits := s.run.snap.isSome || !s.run.snapDue.isEmpty
    let s := s.writeUcb k
    let s := if waits then s else s.phaseStart .update
    .next (s.setRun { s.run with k := k, gateOpen := true, prepassGate := false, upWaitFrom := if waits then some (s.watch 4) else none })

/-! ### Events 5 to 7 (R234, R235, R240) -/

/-- The check word of a shard: CRC-32C of its new BF16 master plane, in the shadow bank (R240). -/
def State.checkWord (s : State) (d : ShardDesc) (g : GroupDesc) (own : GroupDesc) : Word :=
  let q := if s.run.bank then g.bank0 else g.bank1
  let row := 64 * groupNb g
  BitVec.ofNat 32 (crc32c (Mem.readN s.mem (q.master + row * shardRow0 d own) (row * (d.count / max 1 g.cols))))

/-- The check words of the shards a module owns, and of those it mirrors. -/
def State.checkWords (s : State) : List (Nat × Word) × List (Nat × Word) :=
  let ds := (s.runImage.map (·.shards)).getD []
  let owned := ds.filterMap (fun d => match s.prog.groups.find? d.group with
    | some g => if s.ownerOf d == s.moduleId then some (d.index, s.checkWord d g g) else none
    | none => none)
  let mirrored := ds.filterMap (fun d => match s.prog.groups.find? d.group with
    | some g => (s.mirrorGroup g d.owner).map (fun m => (d.index, s.checkWord d m g))
    | none => none)
  (owned, mirrored)

/-- A module keeps the READYs it sees, and finds in them the shards it mirrors whose check word differs from the owner's (R240; DEDUCED, log
entry 28). -/
def State.takeReady (s : State) (m : Nat) (r : LeadReady) : State :=
  let readies := s.lead.readies.set m r
  let owned := List.flatMap (fun (e : Nat × LeadReady) => e.2.owned) readies
  let mine := ((readies.find? s.moduleId).map (·.mirrored)).getD []
  let bad := (mine.filter (fun (i, c) => owned.any (fun (j, d) => j == i && d != c))).map (·.1)
  s.setLead { s.lead with readies := readies, mismatch := bad }

/-- READY_RX: like OVERFLOW_REPORT, a module's own READY carries its own state, and leaves once its last block is written (R233, R234,
R240). -/
def execReadyRx (module step : Nat) (ovf : Bool) (owned mirrored : List (Nat × Word)) (s : State) : Host.Outcome State Fault Refusal :=
  if s.keeper.kbusy then .next (s.owe (.readyRx module step ovf owned mirrored)) else
  if !s.run.active || step != s.run.step then .next (if s.behind step then s.missedCommit else s)
  else
    let own := module == s.moduleId
    if own && (!s.run.gateOpen || !s.updatesDone || s.run.silent) then .next s
    else
      let (o, m) := if own then s.checkWords else (owned, mirrored)
      let r : LeadReady := { ovf := if own then s.run.updOvf else ovf, owned := o, mirrored := m }
      let s := if own then s.setRun { s.run with readied := true } else s
      if s.isLead then
        if s.lead.absent.contains module then .next s
        else .next (s.takeReady module r).leadCommit
      else if own then .next ((s.takeReady module r).send (.ready step r.ovf o m))
      else .next (s.takeReady module r)

/-- The Lead stops the run after 16 skips at scale 1, and LSCALE_FLOOR is posted (R203). -/
def State.floorStop (s : State) : State :=
  if s.run.active && s.run.stop != some .lscaleFloor && (!s.isLead || decide (16 ≤ s.lead.floor)) then
    (s.setRun { s.run with stop := some .lscaleFloor }).post 0 7 0 (leBytes 8 s.run.step ++ List.replicate 16 0)
  else s

/-- LSCALE_FLOOR (R203). -/
def execLscaleFloor (s : State) : Host.Outcome State Fault Refusal := .next s.floorStop

/-- SKIP_RX: receiving SKIP is the update boundary; the shadow is discarded (R234, R235). A step whose program faulted on a
module alone in its table is skipped with the loss scale as it stands (R353, log entry 20). -/
def execSkipRx (step : Nat) (lscale : Word) (clean : Nat) (s : State) : Host.Outcome State Fault Refusal :=
  if s.keeper.kbusy then .next (s.owe (.skipRx step lscale clean)) else
  if s.behind step then .next (s.catchStep (step + 1) lscale clean)
  else if s.run.active && step == s.run.step && s.alone && s.run.stop == some .fault && s.lead.decision != .skip then
    .next (s.atBoundary true s.run.lscale s.run.clean)
  else if !s.takes step .skip then .next s
  else
    let (sc, cl) := if s.isLead then (s.lead.lscale, s.lead.clean) else (lscale, clean)
    let s := if s.isLead then s.floorStop else s
    .next (s.atBoundary true sc cl)

/-- The rows of a shard copied from the owner's group to its mirror copy, in the active bank. -/
def State.copyShard (s : State) (d : ShardDesc) (g m : GroupDesc) : State :=
  let (p, q) := if s.run.bank then (g.bank1, m.bank1) else (g.bank0, m.bank0)
  let (r0, n) := (shardRow0 d g, d.count / max 1 g.cols)
  s.setMem (((bankPieces g p r0 n).zip (bankPieces m q r0 n)).foldl (fun mem (x, y) => Mem.writeN mem y.1 (Mem.readN mem x.1 x.2)) s.mem)

/-- After the boundary a mirror that differed is fetched again from its owner: from the paired tile, or from the owning module, whose bytes
come over the links; MIRROR_MISMATCH is posted (R240). -/
def State.refetchMirror (s : State) (i : Nat) : State :=
  match s.shardDesc i with
  | none => s
  | some d =>
    match s.prog.groups.find? d.group with
    | none => s
    | some g =>
      match s.mirrorGroup g d.owner with
      | none => s
      | some m => (if s.alone then s.copyShard d g m else s.send (.mirrorFetch i d.owner)).healthEvent 0x10A m.tile 0 0 i

/-- The active bank the other one. -/
def State.flipBank (s : State) : State := s.setRun { s.run with bank := !s.run.bank }

/-- COMMIT_MARK_RX: the shadow bank becomes the active one, and the update boundary is reached (R214, R234). While the Keeper
restarts the mark is applied at once, which shuts the update gate, and the Keeper's part of the boundary is owed (R336). A module whose
program faulted has no shadow to apply: it has missed the commit (R353). -/
def execCommitMarkRx (step : Nat) (lscale : Word) (clean : Nat) (s : State) : Host.Outcome State Fault Refusal :=
  if s.keeper.kbusy then
    let s := s.owe (.commitMarkRx step lscale clean)
    if s.behind step || !s.takes step .commit || s.run.markApplied then .next s
    else .next (s.flipBank.setRun { s.flipBank.run with shadow := false, gateOpen := false, markApplied := true })
  else
  let s := if s.run.markApplied then s.flipBank.setRun { s.flipBank.run with markApplied := false } else s
  if s.behind step then .next (s.missAgain (step + 1) lscale clean)
  else if !s.takes step .commit then .next s
  else if s.run.silent then .next s.missedCommit
  else
    let (sc, cl) := if s.isLead then (s.lead.lscale, s.lead.clean) else (lscale, clean)
    let bad := s.lead.mismatch
    let s := s.setRun { s.run with bank := !s.run.bank }
    let s := bad.foldl (fun s i => s.refetchMirror i) s
    .next ((s.setRun { s.run with bank := !s.run.bank }).atBoundary false sc cl)

/-! ### Failures (R236 to R238, R417, R441) -/

/-- Whether a straggler entry was made when a shard's sum was closed, and is made again when a replay closes it. -/
def State.fromClose (s : State) (x : Straggler) : Bool :=
  match x.outcome with
  | .missed | .folded => true
  | .dropped => x.past.isSome && (s.shard x.shard).folded.any (fun c => c.module == x.module)
  | .droppedOvf => false

/-- The UPDATE commands of the step are to run again (R237): stopped ones are gone, and none counts as taken. -/
def State.dropUpdates (s : State) : State :=
  let s := s.setEng { s.eng with vec := s.eng.vec.map (fun (k, v) => (k, { v with upds := [] })) }
  match s.progAt s.run.prog with
  | some p => s.setProg { s.prog with progs := s.prog.progs.set s.run.prog (p.levelUpdates p.rounds) }
  | none => s

/-- ABORT_RX: every module discards its shadow and replays the step without the failed module, whose shards go to their
mirror partners and are sent their contributions again (R237). What had arrived for the step is there on time in the replay, and what was
folded is folded again. The failed module itself, if it hears of it, rejoins, and its requests end ABORTED at their next boundaries (R276;
log entry 24). -/
def execAbortRx (step failed : Nat) (s : State) : Host.Outcome State Fault Refusal :=
  if s.keeper.kbusy then .next (s.owe (.abortRx step failed)) else
  if !s.run.active || step != s.run.step then .next (if s.behind step then s.missedCommit else s)
  else if failed = s.moduleId then .next (((s.setRun { s.run with shadow := false }).missedCommit).setServe { s.serve with
    reqs := s.serve.reqs.map (fun (i, q) => (i, { q with doomed := q.doomed || !q.status.terminal })) })
  else
    let entry : Straggler := { module := failed, outcome := .dropped, shard := 0, past := none }
    let r := s.run
    let late := r.stragglers.any (fun x => x.outcome == .droppedOvf)
    let r := { r with shadow := false, gateOpen := false, prepassGate := false, reported := false, readied := false, updOvf := false, ovf := r.ovf || late }
    let r := { r with rebuilt := [], updated := [], prepDone := [], absent := insertNat failed r.absent,
                      stragglers := (r.stragglers.filter (fun x => !s.fromClose x)) ++ [entry], replays := r.replays + 1 }
    let s := s.setRun { r with shards := r.shards.map (fun (k, x) =>
      (k, { x with closed := false, arrived := x.arrived.map (fun c => { c with late := false, past := 0 }) })) }
    let s := s.dropUpdates
    let s := if s.mirrors failed then s.healthEvent 0x109 0xFF 0 failed 1 else s
    .next (((s.runImage.map (·.shards)).getD []).foldl (fun s d =>
      if s.ownerOf d = s.moduleId && (s.shard d.index).own.isSome then
        (s.setShard d.index { s.shard d.index with armed := true, armedAt := s.watch 4 }).tryClose d.index d
      else match (s.shard d.index).own with
        | some v => if d.owner = failed then s.send (.contribution d.index (s.ownerOf d) step v (s.shard d.index).ownNorms s.run.ovf) else s
        | none => s) s)

/-- A module that has heard nothing from the Lead within the commit wait stops the run: its shadow is discarded, LEAD_LOST is
posted (R417). -/
def State.leadLost (s : State) : State :=
  let s := s.setRun { s.run with shadow := false, leadLost := true }
  (s.healthEvent 0x118 0xFF 0 0 1).endRun .health

/-- COMMIT_WAIT_EXPIRY: on the Lead, the named module's report or READY has not come (R236); elsewhere, nothing has come from
the Lead since this module reported (R417). -/
def execCommitWaitExpiry (module : Nat) (s : State) : Host.Outcome State Fault Refusal :=
  if s.keeper.kbusy then .next (s.owe (.commitWaitExpiry module)) else
  if !s.run.active then .next s
  else if s.isLead then
    let waiting := match s.lead.decision with
      | .none_ => !s.lead.reports.has module
      | .prepass => !s.lead.seconds.has module
      | .go => !s.lead.readies.has module
      | _ => false
    .next (if waiting then s.failModule module else s)
  else if (s.run.reported && !s.run.gateOpen && !s.run.prepassGate) || s.run.readied then .next s.leadLost
  else .next s

/-- COMMIT_PULSE (R238, R441, R442): 0.5 to 1.5 µs is even, 2.5 to 3.5 µs odd. Where the two COMMIT copies disagree, CDIS is
set and the copy that matches the parity of the module's step is trusted; a copy out of use is not looked at. -/
def execCommitPulse (widthNs : Nat) (copies : BitVec 2) (s : State) : Host.Outcome State Fault Refusal :=
  let use0 := !s.pwr.pinFault.getLsbD 2
  let use1 := !s.pwr.pinFault.getLsbD 3
  let p0 := use0 && copies.getLsbD 0
  let p1 := use1 && copies.getLsbD 1
  let odd := if 500 ≤ widthNs && widthNs ≤ 1500 then some false else if 2500 ≤ widthNs && widthNs ≤ 3500 then some true else none
  if s.pwr.meaning != .operation || s.isLead || !(p0 || p1) then .next s
  else
    let s := if use0 && use1 && p0 != p1 then s.setPwr { s.pwr with cdis := true } else s
    .next (if s.run.active && s.run.shadow && odd == some (s.run.step % 2 == 1) then s.missedCommit else s)

end Sys2Proof.Machine
end

