-- ==== Sys2Proof/Machine/Copy.lean ====
section
/-! DEFINITION. The copy engines: COPY and FILL (R285). -/
namespace Sys2Proof.Machine

/-! ### The record -/

structure CopyRec where
  opc : Nat
  bankrel : Bool
  src : Nat
  dst : Nat
  len : Nat
  nrow : Nat
  sstride : Nat
  dstride : Nat
  pattern : Word
  bad : Bool
deriving DecidableEq, Repr

def copyRec (w : List Word) : CopyRec :=
  let fill := fld w 0 31 28 == 2
  { opc := fld w 0 31 28, bankrel := flag w 0 27, src := fld w 1 31 0 + fld w 2 25 0 * 2 ^ 32, dst := fld w 3 31 0 + fld w 4 25 0 * 2 ^ 32,
    len := fld w 5 31 0, nrow := fld w 6 23 0, sstride := fld w 7 31 0, dstride := fld w 8 31 0, pattern := w.getD 9 0,
    bad := fld w 0 26 0 != 0 || fld w 2 31 26 != 0 || fld w 4 31 26 != 0 || fld w 6 31 24 != 0 ||
      (!fill && w.getD 9 0 != 0) || (List.range 6).any (fun i => w.getD (10 + i) 0 != 0) }

/-- An address of the record, resolved against the active bank where BANKREL says so (R214, R285). -/
def State.copyPlace (s : State) (r : CopyRec) (a : Nat) : Place :=
  match s.placeOf a with
  | .here x => .here (if r.bankrel then s.inActiveBank x else x)
  | p => p

/-- Whether every row at an address lies in one region (R278, R280). -/
def Place.ok (p : Place) (rows stride len : Nat) : Bool :=
  match p with
  | .nowhere => false
  | .here a | .there _ a => (List.range rows).all (fun i => localOk (a + i * stride) len)

/-- The completion code, lowest first (log entry 11). -/
def CopyRec.code (r : CopyRec) (fill : Bool) (src dst : Place) : Nat :=
  if r.bad || r.opc != (if fill then 2 else 1) || r.len == 0 || r.nrow == 0 || r.len % 64 != 0 || r.dstride % 64 != 0 ||
      (!fill && r.sstride % 64 != 0) then 2
  else if !(dst.ok r.nrow r.dstride r.len) || (!fill && !(src.ok r.nrow r.sstride r.len)) then 5
  else 0

/-- Bytes written to a place: into local memory, or on their way to another module as a move (R280). -/
def State.putAt (s : State) (p : Place) (off : Nat) (bs : List Byte) : State :=
  match p with
  | .here a => s.setMem (Mem.writeN s.mem (a + off) bs)
  | .there m _ => (s.openMove s.link.nextMove m bs.length).sendBytes s.link.nextMove m off bs
  | .nowhere => s

/-- The next command's moves take a new number. -/
def State.closeMove (s : State) (p : Place) : State :=
  match p with
  | .there _ _ => s.setLink { s.link with nextMove := (s.link.nextMove + 1) % 2 ^ 32 }
  | _ => s

/-! ### Failed source units (R285, R287, R293) -/

/-- Bytes copied to a place but for those of failed access units, run by run. -/
def State.putLive (s : State) (p : Place) : Nat → Nat → List Byte → State
  | _, _, [] => s
  | src, off, b :: bs => State.putLive (if s.failedAt src then s else s.putAt p off [b]) p (src + 1) (off + 1) bs

/-- What a command moves is charged to its function: local bytes by tier, the others over the tile's bridge to the hub and over the links
(R11, R388, R390). -/
def State.countPlace (s : State) (t : Nat) (f : Fn) (p : Place) (n : Nat) (write : Bool) : State :=
  match p with
  | .here a => s.countBytes t f.val a n write
  | .there _ _ => (s.addBytes t f.val bytesBridge n).addBytes t f.val (if write then bytesWidunOut else bytesWidunIn) n
  | .nowhere => s

/-- What a command reads to write its rows to a place (R281). -/
def Place.merges (p : Place) (r : CopyRec) : List (Nat × Nat) :=
  match p with
  | .here a => mergedStripes (lineRanges a r.dstride r.nrow r.len)
  | _ => []

/-! ### The commands -/

/-- COPY (R285): rows in order. A source whose failed access units are class X is copied around them and completes with DATA;
a source of another class waits for its recovery, as does a stripe that is written in part (R281). -/
def execCopy (t : TileIx) (e : Fin 4) (src : Src) (ws : List Word) (remote : List Byte) (s : State) : Host.Outcome State Fault Refusal :=
  let r := copyRec ws
  let sp := s.copyPlace r r.src
  let dp := s.copyPlace r r.dst
  let code := r.code false sp dp
  if !s.engineTakes t 7 e src (EngCmd.is ws []) then .next s
  else if code ≠ 0 then .next (s.programFault src code t 7 e)
  else
    match sp with
    | .here a =>
      let units := (List.range r.nrow).flatMap (fun i => accessesOf (a + i * r.sstride) r.len)
      let hit := units.filter s.failedAt
      if hit.any (fun u => s.classAt u != 5) then .next (s.joinRecovery src (hit.filter (fun u => s.classAt u != 5 && !s.tier.failedOut.contains u)))
      else .next (s.readOr src t 7 e (dp.merges r) (fun s =>
        let s := (List.range r.nrow).foldl (fun s i =>
          let bs := Mem.readN s.mem (a + i * r.sstride) r.len
          if hit.isEmpty then s.putAt dp (i * r.dstride) bs else State.putLive s dp (a + i * r.sstride) (i * r.dstride) bs) s
        let lost := ((List.range r.nrow).flatMap (fun i => (List.range r.len).map (fun j => a + i * r.sstride + j))).filter s.failedAt
        let n := r.nrow * r.len - (if hit.isEmpty then 0 else lost.length)
        let s := ((s.closeMove dp).countPlace t src.fn sp n false).countPlace t src.fn dp n true
        if hit.isEmpty then s.finish src t 7 e else s.programFault src 0x0A t 7 e))
    | _ => .next (s.readOr src t 7 e (dp.merges r) (fun s =>
      let s := ((List.range r.nrow).foldl (fun s i => s.putAt dp (i * r.dstride) ((remote.drop (i * r.len)).take r.len)) s).closeMove dp
      ((s.countPlace t src.fn sp (r.nrow * r.len) false).countPlace t src.fn dp (r.nrow * r.len) true).finish src t 7 e))

/-- FILL (R285): the pattern over every row. -/
def execFill (t : TileIx) (e : Fin 4) (src : Src) (ws : List Word) (s : State) : Host.Outcome State Fault Refusal :=
  let r := copyRec ws
  let dp := s.copyPlace r r.dst
  let code := r.code true .nowhere dp
  if !s.engineTakes t 7 e src (EngCmd.is ws []) then .next s
  else if code ≠ 0 then .next (s.programFault src code t 7 e)
  else
    let row := (List.replicate (r.len / 4) r.pattern).flatMap (fun w => leBytes 4 w.toNat)
    .next (s.readOr src t 7 e (dp.merges r) (fun s =>
      ((((List.range r.nrow).foldl (fun s i => s.putAt dp (i * r.dstride) row) s).closeMove dp).countPlace t src.fn dp (r.nrow * r.len) true).finish src t 7 e))

end Sys2Proof.Machine
end

