-- ==== Sys2Proof/Machine/Link.lean ====
section
/-! DEFINITION. The Widun ports (R392 to R402, R415), the laser cartridge (R403, R404, R463), fibre service (R464) and the fog
signal (R416, R418, R419). -/
namespace Sys2Proof.Machine

/-! ### Light (R403, R404) -/

/-- A laser source (0 A, 1 B), and whether it gives light. -/
def State.laser (s : State) (i : Nat) : Laser := s.link.lasers.get {} i
def State.setLaser (s : State) (i : Nat) (v : Laser) : State := s.setLink { s.link with lasers := s.link.lasers.set i v }
def Laser.lit (l : Laser) : Bool := decide (l.state ≤ 1)
def State.hasLight (s : State) : Bool := (s.laser 0).lit || (s.laser 1).lit

/-- A port goes DOWN: what it has not had acknowledged is sent again over another route (R402). -/
def State.portDown (s : State) (p : Nat) : State :=
  let x := s.port p
  let s := s.setPort p { x with state := .down, txWide := 0, rxWide := 0, replay := [], txWait := [] }
  (x.replay ++ x.txWait).foldl (fun s k => s.sendTo k) s

/-- Without light every port goes DOWN (R404). -/
def State.checkLight (s : State) : State :=
  if s.hasLight then s else (List.range 6).foldl (fun s p => if (s.port p).state = .down then s else s.portDown p) s

/-- A link health event of a port (R422): subject the peer. -/
def State.portEvent (s : State) (code p subject : Nat) : State := s.healthEvent code 0xFF p subject 1

/-! ### Training (R395 to R397) -/

/-- The lanes a direction comes up with: 16 from 16 healthy, 8 from 8, none below. -/
def widthOf (healthy : Nat) : Nat := if 16 ≤ healthy then 16 else if 8 ≤ healthy then 8 else 0

/-- The logical lanes that are healthy, with the receive positions their markers arrived at. -/
def trainHealthy (o : TrainObs) : List (Nat × Nat) :=
  (List.range 18).filterMap (fun lane =>
    match o.markers.find? (fun m => m.1 == lane) with
    | some (_, pos) => if o.failed.contains pos then none else some (lane, pos)
    | none => none)

/-- RXMAP (R397): dead lanes are replaced by spares in lane order, lowest spare first; with 8 lanes, the first eight healthy
ones. Entries 16 and 17 are the spares still left (DESIGN CHOICE, log entry 21). -/
def rxMapOf (width : Nat) (healthy : List (Nat × Nat)) : List Nat :=
  if width = 8 then (healthy.take 8).map (·.2) ++ List.replicate 10 0xFF
  else
    let spares := healthy.filter (fun h => decide (16 ≤ h.1))
    let (m, left) := (List.range 16).foldl (fun (m, sp) lane =>
      match healthy.find? (fun h => h.1 == lane), sp with
      | some h, _ => (m ++ [h.2], sp)
      | none, x :: r => (m ++ [x.2], r)
      | none, [] => (m ++ [0xFF], [])) (([] : List Nat), spares)
    m ++ [16, 17].map (fun lane => ((left.find? (fun h => h.1 == lane)).map (·.2)).getD 0xFF)

/-- A lane mask from lane numbers. -/
def laneMask (ls : List Nat) : BitVec 18 := ls.foldl (fun m l => m ||| BitVec.ofNat 18 (2 ^ l)) 0

/-- How the light check of event 1 ends: the port may go on, with its roles reversed or not; it is miscabled; or it sees no
light (R395, R396). -/
inductive LightCheck
  | go (flip : Bool)
  | miscabled
  | dark
deriving DecidableEq, Repr

def lightCheck (p : Nat) (o : TrainObs) : LightCheck :=
  let plus := p % 2 == 0
  if o.peerPlus == plus then .miscabled
  else if o.lightRx then .go false
  else if o.lightTx && o.peerLightTx && !o.peerLightRx then .go plus
  else if !o.peerLightRx && (o.lightTx != o.peerLightTx) then .miscabled
  else .dark

/-- The neighbour check of event 6 (R397): the peer R392 gives under a table of more than one module, else only a + port
joined to the − port of the same axis. -/
def State.neighbourOk (s : State) (p : Nat) (o : TrainObs) : Bool :=
  let opposite := if p % 2 = 0 then p + 1 else p - 1
  match s.link.table with
  | some t =>
    if t.present.length ≤ 1 then o.peerAxis == p / 2 && o.peerPlus != (p % 2 == 0)
    else o.peerPos == neighbourVia t s.moduleId p && o.peerPort == opposite
  | none => o.peerAxis == p / 2 && o.peerPlus != (p % 2 == 0)

/-- A training that fails leaves the port DOWN; a port that was up posts PORT_DOWN, but for one held down for service. -/
def State.trainFails (s : State) (p : Nat) (miscabled : Bool) (o : TrainObs) : State :=
  let x := s.port p
  let was := x.state != .down
  let s := s.setPort p { x with miscabled := miscabled, retrains := x.retrains + 1, lastTrain := o.duration }
  let s := s.portDown p
  if x.serviced then s
  else
    let s := if was then s.portEvent 0x112 p x.peer else s
    if miscabled then s.portEvent 0x113 p (if o.markers.isEmpty then 0x3FF else o.peerPos) else s

/-- A port trains (R395): the checks of events 1 to 6, then the link is up with sequence numbers zero and empty replay buffers,
and packets not acknowledged before are sent again (R399). -/
def State.train (s : State) (p : Nat) (o : TrainObs) : State :=
  let x := s.port p
  let s := s.setHealth { s.health with trainings := s.health.trainings.upd 0 p (fun n => min 65535 (n + 1)) }
  match lightCheck p o with
  | .miscabled => s.trainFails p true o
  | .dark => s.trainFails p false o
  | .go flip =>
    let healthy := trainHealthy o
    let rx := widthOf healthy.length
    let tx := widthOf (18 - o.peerDead.length)
    if rx = 0 || tx = 0 then s.trainFails p false o
    else if !s.neighbourOk p o then s.trainFails p true o
    else
      let dead := (List.range 18).filter (fun l => !(healthy.any (fun h => h.1 == l)))
      let y := { x with state := (if rx = 16 && tx = 16 then .up else .degraded), txWide := tx, rxWide := rx, flipped := flip,
                        reversed := healthy.any (fun h => h.1 % 9 != h.2 % 9), crossed := healthy.any (fun h => h.1 / 9 != h.2 / 9) }
      let y := { y with miscabled := false, silent := false, peer := o.peerPos, peerPort := o.peerPort, txDead := laneMask o.peerDead,
                        rxDead := laneMask dead, rxmap := rxMapOf rx healthy, spareRx := healthy.length - 16 }
      let y := { y with spareTx := 18 - o.peerDead.length - 16, retrains := x.retrains + 1, lastTrain := o.duration, txSeq := 0, rxSeq := 0,
                        replay := [], txWait := [], resends := 0, serviced := false }
      let s := s.setPort p y
      let s := s.setHealth { s.health with laneRx := s.health.laneRx.set p (18 - healthy.length), laneTx := s.health.laneTx.set p o.peerDead.length }
      let s := (x.replay ++ x.txWait).foldl (fun s k => s.enqueue p k) s
      let s := if rx = 8 || tx = 8 then s.portEvent 0x111 p o.peerPos else s
      if x.serviced then s.healthEvent 0x133 0xFF (2 * 256 + p) 0 0 else s

/-- LINK_TRAIN: at first light, or a retraining (R395). -/
def execLinkTrain (p : PortIx) (o : TrainObs) (s : State) : Host.Outcome State Fault Refusal :=
  .next (if s.ramped && s.hasLight && !s.pwr.strapBad && !(s.port p).serviced then s.train p o else s)

/-- LINK_TRAIN_RETRY: every 1 s a DOWN port trains again (R395, R464). -/
def execLinkTrainRetry (p : PortIx) (o : TrainObs) (s : State) : Host.Outcome State Fault Refusal :=
  .next (if s.ramped && s.hasLight && !s.pwr.strapBad && (s.port p).state == .down then s.train p o else s)

/-! ### Packets (R398, R399) -/

/-- Packets up to ACKSEQ leave the replay buffer, and waiting ones follow. -/
def State.acked (s : State) (p ackseq : Nat) : State :=
  let x := s.port p
  match x.replay.findIdx? (fun k => k.seq == ackseq % 4096) with
  | none => s
  | some i => State.pump (x.txWait.length + 1) p (s.setPort p { x with replay := x.replay.drop (i + 1), resends := 0 })

/-- A DATA packet that has reached its destination is kept for the collective step it belongs to, but for a duplicate (R402). -/
def State.keepData (s : State) (k : Packet) : State :=
  if k.kind != kindData || s.link.inbox.any (fun e => e.src == k.src && e.move == k.move && e.off == k.offset) then s
  else s.setLink { s.link with inbox := s.link.inbox ++ [{ src := k.src, move := k.move, off := k.offset, data := k.payload }] }

/-- A packet accepted in order through a port: on to its destination, or, on this module, kept where it is DATA, and the end-to-end
acknowledgement of a move where it is a CONTROL packet that names one (R398, R415). -/
def State.accepted (s : State) (p : Nat) (k : Packet) : State :=
  if k.dest = s.moduleId then
    if k.kind = kindControl then
      s.setLink { s.link with moves := s.link.moves.filter (fun m => !(m.move == k.move && m.dest == k.src)) }
    else s.keepData k
  else s.sendVia (some p) k

/-- LINK_PACKET_RX (R398, R399): a packet that fails its CRC, or leaves a gap, is answered with NAK; one already accepted is
discarded; ACK, NAK and IDLE carry no sequence number of their own. -/
def execLinkPacketRx (p : PortIx) (pkt : Packet) (s : State) : Host.Outcome State Fault Refusal :=
  let x := s.port p
  if !x.isUp then .next s
  else if !pkt.crcOk then
    .next ((s.setPort p { x with crcErr := x.crcErr + 1 }).sendPlain p kindNak x.peer)
  else
    let s := s.acked p pkt.ackseq
    let x := s.port p
    if pkt.kind = kindData || pkt.kind = kindControl then
      let ahead := (pkt.seq + 4096 - x.rxSeq) % 4096
      if ahead = 0 then
        .next (((s.setPort p { x with rxSeq := (x.rxSeq + 1) % 4096 }).sendPlain p kindAck x.peer).accepted p pkt)
      else if ahead < 2048 then .next (s.sendPlain p kindNak x.peer)
      else .next (s.sendPlain p kindAck x.peer)
    else .next s

/-- NAK_RX: go-back-N; the ninth failure retrains the port (R399). -/
def execNakRx (p : PortIx) (ackseq : Nat) (s : State) : Host.Outcome State Fault Refusal :=
  if !(s.port p).isUp then .next s
  else
    let s := s.acked p ackseq
    let x := s.port p
    if x.replay.isEmpty then .next s
    else if 8 ≤ x.resends then .next (s.setPort p { x with state := .training, resends := 0 })
    else
      let s := s.setPort p { x with resends := x.resends + 1, resent := x.resent + x.replay.length }
      .next (x.replay.foldl (fun s k => s.send (.packet p { k with ackseq := x.ackSeq })) s)

/-- ACK_RX (R399). -/
def execAckRx (p : PortIx) (ackseq : Nat) (s : State) : Host.Outcome State Fault Refusal :=
  .next (if (s.port p).isUp then s.acked p ackseq else s)

/-- IDLE_TIMER: a port with nothing to send sends an IDLE (R399). -/
def execIdleTimer (p : PortIx) (s : State) : Host.Outcome State Fault Refusal :=
  .next (if (s.port p).isUp then s.sendPlain p kindIdle (s.port p).peer else s)

/-- LANE_SPARED: a failing receive lane goes out of service; a spare takes its place, or the port retrains (R400). -/
def execLaneSpared (p : PortIx) (lane : Fin 18) (s : State) : Host.Outcome State Fault Refusal :=
  let x := s.port p
  if !x.isUp then .next s
  else
    let y := { x with rxDead := x.rxDead ||| BitVec.ofNat 18 (2 ^ lane.val) }
    let y := if x.spareRx = 0 then { y with state := .training }
      else
        let k := if x.rxmap.getD 16 0xFF ≠ 0xFF then 16 else 17
        { y with spareRx := x.spareRx - 1, rxmap := (x.rxmap.set lane.val (x.rxmap.getD k 0xFF)).set k 0xFF }
    let s := s.setPort p y
    let s := s.setHealth { s.health with laneRx := s.health.laneRx.upd 0 p (· + 1) }
    .next (s.healthEvent 0x110 0xFF (p.val * 32 + lane.val) x.peer 1)

/-- PEER_SILENT (R401): posted, and the port retrains. -/
def execPeerSilent (p : PortIx) (s : State) : Host.Outcome State Fault Refusal :=
  let x := s.port p
  if !x.isUp || x.serviced then .next s
  else .next (((s.setPort p { x with silent := true, state := .training }).portEvent 0x114 p x.peer).failFogged)

/-- MOVE_TIMEOUT (R415). -/
def execMoveTimeout (move : Nat) (s : State) : Host.Outcome State Fault Refusal :=
  match s.link.moves.find? (fun m => m.move == move) with
  | none => .next s
  | some m =>
    let port := (s.routePort m.dest).getD 0
    .next ((s.setLink { s.link with moves := s.link.moves.filter (fun x => x.move != move) }).portEvent 0x115 port m.dest)

/-! ### Lasers (R403, R404, R463) -/

/-- LASER_LOW (R403). -/
def execLaserLow (source : Fin 2) (percent : Nat) (s : State) : Host.Outcome State Fault Refusal :=
  let l := s.laser source
  .next (if l.state = 0 then (s.setLaser source { l with state := 1, percent := percent }).healthEvent 0x117 0xFF source 0x3FF 1 else s)

/-- LASER_FAILOVER: the failed source is switched out, the other carries the full load; with none left the ports go DOWN (R403,
R404). -/
def execLaserFailover (source : Fin 2) (s : State) : Host.Outcome State Fault Refusal :=
  let l := s.laser source
  let other := 1 - source.val
  if !l.lit then .next s
  else
    let s := s.setLaser source { l with state := 2, full := false, percent := 0 }
    let s := if (s.laser other).lit then s.setLaser other { s.laser other with full := true } else s
    .next ((s.healthEvent 0x116 0xFF source 0x3FF 1).checkLight)

/-- LASER_SOURCE_FITTED: the new source is tested, takes half the load, PART_REPLACED is posted (R463). -/
def execLaserSourceFitted (source : Fin 2) (s : State) : Host.Outcome State Fault Refusal :=
  let l := s.laser source
  let other := 1 - source.val
  if l.lit then .next s
  else
    let s := s.setLaser source { state := 0, percent := 100, seconds := 0, full := !(s.laser other).lit }
    let s := if (s.laser other).lit then s.setLaser other { s.laser other with full := false } else s
    .next (s.healthEvent 0x133 0xFF source 0 0)

/-! ### Fibre service (R464) -/

/-- SERVICE_NOTICE_RX: the port is held DOWN without PEER_SILENT, and the notice is answered. -/
def execServiceNoticeRx (p : PortIx) (s : State) : Host.Outcome State Fault Refusal :=
  let x := s.port p
  if !x.isUp then .next s
  else
    let s := s.send (.serviceAnswer p)
    .next ((s.setPort p { s.port p with serviced := true }).portDown p)

/-- SERVICE_NOTICE_TIMEOUT: OP_DONE carries OK for the local end alone. -/
def execServiceNoticeTimeout (p : PortIx) (s : State) : Host.Outcome State Fault Refusal :=
  match s.findOp (.fibre p) with
  | none => .next s
  | some o => .next (s.opDone o codeOk)

/-! ### The fog signal (R416 to R419) -/

/-- FOG_REPORT: merged by key; the Lead may find a module failed (R416, R419). -/
def execFogReport (code subject : Nat) (witnesses : List Nat) (count : Nat) (s : State) : Host.Outcome State Fault Refusal :=
  if s.keeper.kbusy then .next (s.owe (.fogReport code subject witnesses count)) else
  .next ((s.fogMerge code subject witnesses count).failFogged)

/-- FOG_HOLD_EXPIRY: the merged report goes to the parent, or its nearest ancestor that is present, and the entry closes
(R407, R419). -/
def execFogHoldExpiry (code subject : Nat) (s : State) : Host.Outcome State Fault Refusal :=
  match s.link.fog.find? (fun e => e.code == code && e.subject == subject) with
  | none => .next s
  | some e =>
    let dest := match s.link.table with
      | some t => s.ancestor t 32 s.moduleId
      | none => 0
    let s := s.setLink { s.link with fog := s.link.fog.filter (fun x => !(x.code == code && x.subject == subject)) }
    .next (s.send (.fog dest code subject e.witnesses e.count))

/-- FOG_WINDOW_EXPIRY: the occurrences counted in the window are reported (R418). -/
def execFogWindowExpiry (code subject : Nat) (s : State) : Host.Outcome State Fault Refusal :=
  match s.link.windows.find? (fun w => w.code == code && w.subject == subject) with
  | none => .next s
  | some w =>
    let s := s.setLink { s.link with windows := s.link.windows.filter (fun x => !(x.code == code && x.subject == subject)) }
    .next (if w.count = 0 then s else (s.fogMerge code subject [s.moduleId] w.count).failFogged)

end Sys2Proof.Machine
end

