-- ==== Sys2Proof/Machine/Memory.lean ====
section
/-! DEFINITION. The memory group of the mailbox (R357, R358), the far tier's carriers (R281 to R284, R466), the CXL.mem window
(R283), re-reading, retirement and recovery (R287 to R293). -/
namespace Sys2Proof.Machine

/-! ### Free space (R278, R284, R290, R357, R374) -/

/-- Whether a far carrier serves the module: present, powered, not being evacuated (R284, R466). -/
def State.carrierServes (s : State) (c : Nat) : Bool :=
  let v := s.carrier c
  v.present && v.powered && !v.evacuating

/-- The physical extent of a logical extent (R282). -/
def State.physExtent (s : State) (e : Nat) : Nat := s.tier.farMap.get e e

/-- The bytes of every save area in one tile's near tier; they lie at its top (DESIGN CHOICE, log entry 22). -/
def State.saveTotal (s : State) : Nat := (s.prog.saves.map (fun e => e.2)).sum

/-- The page directory and the stop table of each request, in the scratchpad of its group's first tile (R252, R255, R270). -/
def State.requestRanges (s : State) : List (Nat × Nat) :=
  s.serve.reqs.flatMap (fun e => [(spadBase e.2.home + e.2.pdir, 4096), (spadBase e.2.home + e.2.stoptab, 68 * e.2.stops.length)])

/-- Ranges (base, length) that hold something: regions, the pairing's weights, save areas, pages taken out, requests' tables, the
CXL.mem window. -/
def State.held (s : State) : List (Nat × Nat) :=
  s.tier.regions.map (fun e => (e.2.base, e.2.length)) ++ s.pair.extents ++ s.requestRanges ++ s.tier.lostPages.map (fun p => (p, 4096)) ++
    (List.range 4).map (fun t => (nearBase t + 0x1000000000 - s.saveTotal, s.saveTotal)) ++
    [(farBase + s.tier.windowBase * 2 ^ 30, s.tier.windowSize * 2 ^ 30)]

/-- The logical extents that lie on carriers out of service, as ranges. -/
def State.closedExtents (s : State) : List (Nat × Nat) :=
  if (List.range 4).all s.carrierServes then []
  else ((List.range 2048).filter (fun e => !s.carrierServes (s.physExtent e / 512))).map (fun e => (farBase + e * 2 ^ 30, 2 ^ 30))

/-- The lowest base from lo on, aligned, where n bytes below hi meet no range (DESIGN CHOICE: the manual leaves the place
open; log entry 22). -/
def lowestFree (busy : List (Nat × Nat)) (lo hi align n : Nat) : Option Nat :=
  let cands := (roundUp lo align) :: (busy.map (fun b => roundUp (max lo (b.1 + b.2)) align))
  let fits := cands.filter (fun a => decide (a + n ≤ hi) && busy.all (fun b => b.2 == 0 || decide (a + n ≤ b.1) || decide (b.1 + b.2 ≤ a)))
  match fits with
  | [] => none
  | a :: r => some (r.foldl min a)

/-- The range of a tier of R357 (0 near, 1 far, 2 scratchpad) and its granule (R292). -/
def tierRange (tier t : Nat) : Nat × Nat × Nat :=
  match tier with
  | 0 => (nearBase t, nearBase t + 0x1000000000, 4096)
  | 1 => (farBase, farEnd, 4096)
  | _ => (spadBase t, spadBase t + spadEnd, 64)

/-- A base for a region of a tier. -/
def State.place (s : State) (tier t align n : Nat) : Option Nat :=
  let (lo, hi, g) := tierRange tier t
  lowestFree (s.held ++ (if tier = 1 then s.closedExtents else [])) lo hi (max align g) (roundUp n g)

/-- Bytes of a range list inside [lo, hi). -/
def bytesWithin (rs : List (Nat × Nat)) (lo hi : Nat) : Nat :=
  (rs.map (fun r => min hi (r.1 + r.2) - max lo r.1)).sum

/-- Near-tier and far-tier bytes available for allocation (R342). -/
def State.nearFree (s : State) (t : Nat) : Nat :=
  0x1000000000 - bytesWithin s.held (nearBase t) (nearBase t + 0x1000000000)
def State.farFree (s : State) : Nat :=
  2 ^ 41 - bytesWithin (s.held ++ s.closedExtents) farBase farEnd

/-- Where the Keeper recovers a region of a class from, beside a class W region's host image (R292, R293). -/
def classSource (cls : Nat) : RecSource :=
  match cls with
  | 0 | 2 => .partner
  | 1 => .segments
  | 3 => .prefill
  | 4 => .rescore
  | _ => .none_

/-- A region entered in the table, with its number; none where the table is full (R292). -/
def State.addRegion (s : State) (r : Region) : Option (State × Nat) :=
  (s.tier.regions.freeFrom 16384 0).bind (fun i =>
    if i < 16384 then some (s.setTier { s.tier with regions := s.tier.regions.set i r }, i) else none)

/-! ### REGION_ALLOC and REGION_FREE (R357) -/

/-- REGION_ALLOC. -/
def execRegionAlloc (m : MCmd) (s : State) : Host.Outcome State Fault Refusal :=
  let p := m.payload
  let cls := fieldAt p 10 1
  .next (s.intake (.regionAlloc m) m 0x400 false (if cls = 0 then lenIs m 16 1 else lenIs m 16 0) (fun s =>
    let ds := descsAt p 16 (if cls = 0 then 1 else 0)
    let n := fieldAt p 0 8
    let tier := fieldAt p 8 1
    let t := fieldAt p 9 1
    let al := fieldAt p 11 1
    if !descsOk s m ds (if cls = 0 then [false] else []) then s.complete m codeDescriptor []
    else if !reservedZero p 16 [(0, 12)] || n == 0 || decide (tier > 2) || decide (cls > 5) || decide (al < 6) || decide (al > 30) ||
        (tier != 1 && decide (t > 3)) then s.complete m codeField []
    else
      match s.place tier t (2 ^ al) n with
      | none => s.complete m codeCapacity []
      | some a =>
        let r : Region := { tier := tier, tile := if tier = 1 then 0 else t, base := a, length := roundUp n (tierRange tier t).2.2, cls := cls,
                            fn := m.fn, source := if cls = 0 then .host (cmdExtents m ds 0) else classSource cls, prog := 0 }
        match s.addRegion r with
        | none => s.complete m codeCapacity []
        | some (s, i) => s.complete m codeOk (leBytes 8 a ++ leBytes 4 i)))

/-- A region a function may name: its own, or any for the physical function (R339). -/
def State.regionFor (s : State) (f : Fn) (i : Nat) : Option Region :=
  (s.tier.regions.find? i).bind (fun r => if f.val = 0 || r.fn == f then some r else none)

/-- REGION_FREE: a recovery in progress on the region is dropped, since its units then lie in no region (R289). -/
def execRegionFree (m : MCmd) (s : State) : Host.Outcome State Fault Refusal :=
  let p := m.payload
  .next (s.intake (.regionFree m) m 0x401 false (lenIs m 8 0) (fun s =>
    if !reservedZero p 8 [(0, 4)] then s.complete m codeField []
    else
      let i := fieldAt p 0 4
      match s.regionFor m.fn i with
      | none => s.complete m codeNoObject []
      | some r =>
        if r.prog != 0 then s.complete m codeState []
        else (s.setTier { s.tier with regions := s.tier.regions.del i }).complete m codeOk []))

/-! ### MEM_TRANSFER (R357) -/

/-- MEM_TRANSFER: accepted once its region, extent, direction and descriptor stand. -/
def execMemTransfer (m : MCmd) (s : State) : Host.Outcome State Fault Refusal :=
  let p := m.payload
  .next (s.intake (.memTransfer m) m 0x402 false (lenIs m 32 1) (fun s =>
    let ds := descsAt p 32 1
    let dir := fieldAt p 24 1
    let off := fieldAt p 8 8
    let n := fieldAt p 16 8
    let es := cmdExtents m ds 0
    if !descsOk s m ds [dir == 1] || (decide (dir ≤ 1) && decide (extentBytes es < n)) then s.complete m codeDescriptor []
    else if !reservedZero p 32 [(0, 4), (8, 17)] || decide (dir > 1) then s.complete m codeField []
    else
      match s.regionFor m.fn (fieldAt p 0 4) with
      | none => s.complete m codeNoObject []
      | some r =>
        if off + n > r.length then s.complete m codeField []
        else
          let o : LongOp := { kind := .transfer, fn := m.fn, seq := m.seq, opcode := 0x402, payload := p, extents := es, base := r.base + off }
          (s.setKeeper { s.keeper with ops := s.keeper.ops ++ [o] }).complete m codeAccepted []))

/-- Extents without their first n bytes. -/
def skipExtents : List Extent → Nat → List Extent
  | [], _ => []
  | (sp, a, k) :: r, n => if n = 0 then (sp, a, k) :: r else if n < k then (sp, a + n, k - n) :: r else skipExtents r (n - k)

/-- Local bytes a, a + 1, … n of them, moved out access unit by access unit; the bytes of failed units are not written. The
first argument bounds the number of units. -/
def State.moveOut (f : Fn) : Nat → State → List Extent → Nat → Nat → State
  | 0, s, _, _, _ => s
  | fuel + 1, s, es, a, n =>
    if n = 0 then s
    else
      let k := min n (accessSize a - a % accessSize a)
      let s := if s.failedAt a then s
        else ((s.writeOut es (Mem.readN s.mem a k)).countBytes 4 f a k false).addBytes 4 f bytesCxlOut k
      State.moveOut f fuel s (skipExtents es k) (a + k) (n - k)

/-- Whether some byte of a range cannot be read, looking once in each 64-byte unit. -/
def State.rangeFailed (s : State) (a n : Nat) : Bool :=
  (List.range (n / 64 + 1)).any (fun i => s.failedAt (min (a + 64 * i) (a + n - 1)))

/-- MEM_TRANSFER_DONE: the bytes are moved and OP_DONE is posted with OK, DESCRIPTOR or DATA_LOST. data is what the host memory
held; refused: the host's IOMMU refused an extent. A transfer from a failed region with a recovery waits for it (R293). -/
def execMemTransferDone (fn : Fn) (seq : Nat) (data : List Byte) (refused : Bool) (s : State) : Host.Outcome State Fault Refusal :=
  if s.keeper.kbusy then .next (s.owe (.memTransferDone fn seq data refused)) else
  .next (match s.keeper.ops.find? (fun o => o.kind == .transfer && o.fn == fn && o.seq == seq) with
    | none => s
    | some o =>
      let n := fieldAt o.payload 16 8
      if refused then s.opDone o codeDescriptor
      else if fieldAt o.payload 24 1 = 0 && s.windowLost o.extents then s.opDone o codeDataLost
      else if fieldAt o.payload 24 1 = 0 then
        (((s.setMem (Mem.writeN s.mem o.base (data.take n))).countBytes 4 fn o.base n true).addBytes 4 fn bytesCxlIn n).opDone o codeOk
      else if n = 0 || !s.rangeFailed o.base n then
        (((s.writeOut o.extents (Mem.readN s.mem o.base n)).countBytes 4 fn o.base n false).addBytes 4 fn bytesCxlOut n).opDone o codeOk
      else if s.classAt o.base = 5 then (State.moveOut fn (n / 64 + 2) s o.extents o.base n).opDone o codeDataLost
      else s)

/-! ### Carriers (R284, R358, R466) -/

/-- Whether a command R345 names is in progress. -/
def State.excluded (s : State) : Bool :=
  s.keeper.ops.any (fun o => match o.kind with | .pairLoad => true | .pairUnload => true | .evacuate _ => true | _ => false)

/-- Whether a logical extent is allocated. -/
def State.extentHeld (s : State) (e : Nat) : Bool := decide (bytesWithin s.held (farBase + e * 2 ^ 30) (farBase + (e + 1) * 2 ^ 30) ≠ 0)

/-- The allocated logical extents on a carrier, and the free ones on the others in service. -/
def State.heldOn (s : State) (c : Nat) : List Nat :=
  (List.range 2048).filter (fun e => s.physExtent e / 512 == c && s.extentHeld e)
def State.freeElsewhere (s : State) (c : Nat) : List Nat :=
  (List.range 2048).filter (fun e => s.physExtent e / 512 != c && s.carrierServes (s.physExtent e / 512) && !s.extentHeld e)

/-- CARRIER_EVACUATE. A carrier that is not in service has nothing to empty: STATE. -/
def execCarrierEvacuate (m : MCmd) (s : State) : Host.Outcome State Fault Refusal :=
  let p := m.payload
  .next (s.intake (.carrierEvacuate m) m 0x403 true (lenIs m 8 0) (fun s =>
    let c := fieldAt p 0 1
    if s.excluded then s.complete m codeRefused []
    else if !reservedZero p 8 [(0, 1)] || decide (c > 3) then s.complete m codeField []
    else if !s.carrierServes c then s.complete m codeState []
    else if (s.freeElsewhere c).length < (s.heldOn c).length then s.complete m codeCapacity []
    else (s.setCarrier c { s.carrier c with evacuating := true }).accept m (.evacuate c) 0x403))

/-- EXTENT_SWITCH (event 4 of R284): an allocated logical extent takes the lowest free physical extent of another carrier, and
the free logical extent that had it takes the old one. -/
def execExtentSwitch (carrier : Fin 4) (extent : Nat) (s : State) : Host.Outcome State Fault Refusal :=
  if s.keeper.kbusy then .next (s.owe (.extentSwitch carrier extent)) else
  .next (if (s.carrier carrier).evacuating && (s.heldOn carrier).contains extent then
      match s.freeElsewhere carrier with
      | [] => s
      | e :: r =>
        let best := r.foldl (fun b x => if s.physExtent x < s.physExtent b then x else b) e
        let map := (s.tier.farMap.set extent (s.physExtent best)).set best (s.physExtent extent)
        s.setTier { s.tier with farMap := map }
    else s)

/-- CARRIER_RELEASED (events 5 and 6 of R284), once no allocated extent is left on the carrier: its arbiter is frozen, and with DRAINED at
1 it is powered off. While a grant is held it stays frozen, and the release follows after the owner's break point. -/
def execCarrierReleased (carrier : Fin 4) (s : State) : Host.Outcome State Fault Refusal :=
  if s.keeper.kbusy then .next (s.owe (.carrierReleased carrier)) else
  .next (if (s.carrier carrier).evacuating && (s.heldOn carrier).isEmpty then
      let s := s.freezeArb (32 + carrier.val) true
      if (s.arbAt (32 + carrier.val)).held then s
      else
        let s := s.setCarrier carrier { s.carrier carrier with evacuating := false, powered := false }
        let s := s.healthEvent 0x105 0xFF carrier 0 0
        match s.findOp (.evacuate carrier) with
        | none => s
        | some o => s.opDone o codeOk
    else s)

/-- CARRIER_FITTED (R466): a carrier that was released or lost is lit and trained; the pages that failed its test are retired. -/
def execCarrierFitted (carrier : Fin 4) (retired : List Nat) (s : State) : Host.Outcome State Fault Refusal :=
  let v := s.carrier carrier
  .next (if v.present && v.powered then s
    else
      let s := s.setTier { s.tier with retiredUnits := s.tier.retiredUnits.filter (fun u => tierCode u != 2 || s.carrierOf u != carrier.val) }
      let s := (s.setCarrier carrier {}).freezeArb (32 + carrier.val) false
      let pages := retired.filter (fun a => tierCode a == 2 && s.carrierOf a == carrier.val)
      let s := pages.foldl (fun s a =>
        let had := decide (s.sparesLeft a ≠ 0)
        (s.retireUnit a).retireEvent a (s.retireClass a) false had) s
      s.healthEvent 0x134 0xFF carrier 0 pages.length)

/-- CARRIER_LOST (R466): a carrier removed without evacuation; every unit on it then fails at its next read. -/
def execCarrierLost (carrier : Fin 4) (s : State) : Host.Outcome State Fault Refusal :=
  let v := s.carrier carrier
  .next (if !v.present then s
    else
      let hit := List.filter (fun e => e.2.tier == 1 &&
        (List.range 2048).any (fun x => s.physExtent x / 512 == carrier.val &&
          decide (bytesWithin [(e.2.base, e.2.length)] (farBase + x * 2 ^ 30) (farBase + (x + 1) * 2 ^ 30) ≠ 0))) s.tier.regions
      let s := match s.findOp (.evacuate carrier) with
        | none => s
        | some o => s.opDone o codeState
      (s.setCarrier carrier { v with present := false, powered := false, evacuating := false }).healthEvent 0x135 0xFF carrier 0 hit.length)

/-- CXLMEM_WINDOW (R358). -/
def execCxlmemWindow (m : MCmd) (s : State) : Host.Outcome State Fault Refusal :=
  let p := m.payload
  .next (s.intake (.cxlmemWindow m) m 0x404 true (lenIs m 8 0) (fun s =>
    let b := fieldAt p 0 4
    let n := fieldAt p 4 4
    let without := s.setTier { s.tier with windowBase := 0, windowSize := 0 }
    if s.excluded then s.complete m codeRefused []
    else if s.pair.state ≠ .empty then s.complete m codeState []
    else if decide (b > 2047) || decide (n > 1024) || decide (b + n > 2048) then s.complete m codeField []
    else if (List.range n).any (fun i => without.extentHeld (b + i)) then s.complete m codeCapacity []
    else (s.setTier { s.tier with windowBase := b, windowSize := n }).complete m codeOk []))

/-- Bytes that a host read returns: those of failed access units are free values (log entry 3). -/
def State.hostRead (s : State) (a n : Nat) : List Byte :=
  (List.range n).map (fun i => if s.failedAt (a + i) then Config.freeByte s.fresh i else Mem.read s.mem (a + i))

/-- CXLMEM_ACCESS (R283): a host access inside the window reaches the far tier; a read's length is that of data. Outside the
window the module exposes no host-managed memory, and the manual gives no effect. -/
def execCxlmemAccess (write : Bool) (offset : Nat) (data : List Byte) (s : State) : Host.Outcome State Fault Refusal :=
  let a := farBase + s.tier.windowBase * 2 ^ 30 + offset
  if s.tier.windowSize * 2 ^ 30 < offset + data.length || data.isEmpty then .fault (.outsideCxlWindow offset)
  else if write then .next (s.setMem (Mem.writeN s.mem a data))
  else if (s.failedIn [(a, data.length)]).isEmpty then .next (s.send (.cxlData (Mem.readN s.mem a data.length)))
  else .next (s.send (.cxlData (s.hostRead a data.length))).useFree

/-! ### Re-reading, retirement and recovery (R287 to R293) -/

/-- A transient failure of a unit is counted; the third, or a first that finds the table of 192 units full, sends the unit to
retirement, which the Keeper owes from then on through any reset of it (R291). -/
def State.countTransient (s : State) (a : Nat) : State :=
  let u := unitOf a
  let ts := s.health.transients
  match ts.find? (fun x => x.addr == u) with
  | some x =>
    if x.count ≥ 2 then
      (s.setHealth { s.health with transients := ts.filter (fun y => y.addr != u) }).setTier { s.tier with toRetire := unionNat [u] s.tier.toRetire }
    else s.setHealth { s.health with transients := ts.map (fun y => if y.addr == u then { y with count := y.count + 1 } else y) }
  | none =>
    if ts.length ≥ 192 then s.setTier { s.tier with toRetire := unionNat [u] s.tier.toRetire }
    else s.setHealth { s.health with transients := ts ++ [{ tier := tierCode a, addr := u, count := 1 }] }

/-- REREAD (R287): failures of the three re-reads. With all three failed the failure is persistent; a class X reader other than a
copy, whose own row reports it, completes with DATA (R293). -/
def execReread (reader : Src) (e : EngRef) (addr : Nat) (failures : Nat) (s : State) : Host.Outcome State Fault Refusal :=
  .next (if !localOk addr 1 then s
    else if failures < 3 then s.countTransient addr
    else
      let s := s.declareFailure reader addr
      if s.classAt addr = 5 && e.kind != 7 then s.programFault reader 0x0A (if e.kind = 10 then 0xFF else e.tile.val) e.kind e.num else s)

/-- The bytes of the failed access units written through the new mapping, in address order. -/
def writeAccesses (m : Mem) : List Nat → List Byte → Mem
  | [], _ => m
  | a :: r, bs =>
    let n := accessSize a
    writeAccesses (m.writeN a ((bs ++ List.replicate n 0).take n)) r (bs.drop n)

/-- The requests that own a KV page covering an address. -/
def State.pageOwners (s : State) (a : Nat) : List Nat :=
  (s.serve.pages.filter (fun e => e.2.valid && decide (e.2.addr / 4096 * 4096 ≤ a) &&
    (s.serve.pages.all (fun x => !x.2.valid || decide (x.2.addr ≤ e.2.addr) || decide (a < x.2.addr))))).map (fun e => e.2.req)

/-- The segment of a program that saves a tensor to a plan's region, and the commands to run again: its own, after those of the segments
before it as long as a segment's saved input has failed too (R194). -/
def State.redoCmds (s : State) (p : Prog) : List Segment → List (Nat × Nat)
  | [] => []
  | x :: before =>
    let lost := match x.input.bind (fun i => p.regions[i]?.bind (fun k => s.tier.regions.find? k)) with
      | some r => !(s.failedIn [(r.base, r.length)]).isEmpty
      | none => false
    (if lost then State.redoCmds s p before else []) ++ x.cmds

/-- The program, and the commands that recompute what lies at an address of class A; none where no segment is declared for it. -/
def State.recompute (s : State) (a : Nat) : Option (Nat × Prog × List (Nat × Nat)) :=
  match s.regionAt a with
  | none => none
  | some (k, r) =>
    match s.progAt r.prog with
    | none => none
    | some p =>
      let n := p.regions.findIdx (fun x => x == k)
      let upto := (p.img.segments.reverse).dropWhile (fun x => !x.saves.contains n)
      if r.cls != 1 || upto.isEmpty then none else some (r.prog, p, s.redoCmds p upto)

/-- Class A: the unit is retired and its segment's commands run again; with the last of them its waiters go on and MEM_RETIRED is posted. -/
def State.recoverA (s : State) (f : FailedUnit) (h : Nat) (p : Prog) (cmds : List (Nat × Nat)) : State :=
  let u := f.unit
  if !f.rerun then
    let s := s.retireUnit u
    let s := s.setProg { s.prog with progs := s.prog.progs.set h { p with redo := p.redo ++ cmds } }
    s.setTier { s.tier with failed := s.tier.failed.map (fun x => if x.unit == u then { x with rerun := true, accesses := [] } else x) }
  else if !p.redo.isEmpty then s
  else (s.setTier { s.tier with failed := s.tier.failed.filter (fun x => x.unit != u) }).retireEvent u (s.retireClass u) false (decide (s.sparesLeft u ≠ 0))

/-- An output that was marked failed is recovered by the class of its region (R108, R113, R293). -/
def State.recoverOut (s : State) (a : Nat) (data : List Byte) : State :=
  if s.tier.failedOut.contains (accessOf a) && s.classAt a != 5 then
    let n := accessSize a
    (s.setMem (Mem.writeN s.mem (accessOf a) ((data ++ List.replicate n 0).take n))).clearFailed [(accessOf a, n)]
  else s

/-- PERSISTENT_FAILURE_RECOVERY (events 4 to 7 of R289): the unit is retired, its failed access units take the recovered data,
or zero in class X (R290), waiters go on, and MEM_RETIRED is posted. In class A the segment's forward runs again (R194). sourceFailed: the recovery source has failed too; classes A and T
are then recovered another way (R293), and in the others the units' contents are free values (log entry 3). -/
def execPersistentFailureRecovery (addr : Nat) (data : List Byte) (sourceFailed : Bool) (s : State) : Host.Outcome State Fault Refusal :=
  if s.keeper.kbusy then .next (s.owe (.persistentFailureRecovery addr data sourceFailed)) else
  let u := unitOf addr
  .next (match s.tier.failed.find? (fun f => f.unit == u) with
    | none => s.recoverOut addr data
    | some f =>
      match s.recompute u with
      | some (h, p, cmds) => s.recoverA f h p cmds
      | none =>
      let cls := s.classAt u
      let code := s.retireClass u
      let had := decide (s.sparesLeft u ≠ 0)
      let off := match s.progAt s.run.prog with
        | some p => !p.img.mirroring
        | none => false
      let dead := (sourceFailed && (cls == 0 || cls == 2 || cls == 3)) || (cls == 2 && off)
      let s := s.retireUnit u
      let lost := (List.range (f.accesses.length * accessSize u)).map (Config.freeByte s.fresh)
      let s := s.setMem (writeAccesses s.mem f.accesses (if cls = 5 then [] else if dead then lost else data))
      let s := if cls != 5 && dead then s.useFree else s
      let s := s.setTier { s.tier with failed := s.tier.failed.filter (fun x => x.unit != u) }
      let tile := if tierCode u = 2 then 0xFF else tileOf u
      let s := if !dead then s
        else match cls with
          | 0 => (s.healthEvent 0x10C tile 0 u 1).stopRun .health
          | 2 => (s.healthEvent 0x10B tile 0 u 1).stopRun .health
          | 3 => (s.pageOwners u).foldl (fun s i =>
              match s.req? i with
              | none => s
              | some q => s.setGroup q.group { s.group q.group with badReqs := unionNat [i] (s.group q.group).badReqs }) s
          | _ => s
      s.retireEvent u code false had)

/-- TRANSIENT_RETIRE (R291): the unit's data is good and is copied to the spare. -/
def execTransientRetire (addr : Nat) (s : State) : Host.Outcome State Fault Refusal :=
  if s.keeper.kbusy then .next (s.owe (.transientRetire addr)) else
  let u := unitOf addr
  .next (if s.tier.toRetire.contains u then
      let had := decide (s.sparesLeft u ≠ 0)
      let s := s.setTier { s.tier with toRetire := s.tier.toRetire.filter (fun x => x != u) }
      (s.retireUnit u).retireEvent u (s.retireClass u) true had
    else s)

/-- A region-table or far-map entry failed its parity: the Keeper rebuilds it from its own copy, which holds the same entry, and posts
TABLE_REBUILT with the table and the entry (DESIGN CHOICE, log entry 69). -/
def State.tableRebuilt (s : State) (x : HubTable × Nat) : State :=
  s.healthEvent 0x10D 0xFF (match x.1 with | .region => 0 | .farMap => 1) x.2 1

/-- BRIDGE_FLIT_CRC_FAIL (R288): resends counted; a flit that fails all three stops the bridge and, with it, the run. The event also
carries the hub-table entries that failed their parity. -/
def execBridgeFlitCrcFail (t : TileIx) (resends : Nat) (fault : BridgeFault) (s : State) : Host.Outcome State Fault Refusal :=
  let s := fault.entries.foldl (fun s x => s.tableRebuilt x) s
  let s := s.setHealth { s.health with resends := s.health.resends.upd 0 t (fun n => satAdd64 n resends) }
  .next (if fault.stops then
      let s := s.setHealth { s.health with badTiles := unionNat [t.val] s.health.badTiles }
      (s.healthEvent 0x106 t 0 0 1).stopRun .health
    else s)

end Sys2Proof.Machine
end

