-- ==== Sys2Proof/Machine/Power.lean ====
section
/-! DEFINITION. Power inputs, regulator phases, tile voltage and temperature (R423 to R433, R475, R483), the characteristic
start (R434 to R438), the beacon pins (R442) and the resets (R446). -/
namespace Sys2Proof.Machine

/-! ### Rates (R430, R431) -/

/-- The table of R430, in M wf/s, by row (0.65 V, 0.70 V, …) and column. -/
def rateRow (row : Nat) : Nat × Nat × Nat :=
  match row with
  | 0 => (1420, 1340, 1250)
  | 1 => (1580, 1480, 1380)
  | 2 => (1710, 1600, 1490)
  | 3 => (1840, 1720, 1600)
  | _ => (1950, 1830, 1710)

/-- The guaranteed rate at a setting code (0.60 V + code × 10 mV) and a junction temperature: the row at or below, the column at
or above. -/
def rateEntry (vset tj : Nat) : Nat :=
  let r := rateRow (min 4 ((vset - 5) / 5))
  if tj ≤ 40 then r.1 else if tj ≤ 70 then r.2.1 else r.2.2

/-- The setting whose entry is in force: the new one from the moment a lowering begins, the old one until a raised rail has settled
(R431). -/
def TilePwr.inForce (x : TilePwr) : Nat := if x.vset = x.target then x.target else min x.held x.target

/-- The setting and the rate in force. -/
def TilePwr.settle (x : TilePwr) : TilePwr := { x with held := x.inForce, rate := rateEntry x.inForce x.tj }

/-- The slowest tile's rate, in M wf/s (R377, R430). -/
def State.slowest (s : State) : Nat := ((List.range 4).map (fun t => rateEntry (s.tilePwr t).inForce (s.tilePwr t).tj)).foldl min 1950

/-- A worst case in wavefronts as FP32 microseconds at the slowest tile's corner (R5, R377). -/
def State.microseconds (s : State) (wf : Nat) : Word := toFP32 (FVal.div (.ofNat wf) (.ofNat s.slowest))

/-- Bound of a setting on a tile: 0.65 V on a tile whose rail is limited (R428, R429). -/
def State.boundSetting (s : State) (t v : Nat) : Nat := if s.pwr.limited.contains t then 5 else max 5 (min 25 v)

/-- The target setting of a tile. -/
def State.aim (s : State) (t v : Nat) : State :=
  s.setTilePwr t { s.tilePwr t with target := s.boundSetting t v }.settle

/-- JUNCTION_TEMPERATURE_CHANGE: a tile's measured temperature, and the setting the Keeper chooses for it (R429; log entry 1). -/
def execJunctionTemperatureChange (t : TileIx) (temp setting : Nat) (s : State) : Host.Outcome State Fault Refusal :=
  .next (if (s.tilePwr t).lit then (s.setTilePwr t { s.tilePwr t with tj := temp }).aim t setting else s)

/-- Whether a tile's setting lies within 0.10 V of every other lit tile's (R429). -/
def State.inStep (s : State) (t v : Nat) : Bool :=
  (List.range 4).all (fun u => u == t || !(s.tilePwr u).lit || (decide (v ≤ (s.tilePwr u).vset + 10) && decide ((s.tilePwr u).vset ≤ v + 10)))

/-- VOLTAGE_STEP: one step of 10 mV toward the target, unless it would break the 0.10 V limit (R431). -/
def execVoltageStep (t : TileIx) (s : State) : Host.Outcome State Fault Refusal :=
  let x := s.tilePwr t
  let v := if x.vset < x.target then x.vset + 1 else x.vset - 1
  .next (if x.lit && x.vset != x.target && s.inStep t v then s.setTilePwr t { x with vset := v }.settle else s)

/-- POWER_CAP: the Keeper lowers settings to hold 1,600 W (R429). -/
def execPowerCap (watts : Nat) (settings : List Nat) (s : State) : Host.Outcome State Fault Refusal :=
  .next (if s.ramped && 1600 < watts then
      let s := (List.range 4).foldl (fun s t => s.aim t (min (s.tilePwr t).target (settings.getD t 0))) s
      s.healthEvent 0x124 0xFF 0 0 watts
    else s)

/-- The hottest of four temperatures: the lowest tile among equals. -/
def hottest (temps : List Nat) : Nat :=
  (List.range 4).foldl (fun b t => if temps.getD b 0 < temps.getD t 0 then t else b) 0

/-- THERMAL_SPREAD: temperatures that have differed by more than 30 °C for 1 s (R432). -/
def execThermalSpread (temps : List Nat) (s : State) : Host.Outcome State Fault Refusal :=
  let spread := (temps.foldl max 0) - (temps.foldl min 1000)
  .next (if s.ramped && 30 < spread then
      let s := (List.range 4).foldl (fun s t => s.setTilePwr t { s.tilePwr t with tj := temps.getD t 0 }.settle) s
      let low := (List.range 4).foldl (fun v t => min v (s.tilePwr t).vset) 25
      let s := (List.range 4).foldl (fun s t => s.aim t low) s
      let s := s.healthEvent 0x125 0xFF (hottest temps) 0 spread
      if 40 < spread then s.stopRun .health else s
    else s)

/-- THERMAL_HOLD: a junction above 105 °C holds its tile (R433). -/
def execThermalHold (t : TileIx) (temp : Nat) (s : State) : Host.Outcome State Fault Refusal :=
  let x := s.tilePwr t
  .next (if x.lit && !x.hold && 105 < temp then
      s.setTilePwr t { x with tj := temp, hold := true, holdFrom := s.watch t }.settle
    else s)

/-- THERMAL_HOLD with its duration. -/
def State.postHold (s : State) (t : Nat) : State := s.healthEvent 0x126 t t 0 (s.watch t - (s.tilePwr t).holdFrom)

/-- THERMAL_HOLD_RELEASE: the junction has fallen to 100 °C; the event carries the hold's duration (R433, R447). -/
def execThermalHoldRelease (t : TileIx) (temp : Nat) (s : State) : Host.Outcome State Fault Refusal :=
  let x := s.tilePwr t
  .next (if x.hold && temp ≤ 100 then (s.postHold t).setTilePwr t { x with tj := temp, hold := false }.settle else s)

/-! ### Regulator phases (R427, R428, R465) -/

/-- Phases fitted on a rail, the spare included (R427). -/
def phasesOf (rail : Nat) : Nat :=
  if rail < 4 then 11 else match rail with | 4 => 4 | 5 => 6 | 10 => 5 | 11 => 2 | _ => 3

/-- The tile byte of a rail's event: the tile of a core rail (log entry 30). -/
def railTile (rail : Nat) : Nat := if rail < 4 then rail else 0xFF

/-- Phases lost on a rail. -/
def State.phasesLost (s : State) (rail : Nat) : Nat := s.pwr.phases.get 0 rail

/-- A phase leaves its rail. -/
def State.shedPhase (s : State) (rail phase : Nat) : State :=
  s.setPwr { s.pwr with phases := s.pwr.phases.upd 0 rail (· + 1), phaseOut := insertNat (rail * 16 + phase) s.pwr.phaseOut }

/-- Galleries 5 to 9 of a tile are gated (R428). -/
def State.gateUpper (s : State) (t : Nat) : State :=
  ([5, 6, 7, 8, 9] : List Nat).foldl (fun s g => s.setGallery t g { s.gallery t g with gated := true }) s

/-- RAIL_LIMITED: the second phase of a rail is lost. -/
def State.limitRail (s : State) (rail : Nat) : State :=
  let s := s.setPwr { s.pwr with limited := insertNat rail s.pwr.limited }
  let s := s.healthEvent 0x123 (railTile rail) rail 0 (s.phasesLost rail)
  if rail < 4 then (s.aim rail 5).gateUpper rail else s.stopRun .health

/-- PHASE_FAILED (R428). -/
def execPhaseFailed (rail phase : Nat) (s : State) : Host.Outcome State Fault Refusal :=
  .next (if s.pwr.hubLit && rail ≤ 11 && phase < phasesOf rail && !s.pwr.phaseOut.contains (rail * 16 + phase) then
      let s := s.shedPhase rail phase
      let n := s.phasesLost rail
      let s := s.healthEvent 0x122 (railTile rail) (rail * 16 + phase) 0 n
      if n = 2 then s.limitRail rail else s
    else s)

/-- PHASE_FITTED: the phase joins its rail, and PART_REPLACED is posted (R465). -/
def execPhaseFitted (rail phase : Nat) (s : State) : Host.Outcome State Fault Refusal :=
  let k := rail * 16 + phase
  .next (if s.pwr.hubLit && s.pwr.phaseOut.contains k then
      let n := s.phasesLost rail - 1
      let s := s.setPwr { s.pwr with phases := s.pwr.phases.set rail n, phaseOut := s.pwr.phaseOut.filter (fun x => x != k) }
      let s := if n < 2 then s.setPwr { s.pwr with limited := s.pwr.limited.filter (fun r => r != rail) } else s
      s.healthEvent 0x133 0xFF (256 + k) 0 0
    else s)

/-! ### Inputs (R424 to R426, R475, R483) -/

/-- An input's state code (R445). -/
def InState.code : InState → Nat
  | .ok => 0
  | .open_ => 1
  | .under => 2
  | .over => 3
  | .reversed => 4
  | .short => 5
def InState.ofCode : Nat → InState
  | 0 => .ok
  | 2 => .under
  | 3 => .over
  | 4 => .reversed
  | 5 => .short
  | _ => .open_

def State.input (s : State) (i : Nat) : Input := s.pwr.inputs.get {} i
def State.setInput (s : State) (i : Nat) (v : Input) : State := s.setPwr { s.pwr with inputs := s.pwr.inputs.set i v }

/-- Whether some input is in state OK. -/
def State.fed (s : State) : Bool := (s.input 0).state == .ok || (s.input 1).state == .ok

/-- An input leaves OK, or goes from one fault to another. Leaving OK is counted and posts INPUT_FAULT; passing through OPEN
ends a latched short. -/
def State.inputOut (s : State) (i : Nat) (st : InState) (dv : Nat) : State :=
  let x := s.input i
  let clear := st == .open_
  let y := { x with state := st, deciVolts := dv, retries := if clear then 0 else x.retries, latchedOff := x.latchedOff && !clear }
  if x.state = .ok then
    let s := s.setInput i { y with faults := x.faults + 1 }
    if s.pwr.hubLit then s.healthEvent 0x120 0xFF i 0 st.code else s
  else s.setInput i y

/-- An input is OK again. -/
def State.inputBack (s : State) (i dv : Nat) : State :=
  let s := s.setInput i { s.input i with state := .ok, deciVolts := dv, retries := 0 }
  if s.pwr.hubLit then s.healthEvent 0x121 0xFF i 0 0 else s

/-- INPUT_FAULT: the protection stage isolates an input that has left OK (R424). -/
def execInputFault (input : Fin 2) (code deciVolts : Nat) (s : State) : Host.Outcome State Fault Refusal :=
  .next (if 1 ≤ code && code ≤ 5 && InState.ofCode code != (s.input input).state then
      s.inputOut input (InState.ofCode code) deciVolts else s)

/-- INPUT_RESTORED: the OK condition has been met for 10 ms (R424). -/
def execInputRestored (input : Fin 2) (deciVolts : Nat) (s : State) : Host.Outcome State Fault Refusal :=
  let x := s.input input
  .next (if x.state != .ok && !x.latchedOff && 400 ≤ deciVolts && deciVolts ≤ 600 then s.inputBack input deciVolts else s)

/-- SHORT_RETRY: a shorted input is retried after 1 s; after the eighth failure it is held isolated (R424). -/
def execShortRetry (input : Fin 2) (ok : Bool) (s : State) : Host.Outcome State Fault Refusal :=
  let x := s.input input
  .next (if x.state == .short && !x.latchedOff then
      if ok then s.inputBack input x.deciVolts
      else s.setInput input { x with retries := x.retries + 1, latchedOff := decide (8 ≤ x.retries + 1) }
    else s)

/-- INPUT_SENSE_OPEN: the input is isolated before its blades part (R475). Its state then reads OPEN (log entry 30). -/
def execInputSenseOpen (input : Fin 2) (s : State) : Host.Outcome State Fault Refusal :=
  .next (if (s.input input).state == .open_ then s else s.inputOut input .open_ (s.input input).deciVolts)

/-! ### What the resets clear (R446) -/

/-- A physical array's retirement and mismatches, which the health record keeps (R468). -/
def ArrPart.kept (a : ArrPart) : ArrPart :=
  { map := a.map,
    arrays := a.arrays.map (fun e => (e.1, { retiring := e.2.retiring, retired := e.2.retired, mismatches := e.2.mismatches, kept := e.2.kept })) }

/-- Memory without a range. -/
def Mem.without (m : Mem) (lo hi : Nat) : Mem := List.filter (fun (c : Host.Cell) => decide (c.1 < lo) || decide (hi ≤ c.1)) m

/-- The engines at reset: accumulators and scratchpads zero, registers at reset values (R434 event 9). -/
def State.clearEngines (s : State) : State :=
  let s := s.setArr s.arr.kept
  let s := (s.setTgt []).setEng {}
  let s := (s.setArb []).setMem (Mem.without s.mem 0x40000000000 0x40040000000)
  s.setServe { s.serve with samp := [] }

/-- The Keeper, mailboxes, pairing, programs and accounting cleared; regions are gone, the far map, carriers and retired units
stay. -/
def State.clearKeeper (s : State) : State :=
  let s := ((s.setKeeper {}).setPair {}).setProg {}
  let s := ((s.setRun {}).setLead {}).setServe {}
  let s := s.setSched {}
  let t := s.tier
  let carriers := t.carriers.map (fun e => (e.1, { e.2 with evacuating := false }))
  let s := s.setTier { t with regions := [], windowBase := 0, windowSize := 0, failed := [], failedOut := [], carriers := carriers }
  let s := s.setSec { s.sec with sessions := [], negotiated := false, ideIo := {}, ideCm := {} }
  s.setFnp { numVfs := s.fnp.numVfs, fns := s.fnp.fns.map (fun e => (e.1, { d3hot := e.2.d3hot, msix := e.2.msix, fmask := e.2.fmask })), since := s.watch 4 }

/-- The CXL configuration cleared: no virtual functions, MSI-X tables at reset. -/
def State.clearConfig (s : State) : State := s.setFnp { s.fnp with numVfs := 0, fns := [] }

/-- Links down, fog forgotten, no table in force. -/
def State.clearLinks (s : State) : State := s.setLink { lasers := s.link.lasers.map (fun e => (e.1, { e.2 with full := false })) }

/-- The 4,160 bytes of the one-module table (R408, R410). Its TGEN is 0 (log entry 30). -/
def oneModuleRaw : List Byte :=
  let head := leBytes 4 0x4C4B5354 ++ leBytes 2 1 ++ [1, 1, 1, 1, 1, 0] ++ leBytes 4 100 ++ List.replicate 44 0
  let body := leBytes 4 0x80000000 ++ List.replicate 4092 0
  head ++ leBytes 4 (crc32c (head ++ leBytes 4 0 ++ body)) ++ body

def oneModule : SizeTable :=
  { nx := 1, ny := 1, nz := 1, sspan := 1, lspan := 1, fogwin := 100, tgen := 0, present := [(0, 0)], raw := oneModuleRaw }

/-- The one-module table at position 0 or without a position, none elsewhere (R410, R439). -/
def State.startTable (s : State) : State := s.setLink { s.link with table := if s.pwr.position = 0 then some oneModule else none }

/-- Everything off (R426): the health record, the fused counter and the firmware slots stay, with the hardware's faults. -/
def State.powerDown (s : State) : State :=
  let s := s.clearEngines.clearKeeper.clearConfig.clearLinks
  let s := s.setMem []
  let c := s.tier
  let carriers := c.carriers.map (fun e => (e.1, { present := e.2.present, powered := e.2.present, spares := e.2.spares }))
  let s := s.setTier { spareWords := c.spareWords, spareRows := c.spareRows, retiredUnits := c.retiredUnits, lostPages := c.lostPages, carriers := carriers }
  let p := s.pwr
  s.setPwr { inputs := p.inputs, phases := p.phases, phaseOut := p.phaseOut, limited := p.limited, hot := p.hot }

/-- POWER_LOSS: with both inputs out of OK the module stops (R426). -/
def execPowerLoss (s : State) : Host.Outcome State Fault Refusal :=
  .next (if s.pwr.hubLit && !s.fed then s.powerDown else s)

/-- HUB_OVERTEMP: both inputs are isolated, holds are recorded, and the module stops (R483). The isolated inputs read OPEN (log
entry 30). -/
def execHubOvertemp (s : State) : Host.Outcome State Fault Refusal :=
  .next (if s.pwr.hubLit then
      let s := ((List.range 4).filter (fun t => (s.tilePwr t).hold)).foldl (fun s t => s.postHold t) s
      let s := s.powerDown
      let s := s.setPwr { s.pwr with hot := true }
      (s.setInput 0 { s.input 0 with state := .open_ }).setInput 1 { s.input 1 with state := .open_ }
    else s)

/-! ### The start (R434 to R438, R458, R459) -/

/-- A firmware slot. -/
def State.fwSlot (s : State) (i : Bool) : FwSlot := s.sec.slots.get {} (b2n i)
def State.setFwSlot (s : State) (i : Bool) (v : FwSlot) : State := s.setSec { s.sec with slots := s.sec.slots.set (b2n i) v }

/-- The boot code verifies the boot slot, then the other; with neither it opens mailbox 0 in recovery mode (R458, R459). An
input that was not OK at start, and has a voltage to report, is reported now (R426). -/
def State.bootKeeper (s : State) (b : BootCheck) : State :=
  let pass (i : Bool) : Bool := if i then b.slot1 else b.slot0
  let first := s.sec.bootSlot
  let s := s.setFwSlot first { s.fwSlot first with ok := pass first }
  let s := if pass first then s.setKeeper { s.keeper with up := true, slot := first }
    else
      let s := s.setFwSlot (!first) { s.fwSlot (!first) with ok := pass (!first) }
      if pass (!first) then
        let s := (s.setKeeper { s.keeper with up := true, slot := !first }).setSec { s.sec with bootSlot := !first }
        s.healthEvent 0x130 0xFF (b2n (!first)) 0 0
      else s.setKeeper { s.keeper with recovery := true, isOpen := true }
  if s.keeper.recovery then s
  else ([0, 1] : List Nat).foldl (fun s i =>
    let st := (s.input i).state
    if st == .ok || st == .open_ then s else s.healthEvent 0x120 0xFF i 0 st.code) s

/-- MODULE_POWER_ON: events 1 to 3 (R434); after an overheated hub only at or below 90 °C (R483). -/
def execModulePowerOn (hubTemp : Nat) (boot : BootCheck) (s : State) : Host.Outcome State Fault Refusal :=
  .next (if !s.pwr.hubLit && s.fed && !(s.pwr.hot && 90 < hubTemp) then
      let s := s.setPwr { s.pwr with hubLit := true, start := .waitToken, hot := false, watches := s.pwr.watches.set 4 0 }
      (s.setHealth { s.health with powerons := s.health.powerons + 1 }).bootKeeper boot
    else s)

/-- Events 4 to 7: the tiles lit at 0.75 V, the other rails, the token passed, the strap window open. -/
def State.ramp (s : State) : State :=
  let s := (List.range 4).foldl (fun s t =>
    let s := s.setPwr { s.pwr with watches := s.pwr.watches.set t 0 }
    s.setTilePwr t ({ (s.tilePwr t) with lit := true, vset := 15, held := 15, target := s.boundSetting t 15 } : TilePwr).settle) s
  s.setPwr { s.pwr with tokenOut := true, start := .strapWindow, meaning := .strap }

/-- START_TOKEN: TOKEN_IN is taken (R434 event 4, R437). -/
def execStartToken (s : State) : Host.Outcome State Fault Refusal := .next (if s.pwr.start = .waitToken then s.ramp else s)

/-- The fallback delay, in ms (R437). -/
def fallbackDelay : Nat := 10 * (Config.serial.toNat % 256)

/-- TOKEN_FALLBACK: 20 s without a token (R437). -/
def execTokenFallback (s : State) : Host.Outcome State Fault Refusal :=
  .next (if s.pwr.start = .waitToken then
      (s.setPwr { s.pwr with start := .fallback, tokFall := true }).healthEvent 0x129 0xFF 0 0 fallbackDelay
    else s)

/-- FALLBACK_DELAY_EXPIRY: the start proceeds from event 4 (R437). -/
def execFallbackDelayExpiry (s : State) : Host.Outcome State Fault Refusal := .next (if s.pwr.start = .fallback then s.ramp else s)

/-- The level of a strap voltage in mV: 0 to 3, none out of band (R477). -/
def strapLevel (mv : Nat) : Option Nat :=
  if mv < 100 then none else if mv < 400 then some 0 else if mv < 780 then some 1 else if mv < 1180 then some 2
  else if mv < 1600 then some 3 else none

/-- The strap word of eight voltages, a pin out of band reading 0 (log entry 30). -/
def strapWord (mv : List Nat) : Nat := ((List.range 8).map (fun i => (strapLevel (mv.getD i 0)).getD 0 * 4 ^ i)).sum

/-- R438: every pin in band, bit 11 zero, CHECK right, LEAD exactly at position 0. -/
def strapValid (mv : List Nat) : Bool :=
  let w := strapWord mv
  (List.range 8).all (fun i => (strapLevel (mv.getD i 0)).isSome) && !bitOf w 11 &&
    bitsOf w 15 12 == ((List.range 6).map (fun i => (i + 1) * (strapLevel (mv.getD i 0)).getD 0)).sum % 16 &&
    (bitOf w 10 == (bitsOf w 9 0 == 0))

/-- The straps sampled: position and LEAD, or STRAPBAD with STRAP_FAULT and no position, and PINFAULT of the pins out of band (R438, R439,
R443; log entry 30). -/
def State.sampleStraps (s : State) (mv : List Nat) : State :=
  let w := strapWord mv
  if strapValid mv then s.setPwr { s.pwr with strapBad := false, lead := bitOf w 10, position := bitsOf w 9 0 }
  else
    let out := ((List.range 8).filter (fun i => (strapLevel (mv.getD i 0)).isNone)).foldl (fun n i => n + 2 ^ i) 0
    (s.setPwr { s.pwr with strapBad := true, lead := false, position := 0, pinFault := s.pwr.pinFault ||| BitVec.ofNat 8 out }).healthEvent 0x128 0xFF out 0 w

/-- STRAP_SAMPLE (event 8). -/
def execStrapSample (millivolts : List Nat) (s : State) : Host.Outcome State Fault Refusal :=
  .next (if s.pwr.start = .strapWindow then
      let s := s.sampleStraps millivolts
      s.setPwr { s.pwr with start := .strapped }
    else s)

/-- Event 9: engines out of reset, the beacon pins in their operation meaning, the table of R410. -/
def State.releaseReset (s : State) : State :=
  (s.clearEngines.setPwr { s.pwr with start := .released, meaning := .operation }).startTable

/-- MODULE_RESET_RELEASE: once the straps are sampled and the Keeper runs (event 9). -/
def execModuleResetRelease (s : State) : Host.Outcome State Fault Refusal :=
  .next (if s.pwr.start = .strapped && s.keeper.up then s.releaseReset else s)

/-! ### Galleries (R435) -/

/-- Whether a gallery is in service: not on a reduced map (R87, R275, R288, R428). -/
def State.galleryServes (s : State) (t g : Nat) : Bool :=
  !s.health.badGalleries.contains (t * 10 + g) && !s.health.badTiles.contains t && !(s.pwr.limited.contains t && decide (5 ≤ g))

/-- GALLERY_WAKE: a gated gallery wakes; a command's wake is charged to its function as switch time. -/
def execGalleryWake (t : TileIx) (g : Fin 10) (fn : Fn) (wakeTime : Nat) (s : State) : Host.Outcome State Fault Refusal :=
  let y := s.gallery t g
  .next (if s.released && y.gated && !(s.pwr.limited.contains t.val && decide (5 ≤ g.val)) then
      let s := s.setGallery t g { y with gated := false, woken := true }
      s.setFnp { s.fnp with acct := s.fnp.acct.upd {} fn (fun a => { a with switch := satAdd64 a.switch wakeTime }) }
    else s)

/-- GALLERY_GATE: a gallery whose queue has been empty for 10 ms. -/
def execGalleryGate (t : TileIx) (g : Fin 10) (s : State) : Host.Outcome State Fault Refusal :=
  .next (if s.released && (List.range 8).all (fun i => (s.array t (s.phys t (g.val * 8 + i))).waiting.isEmpty) then
      s.setGallery t g { s.gallery t g with gated := true }
    else s)

/-! ### The end of the start -/

/-- Whether every gallery in service has acknowledged its wake (R434 event 10). -/
def State.allWoken (s : State) : Bool :=
  (List.range 40).all (fun k => (s.gallery (k / 10) (k % 10)).woken || !s.galleryServes (k / 10) (k % 10))

/-- BUILT_IN_TEST, once every gallery is awake: residue mismatches per array and the calibration of R274 on the test pairing (event 12, R275). -/
def execBuiltInTest (r : List BistTile) (s : State) : Host.Outcome State Fault Refusal :=
  .next (if s.released && s.keeper.up && !s.keeper.isOpen && s.allWoken then
      let s := r.zipIdx.foldl (fun s (x, t) =>
        if t < 4 then
          let s := (x.mismatches.filter (· < 84)).foldl (fun s p => s.countMismatch t p 1) s
          let h := s.health
          let s := s.setHealth { h with bistProposed := h.bistProposed.set t x.proposed, bistAccepted := h.bistAccepted.set t x.accepted }
          if x.tokensOk then s
          else (s.setHealth { s.health with badTiles := insertNat t s.health.badTiles }).healthEvent 0x10F t t 0 0
        else s) s
      s.setPwr { s.pwr with bistDone := true }
    else s)

/-- The fused counter rises to the running image's SVN; COUNTER_LOW when 8 fuses or fewer are left (R457, R469). -/
def State.raiseCounter (s : State) : State :=
  let svn := (s.fwSlot s.keeper.slot).svn
  if s.sec.counter < svn then
    let n := min 64 svn
    let s := s.setSec { s.sec with counter := n }
    if 64 - n ≤ 8 then s.healthEvent 0x136 0xFF 0 0 (64 - n) else s
  else s

/-- MAILBOXES_OPEN (event 14): KPR_STATUS valid, the boot slot recorded (R458). Events owed since before the Keeper ran are
delivered. -/
def execMailboxesOpen (s : State) : Host.Outcome State Fault Refusal :=
  .next (if s.released && s.keeper.up && !s.keeper.isOpen && s.pwr.bistDone then
      let v := s.fwSlot s.keeper.slot
      let owed := s.keeper.deferred
      let s := s.setKeeper { s.keeper with isOpen := true, fwmaj := v.maj, fwmin := v.min, deferred := [] }
      let s := (s.setSec { s.sec with bootSlot := s.keeper.slot }).setPwr { s.pwr with start := .opened }
      (owed.foldl (fun s e => s.deliver e.fn e) s).raiseCounter
    else s)

/-! ### Beacon pins (R442, R443) -/

/-- MEANING of R443. -/
def BcnMeaning.code : BcnMeaning → Nat
  | .ramp => 0
  | .strap => 1
  | .operation => 2

/-- PWR_BCN_STATUS as it reads. -/
def State.bcnStatus (s : State) : Nat :=
  let p := s.pwr
  p.meaning.code * 2 ^ 30 + b2n p.strapBad * 2 ^ 29 + b2n p.tokFall * 2 ^ 28 + p.pinFault.toNat * 2 ^ 20 + b2n p.fdis * 2 ^ 19 +
    b2n p.cdis * 2 ^ 18 + b2n p.lead * 2 ^ 10 + p.position

/-- A pin is flagged; the first flag posts BEACON_FAULT. -/
def State.flagPin (s : State) (pin : Nat) : State :=
  if s.pwr.pinFault.getLsbD pin then s
  else
    let s := s.setPwr { s.pwr with pinFault := s.pwr.pinFault ||| BitVec.ofNat 8 (2 ^ pin) }
    s.healthEvent 0x127 0xFF pin 0 s.bcnStatus

/-- BEACON_PIN_FAULT: a pin that stays low, does not follow its drive or is driven from outside; swapped pins take both copies of
their pair out of use. One FAULT copy that stays low or does not follow disagrees with the other (FDIS; DEDUCED, log entry 30). -/
def execBeaconPinFault (pin : Fin 8) (swapped : Bool) (s : State) : Host.Outcome State Fault Refusal :=
  .next (if !s.pwr.hubLit then s
    else if swapped && pin.val < 4 then (s.flagPin (pin.val / 2 * 2)).flagPin (pin.val / 2 * 2 + 1)
    else
      let s := if !swapped && pin.val < 2 then s.setPwr { s.pwr with fdis := true } else s
      s.flagPin pin)

/-! ### Resets (R446) -/

/-- What a host reset and a module hot reset share: everything of the Keeper and the engines cleared, contents kept but
unallocated, links down, the Keeper booted. With the rails lit the engines leave reset at once, and no built-in test comes
between (log entry 31). -/
def State.warmReset (s : State) (boot : BootCheck) : State :=
  let s := (s.clearEngines.clearKeeper.clearLinks).bootKeeper boot
  match s.pwr.start with
  | .strapped | .released | .opened =>
    let s := s.setPwr { s.pwr with start := .strapped, bistDone := true }
    if s.keeper.up then s.releaseReset else s
  | _ => s

/-- HOST_RESET: a conventional reset, PERST# or a reset of the physical function; the straps are sampled again (R446, R471). -/
def execHostReset (millivolts : List Nat) (boot : BootCheck) (s : State) : Host.Outcome State Fault Refusal :=
  .next (if !s.pwr.hubLit then s
    else
      let s := s.clearConfig.warmReset boot
      match s.pwr.start with
      | .strapped => s.sampleStraps millivolts
      | .released => (s.sampleStraps millivolts).startTable
      | _ => s)

/-- PWR_HOTRESET: the key starts a module hot reset, which keeps the straps and the CXL configuration (R444, R446, R447). -/
def execPwrHotreset (fn : Fn) (value : Word) (boot : BootCheck) (s : State) : Host.Outcome State Fault Refusal :=
  .next (if s.pwr.hubLit && fn.val = 0 && value = 0x4C4B4854 then
      let overrode := List.any s.fnp.fns (fun e => e.2.resetting)
      let s := s.warmReset boot
      if s.keeper.up then s.healthEvent 0x12A 0xFF 0 0 (b2n overrode) else s
    else s)

/-- Whether a program runs on a tile. -/
def State.tileBusy (s : State) (t : Nat) : Bool :=
  List.any s.prog.progs (fun e => e.2.state == .running && e.2.img.queues.any (fun q => q.tile == t))

/-- Keys of a table that lie in [lo, hi) taken out. -/
def Tab.dropRange {α : Type} (t : Tab α) (lo hi : Nat) : Tab α := List.filter (fun e => decide (e.1 < lo) || decide (hi ≤ e.1)) t

/-- TILE_RESET: the Keeper resets one tile on which no program runs: its engines, scratchpad and accumulators (R446). -/
def execTileReset (t : TileIx) (s : State) : Host.Outcome State Fault Refusal :=
  .next (if s.released && s.keeper.up && !s.tileBusy t then
      let a := s.arr
      let k := a.kept
      let arrays := a.arrays.map (fun e => if t.val * 84 ≤ e.1 && e.1 < t.val * 84 + 84 then (e.1, (k.arrays.get {} e.1)) else e)
      let s := s.setArr { a with arrays := arrays, drn := a.drn.dropRange (t.val * 84) (t.val * 84 + 84), cust := a.cust.del t,
                                 gal := a.gal.map (fun e => if e.1 / 10 = t.val then (e.1, { gated := e.2.gated }) else e), bus := a.bus.del t }
      let s := s.setTgt (s.tgt.del t)
      let e := s.eng
      let p0 := t.val * 2
      let s := s.setEng { e with vec := e.vec.dropRange (t.val * 8) (t.val * 8 + 8), keys := e.keys.dropRange (t.val * 17) (t.val * 17 + 17),
                                 saves := e.saves.dropRange p0 (p0 + 2), packWait := e.packWait.dropRange p0 (p0 + 2), pack := e.pack.dropRange p0 (p0 + 2),
                                 turn := e.turn.dropRange p0 (p0 + 2), row := e.row.dropRange p0 (p0 + 2),
                                 check := e.check.filter (fun c => c / 6 != t.val) }
      let s := s.setServe { s.serve with samp := s.serve.samp.del t }
      s.setMem (Mem.without s.mem (spadBase t) (spadBase t + 0x10000000))
    else s)

end Sys2Proof.Machine
end

