-- ==== Sys2Proof/Machine/Device.lean ====
section
/-! DEFINITION. The device, pairing and cascade groups of the mailbox: NOP, IDENTIFY, the health and accounting records (R342,
R343, R390, R468), the pairing (R344 to R348), the size table (R359, R408 to R412), link status and fog (R420, R421). -/
namespace Sys2Proof.Machine

/-! ### Copies to the host -/

/-- The command's one OUT descriptor takes the bytes, or is too short for them and nothing is written (R343). -/
def State.copyOut (s : State) (m : MCmd) (ds : List Desc) (bs : List Byte) : State :=
  let es := cmdExtents m ds 0
  if extentBytes es < bs.length then s.complete m codeDescriptor []
  else (s.writeOut es bs).complete m codeOk []

/-! ### NOP and IDENTIFY (R339, R342) -/

/-- The opcodes of R339. -/
def listedOpcodes : List Nat :=
  [0x000, 0x001, 0x002, 0x003, 0x100, 0x101, 0x102, 0x103, 0x200, 0x201, 0x202, 0x203, 0x204, 0x205, 0x300, 0x301, 0x302, 0x303, 0x304] ++
  [0x305, 0x306, 0x307, 0x400, 0x401, 0x402, 0x403, 0x404, 0x500, 0x501, 0x502, 0x503, 0x600, 0x601, 0x602, 0x603, 0x700, 0x701, 0x702, 0x703]

/-- NOP; an opcode that is not listed completes with OPCODE. Another listed opcode is another row's command. -/
def execNop (m : MCmd) (opcode : Nat) (s : State) : Host.Outcome State Fault Refusal :=
  .next (if opcode = 0 then s.intake (.nop m opcode) m 0 false (lenIs m 0 0) (fun s => s.complete m codeOk [])
    else if listedOpcodes.contains opcode then s
    else s.intake (.nop m opcode) m opcode false true (fun s => s.complete m codeOpcode []))

/-- The ASCII part name (R342, R455). -/
def partName : List Byte := [0x52, 0x51, 0x56, 0x2D, 0x32, 0x34, 0x30, 0x30]

/-- Pairing states as IDENTIFY codes them. -/
def PairState.code : PairState → Nat
  | .empty => 0
  | .loading => 1
  | .resident => 2
  | .unloading => 3

/-- Whether a spare array (80 to 83) of a tile is still free. -/
def State.spareFree (s : State) (t q : Nat) : Bool := !(s.array t q).retired && !(List.range 80).any (fun b => s.phys t b == q)
def State.sparesFree (s : State) (t : Nat) : Nat := (([80, 81, 82, 83] : List Nat).filter (s.spareFree t)).length

/-- The 64 bytes of IDENTIFY. -/
def State.identity (s : State) (f : Fn) : List Byte :=
  let gal := (List.range 40).foldl (fun n k => if s.galleryServes (k / 10) (k % 10) then n + 2 ^ k else n) 0
  let near := ((List.range 4).map s.nearFree).sum
  let carriers := (List.range 4).foldl (fun n c => if s.carrierServes c then n + 2 ^ c else n) 0
  let spares := (List.range 4).foldl (fun n t => n + s.sparesFree t * 16 ^ t) 0
  partName ++ [0xB0] ++ leBytes 1 s.keeper.fwmaj ++ leBytes 1 s.keeper.fwmin ++ leBytes 1 (b2n s.keeper.slot) ++
    leBytes 2 (s.moduleId + b2n s.isLead * 2 ^ 15) ++ leBytes 1 f.val ++
    leBytes 1 (s.pair.state.code + 4 * b2n s.run.active + 8 * b2n s.keeper.debug) ++ leBytes 8 Config.serial.toNat ++ leBytes 8 gal ++
    leBytes 8 near ++ leBytes 8 s.farFree ++ leBytes 1 carriers ++ [0] ++ leBytes 2 spares ++ List.replicate 12 0

/-- IDENTIFY. -/
def execIdentify (m : MCmd) (s : State) : Host.Outcome State Fault Refusal :=
  .next (s.intake (.identify m) m 0x001 false (lenIs m 0 0) (fun s => s.complete m codeOk (s.identity m.fn)))

/-! ### The health record (R468) -/

/-- The header; the places of its fields are the model's (DESIGN CHOICE, log entry 32). -/
def State.healthHeader (s : State) : List Byte :=
  let h := s.health
  leBytes 4 0x4C4B4852 ++ leBytes 4 1 ++ leBytes 8 Config.serial.toNat ++ leBytes 8 h.optime ++ leBytes 8 h.powerons ++ leBytes 4 s.sec.counter ++
    leBytes 4 h.nlog ++ leBytes 4 h.loghead ++ List.replicate 20 0

/-- Bytes 0x0040 to 0x02CF: arrays and the logical map. -/
def State.healthArrays (s : State) : List Byte :=
  (List.range 336).map (fun k => BitVec.ofNat 8 (128 * b2n (s.array (k / 84) (k % 84)).retired + min 127 (s.health.mism.get 0 k))) ++
    (List.range 320).map (fun k => BitVec.ofNat 8 (s.phys (k / 80) (k % 80)))

/-- Bytes 0x02D0 to 0x03FF: retirements, ports, phases, inputs, lasers, the built-in test and the bridges. -/
def State.healthUnits (s : State) : List Byte :=
  let h := s.health
  (List.range 4).flatMap (fun t => leBytes 4 (h.wordsRetired.get 0 t) ++ leBytes 4 (h.rowsRetired.get 0 t)) ++
    (List.range 4).flatMap (fun c => leBytes 4 (h.pagesRetired.get 0 c) ++ leBytes 4 (s.carrier c).spares) ++
    (List.range 6).flatMap (fun p => leBytes 1 (min 2 (h.laneTx.get 0 p)) ++ leBytes 1 (min 2 (h.laneRx.get 0 p)) ++ leBytes 2 (h.trainings.get 0 p)) ++
    (List.range 12).flatMap (fun r => leBytes 1 (s.phasesLost r)) ++ leBytes 4 (s.input 0).faults ++ leBytes 4 (s.input 1).faults ++
    List.replicate 4 0 ++
    (List.range 2).flatMap (fun i => let l := s.laser i
      leBytes 8 l.seconds ++ leBytes 1 l.percent ++ leBytes 1 l.state ++ List.replicate 22 0) ++
    (List.range 4).flatMap (fun t => leBytes 4 (h.bistProposed.get 0 t) ++ leBytes 4 (h.bistAccepted.get 0 t)) ++
    (List.range 4).flatMap (fun t => leBytes 8 (h.resends.get 0 t)) ++ List.replicate 64 0

/-- Bytes 0x0400 to 0x0FFF: the transient-failure table. -/
def State.healthTransients (s : State) : List Byte :=
  (List.range 192).flatMap (fun i => match s.health.transients[i]? with
    | some x => leBytes 8 (x.tier * 2 ^ 62 + x.addr) ++ leBytes 1 x.count ++ List.replicate 7 0
    | none => List.replicate 16 0)

/-- Bytes 0x1000 to 0x2FFF: the event log. -/
def State.healthLog (s : State) : List Byte :=
  (List.range 256).flatMap (fun i => ((s.health.log.get [] i) ++ List.replicate 32 0).take 32)

/-- The record, 12,288 bytes. -/
def State.healthRecord (s : State) : List Byte :=
  s.healthHeader ++ s.healthArrays ++ s.healthUnits ++ s.healthTransients ++ s.healthLog

/-- HEALTH_READ. -/
def execHealthRead (m : MCmd) (s : State) : Host.Outcome State Fault Refusal :=
  let p := m.payload
  .next (s.intake (.healthRead m) m 0x002 true (lenIs m 8 1) (fun s =>
    let ds := descsAt p 8 1
    if !descsOk s m ds [true] then s.complete m codeDescriptor []
    else if !reservedZero p 8 [] then s.complete m codeField []
    else s.copyOut m ds s.healthRecord))

/-! ### The accounting records (R390, R391) -/

/-- The customers bound to a function, rising. -/
def State.custsOf (s : State) (f : Nat) : List Nat :=
  (List.filter (fun e => e.2.fn.any (fun g => g.val == f)) s.serve.cust).map (·.1)

/-- A function record; span is given by its caller, as is the number of customer records that follow. -/
def fnRecord (f : Nat) (closed : Bool) (ncust span : Nat) (a : FnAcct) : List Byte :=
  dwordsBytes ([f + 256 + 65536 * b2n closed + ncust * 2 ^ 32, a.closes, span] ++ (List.range 11).map (a.cls.get 0) ++ [a.overrun, a.switch] ++
    (List.range 9).map (a.bytes.get 0) ++ [a.energy, a.preempts, a.aborted, 0, 0, 0, 0])

/-- A customer record. -/
def State.custRecord (s : State) (f c : Nat) : List Byte :=
  let a := s.fnp.cust.get {} c
  dwordsBytes [c + 256 * f, a.prefill, a.decode, a.gallery, a.other, a.energy, a.nfin + a.nend * 2 ^ 32, 0]

/-- The open record of a function with its customers' records. -/
def State.openRecord (s : State) (f : Nat) : List Byte :=
  let cs := s.custsOf f
  fnRecord f false cs.length (s.watch 4 - (s.fnp.opened.get s.fnp.since f)) (s.fnp.acct.get {} f) ++ cs.flatMap (s.custRecord f)

/-- The records of a function: its closed one first, for the physical function alone. -/
def State.fnRecords (s : State) (pf : Bool) (f : Nat) : List Byte :=
  (match pf, s.fnp.closed.find? f with
    | true, some a => fnRecord f true 0 a.span a
    | _, _ => []) ++ s.openRecord f

/-- The whole answer for some functions. -/
def State.accounts (s : State) (pf : Bool) (fs : List Nat) : List Byte :=
  let nfn := fs.length + (if pf then (fs.filter s.fnp.closed.has).length else 0)
  let ncust := (fs.map (fun f => (s.custsOf f).length)).sum
  dwordsBytes [nfn + ncust * 65536, s.watch 4, if pf then s.fnp.unattributed else 0, 0, 0, 0, 0, 0] ++ fs.flatMap (s.fnRecords pf)

/-- ACCOUNT_READ: closed records are dropped once they are returned. -/
def execAccountRead (m : MCmd) (s : State) : Host.Outcome State Fault Refusal :=
  let p := m.payload
  .next (s.intake (.accountRead m) m 0x003 false (lenIs m 8 1) (fun s =>
    let ds := descsAt p 8 1
    let pf := m.fn.val == 0
    let all := fieldAt p 0 1 == 0xFF
    let fs := if all then (List.range 17).filter s.fnExists else [fieldAt p 0 1]
    let bs := s.accounts pf fs
    if !descsOk s m ds [true] then s.complete m codeDescriptor []
    else if !reservedZero p 8 [(0, 1)] || (!all && decide (16 < fieldAt p 0 1)) then s.complete m codeField []
    else if !(fs.all s.fnExists) || !(pf || fs == [m.fn.val]) then s.complete m codeNoObject []
    else if extentBytes (cmdExtents m ds 0) < bs.length then s.complete m codeDescriptor []
    else
      let s := s.copyOut m ds bs
      if pf then s.setFnp { s.fnp with closed := List.filter (fun e => !fs.contains e.1) s.fnp.closed } else s))

/-! ### Pairing (R344 to R348) -/

/-- A model block. -/
def modelAt (p : List Byte) (o : Nat) : ModelDims :=
  { layers := fieldAt p o 4, width := fieldAt p (o + 4) 4, heads := fieldAt p (o + 8) 4, kvheads := fieldAt p (o + 12) 4,
    headw := fieldAt p (o + 16) 4, ffw := fieldAt p (o + 20) 4, vocab := fieldAt p (o + 24) 4, wfmt := fieldAt p (o + 28) 1 }

/-- VOCAB and WFMT in range. -/
def modelOk (d : ModelDims) : Bool := decide (1 ≤ d.vocab) && decide (d.vocab ≤ 262144) && decide (d.wfmt ≤ 3)

/-- PAIR_LOAD; signed: the pairing image carries a valid Evobiys signature. -/
def execPairLoad (m : MCmd) (signed : Bool) (s : State) : Host.Outcome State Fault Refusal :=
  let p := m.payload
  .next (s.intake (.pairLoad m signed) m 0x100 true (lenIs m 64 3 || lenIs m 64 4) (fun s =>
    let ds := descsAt p 64 m.ndesc
    let t := modelAt p 0
    let u := modelAt p 32
    if !descsOk s m ds (List.replicate m.ndesc false) then s.complete m codeDescriptor []
    else if s.excluded then s.complete m codeRefused []
    else if s.pair.state ≠ .empty then s.complete m codeState []
    else if !reservedZero p 64 [(0, 29), (32, 29)] || !modelOk t || !modelOk u || u.wfmt != 3 then s.complete m codeField []
    else if t.vocab ≠ u.vocab then s.complete m codeMismatch []
    else if s.inputLost m ds then s.complete m codeDataLost []
    else if !signed then s.complete m codeSignature []
    else
      let pair : Pairing := { state := .loading, teacher := some t, student := some u, image := m.reads.getD 0 [] }
      (s.setPair { pair with studentState := m.ndesc == 4 }).accept m .pairLoad 0x100))

/-- Whether the placement of a load fits: enough of each tier is free, and every piece lies in free near- or far-tier memory. -/
def State.loadFits (s : State) (r : LoadResult) : Bool :=
  let busy := s.held ++ s.closedExtents
  (List.range 4).all (fun t => decide (r.near.getD t 0 ≤ s.nearFree t)) && decide (r.far ≤ s.farFree) &&
    r.placed.all (fun x => localOk x.1 x.2.length && decide (x.1 < farEnd) &&
      busy.all (fun b => b.2 == 0 || decide (x.1 + x.2.length ≤ b.1) || decide (b.1 + b.2 ≤ x.1)))

/-- PAIR_LOAD_DONE: RESIDENT, or EMPTY again with nothing allocated. Owed while the Keeper restarts. -/
def execPairLoadDone (r : LoadResult) (s : State) : Host.Outcome State Fault Refusal :=
  .next (match s.findOp .pairLoad with
    | none => s
    | some o =>
      if s.keeper.kbusy then s.owe (.pairLoadDone r)
      else
        let code := if !r.readable then codeDescriptor
          else if s.pair.teacher != some r.teacher || s.pair.student != some r.student || !r.digestsOk then codeMismatch
          else if !s.loadFits r then codeCapacity else codeOk
        if code ≠ codeOk then (s.setPair {}).opDone o code
        else
          let extents := r.placed.map (fun x => (x.1, x.2.length))
          let s := s.setMem (Mem.place s.mem r.placed)
          (s.setPair { s.pair with state := .resident, near := r.near, far := r.far, extents := extents }).opDone o codeOk)

/-- Every program of every function retired, and every request that is not terminal doomed. -/
def State.retireAll (s : State) : State :=
  let s := (s.prog.progs.map (fun e => e.1)).foldl (fun s h => s.retireProg h) s
  let reqs := s.serve.reqs.map (fun e => (e.1, if e.2.status.terminal then e.2 else { e.2 with doomed := true }))
  (s.setServe { s.serve with reqs := reqs }).setProg { s.prog with replace_ := none, serveNext := [] }

/-- PAIR_UNLOAD. A refresh that is still held ends as superseded by the unload (log entry 33). -/
def execPairUnload (m : MCmd) (s : State) : Host.Outcome State Fault Refusal :=
  .next (s.intake (.pairUnload m) m 0x101 true (lenIs m 0 0) (fun s =>
    if s.excluded then s.complete m codeRefused []
    else if s.pair.state ≠ .resident || s.run.active then s.complete m codeState []
    else
      let s := (s.setPair { s.pair with state := .unloading }).retireAll
      let drop (s : State) (h : Option HeldRefresh) (k : OpKind) : State := match h with
        | none => s
        | some h => s.refreshOver h k codeSuperseded
      let s := drop (drop s s.pair.heldTeacher .refreshTeacher) s.pair.heldStudent .refreshStudent
      (s.setPair { s.pair with heldTeacher := none, heldStudent := none }).accept m .pairUnload 0x101))

/-- PAIR_UNLOAD_DONE: the memory is released and the pairing is EMPTY. -/
def execPairUnloadDone (s : State) : Host.Outcome State Fault Refusal :=
  .next (match s.findOp .pairUnload with
    | none => s
    | some o => if s.keeper.kbusy then s.owe .pairUnloadDone else (s.setPair {}).opDone o codeOk)

/-- A refresh is held; an earlier one of the same model is superseded (R19). -/
def State.holdRefresh (s : State) (h : HeldRefresh) (student : Bool) : State :=
  let kind : OpKind := if student then .refreshStudent else .refreshTeacher
  let s := match (if student then s.pair.heldStudent else s.pair.heldTeacher) with
    | none => s
    | some old => s.refreshOver old kind codeSuperseded
  if student then s.setPair { s.pair with heldStudent := some h } else s.setPair { s.pair with heldTeacher := some h }

/-- REFRESH (R17, R19, R347): held for the next update boundary, or for REFRESH_DONE where no run is active. -/
def execRefresh (m : MCmd) (img : WeightImage) (s : State) : Host.Outcome State Fault Refusal :=
  let p := m.payload
  let model := fieldAt p 0 1
  .next (s.intake (.refresh m img) m 0x102 true (lenIs m 8 1 || (model != 0 && lenIs m 8 2)) (fun s =>
    let ds := descsAt p 8 m.ndesc
    let dims := if model = 0 then s.pair.teacher else s.pair.student
    if !descsOk s m ds (List.replicate m.ndesc false) then s.complete m codeDescriptor []
    else if s.pair.state ≠ .resident then s.complete m codeState []
    else if !reservedZero p 8 [(0, 1)] || decide (1 < model) then s.complete m codeField []
    else if s.inputLost m ds then s.complete m codeDataLost []
    else if dims != some img.dims then s.complete m codeMismatch []
    else
      let img := { img with state := if m.ndesc = 2 then img.state else none }
      (s.holdRefresh { fn := m.fn, seq := m.seq, img := img } (model == 1)).accept m
        (if model = 1 then .refreshStudent else .refreshTeacher) 0x102))

/-- REFRESH_DONE: outside a run a held refresh is applied once its images are read, or ends with DESCRIPTOR. -/
def execRefreshDone (model : Nat) (readable : Bool) (s : State) : Host.Outcome State Fault Refusal :=
  .next (if s.run.active then s
    else if s.keeper.kbusy then s.owe (.refreshDone model readable)
    else if model = 0 then
      if readable then s.applyHeldTeacher
      else match s.pair.heldTeacher with
        | none => s
        | some h => (s.setPair { s.pair with heldTeacher := none }).refreshOver h .refreshTeacher codeDescriptor
    else
      if readable then s.applyHeldStudent
      else match s.pair.heldStudent with
        | none => s
        | some h => (s.setPair { s.pair with heldStudent := none }).refreshOver h .refreshStudent codeDescriptor)

/-- The 32 bytes of PAIR_STATUS. Outside a run RUNPROG is 0. -/
def State.pairStatus (s : State) : List Byte :=
  let r := s.run
  let flags := b2n r.active + 2 * b2n (r.active && r.stop.isSome) + 4 * b2n s.pair.heldTeacher.isSome + 8 * b2n s.pair.heldStudent.isSome +
    16 * b2n s.pair.parity
  leBytes 1 s.pair.state.code ++ leBytes 1 flags ++ [0, 0] ++ leBytes 4 r.lscale.toNat ++ leBytes 8 (r.last.getD 0xFFFFFFFFFFFFFFFF) ++
    leBytes 2 r.clean ++ leBytes 2 (if r.active then r.prog else 0) ++ List.replicate 12 0

/-- PAIR_STATUS. -/
def execPairStatus (m : MCmd) (s : State) : Host.Outcome State Fault Refusal :=
  .next (s.intake (.pairStatus m) m 0x103 false (lenIs m 0 0) (fun s => s.complete m codeOk s.pairStatus))

/-! ### The size table (R359, R408 to R412) -/

/-- Bytes of a table. -/
def tableSize : Nat := 4160

/-- The CRC a table carries. -/
def tableCrc (bs : List Byte) : Nat := fieldAt bs 0x3C 4

/-- The entry words of a table, in order. -/
def tableEntries (bs : List Byte) : List Nat := (chunks 4 (bs.drop 64)).map leNat

/-- The fields of a table. -/
def tableFields (bs : List Byte) : SizeTable :=
  { nx := fieldAt bs 6 1, ny := fieldAt bs 7 1, nz := fieldAt bs 8 1, sspan := fieldAt bs 9 1, lspan := fieldAt bs 10 1,
    fogwin := fieldAt bs 12 4, tgen := fieldAt bs 16 4, raw := bs,
    present := ((tableEntries bs).zipIdx.filter (fun e => bitOf e.1 31)).map (fun e => (e.2, bitsOf e.1 9 0)) }

/-- Whether a span is one of 1, 2, 4, 8, 16 and divides NX. -/
def spanOk (n nx : Nat) : Bool := ([1, 2, 4, 8, 16] : List Nat).contains n && nx % n == 0

/-- R408: magic, version, ranges, reserved fields and the CRC. -/
def tableFormOk (bs : List Byte) : Bool :=
  let t := tableFields bs
  bs.length == tableSize && fieldAt bs 0 4 == 0x4C4B5354 && fieldAt bs 4 2 == 1 &&
    decide (1 ≤ t.nx) && decide (t.nx ≤ 16) && decide (1 ≤ t.ny) && decide (t.ny ≤ 8) && decide (1 ≤ t.nz) && decide (t.nz ≤ 8) &&
    spanOk t.sspan t.nx && spanOk t.lspan t.nx && decide (10 ≤ t.fogwin) && decide (t.fogwin ≤ 10000) &&
    fieldAt bs 11 1 == 0 && ((bs.drop 0x14).take 0x28).all (· == 0) &&
    (tableEntries bs).all (fun w => bitsOf w 30 10 == 0) &&
    (crc32c (bs.take 0x3C ++ List.replicate 4 0 ++ bs.drop 0x40)) == tableCrc bs

/-- R409: positions inside the axes, entry 0, and the mirrors. -/
def tableMirrorsOk (t : SizeTable) : Bool :=
  t.present.has 0 && List.all t.present (fun e =>
    let (x, y, z) := posOf e.1
    decide (x < t.nx) && decide (y < t.ny) && decide (z < t.nz) && t.present.find? e.2 == some e.1 &&
      (e.2 == e.1 || (neighbours t e.1).contains e.2))

/-- A table this module may hold: R408, R409, its own entry PRESENT and TGEN above that of the table in force. -/
def State.tableOk (s : State) (bs : List Byte) : Bool :=
  let t := tableFields bs
  tableFormOk bs && tableMirrorsOk t && t.present.has s.moduleId &&
    (match s.link.table with | some c => decide (c.tgen < t.tgen) | none => true)

/-- Whether a table is a shrink a run allows. -/
def State.shrinkOk (s : State) (bs : List Byte) : Bool :=
  s.tableOk bs && (match s.link.table with | some c => tableShrinks c (tableFields bs) s.markedAbsent | none => false)

/-- OP_DONE of a SIZE_TABLE_SET. -/
def State.tableOver (s : State) (f : Fn) (seq code : Nat) : State :=
  s.opDone { kind := .sizeTable, fn := f, seq := seq, opcode := 0x500, payload := [] } code

/-- SIZE_TABLE_SET: a table still waiting is superseded (log entry 33). -/
def execSizeTableSet (m : MCmd) (s : State) : Host.Outcome State Fault Refusal :=
  .next (s.intake (.sizeTableSet m) m 0x500 true (lenIs m 0 1) (fun s =>
    let ds := descsAt m.payload 0 1
    let bs := (m.reads.getD 0 []).take tableSize
    if !descsOk s m ds [false] || decide (extentBytes (cmdExtents m ds 0) < tableSize) then s.complete m codeDescriptor []
    else if s.pwr.strapBad || (s.run.active && !s.shrinkOk bs) then s.complete m codeState []
    else if s.inputLost m ds then s.complete m codeDataLost []
    else
      let s := match s.link.pendingTable with
        | none => s
        | some (_, f, q) => (s.setLink { s.link with pendingTable := none, confirmed := false }).tableOver f q codeSuperseded
      let s := s.accept m .sizeTable 0x500
      if !s.tableOk bs then s.tableOver m.fn m.seq codeField
      else (s.setLink { s.link with pendingTable := some (tableFields bs, m.fn, m.seq), confirmed := false }).send (.tableCrc (tableCrc bs))))

/-- The later module of two in a census that report one position. -/
def duplicateOf : List CensusEntry → Option Nat
  | [] => none
  | e :: r =>
    match r.find? (fun x => x.position == e.position) with
    | some x => some x.id
    | none => duplicateOf r

/-- SIZE_TABLE_IN_FORCE: the Lead's CRC and a complete census bring the table into force, during a run at the next update boundary,
or end it with MISMATCH (R359, R410, R460). -/
def execSizeTableInForce (leadCrc : Nat) (census : List CensusEntry) (s : State) : Host.Outcome State Fault Refusal :=
  if s.keeper.kbusy then .next (s.owe (.sizeTableInForce leadCrc census)) else
  .next (match s.link.pendingTable with
    | none => s
    | some (t, f, seq) =>
      let complete := List.all t.present (fun e => census.any (fun c => c.id == e.1))
      let drop := s.setLink { s.link with pendingTable := none, confirmed := false }
      match duplicateOf census with
      | some k => (if s.isLead then drop.healthEvent 0x119 0xFF 0 k 1 else drop).tableOver f seq codeMismatch
      | none =>
        if !complete then s
        else if census.any (fun c => c.fwmaj != s.keeper.fwmaj) || leadCrc != tableCrc t.raw then drop.tableOver f seq codeMismatch
        else if s.run.active then s.setLink { s.link with confirmed := true }
        else s.tableInForce t f seq)

/-- SIZE_TABLE_READ: without a table in force there is nothing to read (log entry 33). -/
def execSizeTableRead (m : MCmd) (s : State) : Host.Outcome State Fault Refusal :=
  .next (s.intake (.sizeTableRead m) m 0x501 true (lenIs m 0 1) (fun s =>
    let ds := descsAt m.payload 0 1
    if !descsOk s m ds [true] then s.complete m codeDescriptor []
    else match s.link.table with
      | none => s.complete m codeState []
      | some t => s.copyOut m ds t.raw))

/-! ### LINK_STATUS and FOG_READ (R420, R421) -/

/-- STATE and a width's code. -/
def LinkState.code : LinkState → Nat
  | .down => 0
  | .training => 1
  | .up => 2
  | .degraded => 3
def widthCode (n : Nat) : Nat := if n = 16 then 2 else if n = 8 then 1 else 0

/-- The 64-byte record of a port. -/
def State.portRecord (s : State) (p : Nat) : List Byte :=
  let x := s.port p
  let flags := b2n x.flipped + 2 * b2n x.reversed + 4 * b2n x.crossed + 8 * b2n x.miscabled + 16 * b2n x.silent
  leBytes 1 p ++ leBytes 1 x.state.code ++ leBytes 1 (widthCode x.txWide * 16 + widthCode x.rxWide) ++ leBytes 1 flags ++
    leBytes 2 (x.peer % 1024) ++ leBytes 1 x.peerPort ++ leBytes 1 (x.spareTx * 16 + x.spareRx) ++ leBytes 4 x.txDead.toNat ++
    leBytes 4 x.rxDead.toNat ++ (List.range 18).flatMap (fun i => leBytes 1 (x.rxmap.getD i 0xFF)) ++ List.replicate 6 0 ++
    leBytes 8 x.crcErr ++ leBytes 8 x.resent ++ leBytes 4 x.retrains ++ leBytes 4 x.lastTrain

/-- LINK_STATUS. -/
def execLinkStatus (m : MCmd) (s : State) : Host.Outcome State Fault Refusal :=
  let p := m.payload
  .next (s.intake (.linkStatus m) m 0x502 true (lenIs m 8 0) (fun s =>
    if !reservedZero p 8 [(0, 1)] || decide (5 < fieldAt p 0 1) then s.complete m codeField []
    else s.complete m codeOk (s.portRecord (fieldAt p 0 1))))

/-- The 160-byte entry of a fog key. -/
def State.fogRecord (s : State) (e : FogEntry) : List Byte :=
  let now := s.watch 4
  let wit (i : Nat) : Nat := (List.range 8).foldl (fun n j => if e.witnesses.contains (8 * i + j) then n + 2 ^ j else n) 0
  leBytes 2 e.code ++ leBytes 2 (if e.subject = 0x3FF then 0xFFFF else e.subject) ++ leBytes 2 e.witnesses.length ++ leBytes 1 (b2n e.failed) ++ [0] ++
    leBytes 8 e.count ++ leBytes 8 (now - e.openedAt) ++ leBytes 8 (now - e.mergedAt) ++ (List.range 128).flatMap (fun i => leBytes 1 (wit i))

/-- One suppression window in units of 10 ns (R408, R418). -/
def State.fogWindow (s : State) : Nat := ((s.link.table.map (·.fogwin)).getD 100) * 100000

/-- FOG_READ: written, then quiet entries are removed. -/
def execFogRead (m : MCmd) (s : State) : Host.Outcome State Fault Refusal :=
  .next (s.intake (.fogRead m) m 0x503 true (lenIs m 0 1) (fun s =>
    let ds := descsAt m.payload 0 1
    let es := s.link.leadFog
    let bs := leBytes 4 es.length ++ List.replicate 4 0 ++ leBytes 8 s.link.fogDropped ++ es.flatMap s.fogRecord
    if !descsOk s m ds [true] then s.complete m codeDescriptor []
    else if !s.isLead then s.complete m codeNotLead []
    else if extentBytes (cmdExtents m ds 0) < bs.length then s.complete m codeDescriptor []
    else
      let s := s.copyOut m ds bs
      s.setLink { s.link with leadFog := es.filter (fun e => decide (s.watch 4 - e.mergedAt ≤ s.fogWindow)) }))

end Sys2Proof.Machine
end

