-- ==== Sys2Proof/Machine/Regs.lean ====
section
/-! DEFINITION. Register writes (R307 to R313, R326 to R333): the status registers and their clears, the commit groups CUST, TCFG,
KEY, PRI and SCHED, the causes, the event ring's CONS, the MSI-X table and NumVFs; the heartbeat and the stopwatch reads. -/
namespace Sys2Proof.Machine

/-! ### Mailbox registers (R307 to R313, R321, R322) -/

/-- Held events enter the ring while it has room, the oldest first; the first argument bounds their number (R321). -/
def State.releaseHeld : Nat → Nat → State → State
  | 0, _, s => s
  | n + 1, f, s =>
    let m := s.mbox f
    match m.held with
    | [] => s
    | e :: r =>
      if (m.prod + 1) % 64 = m.cons then s
      else
        let m := { m with held := r, ring := m.ring.set m.prod e, prod := (m.prod + 1) % 64, cause := m.cause ||| 2 }
        State.releaseHeld n f ((s.setMbox f m).raise f (eventVector e))

/-- A write of MBX_EVT_CONS: forward over written entries, or ignored with CONSERR (R312). While the Keeper restarts the held events
wait for it. -/
def State.writeCons (s : State) (f value : Nat) : State :=
  let m := s.mbox f
  let v := value % 64
  let step := (v + 64 - m.cons) % 64
  if step = 0 || (m.prod + 64 - m.cons) % 64 < step then s.setCause f 5 2
  else
    let s := s.setMbox f { m with cons := v }
    if s.keeper.kbusy then s else State.releaseHeld 256 f s

/-- MBX_EVT_CONS_WRITE. -/
def execMbxEvtConsWrite (fn : Fn) (value : Nat) (s : State) : Host.Outcome State Fault Refusal :=
  .next (if s.regsAnswer fn.val then s.writeCons fn.val value else s)

/-- KEEPER_HEARTBEAT: every 10 ms, not while KBUSY (R322); in recovery mode too (R459). -/
def execKeeperHeartbeat (s : State) : Host.Outcome State Fault Refusal :=
  .next (if (s.keeper.up || s.keeper.recovery) && !s.keeper.kbusy then
      s.setKeeper { s.keeper with heartbeat := (s.keeper.heartbeat + 1) % 2 ^ 32 }
    else s)

/-- KPR_SWATCH_READ: LO is answered and HI is latched (R330). -/
def execKprSwatchRead (unit : Fin 5) (s : State) : Host.Outcome State Fault Refusal :=
  let w := s.watch unit
  .next (if s.regsAnswer 0 then
      (s.setKeeper { s.keeper with swHi := s.keeper.swHi.set unit (w / 2 ^ 32 % 2 ^ 32) }).send (.swatch unit (BitVec.ofNat 32 w))
    else s)

/-! ### Status registers (R58, R148, R173) -/

/-- DRN_NUMSTAT written. -/
def State.writeDrnStat (s : State) (t p : Nat) (v : Word) : State := s.setDrnStat t p ((s.drnStat t p).write false v)

/-- TGT_STATUS written: W1C flags, and CNT_CLR for the counters at 0x088 to 0x0A4. -/
def TargetSt.writeStatus (e : TargetSt) (now : Nat) (v : Word) : TargetSt :=
  let e := { e with stat := e.stat.write false v }
  if bitOf v.toNat 28 then { e.catchUp now with scoreStall := 0, learnWait := 0, badpos := 0, spilled := 0, propfall := 0, badlabel := 0 } else e

/-- VXE_NUMSTAT written. -/
def State.writeVxeStat (s : State) (t e : Nat) (v : Word) : State :=
  let x := s.vecEng t e
  s.setVecEng t e { x with stat := x.stat.write true v }

/-- DRN_CNT_CLR. -/
def execDrnCntClr (t : TileIx) (p : Fin 84) (value : Word) (s : State) : Host.Outcome State Fault Refusal :=
  .next (if s.released then s.writeDrnStat t p value else s)
/-- TGT_CNT_CLR. -/
def execTgtCntClr (t : TileIx) (value : Word) (s : State) : Host.Outcome State Fault Refusal :=
  .next (if s.released then s.setTarget t ((s.target t).writeStatus (s.watch t) value) else s)
/-- VXE_CNT_CLR. -/
def execVxeCntClr (t : TileIx) (e : Fin 8) (value : Word) (s : State) : Host.Outcome State Fault Refusal :=
  .next (if s.released then s.writeVxeStat t e value else s)

/-! ### Commit groups the physical function writes in debug mode alone (R117, R147, R175, R331, R333) -/

/-- A write of the physical function to such a group: staged or committed in debug mode, else ignored with REGDENY. -/
def State.debugWrite (s : State) (f : State → State) : State := if s.keeper.debug then f s else s.denied

/-- The write of DRN_CUST_COMMIT. -/
def State.writeCustCommit (s : State) (t : Nat) (v : Word) : State := s.debugWrite (fun s => if v.getLsbD 0 then s.commitCust t else s)
/-- The write of TGT_COMMIT. -/
def State.writeTgtCommit (s : State) (t : Nat) (v : Word) : State :=
  s.debugWrite (fun s => if v.getLsbD 0 then s.setTarget t (s.target t).commit else s)
/-- The write of VXE_KEY_COMMIT(f): the staged keys are in force for the commands that start from now on, and PENDING
stays until every engine inside a command has ended it. -/
def State.writeKeyCommit (s : State) (t f : Nat) (v : Word) : State :=
  s.debugWrite (fun s => if v.getLsbD 0 then s.commitStaged t f else s)

/-- DRN_CUST_COMMIT (R115, R116). -/
def execDrnCustCommit (fn : Fn) (t : TileIx) (value : Word) (s : State) : Host.Outcome State Fault Refusal :=
  .next (if fn.val = 0 && s.regsAnswer 0 && s.released then s.writeCustCommit t value else s)
/-- TGT_COMMIT (R147). -/
def execTgtCommit (fn : Fn) (t : TileIx) (value : Word) (s : State) : Host.Outcome State Fault Refusal :=
  .next (if fn.val = 0 && s.regsAnswer 0 && s.released then s.writeTgtCommit t value else s)
/-- VXE_KEY_COMMIT (R175). -/
def execVxeKeyCommit (fn : Fn) (t : TileIx) (f : Fn) (value : Word) (s : State) : Host.Outcome State Fault Refusal :=
  .next (if fn.val = 0 && s.regsAnswer 0 && s.released then s.writeKeyCommit t f value else s)

/-- CUST staged: boundaries, then coefficients. -/
def State.stageBnd (s : State) (t i : Nat) (v : Word) : State := s.setCust t { s.custSt t with bnd := (s.custSt t).bnd.set i v }
def State.stageCoef (s : State) (t i : Nat) (v : Word) : State := s.setCust t { s.custSt t with coef := (s.custSt t).coef.set i v }

/-- A word cut to n bits. -/
def cutBits (v : Word) (n : Nat) : Word := v &&& BitVec.ofNat 32 (2 ^ n - 1)

/-- TCFG staged, by register number (offset / 4), each cut to its field (R145, R146). -/
def Tcfg.stage (c : Tcfg) (i : Nat) (v : Word) : Tcfg :=
  match i with
  | 0 => { c with tau := v }
  | 1 => { c with alpha := v }
  | 2 => { c with beta := v }
  | 3 => { c with gamma := v }
  | 4 => { c with mode := cutBits v 13 }
  | 5 => { c with vsize := cutBits v 19 }
  | 6 => { c with ringBase := cutBits v 28 }
  | 7 => { c with ringMib := cutBits v 7 }
  | 8 => { c with posBase := cutBits v 28 }
  | 9 => { c with lossBase := cutBits v 28 }
  | 10 => { c with spillBase := cutBits v 22 }
  | 11 => { c with spillLog2 := cutBits v 5 }
  | _ => c

/-- Half of a key staged: LO or HI. -/
def State.stageKey (s : State) (t f j : Nat) (hi : Bool) (v : Word) : State :=
  let k := s.keySt t f
  let old := (k.staged.getD j 0).toNat
  let x : DWord := BitVec.ofNat 64 (if hi then v.toNat * 2 ^ 32 + old % 2 ^ 32 else old / 2 ^ 32 * 2 ^ 32 + v.toNat)
  s.setKeySt t f { k with staged := k.staged.set j x }

/-! ### SCHED (R380 to R382) -/

/-- The staged fields of a function. -/
def State.stagedFn (s : State) (f : Nat) : SchedFn := s.sched.staged.get {} f
def State.stageFn (s : State) (f : Nat) (v : SchedFn) : State := s.setSched { s.sched with staged := s.sched.staged.set f v }

/-- Whether the staged group is within range: SLICE from 100 to 100,000 µs, function 0 not suspended. -/
def State.schedOk (s : State) : Bool :=
  (List.range 17).all (fun f => let x := s.stagedFn f; decide (100 ≤ x.slice) && decide (x.slice ≤ 100000)) && !(s.stagedFn 0).suspend

/-- The write of KPR_SCHED_COMMIT: an engine in a turn keeps the group it acts on until its next turn change. -/
def State.writeSchedCommit (s : State) (v : Word) : State :=
  if !v.getLsbD 0 then s
  else if !s.schedOk then s.setSched { s.sched with refused := true }
  else
    let c := s.sched
    let keep (e : Nat × EngSched) : Nat × EngSched := if e.2.current.isSome then (e.1, { e.2 with group := some (e.2.group.getD c.active) }) else e
    s.setSched { c with active := c.staged, refused := false, engines := c.engines.map keep }

/-- KPR_SCHED_COMMIT. -/
def execKprSchedCommit (fn : Fn) (value : Word) (s : State) : Host.Outcome State Fault Refusal :=
  .next (if fn.val = 0 && s.regsAnswer 0 then s.writeSchedCommit value else s)

/-! ### The MSI-X table (R366, R367) -/

/-- A vector unmasked: a pending message is sent, or withheld in D3hot (R473); it stays pending while the function is masked. -/
def State.unmask (s : State) (f v : Nat) : State :=
  let e := s.fnSt f
  let x := e.msix.get {} v
  let s := s.setFnSt f { e with msix := e.msix.set v { x with masked := false, pending := x.pending && e.fmask } }
  if x.pending && !e.fmask then s.raise f v else s

/-- The function mask written (PCIe MSI-X rules): cleared, the pending messages of vectors that are not masked are sent. -/
def State.writeFmask (s : State) (f : Nat) (b : Bool) : State :=
  let e := s.fnSt f
  let s := s.setFnSt f { e with fmask := b }
  if b then s else (e.msix.filter (fun (x : Nat × Msix) => x.2.pending && !x.2.masked)).foldl (fun s (x : Nat × Msix) => s.unmask f x.1) s

/-- A dword of the table written: address, data, vector control. -/
def State.writeMsix (s : State) (f offset : Nat) (v : Word) : State :=
  let i := offset / 16
  let e := s.fnSt f
  let x := e.msix.get {} i
  let put (y : Msix) : State := s.setFnSt f { e with msix := e.msix.set i y }
  match offset % 16 / 4 with
  | 0 => put { x with addr := BitVec.ofNat 64 (x.addr.toNat / 2 ^ 32 * 2 ^ 32 + v.toNat) }
  | 1 => put { x with addr := BitVec.ofNat 64 (v.toNat * 2 ^ 32 + x.addr.toNat % 2 ^ 32) }
  | 2 => put { x with data := v }
  | _ => if v.getLsbD 0 then put { x with masked := true } else s.unmask f i

/-! ### The register windows (R307, R326, R327) -/

/-- BAR0 of a function: its own mailbox window and, for the physical function, the Keeper registers. MBX_DOORBELL and
PWR_HOTRESET have rows of their own. -/
def State.writeBar0 (s : State) (f offset : Nat) (v : Word) : State :=
  let w := 0x100000 + f * 0x4000
  let m := s.mbox f
  if offset = w + 0x10 then s.writeCons f v.toNat
  else if offset = w + 0x18 then s.setMbox f { m with cause := m.cause &&& ~~~(BitVec.ofNat 6 v.toNat) }
  else if f != 0 then s
  else if offset = 0x4 then s.setKeeper { s.keeper with cause := s.keeper.cause &&& ~~~(BitVec.ofNat 4 v.toNat) }
  else if offset = 0x200 then
    let p := s.pwr
    s.setPwr { p with pinFault := p.pinFault &&& ~~~(BitVec.ofNat 8 (v.toNat / 2 ^ 20)), fdis := p.fdis && !bitOf v.toNat 19,
                      cdis := p.cdis && !bitOf v.toNat 18 }
  else s

/-- The drain registers of a tile (R114). -/
def State.writeDrn (s : State) (t o : Nat) (v : Word) : State :=
  if o < 84 * 16 then (if o % 16 = 0 then s.writeDrnStat t (o / 16) v else s)
  else if 0x800 ≤ o && o < 0x83C then s.debugWrite (fun s => s.stageBnd t ((o - 0x800) / 4) v)
  else if 0x900 ≤ o && o < 0xA00 then s.debugWrite (fun s => s.stageCoef t ((o - 0x900) / 4) v)
  else if o = 0xA00 then s.writeCustCommit t v
  else s

/-- The Target engine's registers (R144). -/
def State.writeTgt (s : State) (t o : Nat) (v : Word) : State :=
  let e := s.target t
  if o < 0x30 then s.debugWrite (fun s => s.setTarget t { e with staged := e.staged.stage (o / 4) v })
  else if o = 0x30 then s.writeTgtCommit t v
  else if o = 0x40 then (if s.keeperOwns then s.denied else s.setTarget t { e with lscale := v })
  else if o = 0x80 then s.setTarget t (e.writeStatus (s.watch t) v)
  else s

/-- The vector engines' registers of a tile (R171). -/
def State.writeVxe (s : State) (t o : Nat) (v : Word) : State :=
  if o < 0x200 then (if o % 0x40 = 8 then s.writeVxeStat t (o / 0x40) v else s)
  else if 0x400 ≤ o && o < 0x400 + 17 * 0x20 then
    s.debugWrite (fun s => s.stageKey t ((o - 0x400) / 0x20) (o % 0x20 / 8) (o % 8 == 4) v)
  else if 0x800 ≤ o && o < 0x800 + 17 * 4 then s.writeKeyCommit t ((o - 0x800) / 4) v
  else s

/-- The registers of an arbiter (R301 to R304). -/
def State.writeArb (s : State) (n o : Nat) (v : Word) : State :=
  let a := s.arbAt n
  if o = 0 then s.writeArbCtrl n v
  else if o = 0x10 then s.writeArbCommit n v
  else if 0x100 ≤ o && o < 0x1C0 then
    let i := (o - 0x100) / 4
    let r := a.req i
    let b := v.toNat % 8
    let s := if s.keeperOwns && b != r.stagedBase then s.denied else s
    s.setArbAt n (a.setReq i { r with starved := r.starved && !bitOf v.toNat 31, stagedBase := if s.keeperOwns then r.stagedBase else b })
  else s

/-- The scheduling registers (R380 to R382). -/
def State.writeSched (s : State) (o : Nat) (v : Word) : State :=
  let f := o / 16
  if o < 17 * 16 then
    match o % 16 / 4 with
    | 0 => s.stageFn f { s.stagedFn f with slice := v.toNat % 2 ^ 20 }
    | 1 => s.stageFn f { s.stagedFn f with suspend := v.getLsbD 0 }
    | _ => s
  else if o = 0x200 then s.writeSchedCommit v
  else s

/-- BAR2 of the physical function: the blocks of the MMIO region. Blocks in reset take no write. -/
def State.writeBar2 (s : State) (x : Nat) (v : Word) : State :=
  let o := x % 0x100000
  let t := o / 0x10000
  let tile := s.released && decide (t < 4)
  match x / 0x100000 with
  | 4 => if tile then s.writeDrn t (o % 0x10000) v else s
  | 5 => if tile then s.writeTgt t (o % 0x10000) v else s
  | 6 => if tile then s.writeVxe t (o % 0x10000) v else s
  | 7 => if s.released && o / 0x1000 < 43 then s.writeArb (o / 0x1000) (o % 0x1000) v else s
  | 8 => s.writeSched o v
  | _ => s

/-- REGISTER_WRITE: naturally aligned 32-bit writes alone (R326). bar 8 stands for the configuration space, of which NumVFs, at
offset 0x10 of the SR-IOV capability, and the MSI-X capability is bar 9, of which the function mask, bit 14 of Message Control at offset 2, is
modelled (PRESUMED, log entry 35). -/
def execRegisterWrite (fn : Fn) (bar offset size : Nat) (value : Word) (s : State) : Host.Outcome State Fault Refusal :=
  let f := fn.val
  .next (if !s.pwr.hubLit || !s.fnExists f then s
    else if bar = 8 then
      if f = 0 && offset = 0x10 && size = 2 && value.toNat ≤ 16 then s.setFnp { s.fnp with numVfs := value.toNat } else s
    else if bar = 9 then (if offset = 2 && size = 2 && !(s.fnSt f).resetting then s.writeFmask f (bitOf value.toNat 14) else s)
    else if !s.regsAnswer f || size != 4 || offset % 4 != 0 then s
    else match bar with
      | 0 => s.writeBar0 f offset value
      | 2 => if f = 0 then s.writeBar2 offset value else s
      | 4 => if offset < 1024 then s.writeMsix f offset value else s
      | _ => s)

end Sys2Proof.Machine
end

