-- ==== Sys2Proof/Machine/Functions.lean ====
section
/-! DEFINITION. Function-level reset (R365, R384 to R387, R391), function power states (R473) and MSI-X unmasking (R366, R367). -/
namespace Sys2Proof.Machine

/-! ### Events 1 to 6 of R385 -/

/-- The handles of a function's programs. -/
def State.handlesOf (s : State) (f : Fn) : List Nat := (List.filter (fun e => e.2.fn == f) s.prog.progs).map (·.1)

/-- Whether a tile group runs a step with a program: a reset does not interrupt it (R266, R387). -/
def State.stepRuns (s : State) (h : Nat) : Bool := List.any s.serve.groups (fun e => e.2.prog == h && e.2.plan.isSome)

/-- The hub fences a virtual function: its messages and pending bits are cleared, its arbiter requests are masked (R299), its commands leave
the engines, but for those of a serving step under way, as after a fault (R386), and its configuration space is at reset values. A second reset merges with the first
(R387). -/
def State.fence (s : State) (f : Fn) : State :=
  if f.val = 0 || !s.fnExists f || (s.fnSt f).resetting then s
  else
    let s := s.setFnSt f { resetting := true }
    let s := s.setMbox f { s.mbox f with latched := none, dbpend := false }
    ((s.maskFn f.val).handlesOf f).foldl (fun s h => if s.stepRuns h then s else s.faultStop h) (s.maskFn f.val)

/-- FUNCTION_LEVEL_RESET of a virtual function; of the physical function it is a host reset, which is HOST_RESET (R365). -/
def execFunctionLevelReset (fn : Fn) (s : State) : Host.Outcome State Fault Refusal :=
  .next (if s.pwr.hubLit then s.fence fn else s)

/-- VF_ENABLE_CLEAR: every virtual function together (R365, R387). -/
def execVfEnableClear (s : State) : Host.Outcome State Fault Refusal :=
  .next (if s.pwr.hubLit then (List.finRange 17).foldl (fun s f => s.fence f) s else s)

/-! ### Events 7 to 9 -/

/-- Two records added, each counter stopping at 2^64 − 1 (R391). -/
def FnAcct.join (a b : FnAcct) : FnAcct :=
  let tab (x y : Tab Nat) : Tab Nat := y.foldl (fun t e => t.upd 0 e.1 (fun n => satAdd64 n e.2)) x
  { span := satAdd64 a.span b.span, closes := b.closes, cls := tab a.cls b.cls, overrun := satAdd64 a.overrun b.overrun,
    switch := satAdd64 a.switch b.switch, bytes := tab a.bytes b.bytes, energy := satAdd64 a.energy b.energy,
    preempts := satAdd64 a.preempts b.preempts, aborted := satAdd64 a.aborted b.aborted }

/-- A function's record is closed and a new one opened at zero; a closed record already there takes it in (R391). -/
def State.closeAccount (s : State) (f : Nat) : State :=
  let a := s.fnp.acct.get {} f
  let a := { a with span := s.watch 4 - s.fnp.opened.get s.fnp.since f, closes := satAdd64 a.closes 1 }
  let c := match s.fnp.closed.find? f with
    | some old => FnAcct.join old a
    | none => a
  s.setFnp { s.fnp with closed := s.fnp.closed.set f c, acct := s.fnp.acct.set f { closes := a.closes }, opened := s.fnp.opened.set f (s.watch 4) }

/-- A program of the reset function is retired; one whose step runs goes at its group's serving boundary (R266; log entry 24). -/
def State.resetProg (s : State) (h : Nat) : State :=
  match List.find? (fun (e : Nat × GroupSt) => e.2.prog == h && e.2.plan.isSome) s.serve.groups with
  | some (g, _) => s.setProg { s.prog with serveNext := s.prog.serveNext.set g (h, 0) }
  | none => s.retireProg h

/-- Event 7: programs, regions, window, save area and keys of the function go; its long operations end without OP_DONE, its mailbox is
at reset values, its accounting is closed. -/
def State.clearFunction (s : State) (f : Fn) : State :=
  let s := (s.handlesOf f).foldl (fun s h => s.resetProg h) s
  let kept := (s.handlesOf f).flatMap (fun h => ((s.progAt h).map (·.regions)).getD [])
  let s := s.setTier { s.tier with regions := List.filter (fun e => e.2.fn != f || kept.contains e.1) s.tier.regions }
  let n := s.windowNeed f
  let s := s.shrinkWindow f (min n (s.window f.val).size)
  let s := s.setProg { s.prog with saves := if n = 0 then s.prog.saves.del f else s.prog.saves, keys := s.prog.keys.del f }
  let s := (List.range 4).foldl (fun s j => s.commitKey f j 0) s
  let k := s.keeper
  let s := s.setKeeper { k with ops := k.ops.filter (fun o => o.fn != f), mbox := k.mbox.del f, deferred := k.deferred.filter (fun e => e.fn != f.val) }
  s.closeAccount f

/-- Event 9 waits for a serving boundary: the function's requests are marked. -/
def State.markRequests (s : State) (f : Fn) : State :=
  s.setServe { s.serve with reqs := s.serve.reqs.map (fun e => (e.1, if e.2.fn == f then { e.2 with flr := true, ops := [] } else e.2)) }

/-- FLR_KEEPER_CLEAR: events 7 to 9, once the Keeper is free and every grant of the function has met its break point (R299). -/
def execFlrKeeperClear (fn : Fn) (s : State) : Host.Outcome State Fault Refusal :=
  .next (if (s.fnSt fn).resetting && s.keeper.up && !s.keeper.kbusy && !s.ownsGrant fn.val then
      let s := (s.clearFunction fn).markRequests fn
      s.setFnSt fn { s.fnSt fn with resetting := false }
    else s)

/-! ### Power states and messages -/

/-- FUNCTION_POWER_STATE: in D3hot doorbells are ignored and messages withheld; back in D0 the withheld ones are sent (R473). -/
def execFunctionPowerState (fn : Fn) (d3hot : Bool) (s : State) : Host.Outcome State Fault Refusal :=
  let e := s.fnSt fn
  .next (if !s.pwr.hubLit || !s.fnExists fn then s
    else if d3hot then s.setFnSt fn { e with d3hot := true }
    else e.withheld.foldl (fun s v => s.raise fn v) (s.setFnSt fn { e with d3hot := false, withheld := [] }))

/-- MSIX_VECTOR_UNMASK: a pending message is sent (R367). -/
def execMsixVectorUnmask (fn : Fn) (vector : Fin 64) (s : State) : Host.Outcome State Fault Refusal :=
  .next (if s.pwr.hubLit && s.fnExists fn && !(s.fnSt fn).resetting then s.unmask fn vector else s)

end Sys2Proof.Machine
end

