-- ==== Sys2Proof/Machine/Checks.lean ====
section
/-! DEFINITION. The checks of PROG_SUBMIT on a program's queues (R350): hold points, leases, completion codes, the order at
the Target engines and the pack engines. A check answers the first command that fails it: the queue as R350 codes it, and the
index. -/
namespace Sys2Proof.Machine

/-- A command that fails a check: queue code and index. -/
abbrev CheckAt := Nat × Nat

/-- The opcode of a command's first word. -/
def cmdOpc (c : EngCmd) : Nat := fld c.words 0 31 28

/-! ### Check 0x01: hold points (R178) -/

/-- How far a queue gets from position n, when the other queues stand as listed: each command needs its producers passed. -/
def queueRun (m : ProgImage) (q : Nat) (len : Nat) (at_ : Tab Nat) : Nat → Nat → Nat
  | 0, n => n
  | fuel + 1, n =>
    let free := (m.holds.filter (fun h => h.consumer == (q, n))).all (fun h => h.producers.all (fun p => decide (p.2 < at_.get 0 p.1)))
    if n < len && free then queueRun m q len at_ fuel (n + 1) else n

/-- Every queue moves on as far as it can, in turn. -/
def holdRound (m : ProgImage) (at_ : Tab Nat) : Tab Nat :=
  m.queues.foldl (fun t q => t.set (qcode q) (queueRun m (qcode q) q.cmds.length t q.cmds.length (t.get 0 (qcode q)))) at_

/-- Rounds until nothing moves. -/
def holdRounds (m : ProgImage) : Nat → Tab Nat → Tab Nat
  | 0, t => t
  | fuel + 1, t => let u := holdRound m t; if u = t then t else holdRounds m fuel u

/-- The first command that can never start. -/
def checkHolds (m : ProgImage) : Option CheckAt :=
  let t := holdRounds m ((m.queues.map (fun q => q.cmds.length)).sum + 1) []
  (m.queues.find? (fun q => decide (t.get 0 (qcode q) < q.cmds.length))).map (fun q => (qcode q, t.get 0 (qcode q)))

/-! ### Checks 0x02 to 0x04: galleries -/

/-- A queue that carries PRODUCT and DRAIN commands. -/
def isGalleryQueue (q : ProgQueue) : Bool := q.kind == 0 || q.kind == 1

/-- The code of a drain in its gallery's queue (R350 codes it with kind 1). -/
def drainQueue (q : ProgQueue) : Nat := q.tile * 256 + 16 + q.num

/-- An open lease as the check follows it: slot, footprint, tie, shape, mode, and the product that opened it. -/
structure StaticLease where
  first : Nat
  foot : Nat
  tie : Nat
  shape : Shape
  comp : Bool
  index : Nat
deriving DecidableEq, Repr

/-- What a product does to the leases of one array: it joins, or opens. -/
def StaticLease.joins (l : StaticLease) (r : ProductRec) : Bool := l.first == r.tile && r.tie != 0 && l.tie == r.tie

/-- One array's leases after a command of its gallery, and whether the command breaks R76 there. -/
def leaseAfter (i : Nat) (c : EngCmd) (n : Nat) (ls : List StaticLease) : List StaticLease × Bool :=
  if cmdOpc c = 2 then
    let d := drainRec c.words
    if d.aidx = i then (ls.filter (fun l => l.first != d.tile), false) else (ls, false)
  else
    let r := productRec c.words
    if !r.arrays.contains i then (ls, false)
    else match ls.find? (fun l => l.joins r) with
      | some l => (ls, !(l.shape == r.sh && l.comp == r.comp && r.init == 0))
      | none => ({ first := r.tile, foot := r.foot, tie := r.tie, shape := r.sh, comp := r.comp, index := n } :: ls, false)

/-- The leases of one array along a queue; those left at the end were never drained. -/
def leasesAlong (i : Nat) (cmds : List (EngCmd × Nat)) : List StaticLease :=
  cmds.foldl (fun ls (c, n) => (leaseAfter i c n ls).1) []

/-- Check 0x02: a product that opens a lease which no later drain of its tile on the array ends (R77). -/
def checkLeases (m : ProgImage) : Option CheckAt :=
  (m.queues.filter isGalleryQueue).findSome? (fun q =>
    ((List.range 8).flatMap (fun i => (leasesAlong i q.cmds.zipIdx).map (·.index))).foldl
      (fun b n => match b with | some (k, x) => some (k, min x n) | none => some (queueCode q.tile 0 q.num, n)) none)

/-- Whether a program's table serves ACT = CUSTOM on a tile. -/
def ProgImage_custom (m : ProgImage) (t : Nat) : Bool := m.custom.any (fun c => c.1.val == t)

/-- The lease a drain finds, as a lease record for the code. -/
def StaticLease.lease (l : StaticLease) (f : Fn) : Lease :=
  { first := l.first, foot := l.foot, shape := l.shape, comp := l.comp, tie := l.tie, fn := f, handle := 0, drained := false,
    mism := 0, log := [], overflowed := false, marked := false, held := none }

/-- Check 0x03 over one queue: the first command that would complete with a code from 0x01 to 0x06 (R79, R113). -/
def galleryCodes (m : ProgImage) (f : Fn) (win : Window) (q : ProgQueue) : List (EngCmd × Nat) → Tab (List StaticLease) → Option CheckAt
  | [], _ => none
  | (c, n) :: rest, ls =>
    let bad :=
      if cmdOpc c = 2 then
        let d := drainRec c.words
        d.ownCode c.ext win (ProgImage_custom m q.tile) (((ls.get [] d.aidx).find? (fun l => l.first == d.tile)).map (fun l => l.lease f)) != 0
      else
        let r := productRec c.words
        r.code win != 0 || r.arrays.any (fun i => (leaseAfter i c n (ls.get [] i)).2)
    if bad then some (if cmdOpc c = 2 then drainQueue q else queueCode q.tile 0 q.num, n)
    else galleryCodes m f win q rest ((List.range 8).foldl (fun t i => t.set i (leaseAfter i c n (ls.get [] i)).1) ls)

def checkCodes (m : ProgImage) (f : Fn) (win : Window) : Option CheckAt :=
  (m.queues.filter isGalleryQueue).findSome? (fun q => galleryCodes m f win q q.cmds.zipIdx [])

/-! ### Check 0x04: Target engines (R121, R122, R143) -/

/-- The drains to a Target or sampler engine of one array, in order: the record, the queue code and the index. -/
def targetDrains (m : ProgImage) (t g i : Nat) : List (DrainRec × CheckAt) :=
  (m.queues.filter (fun q => isGalleryQueue q && q.tile == t && q.num == g)).flatMap (fun q =>
    q.cmds.zipIdx.filterMap (fun (c, n) =>
      let d := drainRec c.words
      if cmdOpc c = 2 && d.dest = 2 && d.aidx = i then some (d, (drainQueue q, n)) else none))

/-- Positions and vocabulary entries of a drain's tile (R120). -/
def DrainRec.positions (d : DrainRec) : List Nat :=
  (List.range (if d.vside then d.sh.cols else d.sh.rows)).map (fun j => (d.pidx + j) % 65536)
def DrainRec.nvoc (d : DrainRec) : Nat := if d.vside then d.sh.rows else d.sh.cols

/-- The mode a position is in (key 4 × 65,536 + position): 0 none, 1 TEACHER, 2 STUDENT_NORM, 3 STUDENT_GRAD; SAMPLE has positions of its
own. -/
def modeAfter (tmode : Nat) (last : Bool) : Nat := if tmode = 0 then b2n (!last) else if tmode = 1 then (if last then 3 else 2) else if last then 0 else 3
def modeOf (e : Tab Nat) (p : Nat) : Nat := e.get 0 (4 * 65536 + p)

/-- Expected indices by mode and position, and each position's mode; a position that has had its last tile expects 0 again (R121). -/
def expectAfter (vsize : Nat) (e : Tab Nat) (d : DrainRec) : Tab Nat :=
  d.positions.foldl (fun e p =>
    let v := d.vidx + d.nvoc
    let e := e.set (d.tmode * 65536 + p) (if vsize ≤ v then 0 else v)
    if d.tmode = 3 then e else e.set (4 * 65536 + p) (modeAfter d.tmode (decide (vsize ≤ v)))) e

/-- Whether the engine accepts a drain's tile: it is next for each of its positions (R121), which are in the mode the tile meets or may
open in it (R122, R130, R131). -/
def acceptable (e : Tab Nat) (d : DrainRec) : Bool :=
  d.positions.all (fun p => e.get 0 (d.tmode * 65536 + p) == d.vidx &&
    (match d.tmode with
     | 0 => decide (modeOf e p ≤ 1)
     | 1 => modeOf e p == 0 || modeOf e p == 2
     | 2 => modeOf e p == 3
     | _ => true))

/-- Heads of the arrays' sequences that the engine accepts, in turn; what is left can never be accepted. -/
def acceptRound (vsize : Nat) : List (List (DrainRec × CheckAt)) → Tab Nat → List (List (DrainRec × CheckAt)) × Tab Nat
  | [], e => ([], e)
  | [] :: rest, e => let (r, e) := acceptRound vsize rest e; ([] :: r, e)
  | (d :: ds) :: rest, e =>
    let ok := acceptable e d.1
    let e := if ok then expectAfter vsize e d.1 else e
    let (r, e) := acceptRound vsize rest e
    ((if ok then ds else d :: ds) :: r, e)

def acceptRounds (vsize : Nat) : Nat → List (List (DrainRec × CheckAt)) → Tab Nat → List (List (DrainRec × CheckAt))
  | 0, qs, _ => qs
  | fuel + 1, qs, e =>
    let (r, e) := acceptRound vsize qs e
    if r = qs then qs else acceptRounds vsize fuel r e

/-- SSRC = 1 tiles by SHARE tag that one array of a gallery takes (R143). -/
def sharedTiles (m : ProgImage) (t g i tag : Nat) : Nat :=
  ((m.queues.filter (fun q => isGalleryQueue q && q.tile == t && q.num == g)).flatMap (fun q => q.cmds)).foldl (fun n c =>
    let r := productRec c.words
    if cmdOpc c = 1 && r.ssrc && r.share = tag && r.arrays.contains i then n + r.kblk else n) 0

/-- The first SSRC = 1 command of a SHARE tag whose twin arrays take different numbers of tiles. -/
def checkShares (m : ProgImage) : Option CheckAt :=
  (m.queues.filter isGalleryQueue).findSome? (fun q => q.cmds.zipIdx.findSome? (fun (c, n) =>
    let r := productRec c.words
    if cmdOpc c = 1 && r.ssrc && r.share != 0 && r.arrays.any (fun i =>
        sharedTiles m q.tile q.num (i / 2 * 2) r.share != sharedTiles m q.tile q.num (i / 2 * 2 + 1) r.share)
    then some (queueCode q.tile 0 q.num, n) else none))

/-- Check 0x04. -/
def checkTarget (m : ProgImage) (vsize : Nat → Nat) : Option CheckAt :=
  let bad := (m.queues.filter isGalleryQueue).findSome? (fun q => q.cmds.zipIdx.findSome? (fun (c, n) =>
    let d := drainRec c.words
    if cmdOpc c = 2 && d.dest = 2 && d.targetBad (vsize q.tile) then some (drainQueue q, n) else none))
  let stuck := (List.range 4).findSome? (fun t =>
    let qs := (List.range 80).map (fun a => targetDrains m t (a / 8) (a % 8))
    (acceptRounds (vsize t) ((qs.map (·.length)).sum + 1) qs []).findSome? (fun l => l.head?.map (·.2)))
  (bad.or stuck).or (checkShares m)

/-! ### Check 0x05: pack engines (R195) -/

/-- How far a program has come when each command runs as soon as it may: how many commands each queue has started, how many of those
each array has run, the commands completed, and the open SAVE_DRAINs of each pack engine with the tiles they still expect. -/
structure PackWalk where
  started : Tab Nat
  ran : Tab Nat
  done : List (Nat × Nat)
  open_ : Tab (List (Nat × Word × Nat))
deriving DecidableEq, Repr

/-- The pack engine a gallery's drains go to (R187). -/
def packOf (q : ProgQueue) : Nat := q.tile * 2 + q.num % 2

/-- The array indices a gallery command goes to. -/
def cmdArrays (c : EngCmd) : List Nat := if cmdOpc c = 2 then [(drainRec c.words).aidx] else (productRec c.words).arrays

/-- A queue's next command starts once its producers have completed (R178). A SAVE_DRAIN opens while fewer than eight are open on its
engine (R195); what is neither it nor a gallery's command completes at once. -/
def PackWalk.start (m : ProgImage) (x : PackWalk) (q : ProgQueue) : PackWalk :=
  let n := x.started.get 0 (qcode q)
  let free := (m.holds.filter (fun h => h.consumer == (qcode q, n))).all (fun h => h.producers.all x.done.contains)
  match q.cmds[n]? with
  | none => x
  | some c =>
    let y := { x with started := x.started.set (qcode q) (n + 1) }
    let k := q.tile * 2 + q.num
    let r := packRec c.words
    if !free then x
    else if isGalleryQueue q then (if (cmdArrays c).isEmpty then { y with done := (qcode q, n) :: y.done } else y)
    else if q.kind = 3 && cmdOpc c = 1 && r.ntr != 0 then
      (if (x.open_.get [] k).length < 8 then { y with open_ := y.open_.set k (x.open_.get [] k ++ [(n, r.tid, r.ntr)]) } else x)
    else { y with done := (qcode q, n) :: y.done }

/-- The first open SAVE_DRAIN of a tensor takes a tile, and completes with its last. -/
def takeTile (tid : Word) : List (Nat × Word × Nat) → Option (Option Nat × List (Nat × Word × Nat))
  | [] => none
  | (n, t, k) :: r =>
    if t = tid then some (if k ≤ 1 then (some n, r) else (none, (n, t, k - 1) :: r))
    else (takeTile tid r).map (fun (d, r) => (d, (n, t, k) :: r))

/-- The commands of a gallery that one of its arrays has still to run, of those started. -/
def PackWalk.waiting (x : PackWalk) (q : ProgQueue) (i : Nat) : List (EngCmd × Nat) :=
  ((q.cmds.zipIdx.take (x.started.get 0 (qcode q))).filter (fun (c, _) => (cmdArrays c).contains i)).drop
    (x.ran.get 0 (qcode q * 8 + i))

/-- Whether a command has run on every array it goes to. -/
def PackWalk.allRan (x : PackWalk) (q : ProgQueue) (n : Nat) (c : EngCmd) : Bool :=
  (cmdArrays c).all (fun i => !((x.waiting q i).any (fun w => w.2 == n)))

/-- An array runs its next command; a drain to the pack engine waits on its drain path for a SAVE_DRAIN of its tensor. -/
def PackWalk.run (x : PackWalk) (q : ProgQueue) (i : Nat) : PackWalk :=
  match (x.waiting q i).head? with
  | none => x
  | some (c, n) =>
    let k := packOf q
    let step (x : PackWalk) : PackWalk :=
      let x := { x with ran := x.ran.upd 0 (qcode q * 8 + i) (· + 1) }
      if x.allRan q n c then { x with done := (qcode q, n) :: x.done } else x
    if cmdOpc c = 2 && (drainRec c.words).toPack then
      match takeTile (extTid c.ext) (x.open_.get [] k) with
      | none => x
      | some (d, o) =>
        let x := { x with open_ := x.open_.set k o }
        step (match d with | some j => { x with done := (queueCode q.tile 3 (q.num % 2), j) :: x.done } | none => x)
    else step x

/-- Every queue and every array moves on once, as far as it may. -/
def PackWalk.round (m : ProgImage) (x : PackWalk) : PackWalk :=
  let x := m.queues.foldl (PackWalk.start m) x
  (m.queues.filter isGalleryQueue).foldl (fun x q => (List.range 8).foldl (fun x i => x.run q i) x) x
def PackWalk.rounds (m : ProgImage) : Nat → PackWalk → PackWalk
  | 0, x => x
  | fuel + 1, x => let y := x.round m; if y = x then x else PackWalk.rounds m fuel y

/-- Check 0x05: the first drain to a pack engine that waits for ever: none of the open SAVE_DRAINs is its tensor's, and none that is
still to open ever does. -/
def checkPack (m : ProgImage) : Option CheckAt :=
  let x := PackWalk.rounds m (((m.queues.map (fun q => 9 * q.cmds.length)).sum) + 1) { started := [], ran := [], done := [], open_ := [] }
  (m.queues.filter isGalleryQueue).findSome? (fun q => (List.range 8).findSome? (fun i =>
    match (x.waiting q i).head? with
    | some (c, n) => if cmdOpc c = 2 && (drainRec c.words).toPack then some (drainQueue q, n) else none
    | none => none))

/-! ### Check 0x0B: vector, pack and copy queues (R170, R195, R232, R285) -/

/-- A vector queue, following VXE_LEN where an immediate sets it; n is none once a compress count has. -/
def vectorCodes (m : ProgImage) (q : ProgQueue) : List (EngCmd × Nat) → Option Nat → Option CheckAt
  | [], _ => none
  | (c, k) :: rest, n =>
    let bad (b : Bool) (n : Option Nat) : Option CheckAt := if b then some (qcode q, k) else vectorCodes m q rest n
    match cmdOpc c with
    | 1 => bad ((chainRec c.words).code (n.getD 0) (n.getD 0) != 0) n
    | 2 =>
      let r := fld c.words 0 26 0 != 0 || fld c.words 1 31 24 != 0 || (List.range 14).any (fun i => c.words.getD (2 + i) 0 != 0)
      bad r (if flag c.words 0 27 then none else some (fld c.words 1 23 0))
    | 3 =>
      let r := updRec c.words
      bad (r.code q.tile (m.groups.find? (fun g => g.desc == r.desc)) != 0) n
    | _ => some (qcode q, k)

/-- Check 0x0B. -/
def State.checkEngines (s : State) (m : ProgImage) : Option CheckAt :=
  m.queues.findSome? (fun q =>
    if q.kind = 2 then vectorCodes m q q.cmds.zipIdx (some 0)
    else if q.kind = 3 then
      q.cmds.zipIdx.findSome? (fun (c, n) =>
        let o := cmdOpc c
        if !(decide (1 ≤ o) && decide (o ≤ 3)) || (packRec c.words).code o != 0 then some (qcode q, n) else none)
    else if q.kind = 7 then
      q.cmds.zipIdx.findSome? (fun (c, n) =>
        let r := copyRec c.words
        let fill := r.opc == 2
        if r.code fill (s.copyPlace r r.src) (s.copyPlace r r.dst) != 0 then some (qcode q, n) else none)
    else none)

end Sys2Proof.Machine
end

