-- ==== Sys2Proof/Machine/Sampler.lean ====
section
/-! DEFINITION. The sampler engines (R267, R268) and the verification of drafts (R271, R272). -/
namespace Sys2Proof.Machine

/-! ### Random draws (R268) -/

/-- u of a stream, position and word of the generator, exact in X32. -/
def drawU (seed : DWord) (stream : Word) (position word : Nat) : X32 :=
  let w := bitsOf (generate seed stream position) (32 * word + 31) (32 * word)
  toX32 (.fin false (2 * (w / 512) + 1) (-24))

/-! ### A position's running state (R267) -/

def Req.greedy (q : Req) : Bool := (ofFP32 q.temp).isZero

/-- The scaled logit y. -/
def Req.scaled (q : Req) (z : X32) : X32 := if q.greedy then z else xmul z (toX32 (FVal.div .one (ofFP32 q.temp)))

/-- One logit: the online maximum and sum, the best candidate, and the top set. -/
def sampleLogit (q : Req) (t : Nat) (o : SampPos) (v : Nat) (z : X32) : SampPos :=
  if (ofX32 z).special then { o with bad := true }
  else
    let y := q.scaled z
    let (m, s) := if (ofX32 o.m).lt (ofX32 y) then (y, xmul o.s (xexp (xsub o.m y))) else (o.m, o.s)
    let o := { o with m := m, s := xadd s (xexp (xsub y m)) }
    let key := if q.greedy then z
      else
        let u := drawU q.seed 1 (t * 2 ^ 16 + v / 4) (v % 4)
        xadd y (toX32 (ofX32 (xlog (toX32 (ofX32 (xlog u)).neg))).neg)
    let better := !o.bestSeen || (ofX32 o.best).lt (ofX32 key)
    if !q.greedy && q.topk != 0 then { o with top := topAdd q.topk v y o.top }
    else if better then { o with best := key, bestV := v, bestSeen := true, pickY := y } else o

/-- The shortest prefix of ranks whose sum of p reaches topp, or every rank, and the sum (R267). -/
def keepPrefix (topp : FVal) : X32 → List (Nat × X32) → List (Nat × X32) × X32
  | acc, [] => ([], acc)
  | acc, (v, p) :: r =>
    let acc := xadd acc p
    if (ofX32 acc).lt topp then
      let (ks, tot) := keepPrefix topp acc r
      ((v, p) :: ks, tot)
    else ([(v, p)], acc)

/-- The rank walk: the first rank whose running sum reaches x, or the last (R267). -/
def rankWalk (x : X32) : X32 → List (Nat × X32) → Nat
  | _, [] => 0
  | _, [(v, _)] => v
  | acc, (v, p) :: r => let acc := xadd acc p; if (ofX32 acc).lt (ofX32 x) then rankWalk x acc r else v

/-- A draw over ranks whose probabilities sum to total: x = u · total. -/
def drawRank (u total : X32) (ks : List (Nat × X32)) : Nat := rankWalk (xmul u total) 0 ks

/-- A log-probability as it is written: FP32 (R269). -/
def logWord (x : X32) : Word := toFP32 (ofX32 x)

/-- The draw position of a role (R267, R271). -/
def drawPosition (t : Nat) : SampleRole → Nat
  | .draft _ => t * 2 ^ 8 + 1
  | _ => t * 2 ^ 8

/-- The token of a position whose vocabulary is complete, and the distribution it was drawn from, renormalised. -/
def finishSample (q : Req) (x : SampleSlot) (o : SampPos) : Drawn :=
  let d : Drawn := { req := x.req, t := x.t, role := x.role, token := o.bestV, logp := 0, kept := [(o.bestV, xOne)], bad := o.bad }
  if o.bad then d
  else if q.greedy || q.topk == 0 then { d with logp := logWord (xsub o.pickY (xadd o.m (xlog o.s))) }
  else
    let ps := o.top.map (fun e => (e.1, xdiv (xexp (xsub e.2 o.m)) o.s))
    let (ks, total) := keepPrefix (ofFP32 q.topp) 0 ps
    let v := drawRank (drawU q.seed 2 (drawPosition x.t x.role) 0) total ks
    let ns := ks.map (fun e => (e.1, xdiv e.2 total))
    let pv := ((ns.find? (fun e => e.1 == v)).map (·.2)).getD 0
    { d with token := v, kept := ns, logp := logWord (xlog pv) }

/-! ### SAMPLE_TILE -/

/-- A sampler engine. -/
def State.sampler (s : State) (t : Nat) : SampSt := s.serve.samp.get {} t
def State.setSampler (s : State) (t : Nat) (v : SampSt) : State := s.setServe { s.serve with samp := s.serve.samp.set t v }

/-- The sampled position a position index stands for in the formed steps (R246, R249). -/
def State.sampleSlot (s : State) (t p : Nat) : Option SampleSlot :=
  (s.serve.groups.flatMap (fun e => match e.2.plan with | some pl => pl.slots | none => [])).find? (fun x => x.tile == t && x.pidx == p)

/-- The vocabulary size of the pairing, which both models share (R12). -/
def State.vocab (s : State) : Nat := (s.pair.student.map (·.vocab)).getD 0

def SampSt.at_ (e : SampSt) (p : Nat) : SampPos := (e.open_.find? (fun o => o.pidx == p)).getD { pidx := p, m := xNegInf }
def SampSt.put (e : SampSt) (o : SampPos) : SampSt := { e with open_ := e.open_.filter (fun x => x.pidx != o.pidx) ++ [o] }

/-- One position line of an accepted tile; at VEND its token is drawn, and a NaN or infinite logit posts SAMPLE_NAN and, unless it
was a drafter's, ends the request (R267, R271). -/
def State.sampleLine (s : State) (t : Nat) (b : BusTile) (j : Nat) : State :=
  let p := b.pos j
  let e := s.sampler t
  let o := e.at_ p
  match s.sampleSlot t p with
  | none => s.setSampler t (if (drainRec b.words).vend then { e with open_ := e.open_.filter (fun x => x.pidx != p) } else e.put { o with expect := b.nextV })
  | some x =>
    match s.req? x.req with
    | none => s
    | some q =>
      let o := { (b.logits s.vocab j).foldl (fun o (v, z) => sampleLogit q x.t o v z) o with expect := b.nextV }
      if !(drainRec b.words).vend then s.setSampler t (e.put o)
      else
        let d := finishSample q x o
        let s := s.setSampler t { e with open_ := e.open_.filter (fun y => y.pidx != p), drawn := e.drawn ++ [d] }
        if !d.bad then s
        else
          let s := s.healthEvent 0x108 t x.req 0 1
          match x.role with
          | .draft _ | .treeDraft _ => s
          | _ => s.setGroup q.group { s.group q.group with badReqs := unionNat [x.req] (s.group q.group).badReqs }

/-- SAMPLE_TILE (R267): accepted in ascending vocabulary order for every position of the tile, at most 640 positions open; a tile
that is not yet next waits on the drain bus, and one below the expected index fails with FMT (R121, R122). -/
def execSampleTile (t : TileIx) (a : Fin 80) (s : State) : Host.Outcome State Fault Refusal :=
  match s.busTile t a 3 with
  | none => .next s
  | some b =>
    let r := drainRec b.words
    let e := s.sampler t
    let ps := (List.range b.npos).map b.pos
    let expects := ps.map (fun p => (e.at_ p).expect)
    let fresh := ps.filter (fun p => !e.open_.any (fun o => o.pidx == p))
    if expects.any (fun x => decide (r.vidx < x)) then .next (s.busFail t b)
    else if expects.any (fun x => x != r.vidx) || decide (640 < e.open_.length + fresh.length) then .next s
    else .next (((List.range b.npos).foldl (fun s j => s.sampleLine t b j) (s.busTake t b)).keysSettle t)

/-! ### Verification (R272) -/

/-- A token to commit: whether it was drafted, and its log-probability. -/
structure Accepted where
  token : Nat
  drafted : Bool
  logp : Word
deriving DecidableEq, Repr

/-- The probability a distribution gives a token. -/
def probOf (ks : List (Nat × X32)) (v : Nat) : X32 := ((ks.find? (fun e => e.1 == v)).map (·.2)).getD 0

/-- Entries by descending value, among equals by ascending token (R125, R272). -/
def rankInsert (e : Nat × X32) : List (Nat × X32) → List (Nat × X32)
  | [] => [e]
  | x :: r =>
    if (ofX32 x.2).lt (ofX32 e.2) || (!(ofX32 e.2).lt (ofX32 x.2) && decide (e.1 < x.1)) then e :: x :: r
    else x :: rankInsert e r

/-- The residual max(0, p − q) over both kept sets, ordered and normalised. -/
def residual (p q : List (Nat × X32)) : List (Nat × X32) :=
  let vs := unionNat (p.map (·.1)) (unionNat (q.map (·.1)) [])
  let es := (vs.map (fun v => (v, xsub (probOf p v) (probOf q v)))).filter (fun e => FVal.lt .zero (ofX32 e.2))
  let es := es.foldr rankInsert []
  let sum := es.foldl (fun acc e => xadd acc e.2) 0
  es.map (fun e => (e.1, xdiv e.2 sum))

/-- Where rounding leaves no residual the manual states no token: a free choice among the verifier's kept tokens, the same for the same
request in any step mix (R268; log entry 3). -/
def openToken (q : Req) (t : Nat) (p : Drawn) : Nat :=
  (p.kept.getD (Config.residualPick q.seed t (p.kept.map (·.1)) % p.kept.length) (p.token, 0)).1

/-- The token of a rejected draft. -/
def residualToken (q : Req) (p d : Drawn) : Nat :=
  let r := residual p.kept d.kept
  if r.isEmpty then openToken q p.t p
  else drawRank (drawU q.seed 4 (p.t * 2 ^ 8) 0) (r.foldl (fun acc e => xadd acc e.2) 0) r

/-- The log-probability of a token under the verifier's distribution (R269). -/
def verifierLogp (q : Req) (p : Drawn) (v : Nat) : Word := if q.greedy then p.logp else logWord (xlog (probOf p.kept v))

/-- Rejection sampling over the drafts: ds holds the drafts in order, ps the verifier's draws at the same positions and one
beyond. A withdrawn draft (bad) ends the drafts: the next token is drawn from p there (R271). -/
def verifyDrafts (q : Req) : List Drawn → List Drawn → List Accepted
  | _, [] => []
  | [], p :: _ => [{ token := p.token, drafted := false, logp := p.logp }]
  | d :: ds, p :: ps =>
    if d.bad then [{ token := p.token, drafted := false, logp := p.logp }]
    else
      let u := drawU q.seed 3 (p.t * 2 ^ 8) 0
      if (ofX32 (xmul u (probOf d.kept d.token))).lt (ofX32 (probOf p.kept d.token)) then
        { token := d.token, drafted := true, logp := verifierLogp q p d.token } :: verifyDrafts q ds ps
      else
        let v := residualToken q p d
        [{ token := v, drafted := false, logp := verifierLogp q p v }]

/-! ### Trees of candidates (R274) -/

/-- The children of a node in drawing order; parents lists the parents of nodes 1 on, and node 0 is the root. -/
def childrenOf (parents : List Nat) (node : Nat) : List Nat :=
  (parents.zipIdx.filter (fun e => e.1 == node)).map (fun e => e.2 + 1)
/-- The depth of a node. -/
def depthOf (parents : List Nat) : Nat → Nat → Nat
  | 0, _ => 0
  | fuel + 1, node => if node = 0 then 0 else 1 + depthOf parents fuel (parents.getD (node - 1) 0)
/-- Whether a tree keeps the limits: up to 64 nodes, a depth of up to 8, up to 4 children a node, every parent before its children. -/
def treeOk (parents : List Nat) : Bool :=
  decide (parents.length < 64) && parents.zipIdx.all (fun e => decide (e.1 ≤ e.2)) &&
    (List.range (parents.length + 1)).all (fun n => decide ((childrenOf parents n).length ≤ 4) && decide (depthOf parents 64 n ≤ 8))

/-- The sum of a distribution's entries, in order. -/
def rankTotal (ks : List (Nat × X32)) : X32 := ks.foldl (fun acc e => xadd acc e.2) 0
/-- A distribution without a token, normalised in its order (R272, R274). -/
def without (ks : List (Nat × X32)) (v : Nat) : List (Nat × X32) :=
  let es := ks.filter (fun e => e.1 != v)
  es.map (fun e => (e.1, xdiv e.2 (rankTotal es)))

/-- The tokens of n children of a node, drawn from the drafter's distribution without replacement; t is their sequence position. -/
def drawChildren (q : Req) (t : Nat) : Nat → Nat → List (Nat × X32) → List Nat
  | 0, _, _ => []
  | n + 1, k, ks =>
    if ks.isEmpty then []
    else
      let v := drawRank (drawU q.seed 2 (t * 2 ^ 8 + 8 + k) 0) (rankTotal ks) ks
      v :: drawChildren q t n (k + 1) (without ks v)

/-- The children tried in drawing order: the one accepted, or what is left of the verifier's distribution. -/
def tryChildren (q : Req) (t : Nat) : Nat → List (Nat × X32) → List (Nat × X32) → List (Nat × Nat) → (Nat × Nat) ⊕ List (Nat × X32)
  | _, p, _, [] => .inr p
  | k, p, d, (node, v) :: r =>
    if (ofX32 (xmul (drawU q.seed 3 (t * 2 ^ 8 + k) 0) (probOf d v))).lt (ofX32 (probOf p v)) then .inl (node, v)
    else tryChildren q t (k + 1) (residual p d) (without d v) r

/-- The tokens a tree commits, from a node down, and the nodes accepted. draft and verify give the distributions drawn at a node; a
drafter's distribution with a NaN or an infinity has no children (R271). -/
def verifyTree (q : Req) (parents : List Nat) (draft verify : Nat → Option Drawn) : Nat → Nat → Nat → List Accepted × List Nat
  | 0, _, _ => ([], [])
  | fuel + 1, node, t =>
    match verify node with
    | none => ([], [])
    | some p =>
      let d := match draft node with | some d => if d.bad then [] else d.kept | none => []
      let cs := childrenOf parents node
      match tryChildren q t 0 p.kept d (cs.zip (drawChildren q t cs.length 0 d)) with
      | .inl (child, v) =>
        let (as, ns) := verifyTree q parents draft verify fuel child (t + 1)
        ({ token := v, drafted := true, logp := verifierLogp q p v } :: as, child :: ns)
      | .inr ks =>
        let v := if ks.isEmpty then openToken q t p
          else drawRank (drawU q.seed 4 (t * 2 ^ 8) 0) (rankTotal ks) ks
        ([{ token := v, drafted := false, logp := verifierLogp q p v }], [])

end Sys2Proof.Machine
end

