-- ==== Sys2Proof/Machine/Serving.lean ====
section
/-! DEFINITION. Serving (chapter 9): requests, customers, pages, and the serving step boundary. -/
namespace Sys2Proof.Machine

/-! ### Pages (R251) -/

/-- The local address of a page of a group's pool: near pages in turn over the pool's areas, far pages in order. -/
def State.pageAddr (s : State) (g : Nat) (c : ServingCfg) (idx : Nat) : Nat :=
  let k := idx - s.pageIndex0 g
  let n := max 1 c.pageBase.length
  if k < c.pagesNear then c.pageBase.getD (k % n) 0 + k / n * s.pageSize c else c.farBase + (k - c.pagesNear) * s.pageSize c

/-! ### Requests -/

/-- Draft tokens of the next step: D, reduced so that GEN + D + 1 does not exceed MAXNEW (R271); a tree request has a tree instead. -/
def Req.drafts (q : Req) : Nat := if q.tree then 0 else min q.draft (q.maxnew - q.gen - 1)
/-- Whether its tokens are verified in trees; the whole vocabulary is never drafted from (R271, R274). -/
def Req.treed (q : Req) : Bool := q.tree && (q.topk != 0 || (ofFP32 q.temp).isZero)
/-- Whether the request holds pages and takes part in steps once it is neither deferred nor held. -/
def Req.running (q : Req) : Bool :=
  q.status == .prefill || q.status == .decode || (q.status == .deferred && q.before != .queued)
/-- A request-table entry (R255). -/
def State.reqEntry (s : State) (q : Req) : List Byte :=
  let w0 := q.status.code * 2 ^ 28 + q.cancel.code * 2 ^ 26 + q.reason.code * 2 ^ 24 + q.cust * 2 ^ 16 + q.group * 2 ^ 14 + b2n q.teacher * 2 ^ 13 +
    b2n q.learn * 2 ^ 12 + b2n q.logp * 2 ^ 11 + b2n q.tree * 2 ^ 10 + b2n q.held * 2 ^ 9 + q.fn.val * 2 ^ 4
  let w8 := q.topk + q.draft * 2 ^ 9 + q.eos.length * 2 ^ 13 + q.stops.length * 2 ^ 16
  leBytes 4 w0 ++ leBytes 4 q.reqid.toNat ++ leBytes 4 q.len ++ leBytes 4 q.prompt.length ++ leBytes 4 q.maxnew ++ leBytes 4 q.gen ++
    leBytes 4 q.temp.toNat ++ leBytes 4 q.topp.toNat ++ leBytes 4 w8 ++ leBytes 8 q.seed.toNat ++ leBytes 8 q.deadline ++
    leBytes 8 (s.age q) ++ leBytes 4 q.pdir ++ ((List.range 4).flatMap (fun i => leBytes 4 (q.eos.getD i 0 % 2 ^ 18))) ++
    leBytes 4 q.stoptab ++ leBytes 8 q.outbuf ++ leBytes 4 q.outcap ++ List.replicate 32 0

/-- Requests of a group, with their indices. -/
def State.reqsOf (s : State) (g : Nat) : List (Nat × Req) := List.filter (fun e => e.2.group == g) s.serve.reqs

/-- Requests in rising order of a key. -/
def insertReq (key : Req → Nat) (e : Nat × Req) : List (Nat × Req) → List (Nat × Req)
  | [] => [e]
  | x :: r => if key e.2 < key x.2 then e :: x :: r else x :: insertReq key e r
def sortReqs (key : Req → Nat) (es : List (Nat × Req)) : List (Nat × Req) := es.foldr (insertReq key) []

/-! ### JOIN (R256, R354) -/

/-- The stop table in memory (R270): 17 words for each sequence. -/
def stopEntry (p : List Byte) (i : Nat) : List Nat :=
  let o := 72 + 68 * i
  (List.range (min 16 (fieldAt p o 4))).map (fun j => fieldAt p (o + 4 + 4 * j) 4)

/-- Whether an FP32 word lies from lo to hi. -/
def fpWithin (w : Word) (lo hi : FVal) : Bool := let v := ofFP32 w; !v.isNan && !(v.lt lo) && !(hi.lt v)

/-- The length, sampling and draft conditions of a JOIN (R255, R256, R270, R354). -/
def joinFieldsOk (p : List Byte) (nstop : Nat) : Bool :=
  let prompt := fieldAt p 8 4
  let maxnew := fieldAt p 12 4
  let temp : Word := BitVec.ofNat 32 (fieldAt p 16 4)
  let topp : Word := BitVec.ofNat 32 (fieldAt p 20 4)
  let topk := fieldAt p 24 2
  let draft := fieldAt p 26 1
  let greedy := (ofFP32 temp).isZero
  reservedZero p 72 [(0, 6), (8, 21), (32, 36)] && fieldAt p 5 1 < 8 && decide (1 ≤ prompt) && decide (1 ≤ maxnew) &&
    decide (prompt + maxnew ≤ 262144) && decide (maxnew ≤ fieldAt p 64 4) && (greedy || fpWithin temp (.fin false 1 (-4)) (.ofNat 16)) &&
    fpWithin topp .zero .one && !(ofFP32 topp).isZero && decide (topk ≤ 256) && decide (draft ≤ 8) && decide (fieldAt p 27 1 ≤ 4) && decide (nstop ≤ 8) &&
    !((ofFP32 topp).lt .one && topk == 0) && !(decide (0 < draft) && topk == 0 && !greedy) &&
    (List.range nstop).all (fun i => let n := fieldAt p (72 + 68 * i) 4; decide (1 ≤ n) && decide (n ≤ 16))

/-- Free pages of a group. -/
def State.freePages (s : State) (g : Nat) : Nat := (s.group g).freeNear.length + (s.group g).freeFar.length

/-- The group a request runs on: the most free pages, the lowest index among equals, of those whose program serves its model
(R244). -/
def State.chooseGroup (s : State) (teacher : Bool) : Option Nat :=
  let gs := (List.range 4).filter (fun g => match s.servingCfg g with | some c => !teacher || c.modelTeacherOk | none => false)
  match gs with
  | [] => none
  | g :: r => some (r.foldl (fun b x => if s.freePages b < s.freePages x then x else b) g)

/-- Places for a request's page directory and stop table in a scratchpad (R252, R270). -/
def State.placeTables (s : State) (home nstop : Nat) : Option (Nat × Nat) :=
  match s.place 2 home 4096 4096 with
  | none => none
  | some pd =>
    some (pd, (lowestFree ((pd, 4096) :: s.held) (spadBase home) (spadBase home + spadEnd) 64 (max 64 (68 * nstop))).getD pd)

/-- JOIN. -/
def execJoin (m : MCmd) (s : State) : Host.Outcome State Fault Refusal :=
  let p := m.payload
  let nstop := fieldAt p 28 1
  .next (s.intake (.join m) m 0x300 false (lenIs m (72 + 68 * nstop) 2) (fun s =>
    let ds := descsAt p (72 + 68 * nstop) 2
    let prompt := fieldAt p 8 4
    let learn := bitOf (fieldAt p 5 1) 1
    let teacher := bitOf (fieldAt p 5 1) 0
    let logp := bitOf (fieldAt p 5 1) 2
    let outcap := fieldAt p 64 4
    let outs := cmdExtents m ds 1
    if !descsOk s m ds [false, true] || decide (extentBytes (cmdExtents m ds 0) < 4 * prompt) ||
        decide (extentBytes outs < outcap * (if logp then 8 else 4)) then s.complete m codeDescriptor []
    else if s.pair.state ≠ .resident then s.complete m codeState []
    else if !joinFieldsOk p nstop then s.complete m codeField []
    else if s.inputLost m ds then s.complete m codeDataLost []
    else if (s.serve.cust.get {} (fieldAt p 4 1)).fn != some m.fn then s.complete m codeNoObject []
    else
      match s.serve.reqs.freeFrom 4096 0 with
      | none => s.complete m codeCapacity []
      | some i =>
        if i ≥ 4096 then s.complete m codeCapacity []
        else if learn && !s.run.active then s.complete m codeState []
        else
          match s.chooseGroup teacher with
          | none => s.complete m codeState []
          | some g =>
            let home := s.firstTile g
            let stops := (List.range nstop).map (stopEntry p)
            match s.placeTables home nstop with
            | none => s.complete m codeCapacity []
            | some (pd, st) =>
              let q : Req :=
                { status := .queued, before := .queued, cancel := .none_, reason := .none_, cust := fieldAt p 4 1, group := g
                  teacher := teacher, learn := learn, logp := logp, tree := false, held := false, fn := m.fn
                  reqid := BitVec.ofNat 32 (fieldAt p 0 4), len := 0
                  prompt := (List.range prompt).map (fun j => fieldAt (m.reads.getD 0 []) (4 * j) 4 % 2 ^ 18)
                  maxnew := fieldAt p 12 4, temp := BitVec.ofNat 32 (fieldAt p 16 4), topp := BitVec.ofNat 32 (fieldAt p 20 4)
                  topk := fieldAt p 24 2, draft := fieldAt p 26 1, seed := BitVec.ofNat 64 (fieldAt p 32 8)
                  deadline := fieldAt p 40 8, accepted := s.watch home, order := s.serve.order, admitted := 0
                  pdir := pd - spadBase home, eos := (List.range (fieldAt p 27 1)).map (fun j => fieldAt p (48 + 4 * j) 4)
                  stops := stops, stoptab := st - spadBase home, outbuf := (ds.getD 1 (descOf [])).addr, outcap := outcap
                  generated := [], written := 0, done := 0, pages := [], heldSteps := 0, expired := false, late := false
                  charged := 0, ops := [], beforeClose := !s.serve.batchClosed, rebuild := 0, home := home, outExts := outs
                  flr := false, doomed := false, pageless := false }
              let mem : Mem := Mem.writeN s.mem pd (List.replicate 4096 0)
              let s := s.setMem (Mem.writeN mem st (((p.drop 72).take (68 * nstop))))
              let s := s.setServe { s.serve with reqs := s.serve.reqs.set i q, order := s.serve.order + 1 }
              s.complete m codeOk (leBytes 2 i ++ leBytes 1 g)))

/-! ### CANCEL, PAUSE, REQ_STATUS, BATCH_CLOSE (R245, R258, R259, R355) -/

/-- The request a command names by INDEX and REQID: of its own function, or any for the physical function (R339, R355). -/
def State.reqNamed (s : State) (m : MCmd) : Option (Nat × Req) :=
  let i := fieldAt m.payload 0 2
  match s.req? i with
  | none => none
  | some q => if q.reqid.toNat == fieldAt m.payload 4 4 && (m.fn.val == 0 || q.fn == m.fn) then some (i, q) else none

/-- A cancel or a pause noted for the next boundary. -/
def State.noteReqOp (s : State) (m : MCmd) (isPause : Bool) : State :=
  if s.pair.state ≠ .resident then s.complete m codeState []
  else if !reservedZero m.payload 8 [(0, 2), (4, 4)] then s.complete m codeField []
  else
    match s.reqNamed m with
    | none => s.complete m codeNoObject []
    | some (i, q) =>
      let q := { q with ops := q.ops ++ [{ isPause := isPause, fn := m.fn, seq := m.seq }],
                        cancel := if !isPause && q.cancel == .none_ then .pending else q.cancel }
      (s.setReq i q).accept m (if isPause then .pause else .cancel) (if isPause then 0x302 else 0x301)

/-- CANCEL. -/
def execCancel (m : MCmd) (s : State) : Host.Outcome State Fault Refusal :=
  .next (s.intake (.cancel m) m 0x301 false (lenIs m 8 0) (fun s => s.noteReqOp m false))

/-- PAUSE. -/
def execPause (m : MCmd) (s : State) : Host.Outcome State Fault Refusal :=
  .next (s.intake (.pause m) m 0x302 false (lenIs m 8 0) (fun s => s.noteReqOp m true))

/-- REQ_STATUS. -/
def execReqStatus (m : MCmd) (s : State) : Host.Outcome State Fault Refusal :=
  .next (s.intake (.reqStatus m) m 0x304 false (lenIs m 8 0) (fun s =>
    if s.pair.state ≠ .resident then s.complete m codeState []
    else if !reservedZero m.payload 8 [(0, 2), (4, 4)] then s.complete m codeField []
    else
      match s.reqNamed m with
      | none => s.complete m codeNoObject []
      | some (_, q) => s.complete m codeOk (s.reqEntry q)))

/-- BATCH_CLOSE. -/
def execBatchClose (m : MCmd) (s : State) : Host.Outcome State Fault Refusal :=
  .next (s.intake (.batchClose m) m 0x303 true (lenIs m 0 0) (fun s =>
    if s.pair.state ≠ .resident || !s.run.active || s.serve.batchClosed then s.complete m codeState []
    else (s.setServe { s.serve with batchClosed := true }).complete m codeOk []))

/-! ### Customers and budgets (R264, R265, R356) -/

def State.customer (s : State) (c : Nat) : Cust := s.serve.cust.get {} c
def State.setCustomer (s : State) (c : Nat) (v : Cust) : State := s.setServe { s.serve with cust := s.serve.cust.set c v }

/-- A signed 64-bit number of a payload. -/
def signed64 (n : Nat) : Int := if n < 2 ^ 63 then n else (n : Int) - 2 ^ 64
/-- Its two's complement. -/
def bits64 (v : Int) : Nat := (v % 2 ^ 64).toNat

/-- One refill; ADD saturates at 2^63 − 1 (R356). -/
def Cust.refill (c : Cust) (r : Refill) : Cust :=
  { c with budget := if r.add then min (c.budget + r.value) (2 ^ 63 - 1) else r.value }

/-- Whether a group runs a step with a request of the customer. -/
def State.custInStep (s : State) (c : Nat) : Bool :=
  List.any s.serve.reqs (fun e => e.2.cust == c && !e.2.status.terminal && (s.group e.2.group).plan.isSome)

/-- CUST_BIND. -/
def execCustBind (m : MCmd) (s : State) : Host.Outcome State Fault Refusal :=
  let p := m.payload
  .next (s.intake (.custBind m) m 0x305 true (lenIs m 8 0) (fun s =>
    let c := fieldAt p 0 1
    let f := fieldAt p 1 1
    if s.pair.state ≠ .resident then s.complete m codeState []
    else if !reservedZero p 8 [(0, 2)] then s.complete m codeField []
    else if h : f < 17 then
      if List.any s.serve.reqs (fun e => e.2.cust == c && !e.2.status.terminal) then s.complete m codeState []
      else (s.setCustomer c { s.customer c with fn := some ⟨f, h⟩, charged := 0 }).complete m codeOk []
    else s.complete m codeField []))

/-- BUDGET_REFILL: queued for event 10 of the next boundary, or applied at once when no group runs a step with a request of the
customer. -/
def execBudgetRefill (m : MCmd) (s : State) : Host.Outcome State Fault Refusal :=
  let p := m.payload
  .next (s.intake (.budgetRefill m) m 0x306 true (lenIs m 16 0) (fun s =>
    let c := fieldAt p 0 1
    if s.pair.state ≠ .resident then s.complete m codeState []
    else if !reservedZero p 16 [(0, 2), (8, 8)] || decide (fieldAt p 1 1 > 1) then s.complete m codeField []
    else
      let r : Refill := { add := fieldAt p 1 1 == 1, value := signed64 (fieldAt p 8 8) }
      let v := s.customer c
      (s.setCustomer c (if s.custInStep c then { v with refills := v.refills ++ [r] } else v.refill r)).complete m codeOk []))

/-- BUDGET_READ: a customer bound to the issuing function, or any for the physical function (R339). -/
def execBudgetRead (m : MCmd) (s : State) : Host.Outcome State Fault Refusal :=
  let p := m.payload
  .next (s.intake (.budgetRead m) m 0x307 false (lenIs m 8 0) (fun s =>
    let v := s.customer (fieldAt p 0 1)
    if s.pair.state ≠ .resident then s.complete m codeState []
    else if !reservedZero p 8 [(0, 1)] then s.complete m codeField []
    else if m.fn.val != 0 && v.fn != some m.fn then s.complete m codeNoObject []
    else s.complete m codeOk (leBytes 8 (bits64 v.budget) ++ leBytes 8 v.charged ++ leBytes 1 (b2n v.deferred))))

/-! ### Pages (R251, R252, R254) -/

/-- Pages it reserves at admission (R254, R274). -/
def Req.reservation (q : Req) (grow : Bool) : Nat :=
  pagesFor (if grow then max (q.prompt.length + 1) (q.rebuild + 1) else q.prompt.length + q.maxnew + 1) + b2n q.tree

/-- One more page for a request: near while one is free, else far (R251); its table entry and directory word. -/
def State.givePage (s : State) (i : Nat) (q : Req) (c : ServingCfg) : Option (State × Req) :=
  let g := s.group q.group
  let take : Option (Nat × GroupSt × Bool) := match g.freeNear, g.freeFar with
    | k :: r, _ => some (k, { g with freeNear := r }, false)
    | [], k :: r => some (k, { g with freeFar := r }, true)
    | [], [] => none
  match take with
  | none => none
  | some (k, g, far) =>
    let j := q.pages.length
    let a := s.pageAddr q.group c k
    let s := s.setGroup q.group g
    let s := s.setServe { s.serve with pages := s.serve.pages.set k { valid := true, far := far, req := i, seqPage := j, addr := a } }
    let s := s.setMem (Mem.writeN s.mem (spadBase q.home + q.pdir + 4 * j) (leBytes 4 (2 ^ 31 + k)))
    some (s, { q with pages := q.pages ++ [k] })

/-- Pages until the request has n of them; false where the pool ran out. -/
def State.givePages : Nat → State → Nat → Req → ServingCfg → Nat → State × Req × Bool
  | 0, s, _, q, _, n => (s, q, decide (n ≤ q.pages.length))
  | fuel + 1, s, i, q, c, n =>
    if n ≤ q.pages.length then (s, q, true)
    else
      match s.givePage i q c with
      | none => (s, q, false)
      | some (s, q) => State.givePages fuel s i q c n

/-! ### Events 5 and 6: verification and outputs (R247, R269, R270, R272) -/

/-- The finish reason of a request whose generated tokens end with the newest (R270). -/
def Req.stopReason (q : Req) : Reason :=
  let gs := q.generated
  match gs.getLast? with
  | none => .none_
  | some t =>
    if q.eos.any (fun e => e % 2 ^ 18 == t) then .eos
    else if q.stops.any (fun x => !x.isEmpty && decide (x.length ≤ gs.length) && gs.drop (gs.length - x.length) == x.map (· % 2 ^ 18)) then .stopseq
    else if q.maxnew ≤ gs.length then .maxlen
    else .none_

/-- The record of a committed token (R269). -/
def Req.outRecord (q : Req) (a : Accepted) (last : Bool) : List Byte :=
  let w := b2n q.late * 2 ^ 31 + b2n last * 2 ^ 30 + b2n a.drafted * 2 ^ 29 + a.token % 2 ^ 18
  leBytes 4 w ++ (if q.logp then leBytes 4 a.logp.toNat else [])

/-- Tokens committed in order until one stops the request; what is written to the output buffer. -/
def Req.commitTokens (q : Req) : List Accepted → Req × List Byte
  | [] => (q, [])
  | a :: r =>
    let q1 := { q with generated := q.generated ++ [a.token] }
    let why := q1.stopReason
    if why == .none_ then
      let (q2, bs) := Req.commitTokens q1 r
      (q2, q1.outRecord a false ++ bs)
    else ({ q1 with status := .finished, reason := why }, q1.outRecord a true)

/-- Records written to a request's output buffer. -/
def State.writeRecords (s : State) (q : Req) (bs : List Byte) : State :=
  if bs.isEmpty then s else s.writeOut (skipExtents q.outExts (q.written * (if q.logp then 8 else 4))) bs

/-- The drawn token of a slot. -/
def findDrawn (ds : List Drawn) (i : Nat) (role : SampleRole) : Option Drawn := ds.find? (fun d => d.req == i && d.role == role)

/-- The tokens a decode part commits (R271, R272). -/
def decodeTokens (q : Req) (i n : Nat) (ds : List Drawn) : List Accepted :=
  if n = 0 then
    match findDrawn ds i .plain with
    | some d => [{ token := d.token, drafted := false, logp := d.logp }]
    | none => []
  else
    verifyDrafts q ((List.range n).filterMap (fun k => findDrawn ds i (.draft (k + 1))))
      ((List.range (n + 1)).filterMap (fun k => findDrawn ds i (.verify k)))

/-! The cache of a request (R250, R252): a slot of a page holds one position's entries, one after another (DESIGN CHOICE, log entry 24). -/

/-- Bytes of one position across all layers, and the local address of a position's entries. -/
def posBytes (d : ModelDims) (bf16 : Bool) : Nat :=
  let n := d.layers * 2 * d.kvheads * d.headw
  if bf16 then 2 * n else cdiv (33 * n) 32
def State.kvAt (s : State) (q : Req) (c : ServingCfg) (per pos : Nat) : Option Nat :=
  (q.pages[pos / 256]?).map (fun k => s.pageAddr q.group c k + pos % 256 * per)

/-- The copy engines move an accepted path's entries to consecutive slots after the root's, the j-th node of the path to the j-th (R274). -/
def State.movePath (s : State) (q : Req) (path : List Nat) : State :=
  match s.servingCfg q.group, (if q.teacher then s.pair.teacher else s.pair.student) with
  | some c, some d =>
    let per := posBytes d c.kvBf16
    s.setMem (path.zipIdx.foldl (fun mem (node, j) =>
      match s.kvAt q c per (q.len + node), s.kvAt q c per (q.len + j + 1) with
      | some a, some b => if a = b then mem else Mem.writeN mem b (Mem.readN mem a per)
      | _, _ => mem) s.mem)
  | _, _ => s

/-- A request's tokens commit: the records are written, and a LEARN request that has FINISHED joins the batch (R245, R269). -/
def State.commitOut (s : State) (i : Nat) (q q' : Req) (bs : List Byte) (len : Nat) : State :=
  let q' := { q' with written := q.written + (q'.gen - q.gen), len := len }
  let s := (s.writeRecords q bs).setReq i q'
  if q'.learn && q'.status == .finished then s.setServe { s.serve with finished := s.serve.finished ++ [q'] } else s

/-- A part's effect on its request (event 6). A late prefill chunk delivers no token (R262); a request whose function is being reset
takes none (R387). -/
def State.commitPart (s : State) (x : StepPart) (ds : List Drawn) : State :=
  match s.req? x.req with
  | none => s
  | some q =>
    if q.status.terminal || q.flr || (s.fnSt q.fn).resetting then s
    else if x.prefill then
      let done := q.done + x.positions
      if q.rebuild ≠ 0 then
        let q := if q.rebuild ≤ done then
            { q with done := q.rebuild, len := q.rebuild, rebuild := 0, held := false, status := if q.gen = 0 then q.status else .decode }
          else { q with done := done }
        s.setReq x.req q
      else
        let q := { q with done := done, len := done }
        if !x.last || q.late then s.setReq x.req q
        else
          let (q', bs) := ({ q with status := .decode } : Req).commitTokens (decodeTokens q x.req 0 ds)
          s.commitOut x.req q q' bs q.len
    else if q.expired && !q.late then s
    else
      let (as, path) := if q.treed then
          verifyTree q x.tree (fun k => findDrawn ds x.req (.treeDraft k)) (fun k => findDrawn ds x.req (.treeVerify k)) 9 0 (q.prompt.length + q.gen)
        else (decodeTokens q x.req x.drafts ds, [])
      let (q', bs) := q.commitTokens as
      let n := q'.gen - q.gen
      (s.movePath q (path.take (n - 1))).commitOut x.req q q' bs (q.len + n)

/-! ### Events 7 to 9 -/

/-- OP_DONE of a cancel or a pause (R355). -/
def State.reqOpDone (s : State) (o : ReqOp) (code : Nat) : State :=
  s.opDone { kind := if o.isPause then .pause else .cancel, fn := o.fn, seq := o.seq, opcode := if o.isPause then 0x302 else 0x301, payload := [] } code

/-- The cancels and pauses of a request in the order they arrived (event 8). -/
def State.applyOps (s : State) (i : Nat) : List ReqOp → State
  | [] => s
  | o :: r =>
    let s := match s.req? i with
      | none => s
      | some q =>
        if o.isPause then
          if q.status.terminal then s.reqOpDone o codeState else (s.setReq i { q with status := .paused }).reqOpDone o codeOk
        else
          let q := if q.status.terminal then (if q.cancel == .pending then { q with cancel := .tooLate } else q)
            else { q with status := .cancelled, cancel := .applied }
          (s.setReq i q).reqOpDone o codeOk
    State.applyOps s i r

/-- A change to every request of a group that is not terminal. -/
def State.mapLive (s : State) (g : Nat) (f : Nat → Req → Req) : State :=
  s.setServe { s.serve with reqs := s.serve.reqs.map (fun (i, q) => (i, if q.group == g && !q.status.terminal then f i q else q)) }

/-- Whether a request ends NOPAGES at this boundary: it is HELD for its 64th step (R254). -/
def Req.spent (q : Req) : Bool := q.held && q.rebuild == 0 && (q.pageless || decide (64 ≤ q.heldSteps))

/-- Whether the ROLLOUT ends at a boundary of group g (R245): the batch is closed, and its LEARN requests are terminal or become so at
events 9 and 11 of this boundary. bad lists the requests that a page fault or a sampler ends. -/
def State.rolloutOver (s : State) (g : Nat) (bad : List Nat) : Bool :=
  s.run.active && s.serve.rollout && s.serve.batchClosed &&
    List.all s.serve.reqs (fun (i, q) => !q.learn || !q.beforeClose || q.status.terminal ||
      (q.group == g && (bad.contains i || q.flr || q.doomed || q.spent)))

/-- The ROLLOUT ends (R29 event 4): other requests become PAUSED at event 8, its FINISHED requests form the batch, and the batch opens again for
the requests that wait. A pipelined run's first step goes on with the ROLLOUT of the next batch (R25; log entry 66). -/
def State.endRollout (s : State) : State :=
  let reqs := s.serve.reqs.map (fun (i, q) => (i,
    if q.learn then { q with beforeClose := true } else if q.status.terminal then q else { q with status := ReqStatus.paused }))
  let serve := { s.serve with reqs := reqs, rollout := false, rolling := [], batchClosed := false, batch := s.serve.finished, finished := [] }
  let s := (s.setServe serve).phaseStop .rollout
  let s := s.setRun { s.run with rolls := s.run.rolls + 1 }
  match s.progAt s.run.prog with
  | some p => if p.img.pipelined != 0 && decide (s.run.rolls < p.rounds + 2) then s.startRollouts else s
  | none => s

/-! ### Event 10: budgets (R264, R265) -/

/-- The customers of a group's requests and of its step, rising. -/
def State.groupCusts (s : State) (g : Nat) (parts : List StepPart) : List Nat := unionNat (parts.map (·.cust)) (unionNat ((s.reqsOf g).map (fun e => e.2.cust)) [])

/-- A request deferred, or back in the status it held before. -/
def deferReq (on : Bool) (q : Req) : Req :=
  if on then (if q.status == .deferred then q else { q with before := q.status, status := .deferred })
  else if q.status == .deferred then { q with status := q.before } else q

/-- A customer's refills, charge and deferral, which reaches its requests in every group (R265). parts are the parts of the group's step. -/
def State.chargeCust (s : State) (parts : List StepPart) (c : Nat) : State :=
  let mine := parts.filter (fun x => x.cust == c)
  let n : Nat := (mine.map (fun x => x.positions)).sum
  let pre : Nat := ((mine.filter (fun x => x.prefill)).map (fun x => x.positions)).sum
  let v := s.customer c
  let v : Cust := { v.refills.foldl Cust.refill v with refills := [] }
  let v : Cust := { v with budget := v.budget - (n : Int), charged := satAdd64 v.charged n }
  let on : Bool := decide (v.budget ≤ (0 : Int))
  let changed := on != v.deferred
  let s := s.setCustomer c { v with deferred := on }
  let s := mine.foldl (fun s x => match s.req? x.req with
    | some q => s.setReq x.req { q with charged := q.charged + x.positions }
    | none => s) s
  let a := s.fnp.cust.get {} c
  let s := s.setFnp { s.fnp with cust := s.fnp.cust.set c { a with prefill := satAdd64 a.prefill pre, decode := satAdd64 a.decode (n - pre) } }
  let reqs := s.serve.reqs.map (fun (i, q) => (i, if q.cust == c && !q.status.terminal then deferReq on q else q))
  let s := s.setServe { s.serve with reqs := reqs }
  match changed, v.fn with
  | true, some f => s.post f.val 0x0B 0 (leBytes 1 c ++ leBytes 1 (b2n on) ++ List.replicate 22 0)
  | _, _ => s

/-! ### Events 11 to 14 -/

/-- What event 11 takes back from the requests that stay: the pages of one that is prefilled again from its start, and, under GROW, pages
wholly beyond the length of one whose positions the step verified (R273); a tree request keeps its extra page (R274). -/
def State.trims (s : State) (g : Nat) (parts : List StepPart) : State :=
  match s.servingCfg g with
  | none => s
  | some c =>
    (s.reqsOf g).foldl (fun s (i, q) =>
      if q.rebuild ≠ 0 && q.done == 0 then
        let (s, q) := s.trimPages q 0
        s.setReq i q
      else if c.grow && q.rebuild == 0 && parts.any (fun x => x.req == i && !x.prefill) then
        let (s, q) := s.trimPages q (pagesFor q.len + b2n q.tree)
        s.setReq i q
      else s) s

/-- Pages a running request must have for its next step. -/
def Req.pagesNeeded (q : Req) (grow : Bool) : Nat :=
  if !grow then q.reservation false
  else if q.rebuild ≠ 0 then pagesFor (q.rebuild + 1) + b2n q.tree
  else if q.status == .decode then max q.pages.length (pagesFor (q.len + 1 + q.drafts) + b2n q.tree)
  else q.pages.length

/-- Event 12: growth in admission order; a request left without its pages is HELD, and its held steps are counted (R254). -/
def State.growth (s : State) (g : Nat) (c : ServingCfg) : State :=
  (sortReqs (·.admitted) (s.reqsOf g)).foldl (fun s (i, _) =>
    match s.req? i with
    | none => s
    | some q =>
      if !(q.status == .prefill || q.status == .decode) then s
      else
        let (s, q, ok) := State.givePages 1024 s i q c (q.pagesNeeded c.grow)
        s.setReq i (if ok then { q with held := q.rebuild != 0 && !q.tree, heldSteps := 0 } else { q with held := true, heldSteps := q.heldSteps + 1 })) s

/-- The decode positions of a request at their full 1 + D, or a tree's 64 nodes (R246, R274). -/
def Req.width (q : Req) : Nat := if q.tree then 64 else 1 + q.draft
/-- The decode positions of a group's running requests. -/
def State.decodePositions (s : State) (g : Nat) : Nat := (((s.reqsOf g).filter (fun e => e.2.running)).map (fun e => e.2.width)).sum

/-- Event 13: QUEUED requests admitted in order until one does not fit (R245, R256). -/
def State.joins (s : State) (g : Nat) (c : ServingCfg) : List Nat → State
  | [] => s
  | i :: r =>
    match s.req? i with
    | none => State.joins s g c r
    | some q =>
      if q.status != .queued || (q.learn && s.run.active && s.serve.batchClosed && !q.beforeClose) then State.joins s g c r
      else
        let need := q.reservation c.grow
        let free := s.freePages g
        if free < need || (c.grow && decide (free - need < c.reserve)) || decide (c.stepTokens < s.decodePositions g + q.width + 32) then s
        else
          let (s, q, _) := State.givePages 1024 s i q c need
          let s := s.setReq i { q with status := .prefill, admitted := s.serve.order }
          State.joins (s.setServe { s.serve with order := s.serve.order + 1 }) g c r

/-- Whether a serving step may be formed on a group: outside a run, or once its ROLLOUT has begun on the group's tiles (R26, R244). -/
def State.mayStep (s : State) (g : Nat) : Bool :=
  !s.run.active || (s.serve.rollout && (List.range (s.groupTiles g)).all (fun i => s.serve.rolling.contains (s.firstTile g + i)))

/-- CHUNK, by default 2,048 (R246). -/
def ServingCfg_chunk (c : ServingCfg) : Nat := if c.chunk = 0 then 2048 else c.chunk

/-- Event 1: parts of the next step (R246): decode positions, then prefill chunks in admission order while room is left. -/
def formPrefill (c : ServingCfg) : Nat → List (Nat × Req) → List StepPart
  | _, [] => []
  | room, (i, q) :: r =>
    let total := if q.rebuild ≠ 0 then q.rebuild else q.prompt.length
    let n := min (min (ServingCfg_chunk c) (total - q.done)) room
    if n = 0 then formPrefill c room r
    else { req := i, prefill := true, positions := n, drafts := 0, last := q.rebuild == 0 && q.done + n == total, cust := q.cust } :: formPrefill c (room - n) r

/-- The sampled positions of a part, before they are numbered. -/
def partSlots (s : State) (x : StepPart) : List (Nat × Nat × SampleRole) :=
  match s.req? x.req with
  | none => []
  | some q =>
    let t := q.prompt.length + q.gen
    if x.prefill then (if x.last then [(x.req, t, .plain)] else [])
    else if q.treed then
      ((List.range (x.tree.length + 1)).filter (fun k => !(childrenOf x.tree k).isEmpty)).map (fun k =>
          (x.req, t + depthOf x.tree 64 k, SampleRole.treeDraft k)) ++
        (List.range (x.tree.length + 1)).map (fun k => (x.req, t + depthOf x.tree 64 k, SampleRole.treeVerify k))
    else if x.drafts = 0 then [(x.req, t, .plain)]
    else (List.range x.drafts).map (fun k => (x.req, t + k, SampleRole.draft (k + 1))) ++
      (List.range (x.drafts + 1)).map (fun k => (x.req, t + k, SampleRole.verify k))

/-- The next step of a group, if a request takes part. Sampled position k of a step carries index k / n on the k mod n-th of the
group's n tiles (DESIGN CHOICE, log entry 24). trees gives the shapes of the trees that the Keeper verifies (R274). -/
def State.formStep (s : State) (g : Nat) (trees : List (Nat × List Nat)) : Option StepPlan :=
  match s.servingCfg g with
  | none => none
  | some c =>
    let rs := sortReqs (·.admitted) (s.reqsOf g)
    let shape (i : Nat) (q : Req) : List Nat :=
      match trees.find? (fun x => x.1 == i) with | some (_, ps) => if q.treed && treeOk ps then ps else [] | none => []
    let dec := (rs.filter (fun e => e.2.status == .decode && !e.2.held && e.2.rebuild == 0)).map (fun (i, q) =>
      ({ req := i, prefill := false, positions := 1 + q.drafts + (shape i q).length, drafts := q.drafts, last := false, tree := shape i q, cust := q.cust } : StepPart))
    let used := (dec.map (·.positions)).sum
    let pre := rs.filter (fun e =>
      if e.2.rebuild = 0 then e.2.status == .prefill && !e.2.held
      else (e.2.status == .prefill || e.2.status == .decode) && decide (pagesFor e.2.rebuild ≤ e.2.pages.length))
    let parts := dec ++ formPrefill c (c.stepTokens - used) pre
    if parts.isEmpty || !s.mayStep g then none
    else
      let n := s.groupTiles g
      let slots := (parts.flatMap (partSlots s)).zipIdx.map (fun ((i, t, role), k) =>
        ({ tile := s.firstTile g + k % n, pidx := k / n, req := i, t := t, role := role } : SampleSlot))
      some { parts := parts, slots := slots, startedAt := s.watch (s.firstTile g) }

/-- Whether every sampled position of the step has its token (events 4 and 5 of R249). -/
def stepDone (pl : StepPlan) (ds : List Drawn) (skip : List Nat) : Bool :=
  pl.slots.all (fun x => skip.contains x.req || (findDrawn ds x.req x.role).isSome)

/-- Whether the page walk of sequence page j of a request fails: the directory word, then the page-table entry (R252, R253). -/
def State.walkFails (s : State) (i : Nat) (q : Req) (j : Nat) : Bool :=
  let w := (Mem.word s.mem (spadBase q.home + q.pdir + 4 * j)).toNat
  let e := s.serve.pages.get {} (w % 2 ^ 16)
  !bitOf w 31 || !e.valid || e.req != i || e.seqPage != j || e.far != decide (farBase ≤ e.addr)
/-- Whether a walk for the positions of a part fails (event 2 of R249). -/
def State.partFaults (s : State) (x : StepPart) : Bool :=
  match s.req? x.req with
  | some q => !q.status.terminal && (List.range (pagesFor ((if x.prefill then q.done else q.len) + x.positions))).any (s.walkFails x.req q)
  | none => false

/-- A request whose page walk failed (R253): PAGE_FAULT names it, and the health record counts it. -/
def State.pageFault (s : State) (i : Nat) : State :=
  let s := s.setHealth { s.health with pageFaults := s.health.pageFaults + 1 }
  s.healthEvent 0x107 0xFF i 0 1

/-- A request with a KV page that failed persistently is HELD and prefilled again up to LEN ("Situations at the edges"). -/
def State.kvFault (s : State) (g i : Nat) : State :=
  match s.req? i with
  | some q => if q.group == g && q.running && q.len != 0 then s.setReq i { q with held := true, rebuild := q.len, done := 0 } else s
  | none => s

/-- The running requests of a group that hold a page with a persistently failed unit ("Situations at the edges"). -/
def State.kvHit (s : State) (g : Nat) : List Nat :=
  match s.servingCfg g with
  | none => []
  | some c =>
    ((s.reqsOf g).filter (fun e => e.2.rebuild == 0 && s.tier.failed.any (fun f =>
      e.2.pages.any (fun k => let a := s.pageAddr g c k; decide (a < f.unit + unitSize f.unit) && decide (f.unit < a + s.pageSize c))))).map (·.1)

/-- The step's parts commit unless a page walk stopped it (R253), but for requests that end or are prefilled again. -/
def State.commitParts (s : State) (parts : List StepPart) (ds : List Drawn) (skip : List Nat) : State :=
  (parts.filter (fun p => !skip.contains p.req)).foldl (fun s p => s.commitPart p ds) s

/-- Drawn tokens of the step leave the samplers. -/
def State.dropDrawn (s : State) (used : List Nat) : State :=
  let samp := s.serve.samp.map (fun x => (x.1, ({ x.2 with drawn := x.2.drawn.filter (fun d => !used.contains d.req) } : SampSt)))
  s.setServe { s.serve with samp := samp }

/-- A request's entry and committed tokens, as the mirror partner keeps them. -/
def State.copyOf (s : State) (q : Req) : Adopted :=
  { module := s.moduleId, order := q.order, fn := q.fn, cust := q.cust, reqid := q.reqid, teacher := q.teacher, logp := q.logp, prompt := q.prompt
    generated := q.generated, maxnew := q.maxnew, temp := q.temp, topp := q.topp, topk := q.topk, draft := q.draft, seed := q.seed
    deadline := q.deadline, age := s.age q, eos := q.eos, stops := q.stops, outbuf := q.outbuf, outcap := q.outcap, outExts := q.outExts
    ended := q.status.terminal }

/-- LEARN requests' entries and tokens go to the mirror partner, those that end at this boundary among them (R276). -/
def State.sendCopies (s : State) (g : Nat) : State :=
  let qs := ((sortReqs (·.order) (s.reqsOf g)).map (·.2)).filter (·.learn)
  if s.run.active && !s.alone && !qs.isEmpty then s.send (.requestCopy (qs.map s.copyOf)) else s

/-- Events 12 and 13. -/
def State.growAndJoin (s : State) (g : Nat) : State :=
  match s.servingCfg g with
  | none => s
  | some c =>
    let s := s.growth g c
    let anyHeld := (s.reqsOf g).any (fun e => e.2.held)
    if anyHeld || !s.mayStep g then s else s.joins g c ((sortReqs (·.order) (s.reqsOf g)).map (·.1))

/-- Event 8, and the operations are done. -/
def State.cancelsAndPauses (s : State) (g : Nat) : State :=
  let s := (s.reqsOf g).foldl (fun s e => s.applyOps e.1 e.2.ops) s
  s.setServe { s.serve with reqs := s.serve.reqs.map (fun x => (x.1, if x.2.group == g then { x.2 with ops := [] } else x.2)) }

/-- A stop table as it lies in the scratchpad (R270). -/
def stopTable (xs : List (List Nat)) : List Byte :=
  xs.flatMap (fun x => leBytes 4 x.length ++ (List.range 16).flatMap (fun i => leBytes 4 (x.getD i 0)))

/-- A request of a failed partner adopted at the n-th place of the queue: its cache is prefilled again from the prompt and the committed
tokens, and the rest is generated with tree verification (R276). None where the table, a group or the scratchpad has no place for it. -/
def State.adoptOne (s : State) (n : Nat) (a : Adopted) : Option State :=
  match s.serve.reqs.freeFrom 4096 0, s.chooseGroup a.teacher with
  | some i, some g =>
    let home := s.firstTile g
    if 4096 ≤ i then none
    else (s.placeTables home a.stops.length).map (fun (pd, st) =>
      let q : Req :=
        { status := .queued, before := .queued, cancel := .none_, reason := .none_, cust := a.cust, group := g
          teacher := a.teacher, learn := true, logp := a.logp, tree := true, held := false, fn := a.fn, reqid := a.reqid, len := 0
          prompt := a.prompt, maxnew := a.maxnew, temp := a.temp, topp := a.topp, topk := a.topk, draft := a.draft, seed := a.seed
          deadline := a.deadline, accepted := s.watch home - a.age, order := n, admitted := 0, pdir := pd - spadBase home, eos := a.eos
          stops := a.stops, stoptab := st - spadBase home, outbuf := a.outbuf, outcap := a.outcap, generated := a.generated
          written := a.generated.length, done := 0, pages := [], heldSteps := 0, expired := false, late := false, charged := 0, ops := []
          beforeClose := true, rebuild := if a.generated.isEmpty then 0 else a.prompt.length + a.generated.length - 1, home := home
          outExts := a.outExts, flr := false, doomed := false, pageless := false }
      let mem : Mem := Mem.writeN s.mem pd (List.replicate 4096 0)
      (s.setMem (mem.writeN st (stopTable a.stops))).setServe { s.serve with reqs := s.serve.reqs.set i q })
  | _, _ => none

/-- The requests kept for a partner that has failed, in their original order. -/
def insertCopy (a : Adopted) : List Adopted → List Adopted
  | [] => [a]
  | x :: r => if a.order < x.order then a :: x :: r else x :: insertCopy a r
def State.toAdopt (s : State) : List Adopted :=
  if !s.run.active then []
  else (s.serve.copies.filter (fun a => s.mirrors a.module && (unionNat s.lead.absent s.run.absent).contains a.module)).foldr insertCopy []

/-- Adopted requests enter in their original order, ahead of the module's own queue (R276); one without a place stays a copy, to be adopted
at a later boundary. -/
def State.adopt (s : State) : State :=
  let xs := s.toAdopt
  if xs.isEmpty then s
  else
    let reqs := s.serve.reqs.map (fun (i, q) => (i, { q with order := q.order + xs.length }))
    let s := s.setServe { s.serve with reqs := reqs, order := s.serve.order + xs.length, copies := s.serve.copies.filter (fun a => !xs.contains a) }
    xs.zipIdx.foldl (fun s (a, n) => (s.adoptOne n a).getD (s.setServe { s.serve with copies := s.serve.copies ++ [a] })) s

/-- SERVING_STEP_BOUNDARY: events 5 to 14 of R249, in order, then the next step is formed. A request whose page walk fails stops the
step (R253); pageFaults: further ones, by damage to the table's memory. A request with a persistently failed KV page is HELD and prefilled again;
kvFailed: further ones, whose pages were recovered meanwhile; trees: the shapes of the next step's trees (R274). -/
def execServingStepBoundary (g : Fin 4) (pageFaults kvFailed treeReqs : List Nat) (trees : List (List Nat)) (s : State) :
    Host.Outcome State Fault Refusal :=
  let owed := s.owe (.servingStepBoundary g pageFaults kvFailed treeReqs trees)
  let x := s.group g
  let walks := match x.plan with | some pl => (pl.parts.filter s.partFaults).map (·.req) | none => []
  let pageFaults := unionNat walks pageFaults
  let kvFailed := if s.tier.failed.isEmpty then kvFailed else unionNat (s.kvHit g) kvFailed
  let parts := match x.plan with | some pl => pl.parts | none => []
  let left := (parts.map (·.req)).filter (fun i => (s.req? i).isNone)
  let ds := ((List.range 4).flatMap (fun t => (s.sampler t).drawn)).filter (fun d => parts.any (fun p => p.req == d.req))
  let ready := match x.plan with | some pl => !pageFaults.isEmpty || stepDone pl ds (kvFailed ++ x.badReqs ++ left) | none => true
  if s.keeper.kbusy then .next owed
  else if !ready then .next s
  else
    let bad := unionNat pageFaults x.badReqs
    let s := pageFaults.foldl State.pageFault s
    let s := kvFailed.foldl (fun s i => s.kvFault g i) s
    let s := if pageFaults.isEmpty then s.commitParts parts ds (bad ++ kvFailed) else s
    let s := s.mapLive g (fun _ q => if q.expired then { q with status := .deadline } else q)
    let s := s.cancelsAndPauses g
    let s := if s.rolloutOver g bad then s.endRollout else s
    let s := s.mapLive g (fun i q => if bad.contains i || q.flr || q.doomed then { q with status := .aborted } else q)
    let s := (s.groupCusts g parts).foldl (fun s c => s.chargeCust (if pageFaults.isEmpty then parts else []) c) s
    let s := s.mapLive g (fun _ q => if q.spent then { q with status := .nopages } else q)
    let (s, gone) := (s.sendCopies g).leaveAll
    let s := (((s.trims g parts).adopt).growAndJoin g).dropDrawn (parts.map (·.req))
    let s := gone.foldl (fun s e => s.reqDone e.1 e.2) s
    let s := s.applyServeReplace g
    .next (s.setGroup g { s.group g with plan := s.formStep g (treeReqs.zip trees), badReqs := [] })

/-- REQUEST_DEADLINE_EXPIRY (R262): during a step that the request takes part in, that step's tokens are LATE. -/
def execRequestDeadlineExpiry (index : Nat) (s : State) : Host.Outcome State Fault Refusal :=
  .next (match s.req? index with
    | none => s
    | some q =>
      if q.status.terminal || q.deadline == 0 || q.expired then s
      else
        let inStep := match (s.group q.group).plan with | some pl => pl.parts.any (fun p => p.req == index) | none => false
        s.setReq index { q with expired := true, late := inStep })

/-- NOPAGES (R254): a request HELD for its 64th step under GROW ends at event 11 of that step's boundary. -/
def execNoPages (index : Nat) (s : State) : Host.Outcome State Fault Refusal :=
  if s.keeper.kbusy then .next (s.owe (.noPages index)) else
  .next (match s.req? index with
    | none => s
    | some q =>
      let grow := match s.servingCfg q.group with | some c => c.grow | none => false
      if grow && q.held && q.rebuild == 0 && 64 ≤ q.heldSteps && (q.status == .prefill || q.status == .decode) then
        s.setReq index { q with pageless := true }
      else s)

end Sys2Proof.Machine
end

