-- ==== Sys2Proof/Machine/Program.lean ====
section
/-! DEFINITION. Programs and runs in the mailbox (R349 to R353, R489): PROG_SUBMIT, PROG_RETIRE, PROG_RESTART, RUN_START,
RUN_STOP and SNAP_REQUEST. -/
namespace Sys2Proof.Machine

/-! ### Admission -/

/-- A program a function may name: its own, or any for the physical function (R339). -/
def State.progFor (s : State) (f : Fn) (h : Nat) : Option Prog :=
  (s.progAt h).bind (fun p => if f.val = 0 || p.fn == f then some p else none)

end Sys2Proof.Machine

namespace Sys2Proof

/-- The TCFG registers an image's target configuration stands for (R145, R146). -/
def TargetCfg.regs (c : TargetCfg) : Machine.Tcfg :=
  { tau := c.tau, alpha := c.alpha, beta := c.beta, gamma := c.gamma, mode := c.mode, vsize := BitVec.ofNat 32 c.vsize,
    ringBase := BitVec.ofNat 32 c.ringBase, ringMib := BitVec.ofNat 32 c.ringMib, posBase := BitVec.ofNat 32 c.posBase,
    lossBase := BitVec.ofNat 32 c.lossBase, spillBase := BitVec.ofNat 32 c.spillBase, spillLog2 := BitVec.ofNat 32 c.spillLog2 }

/-- Whether a table meets R116: 15 boundaries that ascend strictly and 64 coefficients, every value finite. -/
def CustTable.ok (c : CustTable) : Bool :=
  c.bnd.length == 15 && c.coef.length == 64 && (c.bnd ++ c.coef).all (fun w => !(Machine.ofFP32 w).special) &&
    (c.bnd.zip c.bnd.tail).all (fun (x, y) => (Machine.ofFP32 x).lt (Machine.ofFP32 y))

/-- A group as the image's UPDATE commands name it: a mirror copy where they set MIRROR (R230). -/
def ProgImage.mirrored (m : ProgImage) (d : GroupDesc) : GroupDesc :=
  let rs := (m.queues.filter (fun q => q.kind == 2)).flatMap (fun q => (q.cmds.filter (fun c => Machine.cmdOpc c == 3)).map (fun c => Machine.updRec c.words))
  let mine := rs.filter (fun r => r.desc == d.desc)
  if mine.isEmpty then d else { d with mirror := mine.any (·.mirror) }

/-- Whether a program serves only: a tile group and no LEARN phase. -/
def ProgImage.servingOnly (m : ProgImage) : Bool := !m.learn && m.serving.isSome

end Sys2Proof

namespace Sys2Proof.Machine

/-- The groups an image carries meet the checks of their commit groups (R116, R147, R304): otherwise FIELD (log entry 25). -/
def groupsOk (m : ProgImage) : Bool :=
  m.custom.all (fun c => c.2.ok) && (match m.target with | some c => c.regs.valid | none => true) &&
    m.prio.all (fun (n, i, b) => decide (n < 43) && decide (i < 48) && decide (b ≤ 7))

/-- What an image declares lies in the range the spec gives it: a tile group of 1, 2 or 4 tiles (R20), a teacher gallery count of at most 9
that divides the galleries between SCORE and LEARN (R24), and at most four producers of a hold point (R178): otherwise FIELD (log
entry 25). -/
def declaresOk (m : ProgImage) : Bool :=
  (m.tileGroup == 1 || m.tileGroup == 2 || m.tileGroup == 4) && decide (m.pipelined ≤ 9) && m.holds.all (fun h => decide (h.producers.length ≤ 4)) &&
    (m.pipelined == 0 || (m.queues.filter isGalleryQueue).all (fun q => q.cmds.all (fun c =>
      !(c.phase == 1 && decide (m.pipelined ≤ q.num)) && !(c.phase == 2 && decide (q.num < m.pipelined)))))

/-- Another admitted program, other than the one replaced, uses CUSTOM on a tile of this one's (R117). -/
def State.customBusy (s : State) (m : ProgImage) (replaced : Nat) : Bool :=
  List.any s.prog.progs (fun e => e.1 != replaced && e.2.img.custom.any (fun c => m.custom.any (fun d => d.1 == c.1)))

/-- VSIZE on a tile: the image's, or the one in force. -/
def State.vsizeFor (s : State) (m : ProgImage) (t : Nat) : Nat :=
  match m.target with
  | some c => c.vsize
  | none => (s.target t).active.vsize.toNat

/-- The regions of a memory plan, placed one after another; none where one does not fit. -/
def State.placePlan (s : State) (f : Fn) (h : Nat) : List PlanRegion → List Nat → Option (State × List Nat)
  | [], ks => some (s, ks)
  | r :: rs, ks =>
    match s.place r.tier r.tile 1 r.length with
    | none => none
    | some a =>
      let g : Region := { tier := r.tier, tile := if r.tier = 1 then 0 else r.tile, base := a, length := roundUp r.length (tierRange r.tier r.tile).2.2,
                          cls := r.cls, fn := f, source := classSource r.cls, prog := h }
      match s.addRegion g with
      | none => none
      | some (s, k) => State.placePlan s f h rs (ks ++ [k])

/-- Whether the save areas, at the top of each near tier, meet nothing else (R374). -/
def State.savesFit (s : State) : Bool :=
  let n := s.saveTotal
  (List.range 4).all (fun t =>
    let lo := nearBase t + 0x1000000000 - n
    decide (n ≤ 0x1000000000) &&
      (s.tier.regions.map (fun (e : Nat × Region) => (e.2.base, e.2.length)) ++ s.pair.extents ++ s.tier.lostPages.map (fun p => (p, 4096))).all (fun (r : Nat × Nat) =>
        decide (r.1 + r.2 ≤ lo) || decide (nearBase t + 0x1000000000 ≤ r.1)))

/-- The save area of a function at a window size, and the memory plan, taken; none where they do not fit, or where the plan does not hold
both layouts of a reshard (R27, check 0x0A). -/
def State.takeMemory (s : State) (f : Fn) (h : Nat) (m : ProgImage) : Option (State × List Nat) :=
  let n := max m.slots (s.window f.val).size
  let both := m.reshards.all (fun r => !r.sourceRegions.isEmpty && !r.destRegions.isEmpty && r.sourceRegions.all (fun k => !r.destRegions.contains k) &&
    (r.sourceRegions ++ r.destRegions).all (fun k => decide (k < m.plan.length)))
  if !both then none
  else
    let s := s.setProg { s.prog with saves := s.prog.saves.set f.val (saveBytes n) }
    if !s.savesFit then none else s.placePlan f h m.plan []

/-- The checks of R350 in ascending order: the number, and the command where one fails it. -/
def State.submitCheck (s : State) (f : Fn) (h : Nat) (m : ProgImage) : Option (Nat × CheckAt) :=
  let win : Window := { base := 0, size := max m.slots (s.window f.val).size }
  let at_ (n : Nat) (r : Option CheckAt) : Option (Nat × CheckAt) := r.map (fun x => (n, x))
  let flat (n : Nat) (b : Bool) : Option (Nat × CheckAt) := if b then some (n, (0, 0)) else none
  let running := (s.progAt s.run.prog).bind (fun p => p.img.target)
  ((((at_ 1 (checkHolds m)).or (at_ 2 (checkLeases m))).or (at_ 3 (checkCodes m f win))).or
    ((at_ 4 (checkTarget m (s.vsizeFor m))).or (at_ 5 (checkPack m)))).or
  (((flat 6 (decide (262144 < m.seqLen))).or (flat 7 (decide (m.tileGroup * 2 ^ 36 < m.workingCopy)))).or
    (((flat 8 (s.run.active && m.target.isSome && m.target != running)).or
      (flat 9 ((List.range 40).any (fun k => m.galleries.getLsbD k && !s.galleryServes (k / 10) (k % 10)) ||
        m.queues.any (fun q => decide (q.tile < 4) && s.health.badTiles.contains q.tile)))).or
    (((flat 10 (s.takeMemory f h m).isNone).or (at_ 11 (s.checkEngines m))).or
      (flat 13 (match s.link.table with | some t => m.sspan != t.sspan || m.lspan != t.lspan | none => false)))))

/-- CHECK with the response of R350. -/
def State.completeCheck (s : State) (m : MCmd) (n : Nat) (c : CheckAt) : State :=
  s.complete m codeCheck (leBytes 1 n ++ [0, 0, 0] ++ leBytes 4 c.1 ++ leBytes 4 c.2)

/-- The Keeper commits CUST, TCFG and PRI of an image (R117, R147, R303). -/
def State.commitGroups (s : State) (m : ProgImage) : State :=
  let s := m.custom.foldl (fun s c => (s.setCust c.1 { s.custSt c.1 with bnd := c.2.bnd, coef := c.2.coef }).commitCust c.1) s
  let s := match m.target with
    | none => s
    | some c => (List.range 4).foldl (fun s t => s.setTarget t { s.target t with staged := c.regs }.commit) s
  m.prio.foldl (fun s (n, i, b) =>
    if n < 43 && i < 48 then
      let a := s.arbAt n
      let a := a.setReq i { a.req i with stagedBase := b }
      s.setArbAt n { a with pending := some (a.stagedLim, (List.range 48).map (fun j => (a.req j).stagedBase)) }
    else s) s

/-- KEY1 to KEY3 of a function, committed on every tile and kept for DEBUG_EXIT; KEY0 is zero unless the function owns the active
run (R175, R361). -/
def State.commitKeys (s : State) (f : Fn) (ks : List DWord) : State :=
  let s := s.setProg { s.prog with keys := s.prog.keys.set f.val ks }
  let s := if s.run.active && s.run.fn == f then s else s.commitKey f.val 0 0
  ks.zipIdx.foldl (fun s (k, j) => s.commitKey f.val (j + 1) k) s

/-- How an admitted program starts (R489): one with a LEARN phase waits for its run, one that serves runs with its group, every
other starts at once. -/
def startState (m : ProgImage) : ProgState := if m.learn || m.serving.isSome then .ready else .running

/-- Whether a tile group has a serving program other than the one replaced (R369). -/
def State.groupTaken (s : State) (m : ProgImage) (replaced : Nat) : Bool :=
  match m.serving with
  | none => false
  | some c => (s.group c.group).prog != 0 && (s.group c.group).prog != replaced

/-- The worst-case entries of the response (R349). -/
def State.worstEntries (s : State) (m : ProgImage) : List Byte :=
  m.worst.flatMap (fun (k, wf) => leBytes 1 k ++ [0, 0, 0] ++ leBytes 8 wf ++ leBytes 4 (s.microseconds wf).toNat)

/-- The new program takes the place of the replaced one: at the run's update boundary, at its group's serving boundary while a
step runs there, or at once (R349). -/
def State.replaceProg (s : State) (old new : Nat) : State :=
  if old = 0 then s.claimGroup new
  else if s.run.active && s.run.prog == old then s.setProg { s.prog with replace_ := some (old, new) }
  else
    match (s.progAt old).bind (fun p => p.img.serving) with
    | some c =>
      if (s.group c.group).prog == old && (s.group c.group).plan.isSome then
        s.setProg { s.prog with serveNext := s.prog.serveNext.set c.group (old, new) }
      else (s.retireProg old).claimGroup new
    | none => (s.retireProg old).claimGroup new

/-- PROG_SUBMIT (R349, R350). -/
def execProgSubmit (m : MCmd) (img : ProgImage) (s : State) : Host.Outcome State Fault Refusal :=
  let p := m.payload
  .next (s.intake (.progSubmit m img) m 0x200 false (lenIs m 32 1) (fun s =>
    let old := fieldAt p 24 2
    let h := (s.prog.progs.freeFrom 65535 1).getD 0
    if !descsOk s m (descsAt p 32 1) [false] then s.complete m codeDescriptor []
    else if !reservedZero p 32 [(0, 26)] then s.complete m codeField []
    else if s.inputLost m (descsAt p 32 1) then s.complete m codeDataLost []
    else if !img.signed then s.complete m codeSignature []
    else if old != 0 && !(match s.progAt old with | some q => q.fn == m.fn | none => false) then s.complete m codeNoObject []
    else if h = 0 then s.complete m codeCapacity []
    else if s.customBusy img old then s.complete m codeCustomBusy []
    else if !groupsOk img || !declaresOk img || decide (32 < img.slots) then s.complete m codeField []
    else if s.groupTaken img old then s.complete m codeState []
    else
      match s.submitCheck m.fn h img, s.takeMemory m.fn h img with
      | some (n, c), _ => s.completeCheck m n c
      | none, none => s.completeCheck m 10 (0, 0)
      | none, some (s, regions) =>
        let s := s.growWindow m.fn img.slots
        let s := s.setProg { s.prog with
          progs := s.prog.progs.set h { fn := m.fn, img := img, state := startState img, regions := regions, ended := [] },
          groups := img.groups.foldl (fun t d => t.set d.desc (img.mirrored d)) s.prog.groups }
        let s := (s.commitKeys m.fn ((List.range 3).map (fun j => BitVec.ofNat 64 (fieldAt p (8 * j) 8)))).commitGroups img
        let s := s.replaceProg old h
        let w := s.window m.fn.val
        (s.complete m codeOk (leBytes 2 h ++ leBytes 1 w.base ++ leBytes 1 w.size ++ leBytes 2 img.worst.length ++ [0, 0] ++ s.worstEntries img)).settleProg h))

/-! ### PROG_RETIRE and PROG_RESTART (R353) -/

/-- PROG_RETIRE. A replacement that waits for a boundary and names the program is dropped. -/
def execProgRetire (m : MCmd) (s : State) : Host.Outcome State Fault Refusal :=
  let p := m.payload
  .next (s.intake (.progRetire m) m 0x201 false (lenIs m 8 0) (fun s =>
    let h := fieldAt p 0 2
    if !reservedZero p 8 [(0, 2)] then s.complete m codeField []
    else
      match s.progFor m.fn h with
      | none => s.complete m codeNoObject []
      | some _ =>
        if s.run.active && s.run.prog == h then s.complete m codeState []
        else
          let r := match s.prog.replace_ with
            | some (a, b) => if a = h || b = h then none else some (a, b)
            | none => none
          let nexts := List.filter (fun (e : Nat × Nat × Nat) => e.2.1 != h && e.2.2 != h) s.prog.serveNext
          ((s.setProg { s.prog with replace_ := r, serveNext := nexts }).retireProg h).complete m codeOk []))

/-- PROG_RESTART: a FAULTED or COMPLETED program starts again from its first command. -/
def execProgRestart (m : MCmd) (s : State) : Host.Outcome State Fault Refusal :=
  let p := m.payload
  .next (s.intake (.progRestart m) m 0x202 false (lenIs m 8 0) (fun s =>
    let h := fieldAt p 0 2
    if !reservedZero p 8 [(0, 2)] then s.complete m codeField []
    else
      match s.progFor m.fn h with
      | none => s.complete m codeNoObject []
      | some q =>
        if !(q.state == .faulted || q.state == .completed) then s.complete m codeState []
        else
          let st := if s.run.active && s.run.prog == h then ProgState.running else startState q.img
          let s := s.setProg { s.prog with progs := s.prog.progs.set h { q.fromStart with state := st } }
          (s.complete m codeOk []).settleProg h))

/-! ### Runs (R351, R352) -/

/-- A loss scale RUN_START may name: a power of two from 1 to 2^24, or zero for 2^16. -/
def lscaleOk (w : Nat) : Bool := w == 0 || (w % 2 ^ 23 == 0 && decide (127 * 2 ^ 23 ≤ w) && decide (w ≤ 151 * 2 ^ 23))

/-- The ranges of R351. -/
def runFieldsOk (p : List Byte) : Bool :=
  let clip := ofFP32 (BitVec.ofNat 32 (fieldAt p 32 4))
  let cwait := fieldAt p 36 4
  reservedZero p 56 [(0, 2), (4, 18), (24, 18), (48, 8)] && lscaleOk (fieldAt p 16 4) &&
    fpWithin (BitVec.ofNat 32 (fieldAt p 28 4)) .zero .one && !clip.special && !(clip.lt .zero) &&
    (cwait == 0 || (decide (500 ≤ cwait) && decide (cwait ≤ 60000)))

/-- The ring a descriptor names, as its control block describes it. -/
def cmdRing (m : MCmd) (ds : List Desc) (i : Nat) : HostRing :=
  ringOf (((cmdExtents m ds i).head?.map (fun e => e.2.1)).getD 0) (m.reads.getD i [])

/-- The run of a RUN_START for a function, with the active bank and the reports still held as they stand. Images still being written go on
in the ring they began in. -/
def startRun (r : Run) (f : Fn) (p : List Byte) (report snaps : HostRing) : Run :=
  let or_ (n d : Nat) : Nat := if n = 0 then d else n
  let w (o : Nat) : Word := BitVec.ofNat 32 (fieldAt p o 4)
  { active := true, fn := f, prog := fieldAt p 0 2, steps := fieldAt p 4 4, seed := BitVec.ofNat 64 (fieldAt p 8 8),
    lscale := if fieldAt p 16 4 = 0 then 0x47800000 else w 16, clean := 0, interval := or_ (fieldAt p 20 2) 1000, late := fieldAt p 24 4,
    stale := w 28, clip := w 32, cwait := or_ (fieldAt p 36 4) 2000, snapInt := fieldAt p 40 2, runTag := BitVec.ofNat 64 (fieldAt p 48 8),
    report := report, snaps := snaps, bank := r.bank, snap := r.snap.map (fun x => { x with outside := true })
    snapDue := r.snapDue.map (fun x => { x with outside := true }), heldReports := r.heldReports }

/-- A last step as a rank: none lies below step 0. -/
def stepRank (n : Option Nat) : Nat :=
  match n with
  | none => 0
  | some k => k + 1

/-- The rank of a module's last step: this module's own, or what the Lead collected. -/
def State.lastRank (s : State) (lasts : List LastStep) (k : Nat) : Nat :=
  stepRank (if k = s.moduleId then s.run.last else (lasts.find? (fun x => x.module == k)).bind (fun x => x.last))

/-- Whether every shard has an owner or a mirror whose last step is the highest (R417). -/
def State.shardsCovered (s : State) (lasts : List LastStep) (shards : List ShardDesc) (top : Nat) : Bool :=
  let mirror (k : Nat) : Nat := (s.link.table.map (fun t => t.present.get k k)).getD k
  shards.all (fun d => s.lastRank lasts d.owner == top || s.lastRank lasts (mirror d.owner) == top)

/-- The bank before a run starts: after LEAD_LOST, where some shard has no copy of the highest last step, a module that holds that step makes
its other bank active instead (R417). -/
def State.settleLast (s : State) (lasts : List LastStep) (shards : List ShardDesc) : State :=
  let own := s.lastRank lasts s.moduleId
  let top := (lasts.map (fun x => s.lastRank lasts x.module)).foldl max own
  let lost := (s.run.leadLost || lasts.any (fun x => x.lost)) && !s.shardsCovered lasts shards top
  if lost && own = top && top ≠ 0 then s.setRun { s.run with bank := !s.run.bank } else s

/-- The step a module rejoins at when a run starts: the highest last step, where it is behind and the shards are covered (R417, R467). -/
def State.behindAt (s : State) (lasts : List LastStep) (shards : List ShardDesc) : Option Nat :=
  let own := s.lastRank lasts s.moduleId
  let top := (lasts.map (fun x => s.lastRank lasts x.module)).foldl max own
  if ((s.run.leadLost || lasts.any (fun x => x.lost)) && !s.shardsCovered lasts shards top) || top ≤ own then none else some (top - 1)

/-- A module that is behind asks to rejoin and fetches its planes; REJOIN is posted when it has them (R238, R417; log entry 28). -/
def State.rejoinAt (s : State) (top : Option Nat) : State :=
  match top with
  | none => s
  | some n =>
    let s := (s.setRun { s.run with fetch := s.fetchList }).send (.rejoin n)
    if s.run.fetch.isEmpty then s.post 0 8 0 (rejoinData n) else s.setRun { s.run with needRejoin := true, fetchTop := some n }

/-- RUN_START. A summary the Lead owes is written first, to the ring it belongs to (DESIGN CHOICE, log entry 64). -/
def execRunStart (m : MCmd) (lasts : List LastStep) (s : State) : Host.Outcome State Fault Refusal :=
  let p := m.payload
  .next (s.intake (.runStart m lasts) m 0x203 true (lenIs m 56 2) (fun s =>
    let ds := descsAt p 56 2
    let h := fieldAt p 0 2
    if !descsOk s m ds [true, true] then s.complete m codeDescriptor []
    else if s.pair.state ≠ .resident || s.run.active || s.keeper.debug || s.link.table.isNone then s.complete m codeState []
    else if !runFieldsOk p then s.complete m codeField []
    else
      match s.progAt h with
      | none => s.complete m codeNoObject []
      | some q =>
        if !q.img.learn then s.completeCheck m 12 (0, 0)
        else if (match s.link.table with | some t => q.img.sspan != t.sspan || q.img.lspan != t.lspan | none => false) then
          s.completeCheck m 13 (0, 0)
        else
          let top := s.behindAt lasts q.img.shards
          let s := (s.settleLast lasts q.img.shards).writeSummary
          let s := s.setRun (startRun s.run q.fn p (cmdRing m ds 0) (cmdRing m ds 1))
          let s := s.setProg { s.prog with progs := s.prog.progs.set h { q.fromStart with state := .running } }
          let s := ((s.setLead {}).commitKey q.fn.val 0 s.run.seed).writeLscale s.run.lscale
          let s := s.setServe { s.serve with batchClosed := false }
          let s := (if s.reshardsToRollout then s else s.startRollouts).rejoinAt top
          let s := if q.img.pipelined != 0 && !s.spanIdle then s.phaseStart .score else s
          s.complete m codeOk []))

/-- RUN_STOP. -/
def execRunStop (m : MCmd) (s : State) : Host.Outcome State Fault Refusal :=
  .next (s.intake (.runStop m) m 0x204 true (lenIs m 0 0) (fun s =>
    if !s.run.active || s.run.stop.isSome then s.complete m codeState []
    else (s.setRun { s.run with stop := some .command }).accept m .runStop 0x204))

/-- SNAP_REQUEST: at the next update boundary during a run, at once outside one. While an image is being written outside a run
another is refused (log entry 25). -/
def execSnapRequest (m : MCmd) (s : State) : Host.Outcome State Fault Refusal :=
  .next (s.intake (.snapRequest m) m 0x205 true (lenIs m 0 (if s.run.active then 0 else 1)) (fun s =>
    let ds := descsAt m.payload 0 (if s.run.active then 0 else 1)
    if !descsOk s m ds (if s.run.active then [] else [true]) then s.complete m codeDescriptor []
    else if s.pair.state ≠ .resident then s.complete m codeState []
    else if s.run.active then
      (s.setRun { s.run with snapAsked := s.run.snapAsked ++ [(m.fn, m.seq)] }).complete m codeAccepted []
    else if s.run.snap.isSome then s.complete m codeRefused []
    else (s.complete m codeAccepted []).startSnap (cmdRing m ds 0) (some (m.fn, m.seq)) true))

end Sys2Proof.Machine
end

