-- ==== Sys2Proof/Machine/Service.lean ====
section
/-! DEFINITION. Identity, firmware and service in the mailbox (R360, R450, R455 to R460, R463 to R465), and the debug group (R361,
R362). -/
namespace Sys2Proof.Machine

/-! ### The daymark (R449, R450) -/

/-- The chain in the SPDM certificate-chain format. -/
def daymarkChain : List Byte :=
  let certs := Config.daymarkCerts.flatMap id
  leBytes 2 (36 + certs.length) ++ [0, 0] ++ Config.sha256 (Config.daymarkCerts.headD []) ++ certs

/-- DAYMARK_READ. -/
def execDaymarkRead (m : MCmd) (s : State) : Host.Outcome State Fault Refusal :=
  .next (s.intake (.daymarkRead m) m 0x600 false (lenIs m 0 1) (fun s =>
    let ds := descsAt m.payload 0 1
    if !descsOk s m ds [true] then s.complete m codeDescriptor [] else s.copyOut m ds daymarkChain))

/-! ### Firmware images (R455, R456) -/

def codeFwSignature := 0x30
def codeFwDigest := 0x31
def codeFwRollback := 0x32
def codeFwFormat := 0x33
def codeFwTooLarge := 0x34
def codeFwSlotEmpty := 0x35
def codeFwSvnLimit := 0x36
def codeFwWrite := 0x37

/-- Whether bytes lo to hi of an image are zero. -/
def zeroIn (bs : List Byte) (lo hi : Nat) : Bool := ((bs.drop lo).take (hi - lo)).all (· == 0)

/-- FW_FORMAT's conditions on a header. -/
def fwFormatOk (bs : List Byte) : Bool :=
  fieldAt bs 0 4 == 0x4C4B4657 && fieldAt bs 4 2 == 1 && fieldAt bs 6 1 == 0xB0 && (bs.drop 8).take 8 == partName &&
    zeroIn bs 7 8 && zeroIn bs 0x13 0x14 && zeroIn bs 0x1C 0x20 && zeroIn bs 0x40 0x100 &&
    decide (1 ≤ fieldAt bs 0x18 4) && decide (fieldAt bs 0x18 4 ≤ 2048)

/-- Bytes of an image, header to signature. -/
def fwSize (bs : List Byte) : Nat := 0x900 + fieldAt bs 0x14 4 + 384

/-- A slot that holds an image. -/
def imageSlot (bs : List Byte) : FwSlot :=
  { present := true, maj := fieldAt bs 0x10 1, min := fieldAt bs 0x11 1, svn := fieldAt bs 0x12 1, digest := some (Config.sha256 (bs.take (fwSize bs))),
    format := fwFormatOk bs, fits := decide (fwSize bs ≤ 8 * 2 ^ 20), ok := false }

/-- The checks of R456 on a slot's contents, in its order: the code of the first that fails, or OK. -/
def State.fwCheck (s : State) (x : FwSlot) (v : FwVerdict) : Nat :=
  if !x.format then codeFwFormat
  else if !x.fits then codeFwTooLarge
  else if 64 < x.svn then codeFwSvnLimit
  else if !v.certOk || !v.sigOk then codeFwSignature
  else if !v.hashOk then codeFwDigest
  else if x.svn < s.sec.counter then codeFwRollback
  else codeOk

/-- The slot that is not running. -/
def State.otherSlot (s : State) : Bool := !s.keeper.slot

/-- FW_LOAD: the checks run before the slot is written; while it is written it holds no valid image. -/
def execFwLoad (m : MCmd) (v : FwVerdict) (s : State) : Host.Outcome State Fault Refusal :=
  .next (s.intake (.fwLoad m v) m 0x601 true (lenIs m 0 1) (fun s =>
    let ds := descsAt m.payload 0 1
    if !descsOk s m ds [false] then s.complete m codeDescriptor []
    else if (s.findOp .fwLoad).isSome then s.complete m codeRefused []
    else if s.inputLost m ds then s.complete m codeDataLost []
    else
      let x := imageSlot (m.reads.getD 0 [])
      let code := s.fwCheck x v
      let s := s.accept m .fwLoad 0x601
      if code ≠ codeOk then
        s.opDone { kind := .fwLoad, fn := m.fn, seq := m.seq, opcode := 0x601, payload := [] } code
      else s.setFwSlot s.otherSlot { x with present := false }))

/-- FW_LOAD_DONE: the slot read back and verified again, or FW_WRITE. Owed while the Keeper restarts. -/
def execFwLoadDone (readBackOk : Bool) (s : State) : Host.Outcome State Fault Refusal :=
  .next (match s.findOp .fwLoad with
    | none => s
    | some o =>
      if s.keeper.kbusy then s.owe (.fwLoadDone readBackOk)
      else (s.setFwSlot s.otherSlot { s.fwSlot s.otherSlot with present := true, ok := readBackOk }).opDone o
        (if readBackOk then codeOk else codeFwWrite))

/-- Whether the size table in force has more than one module (R460). -/
def State.inCascade (s : State) : Bool := decide (1 < s.present.length)

/-- FW_ACTIVATE (R334, R456, R459, R460): the other slot verified, then event 1 of a restart; in recovery mode a boot from that
slot as after a host reset. -/
def execFwActivate (m : MCmd) (v : FwVerdict) (s : State) : Host.Outcome State Fault Refusal :=
  .next (s.intake (.fwActivate m v) m 0x602 true (lenIs m 0 0) (fun s =>
    let i := s.otherSlot
    let x := s.fwSlot i
    if (s.findOp .fwLoad).isSome || (s.findOp .fwActivate).isSome then s.complete m codeRefused []
    else if !x.present then s.complete m codeFwSlotEmpty []
    else
      let code := s.fwCheck x v
      let s := s.setFwSlot i { x with ok := code == codeOk }
      if code ≠ codeOk then s.complete m code []
      else if s.inCascade && x.maj != s.keeper.fwmaj then s.complete m codeState []
      else if s.keeper.recovery then
        let s := (s.complete m codeAccepted []).setSec { s.sec with bootSlot := i }
        s.clearConfig.warmReset { slot0 := !i, slot1 := i }
      else
        let s := s.accept m .fwActivate 0x602
        s.setKeeper { s.keeper with kbusy := true, restart := some .activate, prevSlot := s.keeper.slot, activateFailed := false }))

/-! ### SERVICE_PREPARE (R463 to R465) -/

/-- PART 0: the load moves to the other source, unless that has failed or is below its threshold, and the named one is darkened
(R404). -/
def State.prepareLaser (s : State) (m : MCmd) (i : Nat) : State :=
  let o : LongOp := { kind := .laser, fn := m.fn, seq := m.seq, opcode := 0x603, payload := [] }
  let s := s.accept m .laser 0x603
  let other := 1 - i
  if (s.laser other).state ≠ 0 then s.opDone o codeState
  else ((s.setLaser other { s.laser other with full := true }).setLaser i { s.laser i with state := 3, full := false }).opDone o codeOk

/-- PART 1: the phase is shed, unless another of its rail is lost. -/
def State.preparePhase (s : State) (m : MCmd) (k : Nat) : State :=
  let rail := k / 16
  if s.pwr.phaseOut.any (fun x => x / 16 == rail && x != k) then s.complete m codeState []
  else
    let s := s.accept m .phase 0x603
    (if s.pwr.phaseOut.contains k then s else s.shedPhase rail (k % 16)).opDone
      { kind := .phase, fn := m.fn, seq := m.seq, opcode := 0x603, payload := [] } codeOk

/-- PART 2: the peer is notified and the port held DOWN; OP_DONE follows the peer's answer, or the timeout of the notice. -/
def State.prepareFibre (s : State) (m : MCmd) (p : Nat) (answered : Bool) : State :=
  let s := s.accept m (.fibre p) 0x603
  let s := s.send (.serviceNotice p)
  let s := (s.setPort p { s.port p with serviced := true }).portDown p
  if answered then s.opDone { kind := .fibre p, fn := m.fn, seq := m.seq, opcode := 0x603, payload := [] } codeOk else s

/-- SERVICE_PREPARE: PART names the part, whichever row the command stands on. -/
def State.servicePrepare (s : State) (i : Instr) (m : MCmd) (answered : Bool) : State :=
  let p := m.payload
  s.intake i m 0x603 true (lenIs m 8 0) (fun s =>
    let k := fieldAt p 1 1
    if !reservedZero p 8 [(0, 2)] then s.complete m codeField []
    else match fieldAt p 0 1 with
      | 0 => if k ≤ 1 then s.prepareLaser m k else s.complete m codeField []
      | 1 => if k / 16 ≤ 11 && k % 16 < phasesOf (k / 16) then s.preparePhase m k else s.complete m codeField []
      | 2 => if k ≤ 5 then s.prepareFibre m k answered else s.complete m codeField []
      | _ => s.complete m codeField [])

/-- SERVICE_PREPARE with PART 0 (R463). -/
def execServicePrepareLaser (m : MCmd) (s : State) : Host.Outcome State Fault Refusal :=
  .next (s.servicePrepare (.servicePrepareLaser m) m false)
/-- SERVICE_PREPARE with PART 1 (R465). -/
def execServicePreparePhase (m : MCmd) (s : State) : Host.Outcome State Fault Refusal :=
  .next (s.servicePrepare (.servicePreparePhase m) m false)
/-- SERVICE_PREPARE with PART 2 (R464). -/
def execServicePrepareFibre (m : MCmd) (answered : Bool) (s : State) : Host.Outcome State Fault Refusal :=
  .next (s.servicePrepare (.servicePrepareFibre m answered) m answered)

/-! ### Debug mode (R361) -/

/-- DEBUG_ENTER. -/
def execDebugEnter (m : MCmd) (s : State) : Host.Outcome State Fault Refusal :=
  .next (s.intake (.debugEnter m) m 0x700 true (lenIs m 0 0) (fun s =>
    if s.run.active then s.complete m codeState []
    else (s.setKeeper { s.keeper with debug := true }).complete m codeOk []))

/-- CUST, TCFG, KEY and PRI at their reset values, then committed again from the admitted programs, in ascending handle. -/
def State.recommit (s : State) : State :=
  let s := (s.setArr { s.arr with cust := [] }).setEng { s.eng with keys := [] }
  let s := s.setTgt (s.tgt.map (fun e => (e.1, { e.2 with staged := {}, active := {}, committed := none, refused := false })))
  let s := s.setArb (s.arb.map (fun e =>
    (e.1, { e.2 with stagedLim := 0x40, reqs := e.2.reqs.map (fun r => (r.1, { r.2 with stagedBase := 0 })), pending := some (0x40, List.replicate 48 0) })))
  let s := s.prog.progs.foldl (fun s e => s.commitGroups e.2.img) s
  (List.filter (fun (k : Nat × List DWord) => List.any s.prog.progs (fun e => e.2.fn.val == k.1)) s.prog.keys).foldl
    (fun s e => e.2.zipIdx.foldl (fun s (k, j) => s.commitKey e.1 (j + 1) k) s) s

/-- DEBUG_EXIT. -/
def execDebugExit (m : MCmd) (s : State) : Host.Outcome State Fault Refusal :=
  .next (s.intake (.debugExit m) m 0x701 true (lenIs m 0 0) (fun s =>
    (if s.keeper.debug then (s.setKeeper { s.keeper with debug := false }).recommit else s).complete m codeOk []))

/-! ### ACC_READ and ACC_WRITE (R362) -/

/-- The tiles a command names. -/
structure AccArgs where
  tile : Nat
  array : Nat
  slot : Nat
  shape : Option Shape
  comp : Bool
  ntile : Nat
deriving DecidableEq, Repr

def accArgs (p : List Byte) : AccArgs :=
  { tile := fieldAt p 0 1, array := fieldAt p 1 1, slot := fieldAt p 2 1, shape := Shape.ofCode (fieldAt p 3 1 % 4), comp := bitOf (fieldAt p 3 1) 2,
    ntile := fieldAt p 4 1 }

def AccArgs.sh (a : AccArgs) : Shape := a.shape.getD .s32x32
def AccArgs.foot (a : AccArgs) : Nat := a.sh.foot a.comp

/-- Ranges and reserved bits. -/
def AccArgs.ok (a : AccArgs) (p : List Byte) : Bool :=
  reservedZero p 8 [(0, 5)] && decide (fieldAt p 3 1 < 8) && decide (a.tile ≤ 3) && decide (a.array ≤ 79) && a.shape.isSome &&
    a.slot % a.foot == 0 && decide (a.slot + a.ntile * a.foot ≤ 32)

/-- Bytes of the tiles: 8 KiB each, 16 KiB when compensated. -/
def AccArgs.bytes (a : AccArgs) : Nat := a.ntile * (if a.comp then 16384 else 8192)

/-- A function whose window holds some of the slots has a program running. -/
def State.accBusy (s : State) (a : AccArgs) : Bool :=
  List.any s.prog.progs (fun e =>
    (e.2.state == .running || (match e.2.img.serving with | some c => (s.group c.group).prog == e.1 && (s.group c.group).plan.isSome | none => false)) &&
      (s.window e.2.fn.val).meets { base := a.slot, size := a.ntile * a.foot })

/-- The bytes of the tiles, in slot order, outputs row-major, hi then lo where compensated. -/
def State.accData (s : State) (a : AccArgs) : List Byte :=
  let y := s.array a.tile (s.phys a.tile a.array)
  (List.range a.ntile).flatMap (fun i =>
    let v := y.readTile (s.fresh + i) (a.slot + i * a.foot) a.sh a.comp
    if a.comp then (v.1.zip v.2).flatMap (fun x => leBytes 8 x.1.toNat ++ leBytes 8 x.2.toNat)
    else v.1.flatMap (fun x => leBytes 8 x.toNat))

/-- ACC_READ. -/
def execAccRead (m : MCmd) (s : State) : Host.Outcome State Fault Refusal :=
  let p := m.payload
  .next (s.intake (.accRead m) m 0x702 true (lenIs m 8 1) (fun s =>
    let ds := descsAt p 8 1
    let a := accArgs p
    if !descsOk s m ds [true] then s.complete m codeDescriptor []
    else if !s.keeper.debug then s.complete m codeState []
    else if !a.ok p then s.complete m codeField []
    else if s.accBusy a then s.complete m codeState []
    else (s.copyOut m ds (s.accData a)).setFresh (s.fresh + a.ntile)))

/-- The 64-bit words a write carries. -/
def accWords (a : AccArgs) (bs : List Byte) : List Nat := (List.range (a.bytes / 8)).map (fun i => fieldAt bs (8 * i) 8)

/-- One tile written from its words. -/
def State.accPut (s : State) (a : AccArgs) (ws : List Nat) (i : Nat) : State :=
  let p := s.phys a.tile a.array
  let here := (ws.drop (i * (a.bytes / 8 / a.ntile))).take (a.bytes / 8 / a.ntile)
  let x (k : Nat) : X32 := BitVec.ofNat 34 (here.getD k 0)
  let hi := (List.range 1024).map (fun k => x (if a.comp then 2 * k else k))
  let lo := if a.comp then (List.range 1024).map (fun k => x (2 * k + 1)) else []
  s.setArray a.tile p ((s.array a.tile p).writeTile (a.slot + i * a.foot) a.sh a.comp hi lo)

/-- ACC_WRITE. -/
def execAccWrite (m : MCmd) (s : State) : Host.Outcome State Fault Refusal :=
  let p := m.payload
  .next (s.intake (.accWrite m) m 0x703 true (lenIs m 8 1) (fun s =>
    let ds := descsAt p 8 1
    let a := accArgs p
    let ws := accWords a (m.reads.getD 0 [])
    if !descsOk s m ds [false] then s.complete m codeDescriptor []
    else if !s.keeper.debug then s.complete m codeState []
    else if !a.ok p || ws.any (fun w => decide (2 ^ 34 ≤ w)) then s.complete m codeField []
    else if s.accBusy a then s.complete m codeState []
    else if s.inputLost m ds then s.complete m codeDataLost []
    else if extentBytes (cmdExtents m ds 0) < a.bytes then s.complete m codeDescriptor []
    else ((List.range a.ntile).foldl (fun s i => s.accPut a ws i) s).complete m codeOk []))

end Sys2Proof.Machine
end

