-- ==== Sys2Proof/Machine/Restart.lean ====
section
/-! DEFINITION. The restart of the Keeper (R334 to R337, R453, R458) and the polling of host rings (R325). -/
namespace Sys2Proof.Machine

/-! ### Host rings (R325) -/

/-- HOST_RING_POLL: CONS of the report ring or of the snapshot ring is read; what waited for room is written. The Keeper does this,
so not while it restarts. -/
def execHostRingPoll (snapshotRing : Bool) (cons : Nat) (s : State) : Host.Outcome State Fault Refusal :=
  .next (if !s.keeper.up || s.keeper.kbusy then s
    else if snapshotRing then
      s.setRun { s.run with snaps := { s.run.snaps with cons := cons } }
    else State.flushReports s.run.heldReports.length (s.setRun { s.run with report := { s.run.report with cons := cons } }))

/-! ### Events 1 to 4 -/

/-- KEEPER_MEM_ERROR: a restart into the same slot begins (R334). -/
def execKeeperMemError (s : State) : Host.Outcome State Fault Refusal :=
  let k := s.keeper
  .next (if k.up && !k.kbusy then s.setKeeper { k with kbusy := true, restart := some .memError, prevSlot := k.slot, activateFailed := false }
    else s)

/-- KEEPER_RESTART: a restart that has begun goes on to event 4. The Keeper core is reset, in the chosen slot; the SPDM sessions end,
because their secrets are not in the journal (R453). -/
def execKeeperRestart (s : State) : Host.Outcome State Fault Refusal :=
  let k := s.keeper
  .next (match k.restart with
    | none => s
    | some why =>
      if !k.kbusy || k.coreReset then s
      else
        let slot := match why with
          | .activate => !k.slot
          | .memError => k.slot
        (s.setKeeper { k with coreReset := true, slot := slot }).setSec { s.sec with sessions := [], negotiated := false })

/-- ACTIVATE_FAILED: the new firmware has not reached event 8 in 170 ms, and the hub restarts the previous slot (R458). -/
def execActivateFailed (s : State) : Host.Outcome State Fault Refusal :=
  let k := s.keeper
  .next (if k.coreReset && k.restart == some .activate && !k.activateFailed then
      s.setKeeper { k with slot := k.prevSlot, activateFailed := true }
    else s)

/-! ### Deferred work and latched doorbells (events 7 and 8) -/

/-- What a step's outcome leaves. -/
def State.after (s : State) (o : Host.Outcome State Fault Refusal) : State :=
  match o with
  | .next t => t
  | _ => s

/-- Work the Keeper owes is done: the events that its meanings owe while it restarts. -/
def State.keeperWork (s : State) (i : Instr) : State :=
  match i with
  | .pairLoadDone r => s.after (execPairLoadDone r s)
  | .pairUnloadDone => s.after (execPairUnloadDone s)
  | .refreshDone model readable => s.after (execRefreshDone model readable s)
  | .fwLoadDone ok => s.after (execFwLoadDone ok s)
  | .memTransferDone fn seq data refused => s.after (execMemTransferDone fn seq data refused s)
  | .extentSwitch carrier extent => s.after (execExtentSwitch carrier extent s)
  | .carrierReleased carrier => s.after (execCarrierReleased carrier s)
  | .sizeTableInForce crc census => s.after (execSizeTableInForce crc census s)
  | .servingStepBoundary g faults failed reqs trees => s.after (execServingStepBoundary g faults failed reqs trees s)
  | .noPages index => s.after (execNoPages index s)
  | .overflowReport module step ovf part fallback second => s.after (execOverflowReport module step ovf part fallback second s)
  | .prepassRx step => s.after (execPrepassRx step s)
  | .goRx step k lscale clean => s.after (execGoRx step k lscale clean s)
  | .skipRx step lscale clean => s.after (execSkipRx step lscale clean s)
  | .readyRx module step ovf owned mirrored => s.after (execReadyRx module step ovf owned mirrored s)
  | .commitMarkRx step lscale clean => s.after (execCommitMarkRx step lscale clean s)
  | .abortRx step failed => s.after (execAbortRx step failed s)
  | .commitWaitExpiry module => s.after (execCommitWaitExpiry module s)
  | .stepReportRx module step words => s.after (execStepReportRx module step words s)
  | .fogReport code subject witnesses count => s.after (execFogReport code subject witnesses count s)
  | .arrayRetire t a => s.after (execArrayRetire t a s)
  | .transientRetire addr => s.after (execTransientRetire addr s)
  | .persistentFailureRecovery addr data failed => s.after (execPersistentFailureRecovery addr data failed s)
  | .reshardComplete index t duration => s.after (execReshardComplete index t duration s)
  | _ => s

/-- A latched mailbox command is taken. -/
def State.takeLatched (s : State) (i : Instr) : State :=
  match i with
  | .nop m opcode => s.after (execNop m opcode s)
  | .identify m => s.after (execIdentify m s)
  | .healthRead m => s.after (execHealthRead m s)
  | .accountRead m => s.after (execAccountRead m s)
  | .pairLoad m signed => s.after (execPairLoad m signed s)
  | .pairUnload m => s.after (execPairUnload m s)
  | .refresh m img => s.after (execRefresh m img s)
  | .pairStatus m => s.after (execPairStatus m s)
  | .progSubmit m img => s.after (execProgSubmit m img s)
  | .progRetire m => s.after (execProgRetire m s)
  | .progRestart m => s.after (execProgRestart m s)
  | .runStart m lasts => s.after (execRunStart m lasts s)
  | .runStop m => s.after (execRunStop m s)
  | .snapRequest m => s.after (execSnapRequest m s)
  | .join m => s.after (execJoin m s)
  | .cancel m => s.after (execCancel m s)
  | .pause m => s.after (execPause m s)
  | .batchClose m => s.after (execBatchClose m s)
  | .reqStatus m => s.after (execReqStatus m s)
  | .custBind m => s.after (execCustBind m s)
  | .budgetRefill m => s.after (execBudgetRefill m s)
  | .budgetRead m => s.after (execBudgetRead m s)
  | .regionAlloc m => s.after (execRegionAlloc m s)
  | .regionFree m => s.after (execRegionFree m s)
  | .memTransfer m => s.after (execMemTransfer m s)
  | .carrierEvacuate m => s.after (execCarrierEvacuate m s)
  | .cxlmemWindow m => s.after (execCxlmemWindow m s)
  | .sizeTableSet m => s.after (execSizeTableSet m s)
  | .sizeTableRead m => s.after (execSizeTableRead m s)
  | .linkStatus m => s.after (execLinkStatus m s)
  | .fogRead m => s.after (execFogRead m s)
  | .daymarkRead m => s.after (execDaymarkRead m s)
  | .fwLoad m v => s.after (execFwLoad m v s)
  | .fwActivate m v => s.after (execFwActivate m v s)
  | .servicePrepareLaser m => s.after (execServicePrepareLaser m s)
  | .servicePreparePhase m => s.after (execServicePreparePhase m s)
  | .servicePrepareFibre m answered => s.after (execServicePrepareFibre m answered s)
  | .debugEnter m => s.after (execDebugEnter m s)
  | .debugExit m => s.after (execDebugExit m s)
  | .accRead m => s.after (execAccRead m s)
  | .accWrite m => s.after (execAccWrite m s)
  | _ => s

/-- The latched doorbell of a mailbox: DBPEND goes and its command is taken, unless a command latched in a lower mailbox has begun
another restart. -/
def State.openLatched (s : State) (f : Nat) : State :=
  let m := s.mbox f
  if s.keeper.kbusy then s
  else match m.latched with
    | none => s
    | some i => (s.setMbox f { m with latched := none, dbpend := false }).takeLatched i

/-- The functions of the device. -/
def State.functions (s : State) : List Nat := List.range (s.fnp.numVfs + 1)

/-- Neither journal copy can be read (R337): the long operations, held refreshes, held events and work owed are gone; a run stops at the
next update boundary, which is here if its commit mark has been applied; the formed serving steps are lost, and every request ends ABORTED;
the pairing stays RESIDENT. -/
def State.loseJournal (s : State) : State :=
  let k := s.keeper
  let mbox := k.mbox.map (fun (e : Nat × Mailbox) => (e.1, { e.2 with held := [] }))
  let s := s.setKeeper { k with ops := [], deferred := [], owed := [], mbox := mbox }
  let pair : Pairing := match s.pair.state with
    | .loading => {}
    | .unloading => { s.pair with state := .resident }
    | _ => { s.pair with heldTeacher := none, heldStudent := none }
  let reqs := s.serve.reqs.map (fun (e : Nat × Req) => (e.1, if e.2.status.terminal then e.2 else { e.2 with status := .aborted }))
  let (s, gone) := (((s.setPair pair).setServe { s.serve with reqs := reqs }).cutSteps (fun _ => true) []).leaveAll
  let s := gone.foldl (fun s e => s.reqDone e.1 e.2) s
  let s := s.functions.foldl (fun s f => s.post f 0x0A 0 []) s
  if !s.run.active then s
  else if s.run.markApplied then s.endRun .stateLost
  else s.setRun { s.run with stop := some .stateLost }

/-- The journal is read (event 6) and the deferred work is done (event 7): events owed, then work, each in order. -/
def State.readJournal (s : State) : State :=
  let k := s.keeper
  let s := s.setKeeper { k with deferred := [], owed := [] }
  let s := k.deferred.foldl (fun s e => s.deliver e.fn e) s
  k.owed.foldl (fun s i => s.keeperWork i) s

/-- DATA of KEEPER_RESTARTED (R363). -/
def State.restartedData (s : State) (mem : Bool) : List Byte :=
  leBytes 1 s.keeper.fwmaj ++ leBytes 1 s.keeper.fwmin ++ leBytes 1 (b2n s.keeper.slot) ++ leBytes 1 (b2n mem) ++ List.replicate 20 0

/-- Programs whose queues a fault held while the Keeper restarted stop (R336). -/
def State.stopHeld (s : State) : State :=
  (s.prog.progs.filter (fun (e : Nat × Prog) => !e.2.heldQs.isEmpty)).foldl (fun s (e : Nat × Prog) => s.faultStop e.1) s

/-- Event 8: the release and the boot slot recorded, held events released, KRESTART raised, latched doorbells taken in mailbox order,
ACTIVATE_FAILED and KEEPER_RESTARTED posted, the counter raised, and programs that faulted meanwhile stopped. The entry answers the activation, if there was one. -/
def State.reopen (s : State) (why : Restart) (failed : Bool) : State :=
  let v := s.fwSlot s.keeper.slot
  let act := s.findOp .fwActivate
  let k := s.keeper
  let s := s.setKeeper { k with fwmaj := v.maj, fwmin := v.min, ops := k.ops.filter (fun o => o.kind != .fwActivate) }
  let s := s.setSec { s.sec with bootSlot := s.keeper.slot }
  let s := s.functions.foldl (fun s f => (State.releaseHeld 256 f s).setCause f 3 2) s
  let data := s.restartedData (why == .memError)
  let seq := (act.map (·.seq)).getD 0
  let bad := b2n (!s.keeper.slot)
  let s := (List.range 17).foldl (fun s f => s.openLatched f) s
  let s := if why = .memError then s.setKprCause 3 else s
  let s := if failed then s.healthEvent 0x131 0xFF bad 0 0 else s
  (s.functions.foldl (fun s f => s.post f 9 (if f = 0 then seq else 0) data) s).raiseCounter.stopHeld

/-- KEEPER_RESTART_COMPLETE: events 5 to 8; copy0 and copy1: whether each journal copy passes its check. -/
def execKeeperRestartComplete (copy0 copy1 : Bool) (s : State) : Host.Outcome State Fault Refusal :=
  let k := s.keeper
  .next (match k.restart with
    | none => s
    | some why =>
      if !k.coreReset then s
      else
        let s := s.setKeeper { k with kbusy := false, coreReset := false, restart := none, activateFailed := false }
        let s := if copy0 || copy1 then s.readJournal else s.loseJournal
        s.reopen why k.activateFailed)

end Sys2Proof.Machine
end

