-- ==== Sys2Proof/Machine/Row.lean ====
section
/-! DEFINITION. The turn engines' STORE (R182, R183) and the row engines (R196 to R200). -/
namespace Sys2Proof
open Sys2Proof.Machine

/-- Whether the lines of a scratchpad tensor stay below the end of the scratchpad. -/
def TStream.fits (x : TStream) (rows cols : Nat) : Bool :=
  rows == 0 || (extentFits x.addr x.stride rows (x.fmt.lineBytes cols) &&
    (!x.fmt.scaled || extentFits x.scale x.sstride rows (cdiv cols 32)))

/-- The scratchpad ranges of a tensor on a tile. -/
def TStream.ranges (x : TStream) (t rows cols : Nat) : List (Nat × Nat) :=
  Machine.lineRanges (spadBase t + x.addr) x.stride rows (x.fmt.lineBytes cols) ++
    (if x.fmt.scaled then Machine.lineRanges (spadBase t + x.scale) x.sstride rows (cdiv cols 32) else [])

/-- Line i of a scratchpad tensor. -/
def TStream.line (x : TStream) (m : Mem) (t i n : Nat) : List FVal :=
  lineVals m x.fmt (spadBase t + x.addr + i * x.stride) (spadBase t + x.scale + i * x.sstride) n

/-- Lines written to a scratchpad tensor. -/
def TStream.store (x : TStream) (m : Mem) (t : Nat) (ls : List (List Byte × List Byte)) : Mem :=
  let m := m.writeLines (spadBase t + x.addr) x.stride (ls.map (·.1))
  if x.fmt.scaled then m.writeLines (spadBase t + x.scale) x.sstride (ls.map (·.2)) else m

end Sys2Proof

namespace Sys2Proof.Machine

/-! ### STORE (R182, R183) -/

/-- Element codes of a plain tensor turned exactly (R183). -/
def turnCodes (m : Mem) (t : Nat) (a : TurnArgs) : List (List Byte × List Byte) :=
  (List.range a.cols).map (fun j =>
    ((List.range a.rows).flatMap (fun i =>
      leBytes (a.src.fmt.bytes 1) (elemCode m a.src.fmt (spadBase t + a.src.addr + i * a.src.stride) j)), []))

/-- STORE: a tensor is written back turned, in the format it has; a scaled one is re-blocked by RNE (R183). Formats a turn engine does not
convert or transpose (R55, R183) are FMT. The record's words are not given (log entry 1). -/
def execTurnStore (t : TileIx) (p : Fin 2) (src : Src) (a : TurnArgs) (s : State) : Host.Outcome State Fault Refusal :=
  let dst := { a.dst with fmt := a.src.fmt }
  if !s.engineTakes t 4 p src (fun _ => true) then .next s
  else if !([.e4m3, .e5m2, .bf16] : List NF).contains a.src.fmt then .next (s.programFault src 1 t 4 p)
  else if !(a.src.fits a.rows a.cols) || !(dst.fits a.cols a.rows) then .next (s.programFault src 5 t 4 p)
  else .next (s.readOr src t 4 p (a.src.ranges t a.rows a.cols) (fun s =>
    let rows := (List.range a.rows).map (fun i => a.src.line s.mem t i a.cols)
    let (ls, st) := if a.src.fmt.scaled then turnLines a.src.fmt a.cols rows else (turnCodes s.mem t a, {})
    let k := t.val * 2 + p.val
    let s := s.setMem (dst.store s.mem t ls)
    (s.setEng { s.eng with turn := s.eng.turn.set k ((s.eng.turn.get {} k).join st) }).clearFailed (dst.ranges t a.cols a.rows) |>.finish src t 4 p))

/-! ### Row arithmetic (R196): every operation rounds once to X32, columns ascending -/

/-- The sum of a row, and its mean. -/
def rowSum (vs : List FVal) : FVal := vs.foldl (fun acc v => rx (acc.add v)) .zero
def rowMean (vs : List FVal) : FVal := rx ((rowSum vs).div (.ofNat vs.length))
def rmul (a b : FVal) : FVal := rx (a.mul b)
def radd (a b : FVal) : FVal := rx (a.add b)
def rsub (a b : FVal) : FVal := rx (a.sub b)
def rdiv (a b : FVal) : FVal := rx (a.div b)
def rsqrt (a : FVal) : FVal := rx a.sqrt
def rexp (a : FVal) : FVal := ofX32 (xexp (toX32 a))

/-- r of RMS. -/
def rmsR (eps : Word) (x : List FVal) : FVal :=
  rdiv .one (rsqrt (radd (rowMean (x.map (fun v => rmul v v))) (ofFP32 eps)))
/-- μ and r of LAYER; mean and variance by the single pass of R106 (DEDUCED, log entry 17). -/
def layerR (eps : Word) (x : List FVal) : FVal × FVal :=
  let (mean, var) := meanVar x
  (mean, rdiv .one (rsqrt (radd var (ofFP32 eps))))

/-- One row's results: its outputs, and what it adds to dg and db. -/
structure RowOut where
  out : List FVal
  dg : List FVal
  db : List FVal
deriving DecidableEq, Repr

def zipW (f : FVal → FVal → FVal) (a b : List FVal) : List FVal := (a.zip b).map (fun (x, y) => f x y)

def rmsRow (eps : Word) (x g : List FVal) : List FVal :=
  let r := rmsR eps x
  zipW rmul (x.map (fun v => rmul v r)) g
def layerRow (eps : Word) (x g b : List FVal) : List FVal :=
  let (mu, r) := layerR eps x
  zipW radd (zipW rmul (x.map (fun v => rmul (rsub v mu) r)) g) b
def rmsBwdRow (eps : Word) (x g dy : List FVal) : RowOut :=
  let r := rmsR eps x
  let xh := x.map (fun v => rmul v r)
  let mean := rowMean (zipW rmul (zipW rmul xh g) dy)
  { out := zipW (fun gd h => rmul r (rsub gd (rmul h mean))) (zipW rmul g dy) xh, dg := zipW rmul dy xh, db := dy }
def layerBwdRow (eps : Word) (x g dy : List FVal) : RowOut :=
  let (mu, r) := layerR eps x
  let xh := x.map (fun v => rmul (rsub v mu) r)
  let gh := zipW rmul g dy
  let m1 := rowMean gh
  let m2 := rowMean (zipW rmul xh gh)
  { out := zipW (fun a h => rmul r (rsub (rsub a m1) (rmul h m2))) gh xh, dg := zipW rmul dy xh, db := dy }

/-- Whether node a of a tree of candidates is node n or one of its ancestors (R274). -/
def treeSees (parents : List Nat) : Nat → Nat → Nat → Bool
  | 0, n, a => n == a
  | fuel + 1, n, a => n == a || (n != 0 && treeSees parents fuel (parents.getD (n - 1) 0) a)

/-- Scores after the causal mask and the scale c (R198): a key position beyond the query position is −∞. Under the tree attention mask,
which takes the causal one's place, query i is node i, and sees the key slots below the tree's first, its ancestors and itself (R274). -/
def maskedScores (c : Word) (causal : Option (Nat × Nat)) (tree : Option (Nat × List Nat)) (i : Nat) (s : List FVal) : List FVal :=
  s.zipIdx.map (fun (v, j) =>
    let hidden := match tree, causal with
      | some (len, parents), _ => decide (len ≤ j) && !treeSees parents 64 i (j - len)
      | none, none => false
      | none, some (q, k) => decide ((q + i) % 2 ^ 18 < (k + j) % 2 ^ 18)
    rmul (ofFP32 c) (if hidden then .inf true else v))

/-- Maximum and sum of exponentials of a row (R196 SMAX_STAT). -/
def smaxStatRow (ys : List FVal) : FVal × FVal :=
  let m := ys.foldl FVal.max (.inf true)
  (m, rowSum (ys.map (fun y => rexp (rsub y m))))

/-- MERGE (R199): sums of squares added, or (n, mean, m2) combined, in column order. -/
def mergeSums (vs : List FVal) : FVal := match vs with | [] => .zero | v :: r => r.foldl radd v
def mergePair (a b : Nat × FVal × FVal) : Nat × FVal × FVal :=
  let (na, ma, qa) := a
  let (nb, mb, qb) := b
  let n := na + nb
  let d := rsub mb ma
  (n, radd ma (rdiv (rmul d (.ofNat nb)) (.ofNat n)),
    radd (radd qa qb) (rdiv (rmul (rmul (rmul d d) (.ofNat na)) (.ofNat nb)) (.ofNat n)))

/-! ### Inputs and outputs -/

/-- Width of chunked rows. -/
def chunksWidth (cs : List Chunk) : Nat := (cs.map (·.width)).sum
/-- Row i of a chunked tensor. -/
def chunksRow (m : Mem) (t i : Nat) (cs : List Chunk) : List FVal := cs.flatMap (fun c => c.at_.line m t i c.width)
def chunksFit (rows : Nat) (cs : List Chunk) : Bool := cs.all (fun c => c.at_.fits rows c.width)

/-- Row i written over its chunks, converted by R55, with the numeric effects. -/
def storeRow (m : Mem) (t i : Nat) (ftz : Bool) : List Chunk → List FVal → Mem × NumStat
  | [], _ => (m, {})
  | c :: cs, vs =>
    let (eb, sb, st) := convLine c.at_.fmt (fun _ => none) ftz (vs.take c.width)
    let m := m.writeN (spadBase t + c.at_.addr + i * c.at_.stride) eb
    let m := m.writeN (spadBase t + c.at_.scale + i * c.at_.sstride) sb
    let (m, st') := storeRow m t i ftz cs (vs.drop c.width)
    (m, st.join st')

/-- Rows written in order. -/
def storeRows (m : Mem) (t : Nat) (ftz : Bool) (cs : List Chunk) (rows : List (List FVal)) : Mem × NumStat :=
  rows.zipIdx.foldl (fun (m, st) (r, i) => let (m, st') := storeRow m t i ftz cs r; (m, NumStat.join st st')) (m, ({} : NumStat))

/-- FP32 values at a scratchpad offset, with the numeric effects (R55). -/
def storeFP32 (m : Mem) (t a : Nat) (ftz : Bool) (vs : List FVal) : Mem × NumStat :=
  let (eb, st) := plainLine .fp32 (fun _ => none) ftz vs
  (m.writeN (spadBase t + a) eb, st)

/-- A gains gradient in FP32 with its norm entry (R107, R197). -/
def storeGain (m : Mem) (t a norm : Nat) (ftz : Bool) (vs : List FVal) : Mem × NumStat :=
  let (m, st) := storeFP32 m t a ftz vs
  let ws := lineVals m .fp32 (spadBase t + a) 0 vs.length
  let (m, st') := storeFP32 m t norm false [sumSquares ws]
  (m, st.join st')

/-- A row-engine command completes: memory, numeric counts, and the overflow check for the backward operations (R200).
failed: an input failed persistently, and its outputs are marked failed. -/
def State.rowDone (s : State) (t p : Nat) (a : RowArgs) (bwd : Bool) (r : Mem × NumStat) : State :=
  let k := t * 2 + p
  let s := s.setMem r.1
  let s := s.setEng { s.eng with row := s.eng.row.set k ((s.eng.row.get {} k).join r.2) }
  let s := s.countOvf t 5 (bwd && r.2.ovf)
  let out := a.out.flatMap (fun c => c.at_.ranges t a.rows c.width)
  if a.failed then (s.markFailed out).useFree else s.clearFailed out

/-- A value of a row as it is written: free where an input failed (log entry 3). -/
def State.rowVals (s : State) (a : RowArgs) (i : Nat) (vs : List FVal) : List FVal :=
  if a.failed then vs.zipIdx.map (fun (_, j) => ofX32 (Config.freeX32 s.fresh (i * 262144 + j))) else vs

/-- Whether a row engine's tensors are of formats R55 converts outside the vector engines: neither Q4 nor INT32. -/
def rowFmts (a : RowArgs) : Bool :=
  ((a.x ++ a.dy ++ a.dp ++ a.out).map (·.at_) ++ [a.gain, a.bias]).all (fun x => x.fmt != .q4 && x.fmt != .int32)

/-- A row-engine command that its program may issue, whose formats it takes and whose rows lie in the scratchpad; otherwise FMT or ADDR
(R55, R79). -/
def State.rowRun (s : State) (t : TileIx) (p : Fin 2) (src : Src) (a : RowArgs) (ok : Bool) (body : State) :
    Host.Outcome State Fault Refusal :=
  if !s.engineTakes t 5 p src (fun _ => true) then .next s
  else if !rowFmts a then .next (s.programFault src 1 t 5 p)
  else if !ok then .next (s.programFault src 5 t 5 p)
  else .next (s.readOr src t 5 p ((a.x ++ a.dy ++ a.dp).flatMap (fun c => c.at_.ranges t a.rows c.width)) (fun _ => body.finish src t 5 p))

/-! ### The operations -/

/-- RMS (R196). -/
def execRms (t : TileIx) (p : Fin 2) (src : Src) (a : RowArgs) (s : State) : Host.Outcome State Fault Refusal :=
  let n := chunksWidth a.x
  s.rowRun t p src a (chunksFit a.rows a.x && chunksFit a.rows a.out && a.gain.fits 1 n)
    (s.rowDone t p a false (storeRows s.mem t a.ftz a.out ((List.range a.rows).map (fun i =>
      s.rowVals a i (rmsRow a.eps (chunksRow s.mem t i a.x) (a.gain.line s.mem t 0 n))))))

/-- LAYER (R196). -/
def execLayer (t : TileIx) (p : Fin 2) (src : Src) (a : RowArgs) (s : State) : Host.Outcome State Fault Refusal :=
  let n := chunksWidth a.x
  s.rowRun t p src a (chunksFit a.rows a.x && chunksFit a.rows a.out && a.gain.fits 1 n && a.bias.fits 1 n)
    (s.rowDone t p a false (storeRows s.mem t a.ftz a.out ((List.range a.rows).map (fun i =>
      s.rowVals a i (layerRow a.eps (chunksRow s.mem t i a.x) (a.gain.line s.mem t 0 n) (a.bias.line s.mem t 0 n))))))

/-- Sums over rows in row order. -/
def sumRows (n : Nat) (rows : List (List FVal)) : List FVal :=
  rows.foldl (fun acc r => zipW radd acc r) (List.replicate n .zero)

/-- RMS_BWD (R196, R197). -/
def execRmsBwd (t : TileIx) (p : Fin 2) (src : Src) (a : RowArgs) (s : State) : Host.Outcome State Fault Refusal :=
  let n := chunksWidth a.x
  let rs := (List.range a.rows).map (fun i =>
    rmsBwdRow a.eps (chunksRow s.mem t i a.x) (a.gain.line s.mem t 0 n) (chunksRow s.mem t i a.dy))
  let (m, st) := storeRows s.mem t a.ftz a.out (rs.zipIdx.map (fun (r, i) => s.rowVals a i r.out))
  let (m, st') := storeGain m t a.dgain a.norm a.ftz (s.rowVals a a.rows (sumRows n (rs.map (·.dg))))
  s.rowRun t p src a (chunksFit a.rows a.x && chunksFit a.rows a.dy && chunksFit a.rows a.out && a.gain.fits 1 n &&
      extentFits a.dgain 0 1 (4 * n) && extentFits a.norm 0 1 4)
    (s.rowDone t p a true (m, st.join st'))

/-- LAYER_BWD (R196, R197); the norm entry of db follows that of dg. -/
def execLayerBwd (t : TileIx) (p : Fin 2) (src : Src) (a : RowArgs) (s : State) : Host.Outcome State Fault Refusal :=
  let n := chunksWidth a.x
  let rs := (List.range a.rows).map (fun i =>
    layerBwdRow a.eps (chunksRow s.mem t i a.x) (a.gain.line s.mem t 0 n) (chunksRow s.mem t i a.dy))
  let (m, st) := storeRows s.mem t a.ftz a.out (rs.zipIdx.map (fun (r, i) => s.rowVals a i r.out))
  let (m, st1) := storeGain m t a.dgain a.norm a.ftz (s.rowVals a a.rows (sumRows n (rs.map (·.dg))))
  let (m, st2) := storeGain m t a.dbias (a.norm + 4) a.ftz (s.rowVals a (a.rows + 1) (sumRows n (rs.map (·.db))))
  s.rowRun t p src a (chunksFit a.rows a.x && chunksFit a.rows a.dy && chunksFit a.rows a.out && a.gain.fits 1 n &&
      extentFits a.dgain 0 1 (4 * n) && extentFits a.dbias 0 1 (4 * n) && extentFits a.norm 0 1 8)
    (s.rowDone t p a true (m, (st.join st1).join st2))

/-- SMAX_STAT (R196, R198): maximum, then sum, 8 bytes a row. -/
def execSmaxStat (t : TileIx) (p : Fin 2) (src : Src) (a : RowArgs) (s : State) : Host.Outcome State Fault Refusal :=
  let vs := (List.range a.rows).flatMap (fun i =>
    let (m, sum) := smaxStatRow (maskedScores a.c a.causal a.tree i (chunksRow s.mem t i a.x))
    s.rowVals a i [m, sum])
  s.rowRun t p src a (chunksFit a.rows a.x && extentFits a.stat 0 1 (8 * a.rows))
    (s.rowDone t p a false (storeFP32 s.mem t a.stat a.ftz vs))

/-- Statistics of row i, and its δ. -/
def rowStat (m : Mem) (t : Nat) (a : RowArgs) (i : Nat) : FVal × FVal :=
  let b := spadBase t + a.stat + 8 * i
  (elemVal m .fp32 b 0 0, elemVal m .fp32 b 0 1)
def rowDelta (m : Mem) (t : Nat) (a : RowArgs) (i : Nat) : FVal := elemVal m .fp32 (spadBase t + a.delta) 0 i

/-- P of a row (R196 SMAX). -/
def probRow (m : Mem) (t : Nat) (a : RowArgs) (i : Nat) : List FVal :=
  let (mx, sum) := rowStat m t a i
  (maskedScores a.c a.causal a.tree i (chunksRow m t i a.x)).map (fun y => rdiv (rexp (rsub y mx)) sum)

/-- SMAX (R196, R198). -/
def execSmax (t : TileIx) (p : Fin 2) (src : Src) (a : RowArgs) (s : State) : Host.Outcome State Fault Refusal :=
  s.rowRun t p src a (chunksFit a.rows a.x && chunksFit a.rows a.out && extentFits a.stat 0 1 (8 * a.rows))
    (s.rowDone t p a false (storeRows s.mem t a.ftz a.out
      ((List.range a.rows).map (fun i => s.rowVals a i (probRow s.mem t a i)))))

/-- SMAX_BWD (R196, R198). -/
def execSmaxBwd (t : TileIx) (p : Fin 2) (src : Src) (a : RowArgs) (s : State) : Host.Outcome State Fault Refusal :=
  s.rowRun t p src a (chunksFit a.rows a.x && chunksFit a.rows a.dp && chunksFit a.rows a.out &&
      extentFits a.stat 0 1 (8 * a.rows) && extentFits a.delta 0 1 (4 * a.rows))
    (s.rowDone t p a true (storeRows s.mem t a.ftz a.out
      ((List.range a.rows).map (fun i => s.rowVals a i (zipW (fun pr d => rmul (rmul (ofFP32 a.c) pr) (rsub d (rowDelta s.mem t a i)))
        (probRow s.mem t a i) (chunksRow s.mem t i a.dp))))))

/-- DOT (R196): δ of each row. -/
def execDot (t : TileIx) (p : Fin 2) (src : Src) (a : RowArgs) (s : State) : Host.Outcome State Fault Refusal :=
  let vs := (List.range a.rows).flatMap (fun i =>
    s.rowVals a i [rowSum (zipW rmul (chunksRow s.mem t i a.x) (chunksRow s.mem t i a.dy))])
  s.rowRun t p src a (chunksFit a.rows a.x && chunksFit a.rows a.dy && extentFits a.delta 0 1 (4 * a.rows))
    (s.rowDone t p a false (storeFP32 s.mem t a.delta a.ftz vs))

/-- MERGE (R199): the drain partials of each row, in the order of their columns; counts gives the values behind each
partial, whose m2 is its variance times that count (R106). -/
def execMerge (t : TileIx) (p : Fin 2) (src : Src) (a : RowArgs) (s : State) : Host.Outcome State Fault Refusal :=
  let w := if a.variance then 8 else 4
  let at_ (b i k : Nat) : FVal := elemVal s.mem .fp32 (spadBase t + b + w * i) 0 k
  let one (i : Nat) : List FVal :=
    if a.variance then
      let ps := (a.parts.zip a.counts).map (fun (b, n) => (n, at_ b i 0, rmul (at_ b i 1) (.ofNat n)))
      match ps with
      | [] => [.zero, .zero]
      | x :: r =>
        let (n, mean, m2) := r.foldl mergePair x
        [mean, rdiv m2 (.ofNat n)]
    else [mergeSums (a.parts.map (fun b => at_ b i 0))]
  let vs := (List.range a.rows).flatMap (fun i => s.rowVals a i (one i))
  s.rowRun t p src a (a.parts.all (fun b => extentFits b 0 1 (w * a.rows)) && extentFits a.stat 0 1 (w * a.rows))
    (s.rowDone t p a false (storeFP32 s.mem t a.stat a.ftz vs))

end Sys2Proof.Machine
end

