-- ==== Sys2Proof/Machine/Security.lean ====
section
/-! DEFINITION. The SPDM responder on the DOE mailbox (R451 to R453) and link encryption (R454). The messages' own formats are those of
SPDM, which the manual does not repeat: a response is the answer it names (log entry 36). -/
namespace Sys2Proof.Machine

/-! ### Measurements (R452) -/

def zeros32 : List Byte := List.replicate 32 0

/-- The digest of a slot's image; of an absent one, zeros. -/
def State.slotDigest (s : State) (i : Bool) : List Byte :=
  let x := s.fwSlot i
  if x.present then x.digest.getD (Config.factoryDigest (b2n i)) else zeros32

/-- The security state that index 4 covers; its byte layout is the model's (DESIGN CHOICE, log entry 36). -/
def State.securityBytes (s : State) : List Byte :=
  leBytes 1 s.sec.counter ++ leBytes 1 (b2n s.keeper.debug) ++ leBytes 1 (b2n s.sec.ideIo.keyed + 2 * b2n s.sec.ideCm.keyed) ++
    leBytes 1 s.fnp.numVfs ++ leBytes 4 s.tier.windowBase ++ leBytes 4 s.tier.windowSize

/-- A measurement by its index. -/
def State.measurement (s : State) (i : Nat) : List Byte :=
  match i with
  | 1 => Config.bootRomDigest
  | 2 => s.slotDigest s.keeper.slot
  | 3 => s.slotDigest (!s.keeper.slot)
  | 4 => Config.sha256 s.securityBytes
  | 5 =>
    if s.pair.state == .resident || s.pair.state == .unloading then
      (if s.pair.refreshes = 0 then Config.sha256 s.pair.image else Config.refreshedDigest s.pair.refreshes s.pair.image)
    else zeros32
  | 6 => if s.prog.progs.isEmpty then zeros32 else Config.sha256 (s.prog.progs.flatMap (fun e => Config.sha256 e.2.img.bytes))
  | 7 => match s.link.table with
    | some t => Config.sha256 t.raw
    | none => zeros32
  | _ => zeros32

/-! ### Answers -/

/-- The responder answers. -/
def State.answer (s : State) (r : SpdmResp) : State := (s.setSec { s.sec with response := some r }).send (.spdm r)

/-- A signature of the SEC block over a digest of given bytes; its salt is fresh (R448). -/
def State.signed (s : State) (bs : List Byte) : List Byte := Config.secSign s.fresh (Config.sha256 bs)

/-- A request reaches the responder: nothing answers before the Keeper runs; ERROR Busy until the mailboxes open, during a restart and
in recovery mode (R453, R459); then the version must be 1.2 or 1.3 (R451). -/
def State.spdm (s : State) (r : SpdmReq) (body : State → State) : State :=
  if !s.keeper.up && !s.keeper.recovery then s
  else if s.keeper.kbusy || s.keeper.recovery || !s.keeper.isOpen then s.answer .errorBusy
  else if r.version != 0x12 && r.version != 0x13 then s.answer .errorInvalid
  else body s

/-- The established session a request came in. -/
def State.inSession (s : State) (r : SpdmReq) : Option Session :=
  r.session.bind (fun i => s.sec.sessions.find? (fun x => x.id == i && x.established))

/-- GET_VERSION: 1.2 and 1.3. -/
def execGetVersion (r : SpdmReq) (s : State) : Host.Outcome State Fault Refusal :=
  .next (s.spdm { r with version := 0x12 } (fun s => s.answer (.version [0x12, 0x13])))

/-- GET_CAPABILITIES. -/
def execGetCapabilities (r : SpdmReq) (s : State) : Host.Outcome State Fault Refusal :=
  .next (s.spdm r (fun s => s.answer .capabilities))

/-- NEGOTIATE_ALGORITHMS: one choice of each kind and no other. -/
def execNegotiateAlgorithms (r : SpdmReq) (s : State) : Host.Outcome State Fault Refusal :=
  .next (s.spdm r (fun s =>
    if r.choicesOk then (s.setSec { s.sec with negotiated := true }).answer .algorithms else s.answer .errorInvalid))

/-- GET_DIGESTS: of the chain in slot 0. -/
def execGetDigests (r : SpdmReq) (s : State) : Host.Outcome State Fault Refusal :=
  .next (s.spdm r (fun s => s.answer (.digests (Config.sha256 daymarkChain))))

/-- GET_CERTIFICATE: a part of the chain, slot 0 only. -/
def execGetCertificate (r : SpdmReq) (slot offset length : Nat) (s : State) : Host.Outcome State Fault Refusal :=
  .next (s.spdm r (fun s =>
    if slot ≠ 0 || daymarkChain.length ≤ offset then s.answer .errorInvalid
    else
      let part := (daymarkChain.drop offset).take length
      s.answer (.certificate part (daymarkChain.length - offset - part.length))))

/-- CHALLENGE: a signed response for slot 0. -/
def execChallenge (r : SpdmReq) (slot : Nat) (s : State) : Host.Outcome State Fault Refusal :=
  .next (s.spdm r (fun s =>
    if slot ≠ 0 then s.answer .errorInvalid else (s.answer (.challengeAuth (s.signed (daymarkChain ++ r.nonce)))).useFree))

/-- GET_MEASUREMENTS: one index or all (0xFF), signed or not; every value is of this instant (R453). -/
def execGetMeasurements (r : SpdmReq) (s : State) : Host.Outcome State Fault Refusal :=
  .next (s.spdm r (fun s =>
    let is := if r.index = 0xFF then [1, 2, 3, 4, 5, 6, 7] else [r.index]
    if is.any (fun i => decide (7 < i) || i == 0) then s.answer .errorInvalid
    else
      let vals := is.map (fun i => (i, s.measurement i))
      if r.signed then (s.answer (.measurements vals (some (s.signed (vals.flatMap (·.2) ++ r.nonce))))).useFree
      else s.answer (.measurements vals none)))

/-! ### Sessions -/

/-- KEY_EXCHANGE: a third open session is answered Busy. -/
def execKeyExchange (r : SpdmReq) (s : State) : Host.Outcome State Fault Refusal :=
  .next (s.spdm r (fun s =>
    if 2 ≤ s.sec.sessions.length then s.answer .errorBusy
    else
      let id := if s.sec.sessions.any (fun x => x.id == 1) then 2 else 1
      let secret := Config.sessionSecret s.fresh
      let x : Session := { id := id, secret := secret, established := false, updates := 0 }
      let sig := s.signed (daymarkChain ++ r.nonce)
      ((s.setSec { s.sec with sessions := s.sec.sessions ++ [x] }).answer (.keyExchangeRsp id sig)).useFree))

/-- FINISH: the session is established. -/
def execFinish (r : SpdmReq) (s : State) : Host.Outcome State Fault Refusal :=
  .next (s.spdm r (fun s =>
    if s.sec.sessions.any (fun x => some x.id == r.session && !x.established) then
      let xs := s.sec.sessions.map (fun x => if some x.id == r.session then { x with established := true } else x)
      (s.setSec { s.sec with sessions := xs }).answer .finishRsp
    else s.answer .errorInvalid))

/-- END_SESSION. -/
def execEndSession (r : SpdmReq) (s : State) : Host.Outcome State Fault Refusal :=
  .next (s.spdm r (fun s => match s.inSession r with
    | none => s.answer .errorInvalid
    | some x => (s.setSec { s.sec with sessions := s.sec.sessions.filter (fun y => y.id != x.id) }).answer .endSessionAck))

/-- HEARTBEAT. -/
def execHeartbeat (r : SpdmReq) (s : State) : Host.Outcome State Fault Refusal :=
  .next (s.spdm r (fun s => s.answer (if (s.inSession r).isSome then .heartbeatAck else .errorInvalid)))

/-- KEY_UPDATE: the session's keys move on. -/
def execKeyUpdate (r : SpdmReq) (s : State) : Host.Outcome State Fault Refusal :=
  .next (s.spdm r (fun s => match s.inSession r with
    | none => s.answer .errorInvalid
    | some x =>
      let xs := s.sec.sessions.map (fun y => if y.id = x.id then { y with updates := y.updates + 1 } else y)
      (s.setSec { s.sec with sessions := xs }).answer .keyUpdateAck))

/-- SPDM_UNSUPPORTED_REQUEST: any request R451 does not list. -/
def execSpdmUnsupportedRequest (code : Nat) (s : State) : Host.Outcome State Fault Refusal :=
  .next (s.spdm { version := 0x12, session := none, choicesOk := true, index := 0, signed := false, nonce := [] }
    (fun s => s.answer (.errorUnsupported code)))

/-! ### IDE (R454) -/

/-- IDE_KM: inside an established session a stream is keyed, or its key refreshed, and is Secure. -/
def execIdeKm (r : SpdmReq) (cachemem : Bool) (key : List Byte) (s : State) : Host.Outcome State Fault Refusal :=
  .next (s.spdm r (fun s =>
    if (s.inSession r).isNone then s.answer .errorInvalid
    else
      let x : IdeStream := { keyed := true, secure := true, key := key }
      (s.setSec (if cachemem then { s.sec with ideCm := x } else { s.sec with ideIo := x })).answer .ideAck))

/-- A long operation whose descriptor data was in discarded flits ends with DESCRIPTOR. -/
def State.flitsLost (s : State) (o : LongOp) : State :=
  match o.kind with
  | .pairLoad => (s.setPair {}).opDone o codeDescriptor
  | .refreshTeacher => (s.setPair { s.pair with heldTeacher := none }).opDone o codeDescriptor
  | .refreshStudent => (s.setPair { s.pair with heldStudent := none }).opDone o codeDescriptor
  | .transfer | .fwLoad => s.opDone o codeDescriptor
  | _ => s

/-- IDE_FAULT: a keyed stream goes Insecure; commands hit (function, SEQ) end with DESCRIPTOR; the event is posted. -/
def execIdeFault (cachemem : Bool) (flits : Nat) (hit : List (Nat × Nat)) (s : State) : Host.Outcome State Fault Refusal :=
  let x := if cachemem then s.sec.ideCm else s.sec.ideIo
  .next (if !x.keyed then s
    else
      let y := { x with secure := false }
      let s := s.setSec (if cachemem then { s.sec with ideCm := y } else { s.sec with ideIo := y })
      let s := (s.keeper.ops.filter (fun o => hit.any (fun h => h.1 == o.fn.val && h.2 == o.seq))).foldl State.flitsLost s
      s.healthEvent 0x132 0xFF (b2n cachemem) 0 flits)

end Sys2Proof.Machine
end

