-- ==== Sys2Proof/Machine/Turns.lean ====
section
/-! DEFINITION. Turns of the scheduled engines (R368 to R376), preemption (R372, R373) and energy (R389). -/
namespace Sys2Proof.Machine

/-! ### Engines -/

/-- The queue code of an engine: the collective engine lies on the hub. -/
def engCode (e : EngRef) : Nat := queueCode (if e.kind = 10 then 0xFF else e.tile.val) e.kind e.num

/-- The class engine time is counted in (R390). -/
def timeClass (kind : Nat) : Nat :=
  match kind with
  | 2 => 1
  | 3 => 5
  | 4 => 4
  | 5 => 2
  | 6 => 3
  | 7 => 7
  | 8 => 6
  | 9 => 8
  | 10 => 9
  | _ => 0

/-- Gallery time of a customer, or time of another engine. -/
def CustAcct.addTime (a : CustAcct) (kind n : Nat) : CustAcct :=
  if kind ≤ 1 then { a with gallery := satAdd64 a.gallery n } else { a with other := satAdd64 a.other n }

/-- Engine time charged: to the function, or, for the physical function on a tile whose group runs a serving step, to the functions
and customers of the step by their positions (R369, R388). -/
def State.chargeTime (s : State) (e : EngRef) (f n : Nat) : State :=
  let tile := if e.kind = 10 then 4 else e.tile.val
  let t := s.chargeStep tile f n (fun n a => a.addTime (timeClass e.kind) n)
  match (if f = 0 then s.stepAt tile else none) with
  | none => t
  | some pl => (shareOut n (s.planCusts pl)).foldl (fun s x => s.chargeTo x.1 (fun a => a.addTime e.kind x.2)) t

/-! ### Turns -/

/-- The first of the ready functions after the one last served, wrapping from 16 to 0. -/
def nextReady (last : Nat) (ready : List Nat) : Option Nat := ((List.range 17).map (fun k => (last + 1 + k) % 17)).find? ready.contains

/-- The function whose turn comes: one whose deficit is a whole slice or more is passed over, and its deficit falls by a slice
(R376). The first argument bounds the number passed over. -/
def pickTurn (slice : Nat → Nat) (ready : List Nat) : Nat → Nat → Tab Nat → Option (Nat × Tab Nat)
  | 0, _, _ => none
  | n + 1, last, d =>
    match nextReady last ready with
    | none => none
    | some f => if d.get 0 f < slice f then some (f, d) else pickTurn slice ready n f (d.set f (d.get 0 f - slice f))

/-- Slices in units of 10 ns. -/
def State.sliceOf (s : State) (f : Nat) : Nat := (s.sched.active.get {} f).slice * 100

/-- Whether a function's command goes on, or stands stopped at a preemption point, on an engine: one in a vector engine, a waiting operation
or a stopped drain of a gallery, an open SAVE_DRAIN. -/
def State.underWay (s : State) (e : EngRef) (f : Fn) : Bool :=
  let t := e.tile.val
  match e.kind with
  | 2 => let v := s.vecEng t e.num; List.any v.parts (fun (x : Nat × ChainPart) => x.2.src.fn == f) || v.upds.any (fun x => x.src.fn == f)
  | 3 => ((s.eng.saves.get [] (t * 2 + e.num))).any (fun o => o.src.fn == f)
  | 0 | 1 => (List.range 8).any (fun i =>
      let y := s.array t (s.phys t (e.num * 8 + i))
      y.waiting.any (fun w => w.src.fn == f) || y.leases.any (fun l => l.part.any (fun d => d.src.fn == f)))
  | _ => false

/-- Whether a function's next command on an engine is ready (R370): in a queue of an admitted program, of its own or, for the physical
function, of a serving program whose step runs. -/
def State.hasReady (s : State) (k : Nat) (f : Fn) : Bool :=
  List.any s.prog.progs (fun (e : Nat × Prog) => (e.2.img.queues.filter (fun q => qcode q == k)).any (fun q => (List.range q.cmds.length).any (fun i =>
    let c : Src := { fn := f, handle := e.1, index := i }
    !s.stopped c && s.ready c k (fun _ => true))))

/-- The functions with a ready command on an engine. asked: those with one on an engine that programs have no queue for (samplers, Target
engines, page walkers), and 0 where the Keeper has one of its own (log entry 57). -/
def State.readyOn (s : State) (e : EngRef) (asked : List Nat) : List Nat :=
  if e.kind = 6 || e.kind = 8 || e.kind = 9 then asked
  else ((List.finRange 17).filter (fun f => (f.val == 0 && asked.contains 0) || s.underWay e f || s.hasReady (engCode e) f)).map (·.val)

/-- The engine passes to the next ready function: an incoming function pays the switch, and in a gallery its window is restored;
without a ready function the engine idles. A window that grew in the turn that ends moves (R77). -/
def State.passTurn (s : State) (e : EngRef) (ready : List Nat) (switchTime : Nat) : State :=
  let k := engCode e
  let x := s.engSched k
  let s := match (if e.kind ≤ 1 then x.current else none) with
    | some f => s.settleMove e.tile e.num (Fin.ofNat 17 f)
    | none => s
  let able := ready.filter (fun f => s.fnExists f && !(s.fnSt f).resetting && !(s.sched.active.get {} f).suspend)
  let fuel := ((List.range 17).map (fun f => x.deficit.get 0 f / s.sliceOf f + 1)).sum
  match pickTurn s.sliceOf able fuel x.last x.deficit with
  | none => s.setEngSched k { x with current := none, length := 0, group := none }
  | some (f, d) =>
    let s := (s.setEngSched k { x with deficit := d }).startTurn k f
    let s := if x.current = some f then s else s.charge f (fun a => { a with switch := satAdd64 a.switch switchTime })
    if e.kind ≤ 1 then s.admitTurn e.tile e.num (Fin.ofNat 17 f) else s

/-- TURN_END (R370, R376): the turn's engine time and its overrun are charged, the overrun enters the deficit, and the engine passes
on. elapsed: the time of the commands that completed in the turn. While the Keeper restarts the turn goes on, and the excess is
Keeper time (R336). -/
def execTurnEnd (e : EngRef) (elapsed : Nat) (ready : List Nat) (overrun switchTime : Nat) (s : State) : Host.Outcome State Fault Refusal :=
  let k := engCode e
  let ready := s.readyOn e ready
  .next (if !s.released then s
    else match (s.engSched k).current with
      | none => if s.keeper.kbusy then s else s.passTurn e ready switchTime
      | some f =>
        let s := s.chargeTime e f elapsed
        if s.keeper.kbusy then s.addTime f 10 overrun
        else
          let s := s.charge f (fun a => { a with overrun := satAdd64 a.overrun overrun })
          let x := s.engSched k
          (s.setEngSched k { x with deficit := x.deficit.upd 0 f (· + overrun) }).passTurn e ready switchTime)

/-- A gallery's panels are not saved: a product that resumes reloads its own (R373). -/
def State.dropPanels (s : State) (t g : Nat) : State :=
  (List.range 8).foldl (fun s i => let p := s.phys t (g * 8 + i); s.setArray t p { s.array t p with lens := none }) s

/-- PREEMPT (R372, R373): the stopped command's time is charged; for a turn end or a suspension it counts as a preemption, and for a
function-level reset its state is discarded with the rest of the function's work (R385). -/
def execPreempt (e : EngRef) (engineTime : Nat) (flr : Bool) (s : State) : Host.Outcome State Fault Refusal :=
  .next (match (s.engSched (engCode e)).current with
    | none => s
    | some f =>
      let s := s.chargeTime e f engineTime
      let s := if flr then s else s.charge f (fun a => { a with preempts := satAdd64 a.preempts 1 })
      if e.kind ≤ 1 then s.dropPanels e.tile e.num else s)

/-! ### Energy (R389) -/

/-- A function's part of a rail's remainder, and among its customers by their positions in the steps that run. -/
def State.chargeEnergy (s : State) (f n : Nat) : State :=
  let s := s.charge f (fun a => { a with energy := satAdd64 a.energy n })
  let ws := gather ((List.range 4).flatMap (fun g => match (s.group g).plan with
    | none => []
    | some pl => pl.parts.filterMap (fun x => (s.req? x.req).bind (fun q => if q.fn.val = f then some (q.cust, x.positions) else none))))
  (shareOut n ws).foldl (fun s x => s.chargeTo x.1 (fun a => { a with energy := satAdd64 a.energy x.2 })) s

/-- ENERGY_TICK: each rail's energy above its idle baseline is divided by weighted activity; baselines, conversion loss and what no
function's activity took are unattributed. Energies in µJ. The Keeper does this, so not while it restarts. -/
def execEnergyTick (rails inputs idle : List Nat) (shares : List EnergyShare) (s : State) : Host.Outcome State Fault Refusal :=
  .next (if !s.keeper.up || s.keeper.kbusy then s
    else
      let rest (r : Nat) : Nat := rails.getD r 0 - idle.getD r 0
      let parts := (List.range rails.length).flatMap (fun r =>
        shareOut (rest r) (gather ((shares.filter (fun x => x.rail == r && x.activity != 0)).map (fun x => (x.fn.val, x.activity)))))
      let given := (parts.map (·.2)).sum
      let s := (gather parts).foldl (fun s x => s.chargeEnergy x.1 x.2) s
      s.setFnp { s.fnp with unattributed := satAdd64 s.fnp.unattributed (max inputs.sum rails.sum - given) })

end Sys2Proof.Machine
end

