-- ==== Sys2Proof/Machine/Dispatch.lean ====
section
/-! DEFINITION. One arm for each command: a direct call of its meaning, or a rejection by name. -/
namespace Sys2Proof.Machine

/-- The effect of a command on everything but the queue. -/
def exec (i : Instr) (s : State) : Host.Outcome State Fault Refusal :=
  match i with
  | .nop m opcode => Sys2Proof.Machine.execNop m opcode s
  | .identify m => Sys2Proof.Machine.execIdentify m s
  | .healthRead m => Sys2Proof.Machine.execHealthRead m s
  | .accountRead m => Sys2Proof.Machine.execAccountRead m s
  | .pairLoad m signed => Sys2Proof.Machine.execPairLoad m signed s
  | .pairLoadDone r => Sys2Proof.Machine.execPairLoadDone r s
  | .pairUnload m => Sys2Proof.Machine.execPairUnload m s
  | .refresh m img => Sys2Proof.Machine.execRefresh m img s
  | .pairStatus m => Sys2Proof.Machine.execPairStatus m s
  | .progSubmit m img => Sys2Proof.Machine.execProgSubmit m img s
  | .progRetire m => Sys2Proof.Machine.execProgRetire m s
  | .progRestart m => Sys2Proof.Machine.execProgRestart m s
  | .runStart m lasts => Sys2Proof.Machine.execRunStart m lasts s
  | .runStop m => Sys2Proof.Machine.execRunStop m s
  | .snapRequest m => Sys2Proof.Machine.execSnapRequest m s
  | .snapshotComplete readFailed => Sys2Proof.Machine.execSnapshotComplete readFailed s
  | .join m => Sys2Proof.Machine.execJoin m s
  | .cancel m => Sys2Proof.Machine.execCancel m s
  | .pause m => Sys2Proof.Machine.execPause m s
  | .batchClose m => Sys2Proof.Machine.execBatchClose m s
  | .reqStatus m => Sys2Proof.Machine.execReqStatus m s
  | .custBind m => Sys2Proof.Machine.execCustBind m s
  | .budgetRefill m => Sys2Proof.Machine.execBudgetRefill m s
  | .budgetRead m => Sys2Proof.Machine.execBudgetRead m s
  | .regionAlloc m => Sys2Proof.Machine.execRegionAlloc m s
  | .regionFree m => Sys2Proof.Machine.execRegionFree m s
  | .memTransfer m => Sys2Proof.Machine.execMemTransfer m s
  | .memTransferDone fn seq data refused => Sys2Proof.Machine.execMemTransferDone fn seq data refused s
  | .carrierEvacuate m => Sys2Proof.Machine.execCarrierEvacuate m s
  | .extentSwitch carrier extent => Sys2Proof.Machine.execExtentSwitch carrier extent s
  | .carrierReleased carrier => Sys2Proof.Machine.execCarrierReleased carrier s
  | .cxlmemWindow m => Sys2Proof.Machine.execCxlmemWindow m s
  | .sizeTableSet m => Sys2Proof.Machine.execSizeTableSet m s
  | .sizeTableInForce leadCrc census => Sys2Proof.Machine.execSizeTableInForce leadCrc census s
  | .sizeTableRead m => Sys2Proof.Machine.execSizeTableRead m s
  | .linkStatus m => Sys2Proof.Machine.execLinkStatus m s
  | .fogRead m => Sys2Proof.Machine.execFogRead m s
  | .daymarkRead m => Sys2Proof.Machine.execDaymarkRead m s
  | .fwLoad m v => Sys2Proof.Machine.execFwLoad m v s
  | .fwActivate m v => Sys2Proof.Machine.execFwActivate m v s
  | .servicePrepareLaser m => Sys2Proof.Machine.execServicePrepareLaser m s
  | .servicePreparePhase m => Sys2Proof.Machine.execServicePreparePhase m s
  | .servicePrepareFibre m answered => Sys2Proof.Machine.execServicePrepareFibre m answered s
  | .debugEnter m => Sys2Proof.Machine.execDebugEnter m s
  | .debugExit m => Sys2Proof.Machine.execDebugExit m s
  | .accRead m => Sys2Proof.Machine.execAccRead m s
  | .accWrite m => Sys2Proof.Machine.execAccWrite m s
  | .mbxEvtConsWrite fn value => Sys2Proof.Machine.execMbxEvtConsWrite fn value s
  | .keeperHeartbeat => Sys2Proof.Machine.execKeeperHeartbeat s
  | .kprSwatchRead unit => Sys2Proof.Machine.execKprSwatchRead unit s
  | .drnCustCommit fn t value => Sys2Proof.Machine.execDrnCustCommit fn t value s
  | .drnCntClr t p value => Sys2Proof.Machine.execDrnCntClr t p value s
  | .tgtCommit fn t value => Sys2Proof.Machine.execTgtCommit fn t value s
  | .tcfgApply t => Sys2Proof.Machine.execTcfgApply t s
  | .tgtCntClr t value => Sys2Proof.Machine.execTgtCntClr t value s
  | .vxeCntClr t e value => Sys2Proof.Machine.execVxeCntClr t e value s
  | .vxeKeyCommit fn t f value => Sys2Proof.Machine.execVxeKeyCommit fn t f value s
  | .arbCommit fn n value => Sys2Proof.Machine.execArbCommit fn n value s
  | .arbFreeze fn n value => Sys2Proof.Machine.execArbFreeze fn n value s
  | .kprSchedCommit fn value => Sys2Proof.Machine.execKprSchedCommit fn value s
  | .pwrHotreset fn value boot => Sys2Proof.Machine.execPwrHotreset fn value boot s
  | .registerWrite fn bar offset size value => Sys2Proof.Machine.execRegisterWrite fn bar offset size value s
  | .product t g src ws mism => Sys2Proof.Machine.execProduct t g src ws mism s
  | .leaseWaitRelease t a mism => Sys2Proof.Machine.execLeaseWaitRelease t a mism s
  | .tileReplay t a slot twinMism origMism => Sys2Proof.Machine.execTileReplay t a slot twinMism origMism s
  | .arrayRetire t a => Sys2Proof.Machine.execArrayRetire t a s
  | .drain t g src ws ext sideFailed => Sys2Proof.Machine.execDrain t g src ws ext sideFailed s
  | .teacherTile t a => Sys2Proof.Machine.execTeacherTile t a s
  | .recordForward pos src dst pairs slotWord => Sys2Proof.Machine.execRecordForward pos src dst pairs slotWord s
  | .studentNormTile t a => Sys2Proof.Machine.execStudentNormTile t a s
  | .studentGradTile t a => Sys2Proof.Machine.execStudentGradTile t a s
  | .sampleTile t a => Sys2Proof.Machine.execSampleTile t a s
  | .chain t e src ws failed => Sys2Proof.Machine.execChain t e src ws failed s
  | .setlen t e src w rest => Sys2Proof.Machine.execSetlen t e src w rest s
  | .update t e src ws => Sys2Proof.Machine.execUpdate t e src ws s
  | .saveDrain t p src ws => Sys2Proof.Machine.execSaveDrain t p src ws s
  | .saveSpad t p src ws => Sys2Proof.Machine.execSaveSpad t p src ws s
  | .expand t p src ws => Sys2Proof.Machine.execExpand t p src ws s
  | .turnStore t p src a => Sys2Proof.Machine.execTurnStore t p src a s
  | .rms t p src a => Sys2Proof.Machine.execRms t p src a s
  | .layer t p src a => Sys2Proof.Machine.execLayer t p src a s
  | .rmsBwd t p src a => Sys2Proof.Machine.execRmsBwd t p src a s
  | .layerBwd t p src a => Sys2Proof.Machine.execLayerBwd t p src a s
  | .smaxStat t p src a => Sys2Proof.Machine.execSmaxStat t p src a s
  | .smax t p src a => Sys2Proof.Machine.execSmax t p src a s
  | .smaxBwd t p src a => Sys2Proof.Machine.execSmaxBwd t p src a s
  | .dot t p src a => Sys2Proof.Machine.execDot t p src a s
  | .merge t p src a => Sys2Proof.Machine.execMerge t p src a s
  | .copy t e src ws remote => Sys2Proof.Machine.execCopy t e src ws remote s
  | .fill t e src ws => Sys2Proof.Machine.execFill t e src ws s
  | .collectiveStep src op => Sys2Proof.Machine.execCollectiveStep src op s
  | .reshardComplete index t duration => Sys2Proof.Machine.execReshardComplete index t duration s
  | .contributionArrival shard module step vals ovf => Sys2Proof.Machine.execContributionArrival shard module step vals ovf s
  | .lateLimitExpiry shard => Sys2Proof.Machine.execLateLimitExpiry shard s
  | .overflowReport module step ovf partial_ fallback second => Sys2Proof.Machine.execOverflowReport module step ovf partial_ fallback second s
  | .prepassRx step => Sys2Proof.Machine.execPrepassRx step s
  | .goRx step k lscale clean => Sys2Proof.Machine.execGoRx step k lscale clean s
  | .skipRx step lscale clean => Sys2Proof.Machine.execSkipRx step lscale clean s
  | .readyRx module step ovf owned mirrored => Sys2Proof.Machine.execReadyRx module step ovf owned mirrored s
  | .commitMarkRx step lscale clean => Sys2Proof.Machine.execCommitMarkRx step lscale clean s
  | .lscaleFloor => Sys2Proof.Machine.execLscaleFloor s
  | .abortRx step failed => Sys2Proof.Machine.execAbortRx step failed s
  | .commitWaitExpiry module => Sys2Proof.Machine.execCommitWaitExpiry module s
  | .commitPulse widthNs copies => Sys2Proof.Machine.execCommitPulse widthNs copies s
  | .servingStepBoundary g pageFaults kvFailed treeReqs trees => Sys2Proof.Machine.execServingStepBoundary g pageFaults kvFailed treeReqs trees s
  | .requestDeadlineExpiry index => Sys2Proof.Machine.execRequestDeadlineExpiry index s
  | .noPages index => Sys2Proof.Machine.execNoPages index s
  | .arbRound n dropped reqs masked => Sys2Proof.Machine.execArbRound n dropped reqs masked s
  | .arbBreakPoint n masked preempted => Sys2Proof.Machine.execArbBreakPoint n masked preempted s
  | .reread reader e addr failures => Sys2Proof.Machine.execReread reader e addr failures s
  | .persistentFailureRecovery addr data sourceFailed => Sys2Proof.Machine.execPersistentFailureRecovery addr data sourceFailed s
  | .transientRetire addr => Sys2Proof.Machine.execTransientRetire addr s
  | .bridgeFlitCrcFail t resends fault => Sys2Proof.Machine.execBridgeFlitCrcFail t resends fault s
  | .linkTrain p o => Sys2Proof.Machine.execLinkTrain p o s
  | .linkTrainRetry p o => Sys2Proof.Machine.execLinkTrainRetry p o s
  | .linkPacketRx p pkt => Sys2Proof.Machine.execLinkPacketRx p pkt s
  | .nakRx p ackseq => Sys2Proof.Machine.execNakRx p ackseq s
  | .ackRx p ackseq => Sys2Proof.Machine.execAckRx p ackseq s
  | .idleTimer p => Sys2Proof.Machine.execIdleTimer p s
  | .laneSpared p lane => Sys2Proof.Machine.execLaneSpared p lane s
  | .peerSilent p => Sys2Proof.Machine.execPeerSilent p s
  | .moveTimeout move => Sys2Proof.Machine.execMoveTimeout move s
  | .laserLow source percent => Sys2Proof.Machine.execLaserLow source percent s
  | .laserFailover source => Sys2Proof.Machine.execLaserFailover source s
  | .laserSourceFitted source => Sys2Proof.Machine.execLaserSourceFitted source s
  | .fogReport code subject witnesses count => Sys2Proof.Machine.execFogReport code subject witnesses count s
  | .fogHoldExpiry code subject => Sys2Proof.Machine.execFogHoldExpiry code subject s
  | .fogWindowExpiry code subject => Sys2Proof.Machine.execFogWindowExpiry code subject s
  | .inputFault input code deciVolts => Sys2Proof.Machine.execInputFault input code deciVolts s
  | .inputRestored input deciVolts => Sys2Proof.Machine.execInputRestored input deciVolts s
  | .shortRetry input ok => Sys2Proof.Machine.execShortRetry input ok s
  | .inputSenseOpen input => Sys2Proof.Machine.execInputSenseOpen input s
  | .powerLoss => Sys2Proof.Machine.execPowerLoss s
  | .phaseFailed rail phase => Sys2Proof.Machine.execPhaseFailed rail phase s
  | .phaseFitted rail phase => Sys2Proof.Machine.execPhaseFitted rail phase s
  | .voltageStep t => Sys2Proof.Machine.execVoltageStep t s
  | .powerCap watts settings => Sys2Proof.Machine.execPowerCap watts settings s
  | .thermalSpread temps => Sys2Proof.Machine.execThermalSpread temps s
  | .thermalHold t temp => Sys2Proof.Machine.execThermalHold t temp s
  | .thermalHoldRelease t temp => Sys2Proof.Machine.execThermalHoldRelease t temp s
  | .hubOvertemp => Sys2Proof.Machine.execHubOvertemp s
  | .modulePowerOn hubTemp boot => Sys2Proof.Machine.execModulePowerOn hubTemp boot s
  | .startToken => Sys2Proof.Machine.execStartToken s
  | .tokenFallback => Sys2Proof.Machine.execTokenFallback s
  | .fallbackDelayExpiry => Sys2Proof.Machine.execFallbackDelayExpiry s
  | .strapSample millivolts => Sys2Proof.Machine.execStrapSample millivolts s
  | .moduleResetRelease => Sys2Proof.Machine.execModuleResetRelease s
  | .galleryWake t g fn wakeTime => Sys2Proof.Machine.execGalleryWake t g fn wakeTime s
  | .galleryGate t g => Sys2Proof.Machine.execGalleryGate t g s
  | .builtInTest r => Sys2Proof.Machine.execBuiltInTest r s
  | .mailboxesOpen => Sys2Proof.Machine.execMailboxesOpen s
  | .beaconPinFault pin swapped => Sys2Proof.Machine.execBeaconPinFault pin swapped s
  | .hostReset millivolts boot => Sys2Proof.Machine.execHostReset millivolts boot s
  | .tileReset t => Sys2Proof.Machine.execTileReset t s
  | .functionLevelReset fn => Sys2Proof.Machine.execFunctionLevelReset fn s
  | .flrKeeperClear fn => Sys2Proof.Machine.execFlrKeeperClear fn s
  | .vfEnableClear => Sys2Proof.Machine.execVfEnableClear s
  | .functionPowerState fn d3hot => Sys2Proof.Machine.execFunctionPowerState fn d3hot s
  | .keeperRestart => Sys2Proof.Machine.execKeeperRestart s
  | .keeperMemError => Sys2Proof.Machine.execKeeperMemError s
  | .keeperRestartComplete copy0 copy1 => Sys2Proof.Machine.execKeeperRestartComplete copy0 copy1 s
  | .activateFailed => Sys2Proof.Machine.execActivateFailed s
  | .turnEnd e elapsed ready overrun switchTime => Sys2Proof.Machine.execTurnEnd e elapsed ready overrun switchTime s
  | .preempt e engineTime flr => Sys2Proof.Machine.execPreempt e engineTime flr s
  | .energyTick rails inputs idle shares => Sys2Proof.Machine.execEnergyTick rails inputs idle shares s
  | .hostRingPoll snapshotRing cons => Sys2Proof.Machine.execHostRingPoll snapshotRing cons s
  | .cxlmemAccess write offset data => Sys2Proof.Machine.execCxlmemAccess write offset data s
  | .carrierFitted carrier retired => Sys2Proof.Machine.execCarrierFitted carrier retired s
  | .carrierLost carrier => Sys2Proof.Machine.execCarrierLost carrier s
  | .getVersion r => Sys2Proof.Machine.execGetVersion r s
  | .getCapabilities r => Sys2Proof.Machine.execGetCapabilities r s
  | .negotiateAlgorithms r => Sys2Proof.Machine.execNegotiateAlgorithms r s
  | .getDigests r => Sys2Proof.Machine.execGetDigests r s
  | .getCertificate r slot offset length => Sys2Proof.Machine.execGetCertificate r slot offset length s
  | .challenge r slot => Sys2Proof.Machine.execChallenge r slot s
  | .getMeasurements r => Sys2Proof.Machine.execGetMeasurements r s
  | .keyExchange r => Sys2Proof.Machine.execKeyExchange r s
  | .finish r => Sys2Proof.Machine.execFinish r s
  | .endSession r => Sys2Proof.Machine.execEndSession r s
  | .heartbeat r => Sys2Proof.Machine.execHeartbeat r s
  | .keyUpdate r => Sys2Proof.Machine.execKeyUpdate r s
  | .spdmUnsupportedRequest code => Sys2Proof.Machine.execSpdmUnsupportedRequest code s
  | .ideKm r cachemem key => Sys2Proof.Machine.execIdeKm r cachemem key s
  | .ideFault cachemem flits hit => Sys2Proof.Machine.execIdeFault cachemem flits hit s
  | .pairUnloadDone => Sys2Proof.Machine.execPairUnloadDone s
  | .fwLoadDone readBackOk => Sys2Proof.Machine.execFwLoadDone readBackOk s
  | .refreshDone model readable => Sys2Proof.Machine.execRefreshDone model readable s
  | .stepReportRx module step words => Sys2Proof.Machine.execStepReportRx module step words s
  | .serviceNoticeRx p => Sys2Proof.Machine.execServiceNoticeRx p s
  | .serviceNoticeTimeout p => Sys2Proof.Machine.execServiceNoticeTimeout p s
  | .msixVectorUnmask fn vector => Sys2Proof.Machine.execMsixVectorUnmask fn vector s
  | .junctionTemperatureChange t temp setting => Sys2Proof.Machine.execJunctionTemperatureChange t temp setting s

end Sys2Proof.Machine
end

