-- ==== Sys2Proof/Machine/Views.lean ====
section
/-! DEFINITION. What the registers read (R307 to R315, R326 to R331): each word as its fields lie in it, for the mailbox windows, the Keeper
registers, the block registers of the register window and the MSI-X structures. Unassigned offsets read 0. The one read that changes the
state, of KPR_SWATCH_LO, is a command of its own. -/

namespace Sys2Proof.Machine
open Sys2Proof

/-- A flag at a bit. -/
def atBit (b : Bool) (n : Nat) : Nat := b2n b * 2 ^ n

/-! ### Mailbox windows and Keeper registers (R309 to R315, R320, R327 to R330, R443) -/

/-- STATE codes of R311. -/
def MState.code : MState → Nat
  | .idle => 0
  | .running => 1
  | .done => 2

/-- MBX_STATUS (R311). -/
def State.mbxStatus (s : State) (f : Nat) : Nat :=
  let m := s.mbox f
  m.seq * 2 ^ 16 + atBit s.keeper.kbusy 15 + atBit m.dbpend 14 + m.state.code * 2 ^ 12 + m.code

/-- The response area: SEQ and CODE, LEN, two reserved words, the payload (R315). -/
def Mailbox.response (m : Mailbox) : List Byte :=
  leBytes 1 m.respCode ++ [0] ++ leBytes 2 m.respSeq ++ leBytes 2 m.resp.length ++ List.replicate 10 0 ++ m.resp

/-- An event entry (R320). -/
def Event.entry (e : Event) : List Byte := leBytes 2 e.code ++ leBytes 1 e.fn ++ [0] ++ leBytes 2 e.seq ++ [0, 0] ++ e.data

/-- A 32-bit word of a byte string; 0 beyond its end. -/
def wordAt (bs : List Byte) (o : Nat) : Nat := fieldAt bs o 4

/-- A function's mailbox window, by offset (R308, R309, R312, R313). The command area holds what the host wrote there, which is no state of
the module. -/
def State.readMbx (s : State) (f o : Nat) : Nat :=
  let m := s.mbox f
  if o = 0x4 then s.mbxStatus f
  else if o = 0x8 then s.keeper.heartbeat % 2 ^ 32
  else if o = 0xC then m.prod
  else if o = 0x10 then m.cons
  else if o = 0x14 then m.lost
  else if o = 0x18 then m.cause.toNat
  else if 0x2000 ≤ o && o < 0x3000 then wordAt m.response (o - 0x2000)
  else if 0x3000 ≤ o && o < 0x3800 then ((m.ring.find? ((o - 0x3000) / 32)).map (fun e => wordAt e.entry (o % 32))).getD 0
  else 0

/-- KPR_STATUS (R328): the release and the slot read 0 until the mailboxes first open. -/
def State.kprStatus (s : State) : Nat :=
  let k := s.keeper
  k.fwmaj * 2 ^ 24 + k.fwmin * 2 ^ 16 + atBit (k.slot && k.fwmaj != 0) 15 + atBit k.kbusy 14 + atBit k.debug 13 + 0xB0

/-- BAR0 of a function: its own mailbox window and, for the physical function, the Keeper registers (R307, R327). -/
def State.readBar0 (s : State) (f o : Nat) : Nat :=
  let w := 0x100000 + f * 0x4000
  if w ≤ o && o < w + 0x4000 then s.readMbx f (o - w)
  else if f != 0 then 0
  else if o = 0x0 then s.kprStatus
  else if o = 0x4 then s.keeper.cause.toNat
  else if 0x100 ≤ o && o < 0x128 then
    let u := (o - 0x100) / 8
    if o % 8 = 0 then s.watch u % 2 ^ 32 else s.keeper.swHi.get 0 u
  else if o = 0x200 then s.bcnStatus
  else 0

/-! ### Block registers (R58, R114, R144, R171, R301 to R304, R380 to R383, R445, R461) -/

/-- The drain registers of a tile (R58, R59, R114, R115). -/
def State.readDrn (s : State) (t o : Nat) : Nat :=
  let c := s.custSt t
  if o < 84 * 16 then
    let x := s.drnStat t (o / 16)
    match o % 16 / 4 with
    | 0 => x.word false
    | 1 => x.vanished
    | 2 => x.clipped
    | _ => 0
  else if 0x800 ≤ o && o < 0x83C then (c.bnd.getD ((o - 0x800) / 4) 0).toNat
  else if 0x900 ≤ o && o < 0xA00 then (c.coef.getD ((o - 0x900) / 4) 0).toNat
  else if o = 0xA00 then atBit c.pending 31 + atBit c.refused 30
  else 0

/-- A staged TCFG register by number (R145, R146). -/
def Tcfg.word (c : Tcfg) (i : Nat) : Word :=
  [c.tau, c.alpha, c.beta, c.gamma, c.mode, c.vsize, c.ringBase, c.ringMib, c.posBase, c.lossBase, c.spillBase, c.spillLog2].getD i 0

/-- The Target engine's registers (R144, R147, R148). -/
def State.readTgt (s : State) (t o : Nat) : Nat :=
  let e := (s.target t).catchUp (s.watch t)
  if o < 0x30 then (e.staged.word (o / 4)).toNat
  else if o = 0x30 then atBit e.committed.isSome 31 + atBit e.refused 30
  else if o = 0x40 then e.lscale.toNat
  else if o = 0x80 then e.statusWord.toNat
  else if o = 0x84 then e.slotsWord.toNat
  else if 0x88 ≤ o && o < 0xA8 then
    [e.scoreStall, e.learnWait, e.stat.vanished, e.stat.clipped, e.badpos, e.spilled, e.propfall, e.badlabel].getD ((o - 0x88) / 4) 0
  else 0

/-- MODE codes of VXE_STATE (R172). -/
def VMode.code : VMode → Nat
  | .idle => 0
  | .chain => 1
  | .update => 2
  | .switching => 3

/-- A vector engine's registers, by register number (R171 to R174): LEN reads what is staged behind a chain of the function shown. -/
def VecSt.readReg (v : VecSt) (i : Nat) : Nat :=
  let fn := v.shown * 2 ^ 24
  match i with
  | 0 => match v.staged.find? v.shown with
    | some n => 2 ^ 31 + fn + n
    | none => fn + v.len.get 0 v.shown
  | 1 => fn + v.cnt.get 0 v.shown
  | 2 => v.stat.word true
  | 3 => v.stat.vanished
  | 4 => v.stat.clipped
  | 5 => v.stat.satcnt
  | 6 => v.mode.code * 2 ^ 30 + fn
  | _ => 0

/-- The vector engines' registers of a tile, the staged keys and their commit groups (R171, R175). -/
def State.readVxe (s : State) (t o : Nat) : Nat :=
  if o < 0x200 then (s.vecEng t (o / 0x40)).settle.readReg (o % 0x40 / 4)
  else if 0x400 ≤ o && o < 0x400 + 17 * 0x20 then
    let k := ((s.keySt t ((o - 0x400) / 0x20)).staged.getD (o % 0x20 / 8) 0).toNat
    if o % 8 = 4 then k / 2 ^ 32 else k % 2 ^ 32
  else if 0x800 ≤ o && o < 0x800 + 17 * 4 then atBit (s.keySt t ((o - 0x800) / 4)).pending 31
  else 0

/-- ARB_REQ of a slot (R304). -/
def ArbReq.word (r : ArbReq) : Nat :=
  atBit r.starved 31 + atBit r.masked 30 + atBit r.waiting 29 + r.lost * 2 ^ 16 + r.cur * 2 ^ 8 + r.stagedBase

/-- The starvation summary of 32 slots from i on (R302). -/
def Arb.starvedWord (a : Arb) (i : Nat) : Nat := ((List.range 32).map (fun k => atBit (a.req (i + k)).starved k)).sum

/-- The registers of an arbiter (R301 to R304). DRAINED: frozen, and no grant is held. -/
def State.readArb (s : State) (n o : Nat) : Nat :=
  let a := s.arbAt n
  if o = 0 then atBit a.freeze 31 + atBit (a.freeze && !a.held) 30 + a.stagedLim
  else if o = 0x4 then atBit a.held 31 + a.ownerFn * 2 ^ 6 + a.owner
  else if o = 0x8 then a.starvedWord 0
  else if o = 0xC then a.starvedWord 32 % 2 ^ 16
  else if o = 0x10 then atBit a.pending.isSome 31
  else if 0x100 ≤ o && o < 0x1C0 then (a.req ((o - 0x100) / 4)).word
  else 0

/-- KPR_FN_STATE of a function (R383). -/
def State.fnState (s : State) (f : Nat) : Nat :=
  let on (g : Tab SchedFn) : Bool := (g.get {} f).suspend
  let suspended := on s.sched.active && List.all s.sched.engines (fun e => on (e.2.group.getD s.sched.active))
  let w := s.window f
  atBit (List.any s.prog.progs (fun p => p.2.fn.val == f)) 31 + atBit (s.fnSt f).resetting 30 + atBit suspended 29 + w.base % 32 * 2 ^ 21 +
    w.size * 2 ^ 15

/-- The scheduling registers (R380 to R383). PENDING: an engine still acts on a group before the committed one. -/
def State.readSched (s : State) (o : Nat) : Nat :=
  if o < 17 * 16 then
    let x := s.stagedFn (o / 16)
    match o % 16 / 4 with
    | 0 => x.slice
    | 1 => b2n x.suspend
    | 2 => s.fnState (o / 16)
    | _ => 0
  else if o = 0x200 then atBit (List.any s.sched.engines (fun e => e.2.group.isSome)) 31 + atBit s.sched.refused 30
  else 0

/-- PWR_INPUT and PWR_TILE (R445). -/
def State.readPwr (s : State) (o : Nat) : Nat :=
  let a := s.pwr.inputs.get {} 0
  let b := s.pwr.inputs.get {} 1
  if o = 0 then a.state.code * 2 ^ 28 + b.state.code * 2 ^ 24 + a.deciVolts * 2 ^ 12 + b.deciVolts
  else if 0x10 ≤ o && o < 0x20 then
    let t := (o - 0x10) / 4
    let p := s.tilePwr t
    p.vset * 2 ^ 24 + p.tj * 2 ^ 16 + atBit p.hold 15 + s.phasesLost t * 2 ^ 12 + p.rate
  else 0

/-- SEC_STATUS (R461). -/
def State.secStatus (s : State) : Nat :=
  let c := s.sec
  c.counter * 2 ^ 24 + atBit (s.fwSlot false).ok 23 + atBit (s.fwSlot true).ok 22 + atBit c.bootSlot 21 + atBit s.keeper.recovery 20 +
    atBit (c.ideIo.keyed && c.ideIo.secure) 19 + atBit (c.ideCm.keyed && c.ideCm.secure) 18 + c.sessions.length * 2 ^ 16

/-- BAR2 of the physical function: the blocks of the MMIO region (R326). -/
def State.readBar2 (s : State) (x : Nat) : Nat :=
  let o := x % 0x100000
  let t := o / 0x10000
  match x / 0x100000 with
  | 4 => if t < 4 then s.readDrn t (o % 0x10000) else 0
  | 5 => if t < 4 then s.readTgt t (o % 0x10000) else 0
  | 6 => if t < 4 then s.readVxe t (o % 0x10000) else 0
  | 7 => if o / 0x1000 < 43 then s.readArb (o / 0x1000) (o % 0x1000) else 0
  | 8 => s.readSched o
  | 9 => s.readPwr o
  | 10 => if o = 0 then s.secStatus else 0
  | _ => 0

/-! ### BAR4 (R366) -/

/-- The MSI-X table and, from offset 0x1000, the pending bits of a function. -/
def State.readMsix (s : State) (f o : Nat) : Nat :=
  let e := s.fnSt f
  let x := e.msix.get {} (o / 16)
  if o < 1024 then
    match o % 16 / 4 with
    | 0 => x.addr.toNat % 2 ^ 32
    | 1 => x.addr.toNat / 2 ^ 32
    | 2 => x.data.toNat
    | _ => b2n x.masked
  else if o = 0x1000 || o = 0x1004 then ((List.range 32).map (fun k => atBit (e.msix.get {} ((o - 0x1000) * 8 + k)).pending k)).sum
  else 0

end Sys2Proof.Machine
end

