-- ==== Sys2Proof/Safety.lean ====
section
/-! DEFINITION. The terms the statements use: safe memory, what a command leaves alone, what a mailbox answers, and the families
of commands. -/
namespace Sys2Proof.Machine

/-- Both memories are in canonical form. -/
def State.memOk (s : State) : Bool := Mem.wf s.mem && Mem.wf s.hostMem

/-! ### Parts of the state -/

/-- The parts of the state. -/
inductive Part
  | mem | hostMem | arr | tgt | eng | keeper | pair | prog | run | lead | serve
  | tier | arb | sched | fnp | link | pwr | sec | health | outbox | fresh | pending
deriving DecidableEq, Repr

/-- Two states agree on a part. -/
def State.same (s t : State) : Part → Prop
  | .mem => t.mem = s.mem
  | .hostMem => t.hostMem = s.hostMem
  | .arr => t.arr = s.arr
  | .tgt => t.tgt = s.tgt
  | .eng => t.eng = s.eng
  | .keeper => t.keeper = s.keeper
  | .pair => t.pair = s.pair
  | .prog => t.prog = s.prog
  | .run => t.run = s.run
  | .lead => t.lead = s.lead
  | .serve => t.serve = s.serve
  | .tier => t.tier = s.tier
  | .arb => t.arb = s.arb
  | .sched => t.sched = s.sched
  | .fnp => t.fnp = s.fnp
  | .link => t.link = s.link
  | .pwr => t.pwr = s.pwr
  | .sec => t.sec = s.sec
  | .health => t.health = s.health
  | .outbox => t.outbox = s.outbox
  | .fresh => t.fresh = s.fresh
  | .pending => t.pending = s.pending

/-- A state differs from another in the listed parts alone. -/
def State.onlyChanges (s t : State) (ps : List Part) : Prop := ∀ p, p ∉ ps → s.same t p


end Sys2Proof.Machine

namespace Sys2Proof
open Sys2Proof.Machine

/-- The parts of the state each command may change: a command changes no part that its entry leaves out. -/
def Instr.touches : Instr → List Part
  | .nop _ _ | .identify _ | .pairStatus _ | .reqStatus _ | .budgetRead _ | .memTransfer _ | .linkStatus _ | .debugEnter _
    | .mbxEvtConsWrite _ _ | .serviceNoticeTimeout _ =>
      [.keeper, .fnp, .outbox]
  | .healthRead _ | .accountRead _ | .memTransferDone _ _ _ _ | .sizeTableRead _ | .daymarkRead _ =>
      [.mem, .hostMem, .keeper, .fnp, .outbox]
  | .pairLoad _ _ | .refresh _ _ | .pairUnloadDone =>
      [.keeper, .pair, .fnp, .outbox]
  | .pairLoadDone _ =>
      [.mem, .keeper, .pair, .fnp, .outbox]
  | .pairUnload _ =>
      [.arr, .tgt, .eng, .keeper, .pair, .prog, .serve, .tier, .sched, .fnp, .outbox]
  | .progSubmit _ _ =>
      [.arr, .tgt, .eng, .keeper, .prog, .serve, .tier, .arb, .sched, .fnp, .outbox]
  | .progRetire _ =>
      [.arr, .tgt, .eng, .keeper, .prog, .serve, .tier, .sched, .fnp, .outbox]
  | .progRestart _ =>
      [.keeper, .prog, .fnp, .outbox]
  | .runStart _ _ =>
      [.hostMem, .tgt, .eng, .keeper, .prog, .run, .lead, .serve, .fnp, .outbox]
  | .runStop _ | .lscaleFloor =>
      [.keeper, .run, .fnp, .outbox]
  | .snapRequest _ | .snapshotComplete _ | .hostRingPoll _ _ =>
      [.hostMem, .keeper, .run, .fnp, .outbox]
  | .join _ =>
      [.mem, .keeper, .serve, .fnp, .outbox]
  | .cancel _ | .pause _ | .batchClose _ | .custBind _ | .budgetRefill _ =>
      [.keeper, .serve, .fnp, .outbox]
  | .regionAlloc _ | .regionFree _ | .carrierEvacuate _ | .cxlmemWindow _ =>
      [.keeper, .tier, .fnp, .outbox]
  | .extentSwitch _ _ =>
      [.keeper, .tier]
  | .carrierReleased _ | .carrierFitted _ _ =>
      [.keeper, .tier, .arb, .fnp, .link, .health, .outbox]
  | .sizeTableSet _ =>
      [.keeper, .fnp, .link, .outbox]
  | .sizeTableInForce _ _ | .bridgeFlitCrcFail _ _ _ =>
      [.keeper, .run, .fnp, .link, .health, .outbox]
  | .linkTrain _ _ | .linkTrainRetry _ _ | .laneSpared _ _ | .moveTimeout _ | .laserLow _ _ | .laserFailover _
    | .laserSourceFitted _ =>
      [.keeper, .fnp, .link, .health, .outbox]
  | .fogRead _ =>
      [.mem, .hostMem, .keeper, .fnp, .link, .outbox]
  | .fwLoad _ _ | .fwLoadDone _ =>
      [.keeper, .fnp, .sec, .outbox]
  | .fwActivate _ _ | .pwrHotreset _ _ _ | .hubOvertemp | .hostReset _ _ =>
      [.mem, .arr, .tgt, .eng, .keeper, .pair, .prog, .run, .lead, .serve, .tier, .arb, .sched, .fnp, .link, .pwr, .sec, .health, .outbox]
  | .servicePrepareLaser _ | .servicePreparePhase _ | .servicePrepareFibre _ _ =>
      [.keeper, .fnp, .link, .pwr, .outbox]
  | .debugExit _ =>
      [.arr, .tgt, .eng, .keeper, .arb, .fnp, .outbox]
  | .accRead _ =>
      [.mem, .hostMem, .keeper, .fnp, .outbox, .fresh]
  | .accWrite _ | .drnCustCommit _ _ _ =>
      [.arr, .keeper, .fnp, .outbox]
  | .keeperHeartbeat | .keeperMemError | .activateFailed =>
      [.keeper]
  | .kprSwatchRead _ =>
      [.keeper, .outbox]
  | .drnCntClr _ _ _ | .galleryGate _ _ =>
      [.arr]
  | .tgtCommit _ _ _ =>
      [.tgt, .keeper, .fnp, .outbox]
  | .tcfgApply _ | .tgtCntClr _ _ =>
      [.tgt]
  | .vxeCntClr _ _ _ =>
      [.eng]
  | .vxeKeyCommit _ _ _ _ =>
      [.eng, .keeper, .fnp, .outbox]
  | .arbCommit _ _ _ | .arbFreeze _ _ _ | .arbRound _ _ _ _ | .arbBreakPoint _ _ _ =>
      [.keeper, .arb, .fnp, .outbox]
  | .kprSchedCommit _ _ =>
      [.sched]
  | .registerWrite _ _ _ _ _ =>
      [.arr, .tgt, .eng, .keeper, .arb, .sched, .fnp, .pwr, .outbox]
  | .product _ _ _ _ _ =>
      [.arr, .tgt, .eng, .keeper, .prog, .run, .tier, .sched, .fnp, .outbox, .fresh]
  | .leaseWaitRelease _ _ _ =>
      [.mem, .arr, .tgt, .eng, .keeper, .prog, .run, .tier, .fnp, .outbox, .fresh]
  | .tileReplay _ _ _ _ _ =>
      [.mem, .arr, .eng, .keeper, .prog, .run, .tier, .fnp, .link, .health, .outbox, .fresh]
  | .arrayRetire _ _ =>
      [.arr, .keeper, .run, .fnp, .link, .health, .outbox]
  | .drain _ _ _ _ _ _ | .chain _ _ _ _ _ | .rms _ _ _ _ | .layer _ _ _ _ | .rmsBwd _ _ _ _ | .layerBwd _ _ _ _
    | .smaxStat _ _ _ _ | .smax _ _ _ _ | .smaxBwd _ _ _ _ | .dot _ _ _ _ | .merge _ _ _ _ =>
      [.mem, .arr, .tgt, .eng, .keeper, .prog, .run, .tier, .sched, .fnp, .outbox, .fresh]
  | .teacherTile _ _ | .studentGradTile _ _ | .studentNormTile _ _ | .saveDrain _ _ _ _ =>
      [.mem, .arr, .tgt, .eng, .keeper, .prog, .run, .sched, .fnp, .outbox]
  | .recordForward _ _ _ _ _ =>
      [.mem, .tgt, .outbox]
  | .sampleTile _ _ =>
      [.mem, .arr, .tgt, .eng, .keeper, .prog, .run, .serve, .sched, .fnp, .link, .health, .outbox]
  | .setlen _ _ _ _ _ =>
      [.arr, .tgt, .eng, .keeper, .prog, .run, .sched, .fnp, .outbox]
  | .update _ _ _ _ =>
      [.mem, .arr, .tgt, .eng, .keeper, .prog, .run, .sched, .fnp, .outbox, .fresh]
  | .saveSpad _ _ _ _ | .turnStore _ _ _ _ | .expand _ _ _ _ =>
      [.mem, .arr, .tgt, .eng, .keeper, .prog, .run, .tier, .sched, .fnp, .outbox]
  | .copy _ _ _ _ _ | .fill _ _ _ _ =>
      [.mem, .arr, .tgt, .eng, .keeper, .prog, .run, .tier, .sched, .fnp, .link, .outbox]
  | .collectiveStep _ _ =>
      [.mem, .arr, .tgt, .eng, .keeper, .prog, .run, .serve, .sched, .fnp, .link, .outbox]
  | .reshardComplete _ _ _ =>
      [.keeper, .prog, .run, .serve, .tier]
  | .contributionArrival _ _ _ _ _ =>
      [.mem, .run, .lead, .outbox]
  | .lateLimitExpiry _ =>
      [.mem, .run]
  | .overflowReport _ _ _ _ _ _ | .prepassRx _ | .readyRx _ _ _ _ _ =>
      [.keeper, .run, .lead, .outbox]
  | .goRx _ _ _ _ =>
      [.mem, .tgt, .keeper, .prog, .run, .fnp, .outbox]
  | .skipRx _ _ _ | .commitMarkRx _ _ _ =>
      [.mem, .hostMem, .arr, .tgt, .eng, .keeper, .pair, .prog, .run, .lead, .serve, .tier, .sched, .fnp, .link, .health, .outbox]
  | .abortRx _ _ =>
      [.mem, .eng, .keeper, .prog, .run, .serve, .fnp, .link, .health, .outbox]
  | .commitWaitExpiry _ =>
      [.mem, .arr, .tgt, .eng, .keeper, .prog, .run, .lead, .serve, .fnp, .link, .health, .outbox]
  | .commitPulse _ _ =>
      [.run, .pwr, .outbox]
  | .servingStepBoundary _ _ _ _ _ =>
      [.mem, .hostMem, .arr, .tgt, .eng, .keeper, .prog, .run, .serve, .tier, .sched, .fnp, .link, .health, .outbox, .fresh]
  | .requestDeadlineExpiry _ =>
      [.serve]
  | .noPages _ =>
      [.keeper, .serve]
  | .reread _ _ _ _ =>
      [.arr, .tgt, .eng, .keeper, .prog, .run, .tier, .fnp, .health, .outbox]
  | .persistentFailureRecovery _ _ _ =>
      [.mem, .keeper, .prog, .run, .serve, .tier, .fnp, .link, .health, .outbox, .fresh]
  | .transientRetire _ | .carrierLost _ =>
      [.keeper, .tier, .fnp, .link, .health, .outbox]
  | .linkPacketRx _ _ | .nakRx _ _ | .ackRx _ _ | .fogHoldExpiry _ _ | .serviceNoticeRx _ =>
      [.link, .outbox]
  | .idleTimer _ =>
      [.outbox]
  | .peerSilent _ =>
      [.keeper, .lead, .fnp, .link, .health, .outbox]
  | .fogReport _ _ _ _ =>
      [.keeper, .lead, .link, .outbox]
  | .fogWindowExpiry _ _ =>
      [.lead, .link, .outbox]
  | .inputFault _ _ _ | .inputRestored _ _ | .shortRetry _ _ | .inputSenseOpen _ | .phaseFitted _ _ | .powerCap _ _
    | .thermalHoldRelease _ _ | .tokenFallback | .strapSample _ | .beaconPinFault _ _ =>
      [.keeper, .fnp, .link, .pwr, .health, .outbox]
  | .powerLoss =>
      [.mem, .arr, .tgt, .eng, .keeper, .pair, .prog, .run, .lead, .serve, .tier, .arb, .sched, .fnp, .link, .pwr, .sec]
  | .phaseFailed _ _ =>
      [.arr, .keeper, .run, .fnp, .link, .pwr, .health, .outbox]
  | .voltageStep _ | .thermalHold _ _ | .startToken | .fallbackDelayExpiry | .junctionTemperatureChange _ _ _ =>
      [.pwr]
  | .thermalSpread _ =>
      [.keeper, .run, .fnp, .link, .pwr, .health, .outbox]
  | .modulePowerOn _ _ | .mailboxesOpen =>
      [.keeper, .fnp, .link, .pwr, .sec, .health, .outbox]
  | .moduleResetRelease =>
      [.mem, .arr, .tgt, .eng, .serve, .arb, .link, .pwr]
  | .galleryWake _ _ _ _ | .preempt _ _ _ =>
      [.arr, .fnp]
  | .builtInTest _ =>
      [.arr, .keeper, .fnp, .link, .pwr, .health, .outbox]
  | .tileReset _ =>
      [.mem, .arr, .tgt, .eng, .serve]
  | .functionLevelReset _ | .vfEnableClear =>
      [.arr, .tgt, .eng, .keeper, .prog, .run, .arb, .fnp]
  | .flrKeeperClear _ =>
      [.arr, .tgt, .eng, .keeper, .prog, .serve, .tier, .sched, .fnp]
  | .functionPowerState _ _ | .msixVectorUnmask _ _ =>
      [.fnp, .outbox]
  | .keeperRestart =>
      [.keeper, .sec]
  | .keeperRestartComplete _ _ =>
      [.mem, .hostMem, .arr, .tgt, .eng, .keeper, .pair, .prog, .run, .lead, .serve, .tier, .arb, .sched, .fnp, .link, .pwr, .sec, .health, .outbox, .fresh]
  | .turnEnd _ _ _ _ _ =>
      [.arr, .eng, .sched, .fnp]
  | .energyTick _ _ _ _ =>
      [.fnp]
  | .cxlmemAccess _ _ _ =>
      [.mem, .outbox, .fresh]
  | .getVersion _ | .getCapabilities _ | .negotiateAlgorithms _ | .getDigests _ | .getCertificate _ _ _ _ | .finish _
    | .endSession _ | .heartbeat _ | .keyUpdate _ | .spdmUnsupportedRequest _ | .ideKm _ _ _ =>
      [.sec, .outbox]
  | .challenge _ _ | .getMeasurements _ | .keyExchange _ =>
      [.sec, .outbox, .fresh]
  | .ideFault _ _ _ =>
      [.keeper, .pair, .fnp, .link, .sec, .health, .outbox]
  | .refreshDone _ _ =>
      [.mem, .tgt, .keeper, .pair, .fnp, .outbox]
  | .stepReportRx _ _ _ =>
      [.hostMem, .keeper, .run, .lead, .fnp, .outbox]

/-- The families of commands the statements speak of: mailbox commands, what the Keeper does, register accesses, arrays and drains,
engines, the training step, serving, arbiters and memory failures, links and light, power and start, functions and turns, security. -/
inductive Family
  | mailbox | keeper | register | array | engine | step | serving | memory | link | power | function | security
deriving DecidableEq, Repr

/-- The family of a command. -/
def Instr.family : Instr → Family
  | .nop _ _ | .identify _ | .healthRead _ | .accountRead _ | .pairLoad _ _ | .pairUnload _ | .refresh _ _
    | .pairStatus _ | .progSubmit _ _ | .progRetire _ | .progRestart _ | .runStart _ _ | .runStop _ | .snapRequest _
    | .join _ | .cancel _ | .pause _ | .batchClose _ | .reqStatus _ | .custBind _ | .budgetRefill _ | .budgetRead _
    | .regionAlloc _ | .regionFree _ | .memTransfer _ | .carrierEvacuate _ | .cxlmemWindow _ | .sizeTableSet _
    | .sizeTableRead _ | .linkStatus _ | .fogRead _ | .daymarkRead _ | .fwLoad _ _ | .fwActivate _ _
    | .servicePrepareLaser _ | .servicePreparePhase _ | .servicePrepareFibre _ _ | .debugEnter _ | .debugExit _
    | .accRead _ | .accWrite _ => .mailbox
  | .pairLoadDone _ | .snapshotComplete _ | .memTransferDone _ _ _ _ | .extentSwitch _ _ | .carrierReleased _
    | .sizeTableInForce _ _ | .keeperHeartbeat | .keeperRestart | .keeperMemError | .keeperRestartComplete _ _
    | .activateFailed | .hostRingPoll _ _ | .cxlmemAccess _ _ _ | .carrierFitted _ _ | .carrierLost _ | .pairUnloadDone
    | .fwLoadDone _ | .refreshDone _ _ => .keeper
  | .mbxEvtConsWrite _ _ | .kprSwatchRead _ | .drnCustCommit _ _ _ | .drnCntClr _ _ _ | .tgtCommit _ _ _ | .tcfgApply _
    | .tgtCntClr _ _ | .vxeCntClr _ _ _ | .vxeKeyCommit _ _ _ _ | .arbCommit _ _ _ | .arbFreeze _ _ _
    | .kprSchedCommit _ _ | .registerWrite _ _ _ _ _ | .msixVectorUnmask _ _ => .register
  | .product _ _ _ _ _ | .leaseWaitRelease _ _ _ | .tileReplay _ _ _ _ _ | .arrayRetire _ _ | .drain _ _ _ _ _ _
    | .teacherTile _ _ | .recordForward _ _ _ _ _ | .studentNormTile _ _ | .studentGradTile _ _ | .sampleTile _ _ => .array
  | .chain _ _ _ _ _ | .setlen _ _ _ _ _ | .update _ _ _ _ | .saveDrain _ _ _ _ | .saveSpad _ _ _ _ | .expand _ _ _ _
    | .turnStore _ _ _ _ | .rms _ _ _ _ | .layer _ _ _ _ | .rmsBwd _ _ _ _ | .layerBwd _ _ _ _ | .smaxStat _ _ _ _
    | .smax _ _ _ _ | .smaxBwd _ _ _ _ | .dot _ _ _ _ | .merge _ _ _ _ | .copy _ _ _ _ _ | .fill _ _ _ _
    | .collectiveStep _ _ => .engine
  | .reshardComplete _ _ _ | .contributionArrival _ _ _ _ _ | .lateLimitExpiry _ | .overflowReport _ _ _ _ _ _
    | .prepassRx _ | .goRx _ _ _ _ | .skipRx _ _ _ | .readyRx _ _ _ _ _ | .commitMarkRx _ _ _ | .lscaleFloor
    | .abortRx _ _ | .commitWaitExpiry _ | .commitPulse _ _ | .stepReportRx _ _ _ => .step
  | .servingStepBoundary _ _ _ _ _ | .requestDeadlineExpiry _ | .noPages _ => .serving
  | .arbRound _ _ _ _ | .arbBreakPoint _ _ _ | .reread _ _ _ _ | .persistentFailureRecovery _ _ _ | .transientRetire _
    | .bridgeFlitCrcFail _ _ _ => .memory
  | .linkTrain _ _ | .linkTrainRetry _ _ | .linkPacketRx _ _ | .nakRx _ _ | .ackRx _ _ | .idleTimer _ | .laneSpared _ _
    | .peerSilent _ | .moveTimeout _ | .laserLow _ _ | .laserFailover _ | .laserSourceFitted _ | .fogReport _ _ _ _
    | .fogHoldExpiry _ _ | .fogWindowExpiry _ _ | .serviceNoticeRx _ | .serviceNoticeTimeout _ => .link
  | .pwrHotreset _ _ _ | .inputFault _ _ _ | .inputRestored _ _ | .shortRetry _ _ | .inputSenseOpen _ | .powerLoss
    | .phaseFailed _ _ | .phaseFitted _ _ | .voltageStep _ | .powerCap _ _ | .thermalSpread _ | .thermalHold _ _
    | .thermalHoldRelease _ _ | .hubOvertemp | .modulePowerOn _ _ | .startToken | .tokenFallback | .fallbackDelayExpiry
    | .strapSample _ | .moduleResetRelease | .galleryWake _ _ _ _ | .galleryGate _ _ | .builtInTest _ | .mailboxesOpen
    | .beaconPinFault _ _ | .hostReset _ _ | .tileReset _ | .junctionTemperatureChange _ _ _ => .power
  | .functionLevelReset _ | .flrKeeperClear _ | .vfEnableClear | .functionPowerState _ _ | .turnEnd _ _ _ _ _
    | .preempt _ _ _ | .energyTick _ _ _ _ => .function
  | .getVersion _ | .getCapabilities _ | .negotiateAlgorithms _ | .getDigests _ | .getCertificate _ _ _ _
    | .challenge _ _ | .getMeasurements _ | .keyExchange _ | .finish _ | .endSession _ | .heartbeat _ | .keyUpdate _
    | .spdmUnsupportedRequest _ | .ideKm _ _ _ | .ideFault _ _ _ => .security

/-- The mailbox command of a row, where it is one; NOP's row also stands for the opcodes R339 does not list. -/
def Instr.mcmd? : Instr → Option MCmd
  | .nop m op => if op = 0 || !listedOpcodes.contains op then some m else none
  | .identify m | .healthRead m | .accountRead m | .pairUnload m | .pairStatus m | .progRetire m | .progRestart m
    | .runStart m _ | .runStop m | .snapRequest m | .join m | .cancel m | .pause m | .batchClose m | .reqStatus m
    | .custBind m | .budgetRefill m | .budgetRead m | .regionAlloc m | .regionFree m | .memTransfer m | .carrierEvacuate m
    | .cxlmemWindow m | .sizeTableSet m | .sizeTableRead m | .linkStatus m | .fogRead m | .daymarkRead m
    | .servicePrepareLaser m | .servicePreparePhase m | .debugEnter m | .debugExit m | .accRead m | .accWrite m => some m
  | .pairLoad m _ | .refresh m _ | .progSubmit m _ | .fwLoad m _ | .fwActivate m _ | .servicePrepareFibre m _ => some m
  | _ => none

/-- The opcodes R339 marks for the physical function alone. -/
def Instr.pfOnly : Instr → Bool
  | .healthRead _ | .pairLoad _ _ | .pairUnload _ | .refresh _ _ | .runStart _ _ | .runStop _ | .snapRequest _
    | .batchClose _ | .custBind _ | .budgetRefill _ | .carrierEvacuate _ | .cxlmemWindow _ | .sizeTableSet _
    | .sizeTableRead _ | .linkStatus _ | .fogRead _ | .fwLoad _ _ | .fwActivate _ _ | .servicePrepareLaser _
    | .servicePreparePhase _ | .servicePrepareFibre _ _ | .debugEnter _ | .debugExit _ | .accRead _ | .accWrite _ => true
  | _ => false

end Sys2Proof

namespace Sys2Proof.Machine

/-! ### The mailbox (R310 to R321) -/

/-- A mailbox that sees its doorbell: its function exists, is neither fenced nor in D3hot, and the mailboxes are open (R310, R385,
R426, R473). -/
def State.mailboxOpen (s : State) (m : MCmd) : Bool :=
  s.fnExists m.fn.val && !(s.fnSt m.fn.val).resetting && !(s.fnSt m.fn.val).d3hot && s.keeper.isOpen

/-- The Keeper takes a command: its mailbox sees the doorbell and is not RUNNING, the Keeper neither restarts nor is in recovery
mode, and the doorbell's SEQ is the header's (R317, R318, R335, R459). -/
def State.judges (s : State) (m : MCmd) : Bool :=
  s.mailboxOpen m && !s.keeper.kbusy && !s.keeper.recovery && (s.mbox m.fn.val).state != .running && m.doorbell == m.seq

/-- The mailbox of a command holds its completion: events 5 and 6 of R317. -/
def State.answers (t : State) (m : MCmd) (code : Nat) (resp : List Byte) : Prop :=
  let b := t.mbox m.fn.val
  b.state = .done ∧ b.code = code ∧ b.seq = m.doorbell ∧ b.respSeq = m.seq ∧ b.respCode = code ∧ b.resp = resp ∧
    b.cause.getLsbD 0 = true

/-- Nothing but a function's mailbox, its message state and what is sent has changed. -/
def State.onlyMailbox (s t : State) (f : Nat) : Prop :=
  s.onlyChanges t [.keeper, .fnp, .outbox] ∧ t.keeper = { s.keeper with mbox := t.keeper.mbox } ∧
    t.fnp = { s.fnp with fns := t.fnp.fns } ∧ ∀ g, g ≠ f → t.mbox g = s.mbox g ∧ t.fnSt g = s.fnSt g

/-- An event has entered a function's ring, or is held for it (R320, R321). -/
def State.entered (s t : State) (f : Nat) (e : Event) : Prop :=
  let b := (s.mbox f).put e
  (t.mbox f).ring = b.ring ∧ (t.mbox f).prod = b.prod ∧ (t.mbox f).held = b.held

/-- The Keeper can post to a function. -/
def State.postsTo (s : State) (f : Nat) : Bool :=
  s.fnExists f && !(s.fnSt f).resetting && s.keeper.isOpen && !s.keeper.kbusy

/-- The descriptor at an offset of a payload is a direct one to host memory, with room for n bytes (R323). -/
def hostRoom (p : List Byte) (o n : Nat) : Bool :=
  let d := descOf ((p.drop o).take 16)
  !d.isList && d.space == 0 && decide (n ≤ d.len)

/-! ### Bytes an engine stores -/

/-- The bytes of n elements in a line: whole blocks of 32 for a scaled format (R38). -/
def lineLen (f : NF) (n : Nat) : Nat := f.bytes (if f.scaled then roundUp n 32 else n)

/-- Where line i of n elements of a scratchpad tensor is stored: element bytes and scale bytes. -/
def tensorRanges (x : TStream) (t i n : Nat) : List (Nat × Nat) :=
  [(spadBase t + x.addr + i * x.stride, lineLen x.fmt n),
   (spadBase t + x.scale + i * x.sstride, if x.fmt.scaled then cdiv n 32 else 0)]

/-- Where the rows of a row-engine command's output are stored. -/
def rowRanges (a : RowArgs) (t : Nat) : List (Nat × Nat) :=
  (List.range a.rows).flatMap (fun i => a.out.flatMap (fun c => tensorRanges c.at_ t i c.width))

/-- An address lies in none of some ranges (address, length). -/
def outside (a : Nat) (rs : List (Nat × Nat)) : Prop := ∀ r ∈ rs, a < r.1 ∨ r.1 + r.2 ≤ a

/-- Every byte of local memory outside some ranges is as before. -/
def State.storesOnly (s t : State) (rs : List (Nat × Nat)) : Prop := ∀ a, outside a rs → Mem.read t.mem a = Mem.read s.mem a

/-- A product has entered one tile of one physical array: its slots read the given values, it lies under a lease of the product's
function and tie that is not yet drained, nothing waits, and neither memory nor any other array has changed. -/
def productEntered (s u : State) (t p first : Nat) (src : Src) (r : ProductRec) (xs : List (X32 × X32)) : Prop :=
  (∀ n, (u.array t p).readTile n first r.sh r.comp = (xs.map (·.1), if r.comp then xs.map (·.2) else List.replicate 1024 0)) ∧
  (∃ l, (u.array t p).lease? first = some l ∧ l.fn = src.fn ∧ l.tie = r.tie ∧ l.foot = r.foot ∧ l.drained = false ∧ l.log ≠ []) ∧
  (u.array t p).waiting = [] ∧ u.mem = s.mem ∧ ∀ k, k ≠ t * 84 + p → u.arr.arrays.get {} k = s.arr.arrays.get {} k

/-- The bytes a drain with its destination in the scratchpad stores: output lines, scales, line statistics, the norm entry. -/
def drainRanges (r : DrainRec) (t : Nat) : List (Nat × Nat) :=
  (List.range r.lines).flatMap (fun l => [(spadBase t + r.oaddr + l * r.ostride, lineLen r.fmt r.linelen),
    (spadBase t + r.oscale + l * r.osstride, if r.fmt.scaled then cdiv r.linelen 32 else 0)]) ++
  [(spadBase t + r.raddr, if r.lred = 0 then 0 else (if r.lred = 1 then 4 else 8) * (if r.raxis then r.sh.cols else r.sh.rows)),
   (spadBase t + r.naddr, if r.ssq then 4 else 0)]

/-- The fog keeps an entry of a key with this count and these witnesses (R419). -/
def fogHolds (es : List FogEntry) (code subject count : Nat) (wit : List Nat) : Prop :=
  ∃ e ∈ es, e.code = code ∧ e.subject = subject ∧ e.count = count ∧ ∀ w, w ∈ e.witnesses ↔ w ∈ wit

end Sys2Proof.Machine
end

