-- ==== Sys2Proof/Certificates/Slice0/Obligations.lean ====
section
/-! DEFINITION. The statements for the provers. Each obligation's docstring names the rules of spec/ it rests on; a completion
statement says of each command where it completes and what it leaves. -/
open Sys2Proof Sys2Proof.Machine

/-! ### The block as a machine -/

/-- A step takes the command at the front of the queue and runs it with the queue's rest. -/
def Obligations.StepRunsTheFrontCommand : Prop :=
  ∀ (c : Instr) (s : State) (rest : List Instr), s.pending = c :: rest → step s = exec c (s.setPending rest)

/-- On an empty queue ten nanoseconds pass: the stopwatch of each unit that has power advances by one unit of R330 (the idle step is
the model's choice: log entry 9), and nothing but power, health and laser counts changes. -/
def Obligations.IdleStepAdvancesStopwatches : Prop :=
  ∀ s : State, s.pending = [] → ∃ t, step s = .next t ∧
    (∀ u < 4, t.watch u = s.watch u + b2n (s.tilePwr u).lit) ∧ t.watch 4 = s.watch 4 + b2n s.pwr.hubLit ∧
    s.onlyChanges t [.pwr, .health, .link]

/-- The state after reset: TCFG and TGT_LSCALE (R144 to R146), the loss scale (R201), STARVE_LIM (R302), SLICE and SUSPEND (R381), the
mailbox registers (R311 to R313), the heartbeat (R312), the logical map (R62), the empty queue, both memories in canonical form, and what the
registers of a tile, an arbiter, SCHED, power and the Keeper then read (R58, R115, R144 to R148, R172 to R175, R302 to R304, R328, R382,
R383, R443, R445). -/
def Obligations.TheStateAfterReset : Prop :=
  let s := State.reset
  s.pwr.start = .off ∧ s.keeper.isOpen = false ∧ s.keeper.heartbeat = 0 ∧ s.pair.state = .empty ∧ s.run.active = false ∧
    s.run.lscale = 0x47800000 ∧ s.pending = [] ∧ s.memOk = true ∧
    (∀ t : TileIx, (s.target t).lscale = 0x47800000 ∧ (s.target t).active =
      { tau := 0x3F800000, alpha := 0x3F800000, beta := 0, gamma := 0, mode := 0x500, vsize := 0, ringBase := 0, ringMib := 0x40,
        posBase := 0, lossBase := 0, spillBase := 0, spillLog2 := 0 }) ∧
    (∀ n : Fin 43, (s.arbAt n).starveLim = 0x40 ∧ (s.arbAt n).freeze = false) ∧
    (∀ f : Fn, (s.sched.active.get {} f).slice = 2000 ∧ (s.sched.active.get {} f).suspend = false) ∧
    (∀ f : Fn, (s.mbox f).state = .idle ∧ (s.mbox f).cause = 0 ∧ (s.mbox f).prod = 0 ∧ (s.mbox f).cons = 0) ∧
    (∀ (t : TileIx) (a : Fin 80), s.phys t a = a) ∧
    s.readBar0 0 0 = 0xB0 ∧ s.readBar0 0 4 = 0 ∧ s.readBar0 0 0x200 = 0 ∧ s.readBar2 0x900000 = 0x11000000 ∧
    (∀ f : Fn, ∀ o < 7, s.readBar0 f (0x100000 + f * 0x4000 + 4 * o) = 0) ∧
    (∀ t : TileIx, s.readBar2 (0x900010 + 4 * t) = 0x0F000000 ∧
      (∀ i < 84 * 4, s.readBar2 (0x400000 + t * 0x10000 + 4 * i) = 0) ∧ s.readBar2 (0x400A00 + t * 0x10000) = 0 ∧
      s.readBar2 (0x500000 + t * 0x10000) = 0x3F800000 ∧ s.readBar2 (0x500010 + t * 0x10000) = 0x500 ∧
      s.readBar2 (0x50001C + t * 0x10000) = 0x40 ∧ s.readBar2 (0x500040 + t * 0x10000) = 0x47800000 ∧
      s.readBar2 (0x500080 + t * 0x10000) = 0 ∧ s.readBar2 (0x500084 + t * 0x10000) = 0x200000 ∧
      (∀ i < 128, s.readBar2 (0x600000 + t * 0x10000 + 4 * i) = 0)) ∧
    (∀ n : Fin 43, s.readBar2 (0x700000 + n * 0x1000) = 0x40 ∧ ∀ i < 48, s.readBar2 (0x700100 + n * 0x1000 + 4 * i) = 0) ∧
    (∀ f : Fn, s.readBar2 (0x800000 + f * 0x10) = 0x7D0 ∧ s.readBar2 (0x800004 + f * 0x10) = 0 ∧ s.readBar2 (0x800008 + f * 0x10) = 0)

/-- Every step keeps both memories in canonical form: addresses strictly rising, no entry equal to what an unlisted address reads
as. -/
def Obligations.StepsKeepMemoryCanonical : Prop :=
  ∀ s t : State, s.memOk = true → step s = .next t → t.memOk = true

/-- R457: the fused anti-rollback counter only rises, in every step, and never passes 64 once it is within it. -/
def Obligations.RollbackCounterNeverFalls : Prop :=
  ∀ s t : State, step s = .next t → s.sec.counter ≤ t.sec.counter ∧ (s.sec.counter ≤ 64 → t.sec.counter ≤ 64)

/-! ### The mailbox protocol -/

/-- R310, R318, R335, R473: a doorbell the Keeper does not take. A mailbox that is not open does nothing; while KBUSY the doorbell is
latched with DBPEND, and a second one sets DBERR; in RUNNING it sets DBERR; a doorbell whose SEQ differs from the header's completes
with LENGTH. R339: a virtual function that sends an opcode marked PF receives DENIED, and nothing else happens. -/
def Obligations.DoorbellsOutOfTurn : Prop :=
  (∀ (i : Instr) (m : MCmd) (s : State), i.mcmd? = some m →
    (s.mailboxOpen m = false → exec i s = .next s) ∧
    (s.mailboxOpen m = true → s.keeper.kbusy = true → (s.mbox m.fn).dbpend = false →
      exec i s = .next (s.setMbox m.fn { s.mbox m.fn with dbpend := true, latched := some i })) ∧
    (s.mailboxOpen m = true → s.keeper.kbusy = true → (s.mbox m.fn).dbpend = true →
      ∃ t, exec i s = .next t ∧ (t.mbox m.fn).cause.getLsbD 2 = true ∧
        t.mbox m.fn = { s.mbox m.fn with cause := (t.mbox m.fn).cause } ∧ s.onlyMailbox t m.fn) ∧
    (s.mailboxOpen m = true → s.keeper.kbusy = false → s.keeper.recovery = false → (s.mbox m.fn).state = .running →
      ∃ t, exec i s = .next t ∧ (t.mbox m.fn).cause.getLsbD 2 = true ∧
        t.mbox m.fn = { s.mbox m.fn with cause := (t.mbox m.fn).cause } ∧ s.onlyMailbox t m.fn) ∧
    (s.mailboxOpen m = true → s.keeper.kbusy = false → s.keeper.recovery = false → (s.mbox m.fn).state ≠ .running →
      m.doorbell ≠ m.seq → ∃ t, exec i s = .next t ∧ t.answers m 0x04 [] ∧ s.onlyMailbox t m.fn)) ∧
  (∀ (i : Instr) (m : MCmd) (s : State), i.mcmd? = some m → i.pfOnly = true → m.fn ≠ 0 → s.judges m = true →
    ∃ t, exec i s = .next t ∧ t.answers m 0x03 [] ∧ s.onlyMailbox t m.fn)

/-- NOP, opcodes that are not listed, IDENTIFY, PAIR_STATUS, LINK_STATUS, REQ_STATUS and BUDGET_READ answer (R339, R342, R348, R421,
R255, R356) and leave everything but the mailbox as it is; without a resident pairing the last two answer STATE (R244). -/
def Obligations.QueriesAnswer : Prop :=
  ∀ (m : MCmd) (s : State), s.judges m = true →
    (lenIs m 0 0 = true → ∃ t, exec (.nop m 0) s = .next t ∧ t.answers m 0 [] ∧ s.onlyMailbox t m.fn) ∧
    (∀ op, listedOpcodes.contains op = false → ∃ t, exec (.nop m op) s = .next t ∧ t.answers m 0x02 [] ∧ s.onlyMailbox t m.fn) ∧
    (lenIs m 0 0 = true → ∃ t r, exec (.identify m) s = .next t ∧ t.answers m 0 r ∧ r.length = 64 ∧ r.take 9 = partName ++ [0xB0] ∧
      fieldAt r 12 2 = (s.moduleId + b2n s.isLead * 2 ^ 15) % 2 ^ 16 ∧ s.onlyMailbox t m.fn) ∧
    (lenIs m 0 0 = true → ∃ t r, exec (.pairStatus m) s = .next t ∧ t.answers m 0 r ∧ r.length = 32 ∧
      fieldAt r 0 1 = s.pair.state.code ∧ fieldAt r 4 4 = s.run.lscale.toNat ∧ s.onlyMailbox t m.fn) ∧
    (m.fn = 0 → lenIs m 8 0 = true → reservedZero m.payload 8 [(0, 1)] = true → fieldAt m.payload 0 1 ≤ 5 →
      ∃ t, exec (.linkStatus m) s = .next t ∧ t.answers m 0 (s.portRecord (fieldAt m.payload 0 1)) ∧
        (s.portRecord (fieldAt m.payload 0 1)).length = 64 ∧ s.onlyMailbox t m.fn) ∧
    (∀ i q, lenIs m 8 0 = true → s.pair.state = .resident → reservedZero m.payload 8 [(0, 2), (4, 4)] = true → s.reqNamed m = some (i, q) →
      ∃ t, exec (.reqStatus m) s = .next t ∧ t.answers m 0 (s.reqEntry q) ∧ (s.reqEntry q).length = 128 ∧ s.onlyMailbox t m.fn) ∧
    (lenIs m 8 0 = true → s.pair.state = .resident → reservedZero m.payload 8 [(0, 1)] = true →
      (m.fn = 0 ∨ (s.customer (fieldAt m.payload 0 1)).fn = some m.fn) →
      ∃ t r, exec (.budgetRead m) s = .next t ∧ t.answers m 0 r ∧
        fieldAt r 0 8 = bits64 (s.customer (fieldAt m.payload 0 1)).budget ∧ s.onlyMailbox t m.fn) ∧
    (lenIs m 8 0 = true → s.pair.state ≠ .resident →
      (∃ t, exec (.reqStatus m) s = .next t ∧ t.answers m 0x06 [] ∧ s.onlyMailbox t m.fn) ∧
      ∃ t, exec (.budgetRead m) s = .next t ∧ t.answers m 0x06 [] ∧ s.onlyMailbox t m.fn)

/-- HEALTH_READ, ACCOUNT_READ, SIZE_TABLE_READ, FOG_READ, DAYMARK_READ and ACC_READ write their record where their descriptor says, and
no other byte of host memory (R343, R362, R391, R420, R450, R468). -/
def Obligations.RecordsAreCopiedOut : Prop :=
  ∀ (m : MCmd) (s : State), s.judges m = true →
    (m.fn = 0 → lenIs m 8 1 = true → descsOk s m (descsAt m.payload 8 1) [true] = true → reservedZero m.payload 8 [] = true →
      hostRoom m.payload 8 12288 = true → ∃ t, exec (.healthRead m) s = .next t ∧ t.answers m 0 [] ∧ s.healthRecord.length = 12288 ∧
        t.hostMem = Mem.writeN s.hostMem (fieldAt m.payload 8 8) s.healthRecord ∧ s.onlyChanges t [.hostMem, .keeper, .fnp, .outbox]) ∧
    (lenIs m 8 1 = true → descsOk s m (descsAt m.payload 8 1) [true] = true → reservedZero m.payload 8 [(0, 1)] = true →
      fieldAt m.payload 0 1 = m.fn → hostRoom m.payload 8 (s.accounts (m.fn == 0) [m.fn.val]).length = true →
      ∃ t, exec (.accountRead m) s = .next t ∧ t.answers m 0 [] ∧
        t.hostMem = Mem.writeN s.hostMem (fieldAt m.payload 8 8) (s.accounts (m.fn == 0) [m.fn.val]) ∧
        (m.fn = 0 → t.fnp.closed.find? 0 = none) ∧ s.onlyChanges t [.hostMem, .keeper, .fnp, .outbox]) ∧
    (∀ tb, m.fn = 0 → lenIs m 0 1 = true → descsOk s m (descsAt m.payload 0 1) [true] = true → s.link.table = some tb →
      hostRoom m.payload 0 tb.raw.length = true → ∃ t, exec (.sizeTableRead m) s = .next t ∧ t.answers m 0 [] ∧
        t.hostMem = Mem.writeN s.hostMem (fieldAt m.payload 0 8) tb.raw ∧ s.onlyChanges t [.hostMem, .keeper, .fnp, .outbox]) ∧
    (m.fn = 0 → lenIs m 0 1 = true → descsOk s m (descsAt m.payload 0 1) [true] = true → s.isLead = true →
      hostRoom m.payload 0 (16 + 160 * s.link.leadFog.length) = true → ∃ t bs, exec (.fogRead m) s = .next t ∧ t.answers m 0 [] ∧
        bs.length = 16 + 160 * s.link.leadFog.length ∧ bs.take 4 = leBytes 4 s.link.leadFog.length ∧
        t.hostMem = Mem.writeN s.hostMem (fieldAt m.payload 0 8) bs ∧
        t.link.leadFog = s.link.leadFog.filter (fun e => decide (s.watch 4 - e.mergedAt ≤ s.fogWindow)) ∧
        s.onlyChanges t [.hostMem, .keeper, .fnp, .outbox, .link]) ∧
    (lenIs m 0 1 = true → descsOk s m (descsAt m.payload 0 1) [true] = true → hostRoom m.payload 0 daymarkChain.length = true →
      ∃ t, exec (.daymarkRead m) s = .next t ∧ t.answers m 0 [] ∧
        t.hostMem = Mem.writeN s.hostMem (fieldAt m.payload 0 8) daymarkChain ∧ s.onlyChanges t [.hostMem, .keeper, .fnp, .outbox]) ∧
    (m.fn = 0 → lenIs m 8 1 = true → descsOk s m (descsAt m.payload 8 1) [true] = true → s.keeper.debug = true →
      (accArgs m.payload).ok m.payload = true → s.accBusy (accArgs m.payload) = false →
      hostRoom m.payload 8 (s.accData (accArgs m.payload)).length = true → ∃ t, exec (.accRead m) s = .next t ∧ t.answers m 0 [] ∧
        t.hostMem = Mem.writeN s.hostMem (fieldAt m.payload 8 8) (s.accData (accArgs m.payload)) ∧
        s.onlyChanges t [.hostMem, .keeper, .fnp, .outbox, .fresh])

/-- PAIR_LOAD, PAIR_LOAD_DONE, PAIR_UNLOAD, PAIR_UNLOAD_DONE, REFRESH and REFRESH_DONE move the pairing through the states of R13
(R17, R19, R136, R344 to R347). -/
def Obligations.PairingMoves : Prop :=
  (∀ (m : MCmd) (s : State), s.judges m = true → m.fn = 0 → lenIs m 64 3 = true ∨ lenIs m 64 4 = true →
    descsOk s m (descsAt m.payload 64 m.ndesc) (List.replicate m.ndesc false) = true → s.excluded = false → s.pair.state = .empty →
    reservedZero m.payload 64 [(0, 29), (32, 29)] = true → modelOk (modelAt m.payload 0) = true → modelOk (modelAt m.payload 32) = true →
    (modelAt m.payload 32).wfmt = 3 → (modelAt m.payload 0).vocab = (modelAt m.payload 32).vocab →
    s.inputLost m (descsAt m.payload 64 m.ndesc) = false →
    ∃ t, exec (.pairLoad m true) s = .next t ∧ t.answers m 0x01 [] ∧ t.pair.state = .loading ∧
      t.pair.teacher = some (modelAt m.payload 0) ∧ t.pair.student = some (modelAt m.payload 32) ∧
      (∃ o ∈ t.keeper.ops, o.kind = .pairLoad ∧ o.seq = m.seq) ∧ t.mem = s.mem) ∧
  (∀ (r : LoadResult) (o : LongOp) (s : State), s.findOp .pairLoad = some o → s.keeper.kbusy = false → r.readable = true →
    s.pair.teacher = some r.teacher → s.pair.student = some r.student → r.digestsOk = true → s.loadFits r = true →
    ∃ t, exec (.pairLoadDone r) s = .next t ∧ t.pair.state = .resident ∧ t.mem = Mem.place s.mem r.placed ∧ o ∉ t.keeper.ops ∧
      (s.postsTo o.fn = true → s.entered t o.fn { code := 1, fn := o.fn, seq := o.seq, data := opDoneData 0 o.opcode [] })) ∧
  (∀ (m : MCmd) (s : State), s.judges m = true → m.fn = 0 → lenIs m 0 0 = true → s.excluded = false → s.pair.state = .resident →
    s.run.active = false → ∃ t, exec (.pairUnload m) s = .next t ∧ t.answers m 0x01 [] ∧ t.pair.state = .unloading ∧
      t.prog.progs = [] ∧ t.pair.heldTeacher = none ∧ t.pair.heldStudent = none) ∧
  (∀ (o : LongOp) (s : State), s.findOp .pairUnload = some o → s.keeper.kbusy = false →
    ∃ t, exec .pairUnloadDone s = .next t ∧ t.pair.state = .empty ∧ t.pair.extents = [] ∧ o ∉ t.keeper.ops ∧ t.mem = s.mem) ∧
  (∀ (m : MCmd) (img : WeightImage) (s : State), s.judges m = true → m.fn = 0 → lenIs m 8 1 = true →
    descsOk s m (descsAt m.payload 8 m.ndesc) (List.replicate m.ndesc false) = true → s.pair.state = .resident →
    reservedZero m.payload 8 [(0, 1)] = true → s.inputLost m (descsAt m.payload 8 m.ndesc) = false →
    (fieldAt m.payload 0 1 = 0 → s.pair.teacher = some img.dims → ∃ t, exec (.refresh m img) s = .next t ∧ t.answers m 0x01 [] ∧
      t.pair.heldTeacher = some { fn := m.fn, seq := m.seq, img := { img with state := none } } ∧ t.mem = s.mem) ∧
    (fieldAt m.payload 0 1 = 1 → s.pair.student = some img.dims → ∃ t, exec (.refresh m img) s = .next t ∧ t.answers m 0x01 [] ∧
      t.pair.heldStudent = some { fn := m.fn, seq := m.seq, img := { img with state := none } } ∧ t.mem = s.mem)) ∧
  (∀ (h : HeldRefresh) (s : State), s.run.active = false → s.keeper.kbusy = false → s.pair.heldTeacher = some h →
    ∃ t, exec (.refreshDone 0 true) s = .next t ∧ t.pair.heldTeacher = none ∧ t.pair.parity = !s.pair.parity ∧
      t.mem = Mem.place s.mem h.img.placed ∧ ∀ k < 4, (t.target k).parity = !(s.target k).parity)

/-- PROG_SUBMIT, PROG_RETIRE and PROG_RESTART (R349, R350, R353, R489). -/
def Obligations.ProgramsComeAndGo : Prop :=
  (∀ (m : MCmd) (img : ProgImage) (s : State) (h : Nat) (x : State × List Nat), s.judges m = true → lenIs m 32 1 = true →
    descsOk s m (descsAt m.payload 32 1) [false] = true → reservedZero m.payload 32 [(0, 26)] = true → img.signed = true →
    s.inputLost m (descsAt m.payload 32 1) = false → declaresOk img = true →
    fieldAt m.payload 24 2 = 0 → s.prog.progs.freeFrom 65535 1 = some h → s.customBusy img 0 = false → groupsOk img = true →
    img.slots ≤ 32 → s.groupTaken img 0 = false → s.submitCheck m.fn h img = none → s.takeMemory m.fn h img = some x →
    ∃ t r p, exec (.progSubmit m img) s = .next t ∧ t.answers m 0 r ∧ r.take 2 = leBytes 2 h ∧ t.progAt h = some p ∧ p.img = img ∧
      p.fn = m.fn ∧ p.regions = x.2) ∧
  (∀ (m : MCmd) (s : State) (q : Prog), s.judges m = true → lenIs m 8 0 = true → reservedZero m.payload 8 [(0, 2)] = true →
    s.progFor m.fn (fieldAt m.payload 0 2) = some q → (s.run.active = false ∨ s.run.prog ≠ fieldAt m.payload 0 2) →
    ∃ t, exec (.progRetire m) s = .next t ∧ t.answers m 0 [] ∧ t.progAt (fieldAt m.payload 0 2) = none ∧
      (∀ k ∈ q.regions, t.tier.regions.find? k = none) ∧ t.mem = s.mem) ∧
  (∀ (m : MCmd) (s : State) (q : Prog), s.judges m = true → lenIs m 8 0 = true → reservedZero m.payload 8 [(0, 2)] = true →
    s.progFor m.fn (fieldAt m.payload 0 2) = some q → (q.state = .faulted ∨ q.state = .completed) →
    ∃ t p, exec (.progRestart m) s = .next t ∧ t.answers m 0 [] ∧ t.progAt (fieldAt m.payload 0 2) = some p ∧ p.state ≠ .faulted ∧
      p.ended = [] ∧ p.img = q.img ∧ s.onlyChanges t [.keeper, .fnp, .outbox, .prog])

/-- RUN_START, RUN_STOP, SNAP_REQUEST, SNAPSHOT_COMPLETE and HOST_RING_POLL (R15, R201, R242, R325, R351, R352). -/
def Obligations.RunsStartAndStop : Prop :=
  (∀ (m : MCmd) (lasts : List LastStep) (s : State) (q : Prog) (tb : SizeTable), s.judges m = true → m.fn = 0 → lenIs m 56 2 = true →
    descsOk s m (descsAt m.payload 56 2) [true, true] = true → s.pair.state = .resident → s.run.active = false →
    s.keeper.debug = false → s.link.table = some tb → runFieldsOk m.payload = true → s.progAt (fieldAt m.payload 0 2) = some q →
    q.img.learn = true → q.img.sspan = tb.sspan → q.img.lspan = tb.lspan →
    ∃ t, exec (.runStart m lasts) s = .next t ∧ t.answers m 0 [] ∧ t.run.active = true ∧ t.run.prog = fieldAt m.payload 0 2 ∧
      t.run.step = 0 ∧ t.run.seed = BitVec.ofNat 64 (fieldAt m.payload 8 8) ∧
      t.run.lscale = (if fieldAt m.payload 16 4 = 0 then 0x47800000 else BitVec.ofNat 32 (fieldAt m.payload 16 4)) ∧
      (∀ k < 4, (t.target k).lscale = t.run.lscale) ∧
      t.progAt (fieldAt m.payload 0 2) = some { q.fromStart with state := .running } ∧ t.mem = s.mem ∧
      (s.run.leadLost = false → (∀ x ∈ lasts, x.lost = false) → t.run.bank = s.run.bank)) ∧
  (∀ (m : MCmd) (s : State), s.judges m = true → m.fn = 0 → lenIs m 0 0 = true → s.run.active = true → s.run.stop = none →
    ∃ t, exec (.runStop m) s = .next t ∧ t.answers m 0x01 [] ∧ t.run = { s.run with stop := some .command } ∧
      (∃ o ∈ t.keeper.ops, o.kind = .runStop ∧ o.seq = m.seq)) ∧
  (∀ (m : MCmd) (s : State), s.judges m = true → m.fn = 0 → lenIs m 0 0 = true → descsOk s m [] [] = true →
    s.pair.state = .resident → s.run.active = true → ∃ t, exec (.snapRequest m) s = .next t ∧ t.answers m 0x01 [] ∧
      t.run = { s.run with snapAsked := s.run.snapAsked ++ [(m.fn, m.seq)] }) ∧
  (∀ (s : State) (x : SnapSt) (failed : Bool), s.run.snap = some x →
    ∃ t, exec (.snapshotComplete failed) s = .next t ∧ t.run.snap = s.run.snapDue.head?.map (fun y => { y with startedAt := s.watch 4 }) ∧
      t.run.snapDue = s.run.snapDue.tail ∧
      (s.postsTo 0 = true → s.entered t 0
        { code := 4, fn := 0, seq := (x.seq.map (·.2)).getD 0, data := leBytes 1 (if failed then 0x0A else 0) ++
            leBytes 1 (if failed then 2 else 1) ++ List.replicate 6 0 ++ leBytes 8 x.step ++ leBytes 8 x.slot })) ∧
  (∀ (s : State) (c : Nat), s.keeper.up = true → s.keeper.kbusy = false →
    exec (.hostRingPoll true c) s = .next (s.setRun { s.run with snaps := { s.run.snaps with cons := c } }) ∧
    (s.run.heldReports = [] → exec (.hostRingPoll false c) s = .next (s.setRun { s.run with report := { s.run.report with cons := c } })))

/-! ### Serving, memory, firmware and service commands -/

/-- JOIN, CANCEL, PAUSE, BATCH_CLOSE, CUST_BIND and BUDGET_REFILL (R245, R254 to R259, R264, R354 to R356). The places of a request's
page directory and stop table are the model's (log entry 22). -/
def Obligations.RequestsComeAndGo : Prop :=
  (∀ (m : MCmd) (s : State) (ds : List Desc) (i g : Nat) (x : Nat × Nat), s.judges m = true → lenIs m (72 + 68 * fieldAt m.payload 28 1) 2 = true →
    ds = descsAt m.payload (72 + 68 * fieldAt m.payload 28 1) 2 → descsOk s m ds [false, true] = true →
    4 * fieldAt m.payload 8 4 ≤ extentBytes (cmdExtents m ds 0) →
    fieldAt m.payload 64 4 * (if bitOf (fieldAt m.payload 5 1) 2 then 8 else 4) ≤ extentBytes (cmdExtents m ds 1) →
    s.pair.state = .resident → joinFieldsOk m.payload (fieldAt m.payload 28 1) = true → s.inputLost m ds = false →
    (s.customer (fieldAt m.payload 4 1)).fn = some m.fn → s.serve.reqs.freeFrom 4096 0 = some i → i < 4096 →
    (bitOf (fieldAt m.payload 5 1) 1 = true → s.run.active = true) → s.chooseGroup (bitOf (fieldAt m.payload 5 1) 0) = some g →
    s.placeTables (s.firstTile g) (fieldAt m.payload 28 1) = some x →
    ∃ t q, exec (.join m) s = .next t ∧ t.answers m 0 (leBytes 2 i ++ leBytes 1 g) ∧ t.req? i = some q ∧ q.status = .queued ∧
      q.fn = m.fn ∧ q.reqid = BitVec.ofNat 32 (fieldAt m.payload 0 4) ∧ q.cust = fieldAt m.payload 4 1 ∧ q.group = g ∧
      q.prompt.length = fieldAt m.payload 8 4 ∧ q.maxnew = fieldAt m.payload 12 4 ∧ q.generated = [] ∧ q.len = 0 ∧ q.pages = [] ∧
      (∀ j, j ≠ i → t.req? j = s.req? j) ∧ s.onlyChanges t [.mem, .keeper, .serve, .fnp, .outbox] ∧
      s.storesOnly t [(spadBase q.home + q.pdir, 4096), (spadBase q.home + q.stoptab, 68 * fieldAt m.payload 28 1)]) ∧
  (∀ (m : MCmd) (s : State) (i : Nat) (q : Req), s.judges m = true → lenIs m 8 0 = true → s.pair.state = .resident →
    reservedZero m.payload 8 [(0, 2), (4, 4)] = true → s.reqNamed m = some (i, q) →
    (∃ t, exec (.cancel m) s = .next t ∧ t.answers m 0x01 [] ∧
      t.req? i = some { q with ops := q.ops ++ [{ isPause := false, fn := m.fn, seq := m.seq }],
                               cancel := if q.cancel = .none_ then .pending else q.cancel } ∧
      s.onlyChanges t [.keeper, .serve, .fnp, .outbox]) ∧
    (∃ t, exec (.pause m) s = .next t ∧ t.answers m 0x01 [] ∧
      t.req? i = some { q with ops := q.ops ++ [{ isPause := true, fn := m.fn, seq := m.seq }] } ∧
      s.onlyChanges t [.keeper, .serve, .fnp, .outbox])) ∧
  (∀ (m : MCmd) (s : State), s.judges m = true → m.fn = 0 → lenIs m 0 0 = true → s.pair.state = .resident →
    s.run.active = true → s.serve.batchClosed = false →
    ∃ t, exec (.batchClose m) s = .next t ∧ t.answers m 0 [] ∧ t.serve = { s.serve with batchClosed := true }) ∧
  (∀ (m : MCmd) (s : State) (f : Fn), s.judges m = true → m.fn = 0 → lenIs m 8 0 = true → reservedZero m.payload 8 [(0, 2)] = true →
    s.pair.state = .resident → fieldAt m.payload 1 1 = f.val →
    (∀ e ∈ s.serve.reqs, e.2.cust = fieldAt m.payload 0 1 → e.2.status.terminal = true) →
    ∃ t, exec (.custBind m) s = .next t ∧ t.answers m 0 [] ∧
      t.customer (fieldAt m.payload 0 1) = { s.customer (fieldAt m.payload 0 1) with fn := some f, charged := 0 } ∧
      ∀ c, c ≠ fieldAt m.payload 0 1 → t.customer c = s.customer c) ∧
  (∀ (m : MCmd) (s : State) (r : Refill), s.judges m = true → m.fn = 0 → lenIs m 16 0 = true → s.pair.state = .resident →
    reservedZero m.payload 16 [(0, 2), (8, 8)] = true → fieldAt m.payload 1 1 ≤ 1 →
    r = { add := fieldAt m.payload 1 1 == 1, value := signed64 (fieldAt m.payload 8 8) } →
    ∃ t, exec (.budgetRefill m) s = .next t ∧ t.answers m 0 [] ∧
      (s.custInStep (fieldAt m.payload 0 1) = true →
        t.customer (fieldAt m.payload 0 1) = { s.customer (fieldAt m.payload 0 1) with
          refills := (s.customer (fieldAt m.payload 0 1)).refills ++ [r] }) ∧
      (s.custInStep (fieldAt m.payload 0 1) = false →
        (t.customer (fieldAt m.payload 0 1)).budget =
          if r.add then min ((s.customer (fieldAt m.payload 0 1)).budget + r.value) (2 ^ 63 - 1) else r.value) ∧
      ∀ c, c ≠ fieldAt m.payload 0 1 → t.customer c = s.customer c)

/-- REGION_ALLOC, REGION_FREE, MEM_TRANSFER, MEM_TRANSFER_DONE and CXLMEM_WINDOW (R283, R292, R357, R358). A region's place is the
model's (log entry 22); CXLMEM_ACCESS reaches the far tier inside
the window and nothing else (R283). -/
def Obligations.MemoryIsManaged : Prop :=
  ((∀ (m : MCmd) (s : State) (a i : Nat) (p : List Byte), p = m.payload → s.judges m = true →
    (if fieldAt p 10 1 = 0 then lenIs m 16 1 else lenIs m 16 0) = true →
    descsOk s m (descsAt p 16 (if fieldAt p 10 1 = 0 then 1 else 0)) (if fieldAt p 10 1 = 0 then [false] else []) = true →
    reservedZero p 16 [(0, 12)] = true → fieldAt p 0 8 ≠ 0 → fieldAt p 8 1 ≤ 2 → fieldAt p 10 1 ≤ 5 → 6 ≤ fieldAt p 11 1 →
    fieldAt p 11 1 ≤ 30 → (fieldAt p 8 1 = 1 ∨ fieldAt p 9 1 ≤ 3) →
    s.place (fieldAt p 8 1) (fieldAt p 9 1) (2 ^ fieldAt p 11 1) (fieldAt p 0 8) = some a →
    s.tier.regions.freeFrom 16384 0 = some i → i < 16384 →
    ∃ t r, exec (.regionAlloc m) s = .next t ∧ t.answers m 0 (leBytes 8 a ++ leBytes 4 i) ∧ t.tier.regions.find? i = some r ∧
      r.base = a ∧ r.tier = fieldAt p 8 1 ∧ r.cls = fieldAt p 10 1 ∧ r.fn = m.fn ∧ r.prog = 0 ∧ fieldAt p 0 8 ≤ r.length ∧
      s.onlyChanges t [.keeper, .tier, .fnp, .outbox]) ∧
  (∀ (m : MCmd) (s : State) (r : Region), s.judges m = true → lenIs m 8 0 = true → reservedZero m.payload 8 [(0, 4)] = true →
    s.regionFor m.fn (fieldAt m.payload 0 4) = some r → r.prog = 0 →
    ∃ t, exec (.regionFree m) s = .next t ∧ t.answers m 0 [] ∧
      t.tier = { s.tier with regions := s.tier.regions.del (fieldAt m.payload 0 4) } ∧ s.onlyChanges t [.keeper, .tier, .fnp, .outbox]) ∧
  (∀ (m : MCmd) (s : State) (r : Region) (p : List Byte), p = m.payload → s.judges m = true → lenIs m 32 1 = true →
    descsOk s m (descsAt p 32 1) [fieldAt p 24 1 == 1] = true → fieldAt p 24 1 ≤ 1 →
    fieldAt p 16 8 ≤ extentBytes (cmdExtents m (descsAt p 32 1) 0) → reservedZero p 32 [(0, 4), (8, 17)] = true →
    s.regionFor m.fn (fieldAt p 0 4) = some r → fieldAt p 8 8 + fieldAt p 16 8 ≤ r.length →
    ∃ t, exec (.memTransfer m) s = .next t ∧ t.answers m 0x01 [] ∧ t.mem = s.mem ∧ t.hostMem = s.hostMem ∧
      t.keeper.ops = s.keeper.ops ++ [LongOp.mk .transfer m.fn m.seq 0x402 p (cmdExtents m (descsAt p 32 1) 0) (r.base + fieldAt p 8 8)]) ∧
  (∀ (fn : Fn) (seq : Nat) (data : List Byte) (s : State) (o : LongOp), s.keeper.kbusy = false →
    s.keeper.ops.find? (fun o => o.kind == .transfer && o.fn == fn && o.seq == seq) = some o →
    (fieldAt o.payload 24 1 = 0 → s.windowLost o.extents = false → ∃ t, exec (.memTransferDone fn seq data false) s = .next t ∧ o ∉ t.keeper.ops ∧
      t.mem = Mem.writeN s.mem o.base (data.take (fieldAt o.payload 16 8)) ∧ t.hostMem = s.hostMem) ∧
    (fieldAt o.payload 24 1 ≠ 0 → s.rangeFailed o.base (fieldAt o.payload 16 8) = false →
      ∃ t, exec (.memTransferDone fn seq data false) s = .next t ∧ o ∉ t.keeper.ops ∧
        t.mem = (s.writeOut o.extents (Mem.readN s.mem o.base (fieldAt o.payload 16 8))).mem ∧
        t.hostMem = (s.writeOut o.extents (Mem.readN s.mem o.base (fieldAt o.payload 16 8))).hostMem) ∧
    (∃ t, exec (.memTransferDone fn seq data true) s = .next t ∧ o ∉ t.keeper.ops ∧ t.mem = s.mem ∧ t.hostMem = s.hostMem)) ∧
  (∀ (m : MCmd) (s : State), s.judges m = true → m.fn = 0 → lenIs m 8 0 = true → s.excluded = false → s.pair.state = .empty →
    fieldAt m.payload 0 4 ≤ 2047 → fieldAt m.payload 4 4 ≤ 1024 → fieldAt m.payload 0 4 + fieldAt m.payload 4 4 ≤ 2048 →
    (∀ i < fieldAt m.payload 4 4,
      (s.setTier { s.tier with windowBase := 0, windowSize := 0 }).extentHeld (fieldAt m.payload 0 4 + i) = false) →
    ∃ t, exec (.cxlmemWindow m) s = .next t ∧ t.answers m 0 [] ∧
      t.tier = { s.tier with windowBase := fieldAt m.payload 0 4, windowSize := fieldAt m.payload 4 4 } ∧ t.mem = s.mem)) ∧
  (∀ (s : State) (o : Nat) (data : List Byte), data ≠ [] →
    (o + data.length ≤ s.tier.windowSize * 2 ^ 30 →
      exec (.cxlmemAccess true o data) s = .next (s.setMem (Mem.writeN s.mem (farBase + s.tier.windowBase * 2 ^ 30 + o) data)) ∧
      (s.failedIn [(farBase + s.tier.windowBase * 2 ^ 30 + o, data.length)] = [] → exec (.cxlmemAccess false o data) s =
        .next (s.send (.cxlData (Mem.readN s.mem (farBase + s.tier.windowBase * 2 ^ 30 + o) data.length)))) ∧
      (s.failedIn [(farBase + s.tier.windowBase * 2 ^ 30 + o, data.length)] ≠ [] → exec (.cxlmemAccess false o data) s =
        .next (s.send (.cxlData (s.hostRead (farBase + s.tier.windowBase * 2 ^ 30 + o) data.length))).useFree)) ∧
    (s.tier.windowSize * 2 ^ 30 < o + data.length → ∀ w, exec (.cxlmemAccess w o data) s = .fault (.outsideCxlWindow o)))

/-- CARRIER_EVACUATE, EXTENT_SWITCH, CARRIER_RELEASED, CARRIER_FITTED and CARRIER_LOST (R282, R284, R358, R466). -/
def Obligations.CarriersMove : Prop :=
  (∀ (m : MCmd) (s : State), s.judges m = true → m.fn = 0 → lenIs m 8 0 = true → s.excluded = false →
    reservedZero m.payload 8 [(0, 1)] = true → fieldAt m.payload 0 1 ≤ 3 → s.carrierServes (fieldAt m.payload 0 1) = true →
    (s.heldOn (fieldAt m.payload 0 1)).length ≤ (s.freeElsewhere (fieldAt m.payload 0 1)).length →
    ∃ t, exec (.carrierEvacuate m) s = .next t ∧ t.answers m 0x01 [] ∧ (t.carrier (fieldAt m.payload 0 1)).evacuating = true ∧
      (∀ c, c ≠ fieldAt m.payload 0 1 → t.carrier c = s.carrier c) ∧ t.mem = s.mem) ∧
  (∀ (c : Fin 4) (e : Nat) (s : State), s.keeper.kbusy = false → (s.carrier c).evacuating = true → e ∈ s.heldOn c →
    s.freeElsewhere c ≠ [] → ∃ t b, exec (.extentSwitch c e) s = .next t ∧ b ∈ s.freeElsewhere c ∧
      (∀ x ∈ s.freeElsewhere c, s.physExtent b ≤ s.physExtent x) ∧ t.physExtent e = s.physExtent b ∧
      t.physExtent b = s.physExtent e ∧ (∀ x, x ≠ e → x ≠ b → t.physExtent x = s.physExtent x) ∧ s.onlyChanges t [.tier]) ∧
  (∀ (c : Fin 4) (s : State), s.keeper.kbusy = false → (s.carrier c).evacuating = true → s.heldOn c = [] →
    (s.arbAt (32 + c)).held = false → ∃ t, exec (.carrierReleased c) s = .next t ∧ (t.carrier c).powered = false ∧
      (t.carrier c).evacuating = false ∧ (t.arbAt (32 + c)).freeze = true ∧
      (∀ o, s.findOp (.evacuate c) = some o → o ∉ t.keeper.ops) ∧ t.mem = s.mem) ∧
  (∀ (c : Fin 4) (retired : List Nat) (s : State), ((s.carrier c).present = false ∨ (s.carrier c).powered = false) →
    ∃ t, exec (.carrierFitted c retired) s = .next t ∧ (t.carrier c).present = true ∧ (t.carrier c).powered = true ∧
      (t.carrier c).evacuating = false ∧ (t.arbAt (32 + c)).freeze = false ∧ t.mem = s.mem ∧
      (retired = [] → (t.carrier c).spares = 2097152)) ∧
  (∀ (c : Fin 4) (s : State), (s.carrier c).present = true →
    ∃ t, exec (.carrierLost c) s = .next t ∧ (t.carrier c).present = false ∧ (t.carrier c).powered = false ∧
      (∀ d, d ≠ c.val → t.carrier d = s.carrier d) ∧ t.mem = s.mem)

/-- SIZE_TABLE_SET and SIZE_TABLE_IN_FORCE: a table waits for the Lead's CRC and a complete census, and comes into force whole (R359,
R410, R460). -/
def Obligations.SizeTablesComeIntoForce : Prop :=
  (∀ (m : MCmd) (s : State) (bs : List Byte), s.judges m = true → m.fn = 0 → lenIs m 0 1 = true →
    descsOk s m (descsAt m.payload 0 1) [false] = true → 4160 ≤ extentBytes (cmdExtents m (descsAt m.payload 0 1) 0) →
    bs = (m.reads.getD 0 []).take 4160 → s.pwr.strapBad = false → (s.run.active = true → s.shrinkOk bs = true) → s.tableOk bs = true →
    s.inputLost m (descsAt m.payload 0 1) = false →
    ∃ t, exec (.sizeTableSet m) s = .next t ∧ t.answers m 0x01 [] ∧ t.link.table = s.link.table ∧
      t.link.pendingTable = some (tableFields bs, m.fn, m.seq) ∧ Out.tableCrc (tableCrc bs) ∈ t.outbox) ∧
  (∀ (census : List CensusEntry) (s : State) (tb : SizeTable) (f : Fn) (q : Nat), s.keeper.kbusy = false → s.run.active = false →
    s.link.pendingTable = some (tb, f, q) →
    (∀ x ∈ tb.present, ∃ e ∈ census, e.id = x.1) →
    (duplicateOf census = none → (∀ e ∈ census, e.fwmaj = s.keeper.fwmaj) →
      ∃ t, exec (.sizeTableInForce (tableCrc tb.raw) census) s = .next t ∧ t.link.table = some tb ∧ t.link.pendingTable = none ∧
        (s.postsTo f = true → s.entered t f { code := 1, fn := f, seq := q, data := opDoneData 0 0x500 [] })) ∧
    (∀ crc, duplicateOf census = none → (∃ e ∈ census, e.fwmaj ≠ s.keeper.fwmaj) ∨ crc ≠ tableCrc tb.raw →
      ∃ t, exec (.sizeTableInForce crc census) s = .next t ∧ t.link.table = s.link.table ∧ t.link.pendingTable = none ∧
        (s.postsTo f = true → s.entered t f { code := 1, fn := f, seq := q, data := opDoneData 0x21 0x500 [] })))

/-- FW_LOAD, FW_LOAD_DONE and FW_ACTIVATE (R334, R360, R455 to R459): the other slot is written, and an activation starts a restart of
the Keeper. -/
def Obligations.FirmwareChanges : Prop :=
  (∀ (m : MCmd) (v : FwVerdict) (s : State), s.judges m = true → m.fn = 0 → lenIs m 0 1 = true →
    descsOk s m (descsAt m.payload 0 1) [false] = true → s.findOp .fwLoad = none →
    s.fwCheck (imageSlot (m.reads.getD 0 [])) v = 0 → s.inputLost m (descsAt m.payload 0 1) = false →
    ∃ t, exec (.fwLoad m v) s = .next t ∧ t.answers m 0x01 [] ∧
      t.fwSlot s.otherSlot = { imageSlot (m.reads.getD 0 []) with present := false } ∧ t.fwSlot s.keeper.slot = s.fwSlot s.keeper.slot ∧
      ∃ o ∈ t.keeper.ops, o.kind = .fwLoad ∧ o.seq = m.seq) ∧
  (∀ (ok : Bool) (s : State) (o : LongOp), s.findOp .fwLoad = some o → s.keeper.kbusy = false →
    ∃ t, exec (.fwLoadDone ok) s = .next t ∧ t.fwSlot s.otherSlot = { s.fwSlot s.otherSlot with present := true, ok := ok } ∧
      o ∉ t.keeper.ops ∧ (s.postsTo o.fn = true → s.entered t o.fn
        { code := 1, fn := o.fn, seq := o.seq, data := opDoneData (if ok then 0 else 0x37) o.opcode [] })) ∧
  (∀ (m : MCmd) (v : FwVerdict) (s : State), s.judges m = true → m.fn = 0 → lenIs m 0 0 = true → s.findOp .fwLoad = none →
    s.findOp .fwActivate = none → (s.fwSlot s.otherSlot).present = true → s.fwCheck (s.fwSlot s.otherSlot) v = 0 →
    (s.inCascade = true → (s.fwSlot s.otherSlot).maj = s.keeper.fwmaj) →
    ∃ t, exec (.fwActivate m v) s = .next t ∧ t.answers m 0x01 [] ∧ t.keeper.kbusy = true ∧ t.keeper.restart = some .activate ∧
      t.keeper.slot = s.keeper.slot ∧ t.keeper.prevSlot = s.keeper.slot ∧ t.sec.counter = s.sec.counter)

/-- SERVICE_PREPARE with each PART, SERVICE_NOTICE_RX and SERVICE_NOTICE_TIMEOUT (R404, R463 to R465). -/
def Obligations.ServiceIsPrepared : Prop :=
  (∀ (m : MCmd) (s : State) (k : Nat), s.judges m = true → m.fn = 0 → lenIs m 8 0 = true → reservedZero m.payload 8 [(0, 2)] = true →
    fieldAt m.payload 1 1 = k →
    (fieldAt m.payload 0 1 = 0 → k ≤ 1 →
      ((s.laser (1 - k)).state = 0 →
        ∃ t, exec (.servicePrepareLaser m) s = .next t ∧ t.answers m 0x01 [] ∧ (t.laser k).state = 3 ∧ (t.laser k).full = false ∧
          (t.laser (1 - k)).full = true) ∧
      ((s.laser (1 - k)).state ≠ 0 →
        ∃ t, exec (.servicePrepareLaser m) s = .next t ∧ t.answers m 0x01 [] ∧ t.link.lasers = s.link.lasers)) ∧
    (fieldAt m.payload 0 1 = 1 → k / 16 ≤ 11 → k % 16 < phasesOf (k / 16) → (∀ x ∈ s.pwr.phaseOut, x / 16 = k / 16 → x = k) →
      ∃ t, exec (.servicePreparePhase m) s = .next t ∧ t.answers m 0x01 [] ∧ k ∈ t.pwr.phaseOut) ∧
    (fieldAt m.payload 0 1 = 2 → k ≤ 5 → ∀ answered, ∃ t, exec (.servicePrepareFibre m answered) s = .next t ∧ t.answers m 0x01 [] ∧
      (t.port k).state = .down ∧ (t.port k).serviced = true ∧ Out.serviceNotice k ∈ t.outbox ∧
      (answered = false → ∃ o ∈ t.keeper.ops, o.kind = .fibre k ∧ o.seq = m.seq))) ∧
  (∀ (p : PortIx) (s : State), (s.port p).isUp = true → ∃ t, exec (.serviceNoticeRx p) s = .next t ∧ (t.port p).serviced = true ∧ (t.port p).state = .down ∧
    Out.serviceAnswer p ∈ t.outbox) ∧
  (∀ (p : PortIx) (s : State) (o : LongOp), s.findOp (.fibre p) = some o →
    ∃ t, exec (.serviceNoticeTimeout p) s = .next t ∧ o ∉ t.keeper.ops ∧ (s.postsTo o.fn = true → s.entered t o.fn
      { code := 1, fn := o.fn, seq := o.seq, data := opDoneData 0 o.opcode [] }))

/-- DEBUG_ENTER, DEBUG_EXIT and ACC_WRITE (R361, R362). -/
def Obligations.DebugCommands : Prop :=
  (∀ (m : MCmd) (s : State), s.judges m = true → m.fn = 0 → lenIs m 0 0 = true → s.run.active = false →
    ∃ t, exec (.debugEnter m) s = .next t ∧ t.answers m 0 [] ∧ t.keeper = { s.keeper with debug := true, mbox := t.keeper.mbox }) ∧
  (∀ (m : MCmd) (s : State), s.judges m = true → m.fn = 0 → lenIs m 0 0 = true →
    ∃ t, exec (.debugExit m) s = .next t ∧ t.answers m 0 [] ∧ t.keeper.debug = false ∧
      (s.keeper.debug = false → s.onlyMailbox t 0) ∧
      (s.keeper.debug = true → s.prog.progs = [] → t.arr = { s.arr with cust := [] } ∧ t.eng = { s.eng with keys := [] } ∧
        ∀ k < 4, (t.target k).active = {} ∧ (t.target k).staged = {})) ∧
  (∀ (m : MCmd) (s : State) (a : AccArgs) (bs : List Byte), s.judges m = true → m.fn = 0 → lenIs m 8 1 = true →
    descsOk s m (descsAt m.payload 8 1) [false] = true → s.keeper.debug = true → a = accArgs m.payload → a.ok m.payload = true →
    bs = m.reads.getD 0 [] → (∀ w ∈ accWords a bs, w < 2 ^ 34) → s.accBusy a = false →
    s.inputLost m (descsAt m.payload 8 1) = false → a.bytes ≤ extentBytes (cmdExtents m (descsAt m.payload 8 1) 0) →
    ∃ t, exec (.accWrite m) s = .next t ∧ t.answers m 0 [] ∧ s.onlyChanges t [.arr, .keeper, .fnp, .outbox] ∧
      ∀ j < a.ntile, ∀ k < 1024, ∀ r, r = (t.array a.tile (s.phys a.tile a.array)).readTile s.fresh (a.slot + j * a.foot) a.sh a.comp →
        (a.comp = false → (r.1.getD k 0).toNat = fieldAt bs (8 * (1024 * j + k)) 8) ∧
        (a.comp = true → (r.1.getD k 0).toNat = fieldAt bs (8 * (2048 * j + 2 * k)) 8 ∧
          (r.2.getD k 0).toNat = fieldAt bs (8 * (2048 * j + 2 * k + 1)) 8))

/-! ### Registers -/

/-- DRN_CNT_CLR, TGT_CNT_CLR and VXE_CNT_CLR: a flag is cleared where a one is written, and CNT_CLR clears the counters (R58, R59, R148,
R173, R174). -/
def Obligations.StatusRegistersClear : Prop :=
  ∀ s : State, s.released = true →
    (∀ (t : TileIx) (p : Fin 84) (v : Word) (x : NumStat), x = s.drnStat t p →
      exec (.drnCntClr t p v) s = .next (s.setDrnStat t p
        { ovf := x.ovf && !v.getLsbD 31, unf := x.unf && !v.getLsbD 30, nan := x.nan && !v.getLsbD 29, sat := x.sat,
          vanished := if v.getLsbD 28 then 0 else x.vanished, clipped := if v.getLsbD 28 then 0 else x.clipped,
          satcnt := if v.getLsbD 28 then 0 else x.satcnt })) ∧
    (∀ (t : TileIx) (v : Word) (e : TargetSt), e = s.target t → ∃ u, exec (.tgtCntClr t v) s = .next u ∧ s.onlyChanges u [.tgt] ∧
      (∀ k, k ≠ t.val → u.target k = s.target k) ∧
      (u.target t).stat.ovf = (e.stat.ovf && !v.getLsbD 31) ∧ (u.target t).stat.unf = (e.stat.unf && !v.getLsbD 30) ∧
      (u.target t).stat.nan = (e.stat.nan && !v.getLsbD 29) ∧
      (v.getLsbD 28 = true → (u.target t).scoreStall = 0 ∧ (u.target t).learnWait = 0 ∧ (u.target t).badpos = 0 ∧
        (u.target t).spilled = 0 ∧ (u.target t).propfall = 0 ∧ (u.target t).badlabel = 0 ∧ (u.target t).stat.vanished = 0 ∧
        (u.target t).stat.clipped = 0) ∧
      (v.getLsbD 28 = false → u.target t = { e with stat := (u.target t).stat })) ∧
    (∀ (t : TileIx) (e : Fin 8) (v : Word) (x : NumStat), x = (s.vecEng t e).stat →
      exec (.vxeCntClr t e v) s = .next (s.setVecEng t e { s.vecEng t e with stat :=
        { ovf := x.ovf && !v.getLsbD 31, unf := x.unf && !v.getLsbD 30, nan := x.nan && !v.getLsbD 29, sat := x.sat && !v.getLsbD 27,
          vanished := if v.getLsbD 28 then 0 else x.vanished, clipped := if v.getLsbD 28 then 0 else x.clipped,
          satcnt := if v.getLsbD 28 then 0 else x.satcnt } }))

/-- DRN_CUST_COMMIT, TGT_COMMIT, TCFG_APPLY, VXE_KEY_COMMIT and KPR_SCHED_COMMIT: a group that passes its checks is committed, another
is refused, and outside debug mode a write of the physical function to the first three raises REGDENY (R115, R116, R147, R175, R331,
R333, R361, R381). PENDING of a KEY commit stays while an engine of the tile is inside a command. That
these writes are refused outside a run too is the model's reading (log entry 8). -/
def Obligations.GroupsAreCommitted : Prop :=
  (∀ (t : TileIx) (f : Fn) (v : Word) (s : State), s.regsAnswer 0 = true → s.released = true → s.keeper.debug = false →
    ∀ i ∈ [Instr.drnCustCommit 0 t v, .tgtCommit 0 t v, .vxeKeyCommit 0 t f v], ∃ u, exec i s = .next u ∧
      u.keeper.cause.getLsbD 2 = true ∧ u.keeper = { s.keeper with cause := u.keeper.cause } ∧ s.onlyChanges u [.keeper, .fnp, .outbox]) ∧
  (∀ (t : TileIx) (v : Word) (s : State), s.regsAnswer 0 = true → s.released = true → s.keeper.debug = true → v.getLsbD 0 = true →
    ((∀ w ∈ (s.custSt t).bnd ++ (s.custSt t).coef, (ofFP32 w).special = false) →
      (∀ x ∈ (s.custSt t).bnd.zip (s.custSt t).bnd.tail, (ofFP32 x.1).lt (ofFP32 x.2) = true) →
      ∃ u, exec (.drnCustCommit 0 t v) s = .next u ∧ s.onlyChanges u [.arr] ∧ (u.custSt t).refused = false ∧
        (u.custSt t).active = some { bnd := (s.custSt t).bnd, coef := (s.custSt t).coef } ∧ (u.custSt t).bnd = (s.custSt t).bnd) ∧
    ((∃ w ∈ (s.custSt t).bnd ++ (s.custSt t).coef, (ofFP32 w).special = true) ∨
        (∃ x ∈ (s.custSt t).bnd.zip (s.custSt t).bnd.tail, (ofFP32 x.1).lt (ofFP32 x.2) = false) →
      exec (.drnCustCommit 0 t v) s = .next (s.setCust t { s.custSt t with refused := true }))) ∧
  (∀ (t : TileIx) (v : Word) (s : State), s.regsAnswer 0 = true → s.released = true → s.keeper.debug = true → v.getLsbD 0 = true →
    ∃ u, exec (.tgtCommit 0 t v) s = .next u ∧ s.onlyChanges u [.tgt] ∧
      ((s.target t).staged.valid = true → (u.target t).refused = false ∧
        ((s.target t).busy = true → (u.target t).active = (s.target t).active ∧ (u.target t).committed = some (s.target t).staged) ∧
        ((s.target t).busy = false → (u.target t).active = (s.target t).staged ∧ (u.target t).committed = none)) ∧
      ((s.target t).staged.valid = false → u.target t = { s.target t with refused := true })) ∧
  (∀ (t : TileIx) (s : State), ∃ u, exec (.tcfgApply t) s = .next u ∧ s.onlyChanges u [.tgt] ∧
    (∀ k, k ≠ t.val → u.target k = s.target k) ∧
    ((s.target t).busy = true ∨ (s.target t).committed = none → u.target t = s.target t) ∧
    (∀ c, (s.target t).committed = some c → (s.target t).busy = false → (u.target t).active = c ∧ (u.target t).committed = none ∧
      (u.target t).slots = (s.target t).slots)) ∧
  (∀ (t : TileIx) (f : Fn) (v : Word) (s : State), s.regsAnswer 0 = true → s.released = true → s.keeper.debug = true →
    v.getLsbD 0 = true → ∃ u, exec (.vxeKeyCommit 0 t f v) s = .next u ∧ s.onlyChanges u [.eng] ∧
      (u.keySt t f).active = (s.keySt t f).staged ∧ (u.keySt t f).staged = (s.keySt t f).staged ∧
      ((u.keySt t f).pending = true ↔ ∃ n < 9, s.keyUser t n = true) ∧
      ∀ k g : Nat, k * 17 + g ≠ t.val * 17 + f.val → (u.keySt k g).active = (s.keySt k g).active) ∧
  (∀ (v : Word) (s : State), s.regsAnswer 0 = true → v.getLsbD 0 = true →
    ((∀ f < 17, 100 ≤ (s.stagedFn f).slice ∧ (s.stagedFn f).slice ≤ 100000) → (s.stagedFn 0).suspend = false →
      ∃ u, exec (.kprSchedCommit 0 v) s = .next u ∧ s.onlyChanges u [.sched] ∧ u.sched.active = s.sched.staged ∧ u.sched.refused = false ∧
        ∀ k, (u.engSched k).current = (s.engSched k).current ∧
          ((s.engSched k).current.isSome = true → ∀ f, u.schedFn k f = s.schedFn k f)) ∧
    ((∃ f < 17, (s.stagedFn f).slice < 100 ∨ 100000 < (s.stagedFn f).slice) ∨ (s.stagedFn 0).suspend = true →
      exec (.kprSchedCommit 0 v) s = .next (s.setSched { s.sched with refused := true })))

/-- MBX_EVT_CONS_WRITE (R312, R321): forward over written entries CONS is taken and held events enter the ring in order while it has room;
any other value is ignored and sets CONSERR; KEEPER_HEARTBEAT,
KPR_SWATCH_READ and MSIX_VECTOR_UNMASK (R322, R330, R367, R459). -/
def Obligations.EventsAndMessages : Prop :=
  (∀ (f : Fn) (v n w : Nat) (s : State), s.regsAnswer f = true → n = (v % 64 + 64 - (s.mbox f).cons) % 64 →
    w = ((s.mbox f).prod + 64 - (s.mbox f).cons) % 64 →
    (n = 0 ∨ w < n → ∃ t, exec (.mbxEvtConsWrite f v) s = .next t ∧ (t.mbox f).cause.getLsbD 5 = true ∧
      t.mbox f = { s.mbox f with cause := (t.mbox f).cause } ∧ s.onlyMailbox t f) ∧
    (0 < n → n ≤ w → s.keeper.kbusy = true → exec (.mbxEvtConsWrite f v) s = .next (s.setMbox f { s.mbox f with cons := v % 64 })) ∧
    (0 < n → n ≤ w → s.keeper.kbusy = false → ∃ t k, exec (.mbxEvtConsWrite f v) s = .next t ∧ s.onlyMailbox t f ∧
      (t.mbox f).cons = v % 64 ∧ (t.mbox f).lost = (s.mbox f).lost ∧ (t.mbox f).held = (s.mbox f).held.drop k ∧
      (k = 0 → (t.mbox f).prod = (s.mbox f).prod) ∧ (0 < k → (t.mbox f).prod = ((s.mbox f).prod + k) % 64) ∧
      ((t.mbox f).held = [] ∨ ((t.mbox f).prod + 1) % 64 = v % 64))) ∧
  ((∀ s : State, s.keeper.kbusy = false → (s.keeper.up = true ∨ s.keeper.recovery = true) →
    exec .keeperHeartbeat s = .next (s.setKeeper { s.keeper with heartbeat := (s.keeper.heartbeat + 1) % 2 ^ 32 })) ∧
  (∀ s : State, s.keeper.kbusy = true → exec .keeperHeartbeat s = .next s) ∧
  (∀ (u : Fin 5) (s : State), s.regsAnswer 0 = true → exec (.kprSwatchRead u) s =
    .next ((s.setKeeper { s.keeper with swHi := s.keeper.swHi.set u (s.watch u / 2 ^ 32 % 2 ^ 32) }).send (.swatch u (BitVec.ofNat 32 (s.watch u))))) ∧
  (∀ (f : Fn) (v : Fin 64) (s : State), s.pwr.hubLit = true → s.fnExists f = true → (s.fnSt f).resetting = false →
    ∃ t, exec (.msixVectorUnmask f v) s = .next t ∧ ((t.fnSt f).msix.get {} v).masked = false ∧
      ((t.fnSt f).msix.get {} v).pending = (((s.fnSt f).msix.get {} v).pending && (s.fnSt f).fmask) ∧ s.onlyChanges t [.fnp, .outbox] ∧
      (((s.fnSt f).msix.get {} v).pending = false ∨ (s.fnSt f).fmask = true → t.outbox = s.outbox) ∧
      (((s.fnSt f).msix.get {} v).pending = true → (s.fnSt f).fmask = false → (s.fnSt f).d3hot = false → t.outbox =
        .msix f v ((s.fnSt f).msix.get {} v).addr ((s.fnSt f).msix.get {} v).data :: s.outbox)))

/-- REGISTER_WRITE: only naturally aligned 32-bit writes count, a virtual function has no BAR2 registers, and each window's registers
take their fields (R307, R311 to R313, R326, R327, R329, R366, R380 to R382); a field of a commit group reads back as staged and changes
nothing in force (R115, R331). The places of NumVFs and of the MSI-X function mask in
the configuration space are the model's (log entry 35). -/
def Obligations.RegisterWritesTakeEffect : Prop :=
  ∀ (f : Fn) (v : Word) (s : State), s.regsAnswer f = true →
    (∀ bar o size, bar ≠ 8 → bar ≠ 9 → size ≠ 4 ∨ o % 4 ≠ 0 → exec (.registerWrite f bar o size v) s = .next s) ∧
    (∀ o, f ≠ 0 → exec (.registerWrite f 2 o 4 v) s = .next s) ∧
    (exec (.registerWrite f 0 (0x100000 + f * 0x4000 + 0x18) 4 v) s =
      .next (s.setMbox f { s.mbox f with cause := (s.mbox f).cause &&& ~~~(BitVec.ofNat 6 v.toNat) })) ∧
    (f = 0 → exec (.registerWrite f 0 4 4 v) s =
      .next (s.setKeeper { s.keeper with cause := s.keeper.cause &&& ~~~(BitVec.ofNat 4 v.toNat) })) ∧
    (f = 0 → ∀ g < 17, exec (.registerWrite f 2 (0x800000 + 16 * g) 4 v) s =
      .next (s.setSched { s.sched with staged := s.sched.staged.set g { s.stagedFn g with slice := v.toNat % 2 ^ 20 } })) ∧
    (∀ i < 64, ∃ t, exec (.registerWrite f 4 (16 * i + 8) 4 v) s = .next t ∧ s.onlyChanges t [.fnp] ∧
      (t.fnSt f).msix.get {} i = { (s.fnSt f).msix.get {} i with data := v } ∧
      ∀ j, j ≠ i → (t.fnSt f).msix.get {} j = (s.fnSt f).msix.get {} j) ∧
    (v.getLsbD 14 = true → exec (.registerWrite f 9 2 2 v) s = .next (s.setFnSt f { s.fnSt f with fmask := true })) ∧
    (f = 0 → v.toNat ≤ 16 → exec (.registerWrite f 8 0x10 2 v) s = .next (s.setFnp { s.fnp with numVfs := v.toNat })) ∧
    (f = 0 → ∀ g < 17, ∃ t, exec (.registerWrite f 2 (0x800000 + 16 * g) 4 v) s = .next t ∧ t.readBar2 (0x800000 + 16 * g) = v.toNat % 2 ^ 20 ∧
      t.sched.active = s.sched.active) ∧
    (f = 0 → s.released = true → s.keeper.debug = true → ∀ (k : TileIx), ∀ i < 15, (s.custSt k).bnd.length = 15 →
      ∃ t, exec (.registerWrite f 2 (0x400800 + k * 0x10000 + 4 * i) 4 v) s = .next t ∧ t.readBar2 (0x400800 + k * 0x10000 + 4 * i) = v.toNat ∧
        (t.custSt k).active = (s.custSt k).active ∧ s.onlyChanges t [.arr])

/-! ### Arbiters -/

/-- R296, in full: when a round takes place, whom it grants, and how the requesters that wait age. ARB_ROUND always completes. A
committed group takes effect in the round, and stays PENDING where none begins (R303). A masked request does not wait and its
lost count is 0 (R299); a slot without a requester asks nothing (R295). -/
def Obligations.ArbiterRounds : Prop :=
  (∀ (n : Fin 43) (dropped : Bool) (reqs : List (Nat × Nat)) (masked : List Nat) (s : State) (b a : Arb),
    b = s.arbAsked n dropped reqs masked → a = b.applyPri n →
    ∃ t, exec (.arbRound n dropped reqs masked) s = .next t ∧ s.onlyChanges t [.keeper, .arb, .fnp, .outbox] ∧
      (∀ k, k ≠ n.val → t.arbAt k = s.arbAt k) ∧
      (b.held = true ∨ b.freeze = true ∨ b.waiters = [] → t.arbAt n = b) ∧
      (b.held = false → b.freeze = false → b.waiters ≠ [] → ∃ w ∈ a.waiters,
        (∀ x ∈ a.waiters, (a.req x).cur ≤ (a.req w).cur ∧
          ((a.req x).cur = (a.req w).cur → (w + 47 - a.owner % 48) % 48 ≤ (x + 47 - a.owner % 48) % 48)) ∧
        (t.arbAt n).held = true ∧ (t.arbAt n).owner = w ∧ (t.arbAt n).ownerFn = (a.req w).fn ∧ (t.arbAt n).pending = none ∧
        ((t.arbAt n).req w).cur = (a.req w).base ∧ ((t.arbAt n).req w).lost = 0 ∧ ((t.arbAt n).req w).waiting = false ∧
        (∀ x ∈ a.waiters, x ≠ w → ((t.arbAt n).req x).cur = min 15 ((a.req x).cur + 1) ∧
          ((t.arbAt n).req x).lost = min 8191 ((a.req x).lost + 1) ∧ ((t.arbAt n).req x).waiting = true) ∧
        (∀ x, x ∉ a.waiters → (t.arbAt n).req x = a.req x))) ∧
  (∀ (n : Fin 43) (dropped : Bool) (reqs : List (Nat × Nat)) (masked : List Nat) (s : State) (b : Arb) (i f : Nat),
    b = s.arbAsked n dropped reqs masked → reqs.find? (fun x => x.1 == i) = some (i, f) →
    (i < slotCount n → i ∈ masked ∨ s.slotMasked n i f = true →
      (b.req i).waiting = false ∧ (b.req i).masked = true ∧ (b.req i).lost = 0) ∧
    (i < slotCount n → i ∉ masked → s.slotMasked n i f = false →
      (b.req i).waiting = true ∧ (b.req i).masked = false ∧ (b.req i).fn = f ∧ (b.req i).lost = ((s.arbAt n).req i).lost) ∧
    (slotCount n ≤ i → i < 48 → ((s.arbAt n).req i).waiting = false →
      (b.req i).waiting = (((s.arbAt n).req i).masked && !masked.contains i)))

/-- ARB_BREAK_POINT, ARB_COMMIT and ARB_FREEZE (R297 to R299, R302, R303, R333): each completes in every state, and what it leaves; a lost count that reaches
STARVE_LIM sets STARVED and raises ARB_STARVE, and a STARVE_LIM of 0 disables the flag (R300). -/
def Obligations.GrantsAreTakenAway : Prop :=
  ((∀ (n : Fin 43) (masked preempted m : Bool) (s : State), m = (masked || s.slotMasked n (s.arbAt n).owner (s.arbAt n).ownerFn) →
    ((s.arbAt n).held = false → exec (.arbBreakPoint n masked preempted) s = .next s) ∧
    ((s.arbAt n).freeze = false → m = false → preempted = false → exec (.arbBreakPoint n masked preempted) s = .next s) ∧
    ((s.arbAt n).held = true → (s.arbAt n).freeze = true →
      ∃ t, exec (.arbBreakPoint n masked preempted) s = .next t ∧ (t.arbAt n).held = false ∧ s.onlyChanges t [.arb] ∧
        ((t.arbAt n).req (s.arbAt n).owner).waiting = !m ∧ ((t.arbAt n).req (s.arbAt n).owner).masked = m ∧
        ((t.arbAt n).req (s.arbAt n).owner).cur = ((s.arbAt n).req (s.arbAt n).owner).cur) ∧
    ((s.arbAt n).held = true → (s.arbAt n).freeze = false → m = true →
      ∃ t, exec (.arbBreakPoint n masked preempted) s = .next t ∧ s.onlyChanges t [.keeper, .arb, .fnp, .outbox] ∧
        ((t.arbAt n).req (s.arbAt n).owner).waiting = false ∧ ((t.arbAt n).req (s.arbAt n).owner).masked = true ∧
        ((t.arbAt n).req (s.arbAt n).owner).lost = 0 ∧ ((s.arbAt n).waiters = [] → (t.arbAt n).held = false)) ∧
    ((s.arbAt n).held = true → (s.arbAt n).freeze = false → m = false → preempted = true → (s.arbAt n).owner < 48 →
      ∃ t, exec (.arbBreakPoint n masked preempted) s = .next t ∧ s.onlyChanges t [.keeper, .arb, .fnp, .outbox] ∧
        (t.arbAt n).held = true)) ∧
  (∀ (n : Fin 43) (v : Word) (s : State), s.regsAnswer 0 = true → s.released = true →
    (s.keeperOwns = false → v.getLsbD 0 = true → exec (.arbCommit 0 n v) s = .next (s.setArbAt n { s.arbAt n with
      pending := some ((s.arbAt n).stagedLim, (List.range 48).map (fun i => ((s.arbAt n).req i).stagedBase)) })) ∧
    (s.keeperOwns = false → v.getLsbD 0 = false → exec (.arbCommit 0 n v) s = .next s) ∧
    (s.keeperOwns = true → ∃ t, exec (.arbCommit 0 n v) s = .next t ∧ t.keeper.cause.getLsbD 2 = true ∧ t.arb = s.arb) ∧
    (s.keeperOwns = false → v.getLsbD 31 = true → exec (.arbFreeze 0 n v) s = .next (s.setArbAt n
      { s.arbAt n with freeze := true, stagedLim := v.toNat % 65536 })) ∧
    (∃ t, exec (.arbFreeze 0 n v) s = .next t ∧ s.onlyChanges t [.keeper, .arb, .fnp, .outbox] ∧ (t.arbAt n).freeze = v.getLsbD 31 ∧
      (t.arbAt n).stagedLim = (if s.keeperOwns then (s.arbAt n).stagedLim else v.toNat % 65536) ∧
      (s.keeperOwns = true → v.toNat % 65536 ≠ (s.arbAt n).stagedLim → t.keeper.cause.getLsbD 2 = true) ∧
      (v.getLsbD 31 = true ∨ (s.arbAt n).freeze = false ∨ (s.arbAt n).held = true ∨ (s.arbAt n).waiters = [] →
        (t.arbAt n).held = (s.arbAt n).held) ∧
      (v.getLsbD 31 = false → (s.arbAt n).freeze = true → (s.arbAt n).waiters ≠ [] → (t.arbAt n).held = true)))) ∧
  (∀ (n : Fin 43) (reqs : List (Nat × Nat)) (masked : List Nat) (s : State) (a : Arb) (w x : Nat),
    (s.arbAt n).pending = none → (s.arbAt n).held = false → (s.arbAt n).freeze = false →
    a = s.arbAsked n false reqs masked → a.choose = some w → x ∈ a.waiters → x ≠ w →
    ∃ t, exec (.arbRound n false reqs masked) s = .next t ∧
    (a.starveLim = 0 → ((t.arbAt n).req x).starved = (a.req x).starved) ∧
    (a.starveLim ≠ 0 → (a.req x).lost + 1 < a.starveLim → ((t.arbAt n).req x).starved = (a.req x).starved) ∧
    (a.starveLim ≠ 0 → a.starveLim ≤ (a.req x).lost + 1 → (a.req x).lost < 8191 → ((t.arbAt n).req x).starved = true ∧
      ((a.req x).starved = false → t.keeper.cause.getLsbD 0 = true)))

/-! ### Links, light and fog -/

/-- LINK_TRAIN and LINK_TRAIN_RETRY: a port that passes its checks comes up with the widths its healthy lanes give, and one that does
not ends DOWN (R395 to R397, R399); LANE_SPARED, PEER_SILENT and MOVE_TIMEOUT (R400, R401, R415). -/
def Obligations.PortsTrainAndDegrade : Prop :=
  (∀ (p : PortIx) (o : TrainObs) (i : Instr) (s : State), s.ramped = true → s.hasLight = true → s.pwr.strapBad = false →
    (i = .linkTrain p o ∧ (s.port p).serviced = false ∨ i = .linkTrainRetry p o ∧ (s.port p).state = .down) →
    (∀ flip rx tx, lightCheck p o = .go flip → rx = widthOf (trainHealthy o).length → tx = widthOf (18 - o.peerDead.length) → rx ≠ 0 →
      tx ≠ 0 → s.neighbourOk p o = true →
      ∃ t, exec i s = .next t ∧ (t.port p).state = (if rx = 16 ∧ tx = 16 then .up else .degraded) ∧ (t.port p).rxWide = rx ∧
        (t.port p).txWide = tx ∧ (t.port p).flipped = flip ∧ (t.port p).miscabled = false ∧ (t.port p).silent = false ∧
        (t.port p).peer = o.peerPos ∧ (t.port p).rxSeq = 0 ∧ (t.port p).rxmap = rxMapOf rx (trainHealthy o) ∧
        ((s.port p).replay = [] → (s.port p).txWait = [] → (t.port p).txSeq = 0 ∧ (t.port p).replay = []) ∧
        ∀ q, q ≠ p.val → t.port q = s.port q) ∧
    (lightCheck p o = .dark ∨ widthOf (trainHealthy o).length = 0 ∨ widthOf (18 - o.peerDead.length) = 0 →
      lightCheck p o ≠ .miscabled → ∃ t, exec i s = .next t ∧ (t.port p).state = .down ∧ (t.port p).miscabled = false) ∧
    (lightCheck p o = .miscabled ∨ (∃ flip, lightCheck p o = .go flip ∧ widthOf (trainHealthy o).length ≠ 0 ∧
        widthOf (18 - o.peerDead.length) ≠ 0 ∧ s.neighbourOk p o = false) → ∃ t, exec i s = .next t ∧ (t.port p).state = .down ∧ (t.port p).miscabled = true)) ∧
  ((∀ (p : PortIx) (l : Fin 18) (s : State), (s.port p).isUp = true → ∃ t, exec (.laneSpared p l) s = .next t ∧
    (t.port p).rxDead = (s.port p).rxDead ||| BitVec.ofNat 18 (2 ^ l.val) ∧
    ((s.port p).spareRx = 0 → (t.port p).state = .training) ∧
    ((s.port p).spareRx ≠ 0 → (t.port p).state = (s.port p).state ∧ (t.port p).spareRx + 1 = (s.port p).spareRx ∧
      (l.val < (s.port p).rxmap.length → l.val < 16 → (s.port p).rxmap.getD 16 0xFF ≠ 0xFF →
        (t.port p).rxmap.getD l 0xFF = (s.port p).rxmap.getD 16 0xFF)) ∧
    ∀ q, q ≠ p.val → t.port q = s.port q) ∧
  (∀ (p : PortIx) (s : State), (s.port p).isUp = true → (s.port p).serviced = false → ∃ t, exec (.peerSilent p) s = .next t ∧
    t.port p = { s.port p with silent := true, state := .training } ∧ ∀ q, q ≠ p.val → t.port q = s.port q) ∧
  (∀ (k : Nat) (s : State) (m : Move), s.link.moves.find? (fun m => m.move == k) = some m → ∃ t, exec (.moveTimeout k) s = .next t ∧
    t.link.moves = s.link.moves.filter (fun x => x.move != k) ∧ t.link.ports = s.link.ports))

/-- LINK_PACKET_RX, NAK_RX, ACK_RX and IDLE_TIMER: sequence numbers, acknowledgements and resends (R398, R399). -/
def Obligations.PacketsAreAcknowledged : Prop :=
  (∀ (p : PortIx) (k : Packet) (s : State), (s.port p).isUp = true →
    (k.crcOk = false → ∃ t, exec (.linkPacketRx p k) s = .next t ∧ t.port p = { s.port p with crcErr := (s.port p).crcErr + 1 } ∧
      ∃ nak, t.outbox = .packet p nak :: s.outbox ∧ nak.kind = 4 ∧ nak.ackseq = (s.port p).ackSeq) ∧
    (k.crcOk = true → k.kind = 1 ∨ k.kind = 2 → (k.seq + 4096 - (s.port p).rxSeq) % 4096 = 0 →
      ∃ t, exec (.linkPacketRx p k) s = .next t ∧ (t.port p).rxSeq = ((s.port p).rxSeq + 1) % 4096) ∧
    (k.crcOk = true → k.kind = 1 ∨ k.kind = 2 → (k.seq + 4096 - (s.port p).rxSeq) % 4096 ≠ 0 →
      ∃ t a, exec (.linkPacketRx p k) s = .next t ∧ (t.port p).rxSeq = (s.port p).rxSeq ∧ t.outbox.head? = some (.packet p a) ∧
        a.kind = (if (k.seq + 4096 - (s.port p).rxSeq) % 4096 < 2048 then 4 else 3) ∧ a.ackseq = (s.port p).ackSeq)) ∧
  (∀ (p : PortIx) (q : Nat) (s : State), (s.port p).isUp = true → exec (.ackRx p q) s = .next (s.acked p q) ∧
    (∀ i, (s.port p).replay.findIdx? (fun k => k.seq == q % 4096) = some i → (s.port p).txWait = [] →
      (s.acked p q).port p = { s.port p with replay := (s.port p).replay.drop (i + 1), resends := 0 }) ∧
    ((s.port p).replay.findIdx? (fun k => k.seq == q % 4096) = none → s.acked p q = s)) ∧
  (∀ (p : PortIx) (q : Nat) (s u : State), (s.port p).isUp = true → u = s.acked p q →
    ((u.port p).replay = [] → exec (.nakRx p q) s = .next u) ∧
    ((u.port p).replay ≠ [] → 8 ≤ (u.port p).resends → exec (.nakRx p q) s = .next
      (u.setPort p { u.port p with state := .training, resends := 0 })) ∧
    ((u.port p).replay ≠ [] → (u.port p).resends < 8 → ∃ t, exec (.nakRx p q) s = .next t ∧
      (t.port p).resends = (u.port p).resends + 1 ∧ (t.port p).resent = (u.port p).resent + (u.port p).replay.length ∧
      (t.port p).replay = (u.port p).replay ∧
      t.outbox = ((u.port p).replay.map (fun k => Out.packet p { k with ackseq := (u.port p).ackSeq })).reverse ++ u.outbox)) ∧
  (∀ (p : PortIx) (s : State), (s.port p).isUp = true → ∃ k, exec (.idleTimer p) s = .next (s.send (.packet p k)) ∧ k.kind = 5 ∧
    k.payload = [])

/-- LASER_LOW, LASER_FAILOVER and LASER_SOURCE_FITTED (R403, R404, R463): the other source carries the load, and without light every
port is DOWN. -/
def Obligations.LightMovesOver : Prop :=
  (∀ (i : Fin 2) (k : Nat) (s : State), (s.laser i).state = 0 → ∃ t, exec (.laserLow i k) s = .next t ∧
    t.laser i = { s.laser i with state := 1, percent := k } ∧ t.laser (1 - i.val) = s.laser (1 - i.val)) ∧
  (∀ (i : Fin 2) (s : State), (s.laser i).lit = true → ∃ t, exec (.laserFailover i) s = .next t ∧ (t.laser i).state = 2 ∧
    ((s.laser (1 - i.val)).lit = true → (t.laser (1 - i.val)).full = true ∧ t.link.ports = s.link.ports) ∧
    ((s.laser (1 - i.val)).lit = false → ∀ p < 6, (t.port p).state = .down)) ∧
  (∀ (i : Fin 2) (s : State), (s.laser i).lit = false → ∃ t, exec (.laserSourceFitted i) s = .next t ∧ (t.laser i).state = 0 ∧
    (t.laser i).percent = 100 ∧ (t.laser i).full = !(s.laser (1 - i.val)).lit ∧
    ((s.laser (1 - i.val)).lit = true → (t.laser (1 - i.val)).full = false) ∧ t.link.ports = s.link.ports)

/-- FOG_REPORT, FOG_HOLD_EXPIRY and FOG_WINDOW_EXPIRY: each completes; reports are merged by key, go to the parent, and counts leave
with their window (R407, R416, R418 to R420). -/
def Obligations.FogIsMerged : Prop :=
  (∀ (c x n : Nat) (wit : List Nat) (s : State), s.keeper.kbusy = true → exec (.fogReport c x wit n) s = .next (s.owe (.fogReport c x wit n))) ∧
  (∀ (c x n : Nat) (wit : List Nat) (s : State), s.keeper.kbusy = false → s.isLead = false →
    ∃ t, exec (.fogReport c x wit n) s = .next t ∧ t.link.leadFog = s.link.leadFog ∧
      ((∀ e ∈ s.link.fog, e.code = c → e.subject ≠ x) → fogHolds t.link.fog c x n wit) ∧
      (∀ e ∈ s.link.fog, e.code = c → e.subject = x → fogHolds t.link.fog c x (e.count + n) (wit ++ e.witnesses)) ∧
      (∀ e ∈ s.link.fog, e.code ≠ c ∨ e.subject ≠ x → e ∈ t.link.fog)) ∧
  (∀ (c x n : Nat) (wit : List Nat) (s : State), s.keeper.kbusy = false → s.isLead = true →
    (s.link.leadFog.length < 256 ∨ (∃ e ∈ s.link.leadFog, e.code = c ∧ e.subject = x) →
      ∃ t, exec (.fogReport c x wit n) s = .next t ∧ t.link.fog = s.link.fog ∧ t.link.fogDropped = s.link.fogDropped ∧
        ((∀ e ∈ s.link.leadFog, e.code = c → e.subject ≠ x) → fogHolds t.link.leadFog c x n wit) ∧
        (∀ e ∈ s.link.leadFog, e.code = c → e.subject = x → fogHolds t.link.leadFog c x (e.count + n) (wit ++ e.witnesses)) ∧
        (∀ e ∈ s.link.leadFog, e.code ≠ c ∨ e.subject ≠ x → ∃ b, { e with failed := b } ∈ t.link.leadFog) ∧
        (∀ tb, s.link.table = some tb → ∀ e ∈ t.link.leadFog, fogFailed tb e = true → e.failed = true)) ∧
    (256 ≤ s.link.leadFog.length → (∀ e ∈ s.link.leadFog, e.code = c → e.subject ≠ x) →
      ∃ t, exec (.fogReport c x wit n) s = .next t ∧ t.link.fogDropped = s.link.fogDropped + 1 ∧ t.link.leadFog = s.link.leadFog)) ∧
  (∀ (c x : Nat) (s : State), s.link.fog.find? (fun e => e.code == c && e.subject == x) = none → exec (.fogHoldExpiry c x) s = .next s) ∧
  (∀ (c x : Nat) (s : State) (e : FogEntry), s.link.fog.find? (fun e => e.code == c && e.subject == x) = some e →
    ∃ d, exec (.fogHoldExpiry c x) s = .next ((s.setLink { s.link with
      fog := s.link.fog.filter (fun y => !(y.code == c && y.subject == x)) }).send (.fog d c x e.witnesses e.count)) ∧
      ∀ tb, s.link.table = some tb → d = 0 ∨ tb.present.has d = true) ∧
  (∀ (c x : Nat) (s : State), s.link.windows.find? (fun w => w.code == c && w.subject == x) = none →
    exec (.fogWindowExpiry c x) s = .next s) ∧
  (∀ (c x : Nat) (s : State) (w : FogWindow), s.link.windows.find? (fun w => w.code == c && w.subject == x) = some w →
    ∃ t, exec (.fogWindowExpiry c x) s = .next t ∧ t.link.windows = s.link.windows.filter (fun y => !(y.code == c && y.subject == x)) ∧
      (w.count = 0 → t.link.fog = s.link.fog ∧ t.link.leadFog = s.link.leadFog) ∧
      (w.count ≠ 0 → s.isLead = false → (∀ e ∈ s.link.fog, e.code = c → e.subject ≠ x) →
        fogHolds t.link.fog c x w.count [s.moduleId]) ∧
      (w.count ≠ 0 → s.isLead = false → ∀ e ∈ s.link.fog, e.code = c → e.subject = x →
        fogHolds t.link.fog c x (e.count + w.count) (s.moduleId :: e.witnesses)))

/-! ### Power and temperature -/

/-- INPUT_FAULT, INPUT_RESTORED, SHORT_RETRY, INPUT_SENSE_OPEN and POWER_LOSS (R424 to R426, R475); PHASE_FAILED and PHASE_FITTED (R427,
R428, R465): the second lost phase of a core rail holds its tile at 0.65 V. That an isolated input reads OPEN is the model's (log entry
30). -/
def Obligations.PowerComesAndGoes : Prop :=
  ((∀ (i : Fin 2) (c dv : Nat) (s : State), 1 ≤ c → c ≤ 5 → (s.input i).state = .ok → ∃ t, exec (.inputFault i c dv) s = .next t ∧
    (t.input i).state.code = c ∧ (t.input i).faults = (s.input i).faults + 1 ∧ (t.input i).deciVolts = dv ∧
    t.input (1 - i.val) = s.input (1 - i.val)) ∧
  (∀ (i : Fin 2) (dv : Nat) (s : State), (s.input i).state ≠ .ok → (s.input i).latchedOff = false → 400 ≤ dv → dv ≤ 600 →
    ∃ t, exec (.inputRestored i dv) s = .next t ∧ (t.input i).state = .ok ∧ (t.input i).retries = 0 ∧ (t.input i).deciVolts = dv) ∧
  (∀ (i : Fin 2) (s : State), (s.input i).state = .short → (s.input i).latchedOff = false →
    (∃ t, exec (.shortRetry i true) s = .next t ∧ (t.input i).state = .ok) ∧
    exec (.shortRetry i false) s = .next (s.setInput i { s.input i with
      retries := (s.input i).retries + 1, latchedOff := decide (8 ≤ (s.input i).retries + 1) })) ∧
  (∀ (i : Fin 2) (s : State), (s.input i).state ≠ .open_ → ∃ t, exec (.inputSenseOpen i) s = .next t ∧ (t.input i).state = .open_ ∧
    (t.input i).latchedOff = false) ∧
  (∀ s : State, s.pwr.hubLit = true → (s.input 0).state ≠ .ok → (s.input 1).state ≠ .ok →
    ∃ t, exec .powerLoss s = .next t ∧ t.pwr.hubLit = false ∧ t.pwr.start = .off ∧ t.mem = [] ∧ t.keeper = {} ∧ t.pair = {} ∧
      t.prog = {} ∧ t.health = s.health ∧ t.sec.counter = s.sec.counter ∧ t.sec.slots = s.sec.slots)) ∧
  ((∀ (r k : Nat) (s : State), s.pwr.hubLit = true → r ≤ 11 → k < phasesOf r → r * 16 + k ∉ s.pwr.phaseOut →
    ∃ t, exec (.phaseFailed r k) s = .next t ∧ t.phasesLost r = s.phasesLost r + 1 ∧ r * 16 + k ∈ t.pwr.phaseOut ∧
      (s.phasesLost r = 1 → r ∈ t.pwr.limited ∧ (r < 4 → (t.tilePwr r).target = 5 ∧ ∀ g, 5 ≤ g → g < 10 → (t.gallery r g).gated = true) ∧
        (4 ≤ r → s.run.active = true → t.run.stop ≠ none)) ∧
      (s.phasesLost r ≠ 1 → t.pwr.limited = s.pwr.limited)) ∧
  (∀ (r k : Nat) (s : State), s.pwr.hubLit = true → r * 16 + k ∈ s.pwr.phaseOut → ∃ t, exec (.phaseFitted r k) s = .next t ∧
    t.phasesLost r = s.phasesLost r - 1 ∧ r * 16 + k ∉ t.pwr.phaseOut ∧ (s.phasesLost r ≤ 2 → r ∉ t.pwr.limited)))

/-- VOLTAGE_STEP, JUNCTION_TEMPERATURE_CHANGE, POWER_CAP, THERMAL_SPREAD, THERMAL_HOLD, THERMAL_HOLD_RELEASE and HUB_OVERTEMP (R429 to
R433, R447, R483). -/
def Obligations.VoltageFollowsTemperature : Prop :=
  (∀ (t : TileIx) (s : State) (x : TilePwr) (v : Nat), x = s.tilePwr t → x.lit = true → x.vset ≠ x.target →
    v = (if x.vset < x.target then x.vset + 1 else x.vset - 1) →
    (s.inStep t v = true → exec (.voltageStep t) s = .next (s.setTilePwr t
      { x with vset := v, held := if v = x.target then x.target else min x.held x.target,
               rate := rateEntry (if v = x.target then x.target else min x.held x.target) x.tj })) ∧
    (s.inStep t v = false → exec (.voltageStep t) s = .next s)) ∧
  (∀ (t : TileIx) (c v : Nat) (s : State), (s.tilePwr t).lit = true → ∃ u, exec (.junctionTemperatureChange t c v) s = .next u ∧
    s.onlyChanges u [.pwr] ∧ (u.tilePwr t).tj = c ∧ (u.tilePwr t).vset = (s.tilePwr t).vset ∧
    (u.tilePwr t).target = (if t.val ∈ s.pwr.limited then 5 else max 5 (min 25 v)) ∧
    (u.tilePwr t).held = (if (s.tilePwr t).vset = (u.tilePwr t).target then (u.tilePwr t).target else min (s.tilePwr t).held (u.tilePwr t).target) ∧
    (u.tilePwr t).rate = rateEntry (u.tilePwr t).held c) ∧
  (∀ (w : Nat) (vs : List Nat) (s : State), s.ramped = true → 1600 < w → ∃ u, exec (.powerCap w vs) s = .next u ∧
    ∀ t < 4, (u.tilePwr t).vset = (s.tilePwr t).vset ∧
      (u.tilePwr t).target = (if t ∈ s.pwr.limited then 5 else max 5 (min 25 (min (s.tilePwr t).target (vs.getD t 0))))) ∧
  (∀ (ts : List Nat) (s : State), s.ramped = true → ts.foldl min 1000 + 30 < ts.foldl max 0 →
    ∃ u low, exec (.thermalSpread ts) s = .next u ∧ (∀ k < 4, low ≤ (s.tilePwr k).vset) ∧ (low = 25 ∨ ∃ k < 4, low = (s.tilePwr k).vset) ∧
      (∀ k < 4, (u.tilePwr k).tj = ts.getD k 0 ∧ (u.tilePwr k).target = (if k ∈ s.pwr.limited then 5 else max 5 (min 25 low))) ∧
      (ts.foldl min 1000 + 40 < ts.foldl max 0 → s.run.active = true → u.run.stop ≠ none)) ∧
  (∀ (t : TileIx) (c : Nat) (s : State), (s.tilePwr t).lit = true → (s.tilePwr t).hold = false → 105 < c →
    ∃ u, exec (.thermalHold t c) s = .next u ∧ s.onlyChanges u [.pwr] ∧ (u.tilePwr t).hold = true ∧ (u.tilePwr t).tj = c ∧
      (u.tilePwr t).holdFrom = s.watch t) ∧
  (∀ (t : TileIx) (c : Nat) (s : State), (s.tilePwr t).hold = true → c ≤ 100 → ∃ u, exec (.thermalHoldRelease t c) s = .next u ∧
    (u.tilePwr t).hold = false ∧ (u.tilePwr t).tj = c ∧ u.mem = s.mem ∧ u.arr = s.arr) ∧
  (∀ s : State, s.pwr.hubLit = true → ∃ u, exec .hubOvertemp s = .next u ∧ u.pwr.hubLit = false ∧ u.pwr.hot = true ∧ u.pwr.start = .off ∧
    (u.input 0).state = .open_ ∧ (u.input 1).state = .open_)

/-! ### The start and the resets -/

/-- MODULE_POWER_ON, START_TOKEN, TOKEN_FALLBACK, FALLBACK_DELAY_EXPIRY and STRAP_SAMPLE: events 1 to 8 of the characteristic start
(R434, R437 to R439, R458, R459, R483). That a strap pin out of band sets PINFAULT is the model's reading of R443 (log entry 30). -/
def Obligations.TheStartBegins : Prop :=
  (∀ (c : Nat) (b : BootCheck) (s : State) (pass : Bool → Bool), s.pwr.hubLit = false → s.fed = true → (s.pwr.hot = true → c ≤ 90) →
    pass = (fun i => if i then b.slot1 else b.slot0) →
    ∃ t, exec (.modulePowerOn c b) s = .next t ∧ t.pwr.hubLit = true ∧ t.pwr.start = .waitToken ∧ t.pwr.hot = false ∧ t.watch 4 = 0 ∧
      t.health.powerons = s.health.powerons + 1 ∧ t.mem = s.mem ∧
      (pass s.sec.bootSlot = true → t.keeper.up = true ∧ t.keeper.slot = s.sec.bootSlot) ∧
      (pass s.sec.bootSlot = false → pass (!s.sec.bootSlot) = true → t.keeper.up = true ∧ t.keeper.slot = (!s.sec.bootSlot) ∧
        t.sec.bootSlot = !s.sec.bootSlot) ∧
      (b.slot0 = false → b.slot1 = false → t.keeper.recovery = true ∧ t.keeper.isOpen = true)) ∧
  (∀ (i : Instr) (s : State), (i = .startToken ∧ s.pwr.start = .waitToken ∨ i = .fallbackDelayExpiry ∧ s.pwr.start = .fallback) →
    ∃ t, exec i s = .next t ∧ s.onlyChanges t [.pwr] ∧ t.pwr.start = .strapWindow ∧ t.pwr.meaning = .strap ∧ t.pwr.tokenOut = true ∧
      ∀ k < 4, (t.tilePwr k).lit = true ∧ (t.tilePwr k).vset = 15 ∧ t.watch k = 0) ∧
  (∀ s : State, s.pwr.start = .waitToken → ∃ t, exec .tokenFallback s = .next t ∧ t.pwr.start = .fallback ∧ t.pwr.tokFall = true) ∧
  (∀ (mv : List Nat) (s : State), s.pwr.start = .strapWindow → ∃ t, exec (.strapSample mv) s = .next t ∧ t.pwr.start = .strapped ∧
    (strapValid mv = true → t.pwr.strapBad = false ∧ t.moduleId = strapWord mv % 1024 ∧ t.isLead = (strapWord mv).testBit 10) ∧
    (strapValid mv = false → t.pwr.strapBad = true ∧ t.moduleId = 0 ∧ t.isLead = false ∧
      ∀ i < 8, strapLevel (mv.getD i 0) = none → t.pwr.pinFault.getLsbD i = true))

/-- MODULE_RESET_RELEASE, GALLERY_WAKE, GALLERY_GATE, BUILT_IN_TEST, MAILBOXES_OPEN and BEACON_PIN_FAULT: events 9 to 14 of the start
(R275, R410, R434, R435, R442, R457, R458). -/
def Obligations.TheStartEnds : Prop :=
  (∀ s : State, s.pwr.start = .strapped → s.keeper.up = true → ∃ t, exec .moduleResetRelease s = .next t ∧ t.pwr.start = .released ∧
    t.pwr.meaning = .operation ∧ t.tgt = [] ∧ t.eng = {} ∧ t.arb = [] ∧ t.arr.map = s.arr.map ∧ t.arr.cust = [] ∧
    t.link.table = (if s.moduleId = 0 then some oneModule else none) ∧
    ∀ a, Mem.read t.mem a = if 0x40000000000 ≤ a ∧ a < 0x40040000000 then 0 else Mem.read s.mem a) ∧
  (∀ (k : TileIx) (g : Fin 10) (f : Fn) (n : Nat) (s : State), s.released = true → (s.gallery k g).gated = true →
    (k.val ∈ s.pwr.limited → g.val < 5) → ∃ t, exec (.galleryWake k g f n) s = .next t ∧ s.onlyChanges t [.arr, .fnp] ∧
      t.gallery k g = { s.gallery k g with gated := false, woken := true } ∧
      (t.fnp.acct.get {} f).switch = satAdd64 (s.fnp.acct.get {} f).switch n) ∧
  (∀ (k : TileIx) (g : Fin 10) (s : State), s.released = true →
    (∀ i < 8, (s.array k (s.phys k (g.val * 8 + i))).waiting = []) →
    exec (.galleryGate k g) s = .next (s.setGallery k g { s.gallery k g with gated := true })) ∧
  (∀ (r : List BistTile) (s : State), s.released = true → s.keeper.up = true → s.keeper.isOpen = false → s.allWoken = true →
    ∃ t, exec (.builtInTest r) s = .next t ∧ t.pwr.bistDone = true ∧
      ∀ k x, k < 4 → r[k]? = some x → t.health.bistAccepted.get 0 k = x.accepted ∧
        (x.tokensOk = false → k ∈ t.health.badTiles)) ∧
  (∀ s : State, s.released = true → s.keeper.up = true → s.keeper.isOpen = false → s.pwr.bistDone = true → s.sec.counter ≤ 64 →
    ∃ t, exec .mailboxesOpen s = .next t ∧ t.keeper.isOpen = true ∧ t.pwr.start = .opened ∧ (s.keeper.kbusy = false → t.keeper.deferred = []) ∧
      t.keeper.fwmaj = (s.fwSlot s.keeper.slot).maj ∧ t.keeper.fwmin = (s.fwSlot s.keeper.slot).min ∧
      t.sec.bootSlot = s.keeper.slot ∧ t.sec.counter = max s.sec.counter (min 64 (s.fwSlot s.keeper.slot).svn)) ∧
  (∀ (p : Fin 8) (s : State), s.pwr.hubLit = true →
    (∃ t, exec (.beaconPinFault p false) s = .next t ∧ t.pwr.pinFault = s.pwr.pinFault ||| BitVec.ofNat 8 (2 ^ p.val) ∧
      t.pwr.cdis = s.pwr.cdis) ∧
    (p.val < 4 → ∃ t, exec (.beaconPinFault p true) s = .next t ∧
      t.pwr.pinFault = s.pwr.pinFault ||| BitVec.ofNat 8 (3 * 2 ^ (p.val / 2 * 2))))

/-- HOST_RESET, PWR_HOTRESET and TILE_RESET (R444, R446, R447): what each clears and what it leaves; FUNCTION_LEVEL_RESET,
VF_ENABLE_CLEAR, FLR_KEEPER_CLEAR and FUNCTION_POWER_STATE (R365, R385 to R387, R391, R473). -/
def Obligations.ResetsClear : Prop :=
  ((∀ (mv : List Nat) (b : BootCheck) (s : State), s.pwr.hubLit = true → ∃ t, exec (.hostReset mv b) s = .next t ∧
    t.pair = {} ∧ t.prog = {} ∧ t.run = {} ∧ t.serve = {} ∧ t.tier.regions = [] ∧ t.fnp.numVfs = 0 ∧ t.sec.sessions = [] ∧
    t.sec.counter = s.sec.counter ∧ t.arr.map = s.arr.map ∧ t.tgt = [] ∧ t.eng = {} ∧
    ∀ a, Mem.read t.mem a = if 0x40000000000 ≤ a ∧ a < 0x40040000000 then 0 else Mem.read s.mem a) ∧
  (∀ (f : Fn) (v : Word) (b : BootCheck) (s : State),
    (f ≠ 0 ∨ v ≠ 0x4C4B4854 → exec (.pwrHotreset f v b) s = .next s) ∧
    (s.pwr.hubLit = true → ∃ t, exec (.pwrHotreset 0 0x4C4B4854 b) s = .next t ∧ t.pair = {} ∧ t.prog = {} ∧ t.run = {} ∧ t.serve = {} ∧
      t.fnp.numVfs = s.fnp.numVfs ∧ t.moduleId = s.moduleId ∧ t.isLead = s.isLead ∧ t.sec.counter = s.sec.counter ∧ t.tgt = [] ∧ t.eng = {} ∧
      ∀ a, Mem.read t.mem a = if 0x40000000000 ≤ a ∧ a < 0x40040000000 then 0 else Mem.read s.mem a)) ∧
  (∀ (k : TileIx) (s : State), s.released = true → s.keeper.up = true → s.tileBusy k = false → ∃ t, exec (.tileReset k) s = .next t ∧
    t.target k = {} ∧ (∀ j, j ≠ k.val → t.target j = s.target j) ∧ t.custSt k = {} ∧ t.arr.map = s.arr.map ∧
    (∀ p < 84, (t.array k p).tiles = [] ∧ (t.array k p).leases = [] ∧ (t.array k p).retired = (s.array k p).retired) ∧
    ∀ a, Mem.read t.mem a = if spadBase k ≤ a ∧ a < spadBase k + 0x10000000 then 0 else Mem.read s.mem a)) ∧
  ((∀ (f : Fn) (s : State), s.pwr.hubLit = true → f ≠ 0 → s.fnExists f = true → (s.fnSt f).resetting = false →
    ∃ t, exec (.functionLevelReset f) s = .next t ∧ t.fnSt f = { resetting := true } ∧ (∀ g, g ≠ f.val → t.fnSt g = s.fnSt g) ∧
      (t.mbox f).latched = none ∧ t.mem = s.mem ∧
      (∀ h p, s.progAt h = some p → p.fn = f →
        (s.stepRuns h = false → t.progAt h = some { p with state := .faulted, heldQs := [] }) ∧
        (s.stepRuns h = true → t.progAt h = some p)) ∧
      ∀ n i, ((s.arbAt n).req i).fn = f.val → ((s.arbAt n).req i).waiting = true →
        ((t.arbAt n).req i).waiting = false ∧ ((t.arbAt n).req i).masked = true ∧ ((t.arbAt n).req i).lost = 0) ∧
  (∀ s : State, s.pwr.hubLit = true → ∃ t, exec .vfEnableClear s = .next t ∧
    (∀ f : Fn, f ≠ 0 → s.fnExists f = true → (t.fnSt f).resetting = true) ∧ t.fnSt 0 = s.fnSt 0 ∧ t.mem = s.mem) ∧
  (∀ (f : Fn) (s : State), s.ownsGrant f = true → exec (.flrKeeperClear f) s = .next s) ∧
  (∀ (f : Fn) (s : State), (s.fnSt f).resetting = true → s.keeper.up = true → s.keeper.kbusy = false → s.ownsGrant f = false →
    (∀ e ∈ s.prog.progs, e.2.fn = f → s.stepRuns e.1 = false) →
    ∃ t, exec (.flrKeeperClear f) s = .next t ∧ (t.fnSt f).resetting = false ∧ t.mbox f = {} ∧
      (∀ i r, t.tier.regions.find? i = some r → r.fn ≠ f) ∧ (∀ o ∈ t.keeper.ops, o.fn ≠ f) ∧
      (∀ j < 4, ∀ k < 4, (t.keySt j f).active.getD k 0 = 0) ∧
      (t.fnp.acct.get {} f) = { closes := satAdd64 (s.fnp.acct.get {} f).closes 1 } ∧ (t.fnp.closed.find? f).isSome = true) ∧
  (∀ (f : Fn) (s : State), s.pwr.hubLit = true → s.fnExists f = true →
    exec (.functionPowerState f true) s = .next (s.setFnSt f { s.fnSt f with d3hot := true }) ∧
    ∃ t, exec (.functionPowerState f false) s = .next t ∧ (t.fnSt f).d3hot = false ∧ (t.fnSt f).withheld = [] ∧
      s.onlyChanges t [.fnp, .outbox]))

/-! ### Functions and turns -/

/-- KEEPER_MEM_ERROR, KEEPER_RESTART, ACTIVATE_FAILED and KEEPER_RESTART_COMPLETE (R334 to R337, R453, R458). -/
def Obligations.TheKeeperRestarts : Prop :=
  (∀ s : State, s.keeper.up = true → s.keeper.kbusy = false → exec .keeperMemError s = .next (s.setKeeper
    { s.keeper with kbusy := true, restart := some .memError, prevSlot := s.keeper.slot, activateFailed := false })) ∧
  (∀ (why : Restart) (s : State), s.keeper.restart = some why → s.keeper.kbusy = true → s.keeper.coreReset = false →
    exec .keeperRestart s = .next ((s.setKeeper { s.keeper with coreReset := true,
                                                                slot := if why = .activate then !s.keeper.slot else s.keeper.slot }).setSec
      { s.sec with sessions := [], negotiated := false })) ∧
  (∀ s : State, s.keeper.coreReset = true → s.keeper.restart = some .activate → s.keeper.activateFailed = false →
    exec .activateFailed s = .next (s.setKeeper { s.keeper with slot := s.keeper.prevSlot, activateFailed := true })) ∧
  (∀ (why : Restart) (c0 c1 : Bool) (s : State), s.keeper.restart = some why → s.keeper.coreReset = true →
    (∀ f, (s.mbox f).latched = none) → s.keeper.owed = [] → (∀ e ∈ s.prog.progs, e.2.heldQs = []) →
    ∃ t, exec (.keeperRestartComplete c0 c1) s = .next t ∧ t.keeper.kbusy = false ∧ t.keeper.restart = none ∧ t.keeper.coreReset = false ∧
      t.keeper.slot = s.keeper.slot ∧ t.keeper.fwmaj = (s.fwSlot s.keeper.slot).maj ∧ t.sec.bootSlot = s.keeper.slot ∧
      (∀ f ≤ s.fnp.numVfs, (t.mbox f).cause.getLsbD 3 = true) ∧
      (c0 = true ∨ c1 = true → t.run = s.run ∧ t.pair = s.pair ∧ t.prog = s.prog ∧ t.serve = s.serve ∧ t.tier = s.tier ∧ t.mem = s.mem ∧
        t.keeper.ops = s.keeper.ops.filter (fun o => o.kind != .fwActivate)) ∧
      (c0 = false → c1 = false → t.keeper.ops = [] ∧ t.serve.reqs = [] ∧ (s.pair.state = .resident → t.pair.state = .resident ∧ t.pair.heldTeacher = none) ∧
        (s.run.active = true → s.run.markApplied = false → t.run.stop = some .stateLost)))

/-- TURN_END, PREEMPT and ENERGY_TICK (R370, R372, R373, R376, R388 to R390). -/
def Obligations.TurnsAreCharged : Prop :=
  (∀ (e : EngRef) (n d w f : Nat) (ready able : List Nat) (s : State) (df : Tab Nat), s.released = true → s.keeper.kbusy = false →
    (s.engSched (engCode e)).current = some f →
    able = (s.readyOn e ready).filter (fun g => s.fnExists g && !(s.fnSt g).resetting && !(s.sched.active.get {} g).suspend) →
    df = (s.engSched (engCode e)).deficit.upd 0 f (· + d) →
    (able = [] → ∃ t, exec (.turnEnd e n ready d w) s = .next t ∧ (t.engSched (engCode e)).current = none ∧
      (t.engSched (engCode e)).deficit = df ∧
      (t.fnp.acct.get {} f).overrun = satAdd64 (s.fnp.acct.get {} f).overrun d) ∧
    (∀ g, nextReady (s.engSched (engCode e)).last able = some g → df.get 0 g < s.sliceOf g →
      ∃ t, exec (.turnEnd e n ready d w) s = .next t ∧ (t.engSched (engCode e)).current = some g ∧ (t.engSched (engCode e)).last = g ∧
        (t.engSched (engCode e)).length = s.sliceOf g - df.get 0 g ∧ (t.engSched (engCode e)).deficit.get 0 g = 0 ∧
        (∀ k, k ≠ g → (t.engSched (engCode e)).deficit.get 0 k = df.get 0 k))) ∧
  (∀ (e : EngRef) (n f : Nat) (s : State), (s.engSched (engCode e)).current = some f →
    (∃ t, exec (.preempt e n false) s = .next t ∧ s.onlyChanges t [.arr, .fnp] ∧
      (t.fnp.acct.get {} f).preempts = satAdd64 (s.fnp.acct.get {} f).preempts 1) ∧
    (∃ t, exec (.preempt e n true) s = .next t ∧ (t.fnp.acct.get {} f).preempts = (s.fnp.acct.get {} f).preempts)) ∧
  (∀ (rails inputs idle : List Nat) (f : Fn) (r a : Nat) (s : State), s.keeper.up = true → s.keeper.kbusy = false → r < rails.length → 0 < a →
    ∃ t, exec (.energyTick rails inputs idle [{ fn := f, rail := r, activity := a }]) s = .next t ∧ s.onlyChanges t [.fnp] ∧
      (t.fnp.acct.get {} f).energy = satAdd64 (s.fnp.acct.get {} f).energy (rails.getD r 0 - idle.getD r 0) ∧
      t.fnp.unattributed = satAdd64 s.fnp.unattributed (max inputs.sum rails.sum - (rails.getD r 0 - idle.getD r 0)))

/-! ### Security -/

/-- The SPDM responder's answers (R451 to R453); the messages' formats and ERROR InvalidRequest are the model's reading (log entry 36). -/
def Obligations.TheResponderAnswers : Prop :=
  ∀ (r : SpdmReq) (s : State), s.keeper.up = true → s.keeper.kbusy = false → s.keeper.recovery = false → s.keeper.isOpen = true →
    exec (.getVersion r) s = .next (s.answer (.version [0x12, 0x13])) ∧
    (∀ c, exec (.spdmUnsupportedRequest c) s = .next (s.answer (.errorUnsupported c))) ∧
    (r.version = 0x12 ∨ r.version = 0x13 →
      exec (.getCapabilities r) s = .next (s.answer .capabilities) ∧
      (r.choicesOk = true → exec (.negotiateAlgorithms r) s = .next ((s.setSec { s.sec with negotiated := true }).answer .algorithms)) ∧
      exec (.getDigests r) s = .next (s.answer (.digests (Config.sha256 daymarkChain))) ∧
      (∀ o n, o < daymarkChain.length → ∃ part, exec (.getCertificate r 0 o n) s =
        .next (s.answer (.certificate part (daymarkChain.length - o - part.length))) ∧ part = (daymarkChain.drop o).take n) ∧
      (∃ sig, exec (.challenge r 0) s = .next ((s.answer (.challengeAuth sig)).useFree)) ∧
      (1 ≤ r.index → r.index ≤ 7 → r.signed = false →
        exec (.getMeasurements r) s = .next (s.answer (.measurements [(r.index, s.measurement r.index)] none))) ∧
      (1 ≤ r.index → r.index ≤ 7 → r.signed = true → ∃ sig, exec (.getMeasurements r) s =
        .next ((s.answer (.measurements [(r.index, s.measurement r.index)] (some sig))).useFree)) ∧
      (r.index = 0xFF → r.signed = false → ∃ vs, exec (.getMeasurements r) s = .next (s.answer (.measurements vs none)) ∧
        vs.map (·.1) = [1, 2, 3, 4, 5, 6, 7] ∧ ∀ x ∈ vs, x.2 = s.measurement x.1))

/-- SPDM sessions and link encryption (R451, R453, R454): at most two sessions, a stream keyed in an established session, and an
integrity failure that leaves it Insecure. -/
def Obligations.SessionsAndStreams : Prop :=
  (∀ (r : SpdmReq) (s : State), s.keeper.up = true → s.keeper.kbusy = false → s.keeper.recovery = false → s.keeper.isOpen = true →
    (r.version = 0x12 ∨ r.version = 0x13) →
    (s.sec.sessions.length < 2 → ∃ t x, exec (.keyExchange r) s = .next t ∧ t.sec.sessions = s.sec.sessions ++ [x] ∧
      x.established = false ∧ (∃ sig, t.sec.response = some (.keyExchangeRsp x.id sig)) ∧ s.onlyChanges t [.sec, .outbox, .fresh]) ∧
    (2 ≤ s.sec.sessions.length → exec (.keyExchange r) s = .next (s.answer .errorBusy)) ∧
    (∀ x ∈ s.sec.sessions, r.session = some x.id → x.established = false → ∃ t, exec (.finish r) s = .next t ∧
      t.sec.response = some .finishRsp ∧ { x with established := true } ∈ t.sec.sessions) ∧
    (∀ x, s.inSession r = some x →
      exec (.heartbeat r) s = .next (s.answer .heartbeatAck) ∧
      (∃ t, exec (.endSession r) s = .next t ∧ t.sec.response = some .endSessionAck ∧ ∀ y ∈ t.sec.sessions, y.id ≠ x.id) ∧
      (∃ t, exec (.keyUpdate r) s = .next t ∧ t.sec.response = some .keyUpdateAck ∧ { x with updates := x.updates + 1 } ∈ t.sec.sessions) ∧
      (∀ key, ∃ t, exec (.ideKm r true key) s = .next t ∧ t.sec.ideCm = { keyed := true, secure := true, key := key } ∧
        t.sec.ideIo = s.sec.ideIo) ∧
      (∀ key, ∃ t, exec (.ideKm r false key) s = .next t ∧ t.sec.ideIo = { keyed := true, secure := true, key := key } ∧
        t.sec.ideCm = s.sec.ideCm))) ∧
  (∀ (n : Nat) (hit : List (Nat × Nat)) (s : State), s.sec.ideIo.keyed = true → ∃ t, exec (.ideFault false n hit) s = .next t ∧
    t.sec.ideIo = { s.sec.ideIo with secure := false } ∧ t.sec.ideCm = s.sec.ideCm ∧
    ∀ o ∈ s.keeper.ops, o.kind = .transfer → (o.fn.val, o.seq) ∈ hit → o ∉ t.keeper.ops) ∧
  (∀ (n : Nat) (hit : List (Nat × Nat)) (s : State), s.sec.ideCm.keyed = true → ∃ t, exec (.ideFault true n hit) s = .next t ∧
    t.sec.ideCm = { s.sec.ideCm with secure := false } ∧ t.sec.ideIo = s.sec.ideIo)

/-! ### The exchange and the commit -/

/-- COLLECTIVE_STEP and RESHARD_COMPLETE (R26 to R29, R218, R239, R276, R402, R413 to R415). A receiving step waits for what it takes; that
it remembers what it has taken is the model's (log entry 68). -/
def Obligations.CollectivesMoveData : Prop :=
  (∀ (c : Src) (s : State), s.collTakes c = true →
    (∀ mv dest a off len x, s.placeOf a = .here x → localOk x len = true →
      ∃ t, exec (.collectiveStep c (.send mv dest a off len)) s = .next t ∧ t.mem = s.mem ∧
        ∃ m ∈ t.link.moves, m.move = mv ∧ m.dest = dest) ∧
    (∀ mv src a off len x fwd, s.placeOf a = .here x → localOk x len = true → s.received src mv off len = none →
      exec (.collectiveStep c (.recv mv src a off len fwd)) s = .next s) ∧
    (∀ mv src a off len x data, s.placeOf a = .here x → localOk x len = true → s.received src mv off len = some data →
      (∃ t, exec (.collectiveStep c (.recv mv src a off len none)) s = .next t ∧ t.mem = Mem.writeN s.mem x data ∧
        t.link.moves = s.link.moves ∧
        ∀ e ∈ t.link.inbox, e.src = src → e.move = mv → off ≤ e.off → e.off < off + len → e.data = []) ∧
      ∀ k, ∃ t, exec (.collectiveStep c (.recv mv src a off len (some k))) s = .next t ∧ t.mem = Mem.writeN s.mem x data ∧
        ∃ m ∈ t.link.moves, m.move = mv ∧ m.dest = k) ∧
    (∀ i d, s.shardDesc i = some d → s.run.active = true → s.run.needRejoin = false → s.run.silent = false → s.spanIdle = false →
      (s.shard i).own = none →
      ∃ t, exec (.collectiveStep c (.contribute i)) s = .next t ∧ (t.shard i).own = some (s.ownContribution d) ∧
        (∀ g, s.prog.groups.find? d.group = some g → d.tiles.length = 1 → (t.shard i).ownNorms = readNorms s.mem d g) ∧
        (s.ownerOf d = s.moduleId → (t.shard i).armed = true ∧ (t.shard i).armedAt = s.watch 4) ∧
        (s.ownerOf d ≠ s.moduleId → t.mem = s.mem ∧
          t.outbox = .contribution i (s.ownerOf d) s.run.step (s.ownContribution d) (t.shard i).ownNorms s.run.ovf :: s.outbox)) ∧
    (∀ i d, s.shardDesc i = some d → s.run.active = true → s.ownerOf d = s.moduleId → (s.shard i).closed = true →
      exec (.collectiveStep c (.mirror i)) s = .next ((s.forwardMirror i d).finish c 0xFF 10 0)) ∧
    (∀ m es, s.run.active = true → s.mirrors m = true → ∃ t, exec (.collectiveStep c (.copies m es)) s = .next t ∧ t.mem = s.mem ∧
      ∀ e ∈ es, e.module = m → e.ended = false → e ∈ t.serve.copies)) ∧
  (∀ (i n : Nat) (k : TileIx) (p : Prog) (d : ReshardDesc) (s : State), s.keeper.kbusy = false → s.progAt s.run.prog = some p →
    p.img.reshards.find? (fun d => d.index == i) = some d → s.run.active = true → d.tiles.contains k = true →
    (s.reshardReady p d k = false → exec (.reshardComplete i k n) s = .next s) ∧
    (s.reshardReady p d k = true →
      ∃ t q, exec (.reshardComplete i k n) s = .next t ∧ k.val ∈ (t.run.reshards.get {} i).tiles ∧
        (t.run.reshards.get {} i).duration = max (s.run.reshards.get {} i).duration n ∧ t.mem = s.mem ∧
        t.progAt s.run.prog = some q ∧ q.delivered.get 0 (i * 4 + k) = p.delivered.get 0 (i * 4 + k) + 1))

/-- CONTRIBUTION_ARRIVAL and LATE_LIMIT_EXPIRY (R205 to R209, R211): summed on time, kept to be folded, or dropped with its time past the
late limit; an OVF that comes late counts in the step it arrives in (log entry 67). -/
def Obligations.ContributionsAreSummed : Prop :=
  (∀ (i m k : Nat) (vals : List X32) (norms : List Word) (ovf : Bool) (d : ShardDesc) (s : State), s.shardDesc i = some d →
    s.run.active = true → s.ownerOf d = s.moduleId → m ≠ s.moduleId → m ∈ d.replicas → m ∉ s.run.absent →
    (∀ c ∈ (s.shard i).arrived ++ (s.shard i).folded, c.module = m → c.step ≠ k) →
    (k = s.run.step → (s.shard i).closed = false → ∃ t, exec (.contributionArrival i m k ⟨vals, norms⟩ ovf) s = .next t ∧
      (t.shard i).arrived = (s.shard i).arrived ++ [{ module := m, step := k, vals := vals, norms := norms, late := false, past := 0 }] ∧
      ((s.shard i).armed = false → t.mem = s.mem ∧ (t.shard i).closed = false) ∧
      ((s.shard i).armed = true → (∀ x ∈ s.contributors d, x = s.moduleId ∨ x = m ∨ ∃ c ∈ (s.shard i).arrived, c.module = x ∧ c.late = false) →
        (t.shard i).closed = true)) ∧
    (k = s.run.step → (s.shard i).closed = true → ovf = false → ∃ t, exec (.contributionArrival i m k ⟨vals, norms⟩ ovf) s = .next t ∧
      t.mem = s.mem ∧ ∃ c, (t.shard i).arrived = (s.shard i).arrived ++ [c] ∧ c.module = m ∧ c.late = true ∧ c.vals = vals ∧
        c.past = s.watch 4 - ((s.shard i).armedAt + s.run.late)) ∧
    (k + 1 = s.run.step → (s.shard i).closed = false → ovf = false → ∃ t, exec (.contributionArrival i m k ⟨vals, norms⟩ ovf) s = .next t ∧
      t.mem = s.mem ∧ ∃ c, (t.shard i).folded = (s.shard i).folded ++ [c] ∧ c.module = m ∧ c.vals = vals) ∧
    (k < s.run.step ∨ (k = s.run.step ∧ (s.shard i).closed = true) → ovf = true →
      ∃ t e, exec (.contributionArrival i m k ⟨vals, norms⟩ ovf) s = .next t ∧ t.mem = s.mem ∧ t.shard i = s.shard i ∧ e ∈ t.run.stragglers ∧
        e.module = m ∧ e.shard = i ∧ e.outcome = .droppedOvf ∧ e.past = some (s.watch 4 - (s.armedIn (s.shard i) k + s.run.late)) ∧
        (s.run.reported = false → t.run.ovf = true) ∧ (s.run.reported = true → t.run.updOvf = true)) ∧
    (k + 1 < s.run.step ∨ (k + 1 = s.run.step ∧ (s.shard i).closed = true) → ovf = false →
      ∃ t e, exec (.contributionArrival i m k ⟨vals, norms⟩ ovf) s = .next t ∧ t.mem = s.mem ∧ t.shard i = s.shard i ∧ e ∈ t.run.stragglers ∧
        e.module = m ∧ e.shard = i ∧ e.outcome = .dropped ∧ e.past = some (s.watch 4 - (s.armedIn (s.shard i) k + s.run.late)))) ∧
  (∀ (i m k : Nat) (vals : List X32) (norms : List Word) (ovf : Bool) (s : State), s.behind k = true →
    exec (.contributionArrival i m k ⟨vals, norms⟩ ovf) s = .next s.missedCommit) ∧
  (∀ (i : Nat) (d : ShardDesc) (s : State), s.shardDesc i = some d → s.run.active = true → s.ownerOf d = s.moduleId →
    (s.shard i).armed = true → (s.shard i).closed = false → s.run.late ≠ 0 → s.alone = false →
    ∃ t, exec (.lateLimitExpiry i) s = .next t ∧ (t.shard i).closed = true ∧
      ∀ m ∈ s.contributors d, m ≠ s.moduleId → (∀ c ∈ (s.shard i).arrived, c.module = m → c.late = true) →
        ∃ e ∈ t.run.stragglers, e.module = m ∧ e.outcome = .missed ∧ e.shard = i)

/-- OVERFLOW_REPORT, PREPASS_RX, GO_RX and READY_RX (R219, R228, R231, R233, R234, R240): a module's own report carries its own state,
another module's reaches the Lead as it was sent, and the Lead's messages open the gates. -/
def Obligations.TheStepIsDecided : Prop :=
  (∀ (m k : Nat) (o f second : Bool) (w : Word) (s : State), s.keeper.kbusy = false → s.run.active = true → k = s.run.step →
    (m ≠ s.moduleId → s.isLead = true → m ∉ s.lead.absent → exec (.overflowReport m k o w f second) s = .next
      (if second then (s.setLead { s.lead with seconds := s.lead.seconds.set m { ovf := o, part := w, fallback := f } }).leadDecide
       else (s.setLead { s.lead with reports := s.lead.reports.set m { ovf := o, part := w, fallback := f } }).leadDecide)) ∧
    (m = s.moduleId → s.isLead = false → s.run.needRejoin = false → s.run.silent = false → s.exchangeDone = true →
      (second = true → s.run.prepassGate = true ∧ s.prepassesDone = true) →
      ∃ t, exec (.overflowReport m k o w f second) s = .next t ∧ t.run.reported = true ∧
        t.outbox = .report k s.run.ovf s.normPartial s.hasFallback second :: s.outbox ∧ s.onlyChanges t [.run, .outbox])) ∧
  (∀ s : State, s.lead.decision = .none_ → (∀ m ∈ s.expected, s.lead.reports.has m = true) →
    ((∃ e ∈ s.lead.reports, e.2.ovf = true) → s.leadDecide.lead.decision = .skip ∧
      s.leadDecide.outbox = .skip s.run.step (nextScale true s.run.interval s.run.lscale s.run.clean).1 0 :: s.outbox) ∧
    ((∀ e ∈ s.lead.reports, e.2.ovf = false) → (∃ m ∈ s.expected, ∃ r, s.lead.reports.find? m = some r ∧ r.fallback = true) →
      s.leadDecide.lead.decision = .prepass ∧ s.leadDecide.outbox = .prepass s.run.step :: s.outbox) ∧
    ((∀ e ∈ s.lead.reports, e.2.ovf = false) → (∀ m ∈ s.expected, ∀ r, s.lead.reports.find? m = some r → r.fallback = false) →
      s.leadDecide.lead.decision = .go ∧ ∃ c, s.leadDecide.outbox = .go s.run.step c s.run.lscale s.run.clean :: s.outbox)) ∧
  (∀ (k : Nat) (s : State), s.keeper.kbusy = false → s.run.active = true → k = s.run.step → s.run.needRejoin = false →
    (s.isLead = true → s.lead.decision = .prepass) →
    ∃ t, exec (.prepassRx k) s = .next t ∧ t.run = { s.run with prepassGate := true } ∧
      (s.hasFallback = false → s.isLead = false → t.outbox = .report k s.run.ovf s.normPartial false true :: s.outbox)) ∧
  (∀ (k c : Nat) (w l : Word) (s : State), s.keeper.kbusy = false → s.run.active = true → k = s.run.step → s.run.needRejoin = false →
    (s.isLead = true → s.lead.decision = .go) → ∃ t, exec (.goRx k w l c) s = .next t ∧ t.run.gateOpen = true ∧
      t.run.k = (if s.isLead then s.lead.k else w) ∧ t.run.bank = s.run.bank ∧ t.run.lscale = s.run.lscale ∧
      (s.runImage = none → t.mem = s.mem)) ∧
  (∀ (m k : Nat) (o : Bool) (own mir : List (Nat × Word)) (s : State), s.keeper.kbusy = false → s.run.active = true → k = s.run.step →
    (m = s.moduleId → s.run.gateOpen = true → s.updatesDone = true → s.run.silent = false → s.isLead = false → ∃ t, exec (.readyRx m k o own mir) s = .next t ∧ t.run.readied = true ∧
      t.outbox = .ready k s.run.updOvf s.checkWords.1 s.checkWords.2 :: s.outbox) ∧
    (m ≠ s.moduleId → s.isLead = true → m ∉ s.lead.absent → exec (.readyRx m k o own mir) s = .next
      (s.takeReady m { ovf := o, owned := own, mirrored := mir }).leadCommit) ∧
    (m ≠ s.moduleId → s.isLead = false → exec (.readyRx m k o own mir) s = .next (s.takeReady m { ovf := o, owned := own, mirrored := mir })))

/-- R220: the update factor a GO carries to every module, where it enters the update control block of each tile. -/
def Obligations.GoCarriesTheFactor : Prop :=
  (∀ (s : State) (ps : List Word) (n2 c l ns k : Word), n2 = sumPartials ps → c = s.run.clip → l = s.run.lscale → ns = fsqrt n2 →
    (FVal.lt .zero (ofFP32 c) = true → (ofFP32 (fmul c l)).lt (ofFP32 ns) = true → k = fdiv c ns) →
    (FVal.lt .zero (ofFP32 c) = false ∨ (ofFP32 (fmul c l)).lt (ofFP32 ns) = false → k = fdiv fOne l) →
    (s.decideGo ps).outbox = .go s.run.step k l s.run.clean :: s.outbox ∧ (s.decideGo ps).lead.k = k ∧ (s.decideGo ps).lead.n2 = n2) ∧
  (∀ (n c : Nat) (k l : Word) (m : ProgImage) (s : State), s.keeper.kbusy = false → s.run.active = true → n = s.run.step → s.run.needRejoin = false →
    (s.isLead = true → s.lead.decision = .go ∧ s.lead.k = k) → s.runImage = some m → m.ucb.length = 4 →
    (∀ o ∈ m.ucb, o + 64 ≤ 0x10000000) → ∃ t, exec (.goRx n k l c) s = .next t ∧
      ∀ j < 4, Mem.word t.mem (spadBase j + m.ucb.getD j 0) = k)

/-- SKIP_RX and COMMIT_MARK_RX: the update boundary (R16, R142, R201, R214, R234, R235). A skip leaves the active bank and a mark makes the
shadow bank active; both carry the loss scale to the run and to every Target engine. Of scales that are powers of two up to 2^24, the Lead halves one to no
less than 1 after an overflow and doubles it to no more than 2^24 after the run's clean steps (R201). -/
def Obligations.TheBoundaryIsApplied : Prop :=
  (∀ (k cl : Nat) (l : Word) (s : State), s.keeper.kbusy = false → s.run.active = true → k = s.run.step → s.run.markApplied = false →
    s.run.needRejoin = false →
    ((s.isLead = true → s.lead.decision = .skip) → (s.alone = true → s.run.stop ≠ some .fault) → ∃ t, exec (.skipRx k l cl) s = .next t ∧
      t.run.bank = s.run.bank ∧ t.run.shadow = false ∧ t.run.last = some k ∧ t.run.committed = s.run.committed ∧
      t.run.lscale = (if s.isLead then s.lead.lscale else l) ∧ t.run.clean = (if s.isLead then s.lead.clean else cl) ∧
      ∀ j < 4, (t.target j).lscale = t.run.lscale) ∧
    ((s.isLead = true → s.lead.decision = .commit) → s.run.silent = false → ∃ t, exec (.commitMarkRx k l cl) s = .next t ∧ t.run.bank = (!s.run.bank) ∧
      t.run.shadow = false ∧ t.run.last = some k ∧ t.run.committed = some k ∧ t.run.commits = s.run.commits + 1 ∧
      t.run.lscale = (if s.isLead then s.lead.lscale else l) ∧ t.run.clean = (if s.isLead then s.lead.clean else cl) ∧
      ∀ j < 4, (t.target j).lscale = t.run.lscale)) ∧
  (∀ n ≤ 24, ∀ c k : Nat, nextScale true k (BitVec.ofNat 32 ((127 + n) * 2 ^ 23)) c = (BitVec.ofNat 32 ((127 + (n - 1)) * 2 ^ 23), 0) ∧
    (c + 1 = k → nextScale false k (BitVec.ofNat 32 ((127 + n) * 2 ^ 23)) c = (BitVec.ofNat 32 ((127 + min 24 (n + 1)) * 2 ^ 23), 0)) ∧
    (c + 1 ≠ k → nextScale false k (BitVec.ofNat 32 ((127 + n) * 2 ^ 23)) c = (BitVec.ofNat 32 ((127 + n) * 2 ^ 23), c + 1)))

/-- ABORT_RX, COMMIT_WAIT_EXPIRY, LSCALE_FLOOR and STEP_REPORT_RX (R203, R212, R236, R237, R417). -/
def Obligations.TheCommitFails : Prop :=
  (∀ (k m : Nat) (s : State), s.keeper.kbusy = false → s.run.active = true → k = s.run.step → m ≠ s.moduleId →
    ∃ t, exec (.abortRx k m) s = .next t ∧ m ∈ t.run.absent ∧ t.run.shadow = false ∧ t.run.gateOpen = false ∧ t.run.reported = false ∧
      t.run.replays = s.run.replays + 1 ∧ t.run.bank = s.run.bank ∧ t.run.step = s.run.step) ∧
  (∀ (m : Nat) (s : State), s.keeper.kbusy = false → s.run.active = true → s.isLead = false →
    (s.run.reported = true ∧ s.run.gateOpen = false ∧ s.run.prepassGate = false ∨ s.run.readied = true) →
    ∃ t, exec (.commitWaitExpiry m) s = .next t ∧ t.run.active = false ∧ t.run.shadow = false ∧ t.run.bank = s.run.bank ∧
      (s.serve.reqs = [] → t.mem = s.mem)) ∧
  (∀ (m : Nat) (s : State), s.keeper.kbusy = false → s.run.active = true → s.isLead = true → s.lead.decision = .none_ →
    s.lead.reports.has m = false → m ∈ s.present → m ≠ s.moduleId → m ∉ s.lead.absent → (∀ e ∈ s.lead.reports, e.2.ovf = false) →
    ∃ t, exec (.commitWaitExpiry m) s = .next t ∧ m ∈ t.lead.absent ∧ t.lead.reports = [] ∧ t.outbox = .abort s.run.step m :: s.outbox) ∧
  (∀ s : State, s.run.active = true → s.run.stop ≠ some .lscaleFloor → (s.isLead = true → 16 ≤ s.lead.floor) →
    ∃ t, exec .lscaleFloor s = .next t ∧ t.run = { s.run with stop := some .lscaleFloor } ∧
      (s.postsTo 0 = true → s.entered t 0 { code := 7, fn := 0, seq := 0, data := leBytes 8 s.run.step ++ List.replicate 16 0 })) ∧
  (∀ (m k : Nat) (ws : List Nat) (s : State), s.keeper.kbusy = false → s.isLead = true → s.run.active = true → m ∈ s.present →
    s.lead.summaryStep = some k →
    ((∃ x ∈ s.present, x ≠ m ∧ s.lead.stepReports.has x = false) → exec (.stepReportRx m k ws) s = .next
      (s.setLead { s.lead with stepReports := s.lead.stepReports.set m ws })) ∧
    ((∀ x ∈ s.present, x = m ∨ s.lead.stepReports.has x = true) → ∃ t, exec (.stepReportRx m k ws) s = .next t ∧
      t.lead.summaryStep = none ∧ t.lead.stepReports = [])) ∧
  (∀ (m k : Nat) (ws : List Nat) (s : State), s.keeper.kbusy = false → s.isLead = true → s.run.active = true → m ∈ s.present →
    s.lead.summaryStep ≠ some k → k = s.run.step → ∃ t, exec (.stepReportRx m k ws) s = .next t ∧ (m, k, ws) ∈ t.lead.early ∧
      s.onlyChanges t [.lead])

/-- R441: the commit pulse. The Lead drives 1 µs for an even step and 3 µs for an odd one; another module accepts 0.5 to 1.5 µs as even
and 2.5 to 3.5 µs as odd, applies no mark on it, and takes it as a missed commit where the parity is that of the step it holds unapplied. -/
def Obligations.CommitPulseParity : Prop :=
  (∀ s : State, s.lead.decision = .go → (∀ m ∈ s.expected, s.lead.readies.has m = true) → (∀ e ∈ s.lead.readies, e.2.ovf = false) →
    s.leadCommit.outbox.head? = some (.commitPulse (if s.run.step % 2 = 0 then 1000 else 3000))) ∧
  (∀ (w : Nat) (c : BitVec 2) (s : State), s.pwr.meaning = .operation → s.isLead = false →
    ((!s.pwr.pinFault.getLsbD 2 && c.getLsbD 0) || (!s.pwr.pinFault.getLsbD 3 && c.getLsbD 1)) = true →
    ∃ t, exec (.commitPulse w c) s = .next t ∧ t.run.bank = s.run.bank ∧ t.run.step = s.run.step ∧
      (s.run.active = true → s.run.shadow = true → s.run.needRejoin = false →
        (s.run.step % 2 = 0 ∧ 500 ≤ w ∧ w ≤ 1500 ∨ s.run.step % 2 = 1 ∧ 2500 ≤ w ∧ w ≤ 3500) →
        t.run.needRejoin = true ∧ t.run.shadow = false ∧ t.outbox = .rejoin s.run.step :: s.outbox) ∧
      (s.run.active = false ∨ s.run.shadow = false ∨
        ¬(s.run.step % 2 = 0 ∧ 500 ≤ w ∧ w ≤ 1500 ∨ s.run.step % 2 = 1 ∧ 2500 ≤ w ∧ w ≤ 3500) → t.run = s.run ∧ t.outbox = s.outbox))

/-! ### Serving -/

/-- SERVING_STEP_BOUNDARY, REQUEST_DEADLINE_EXPIRY and NOPAGES (R249, R254, R257, R262, R266): a request whose deadline passed, whose
function is being reset, or that an unload or a lost journal ends has left its table by the end of the boundary; only a request adopted from a
failed partner may stand at its index then. -/
def Obligations.RequestsLeaveAtTheBoundary : Prop :=
  (∀ (g : Fin 4) (pf kv : List Nat) (tq : List Nat) (tr : List (List Nat)) (s : State), s.keeper.kbusy = false → ((s.group g).plan = none ∨ pf ≠ []) →
    ∃ t, exec (.servingStepBoundary g pf kv tq tr) s = .next t ∧ (t.group g).badReqs = [] ∧
      ∀ i q, s.req? i = some q → q.group = g.val → (q.expired = true ∨ q.flr = true ∨ q.doomed = true) →
        ∀ x, t.req? i = some x → s.toAdopt ≠ [] ∧ x.tree = true) ∧
  (∀ (i : Nat) (q : Req) (s : State), s.req? i = some q → q.status.terminal = false → q.deadline ≠ 0 → q.expired = false →
    ∃ t, exec (.requestDeadlineExpiry i) s = .next t ∧ s.onlyChanges t [.serve] ∧
      t.req? i = some { q with expired := true,
                               late := match (s.group q.group).plan with | some pl => pl.parts.any (fun p => p.req == i) | none => false }) ∧
  (∀ (i : Nat) (q : Req) (c : ServingCfg) (s : State), s.keeper.kbusy = false → s.req? i = some q → s.servingCfg q.group = some c →
    c.grow = true → q.held = true → q.rebuild = 0 → 64 ≤ q.heldSteps → (q.status = .prefill ∨ q.status = .decode) →
    exec (.noPages i) s = .next (s.setReq i { q with pageless := true }))

/-! ### Memory failures -/

/-- REREAD, PERSISTENT_FAILURE_RECOVERY, TRANSIENT_RETIRE and BRIDGE_FLIT_CRC_FAIL (R194, R287 to R291, R293): what a program
recomputes in class A runs again. The fields of TABLE_REBUILT are the model's (log entry 69). -/
def Obligations.FailuresAreRecovered : Prop :=
  (∀ (c : Src) (e : EngRef) (a n : Nat) (s : State), localOk a 1 = true →
    (n < 3 → s.health.transients.length < 192 → (∀ x ∈ s.health.transients, x.addr ≠ unitOf a) →
      ∃ t, exec (.reread c e a n) s = .next t ∧ s.onlyChanges t [.health] ∧
        t.health.transients = s.health.transients ++ [{ tier := tierCode a, addr := unitOf a, count := 1 }]) ∧
    (n < 3 → ∀ x, s.health.transients.find? (fun y => y.addr == unitOf a) = some x → 2 ≤ x.count →
      ∃ t, exec (.reread c e a n) s = .next t ∧ unitOf a ∈ t.tier.toRetire ∧ (∀ y ∈ t.health.transients, y.addr ≠ unitOf a)) ∧
    (3 ≤ n → ∃ t f, exec (.reread c e a n) s = .next t ∧ f ∈ t.tier.failed ∧ f.unit = unitOf a ∧ accessOf a ∈ f.accesses ∧
      c ∈ f.waiters ∧ t.mem = s.mem)) ∧
  (∀ (a : Nat) (data : List Byte) (f : FailedUnit) (s : State), s.keeper.kbusy = false →
    s.tier.failed.find? (fun f => f.unit == unitOf a) = some f → s.recompute (unitOf a) = none →
    (s.classAt (unitOf a) = 2 → ∀ p, s.progAt s.run.prog = some p → p.img.mirroring = true) →
    ∃ t, exec (.persistentFailureRecovery a data false) s = .next t ∧ (∀ x ∈ t.tier.failed, x.unit ≠ unitOf a) ∧
      t.mem = writeAccesses s.mem f.accesses (if s.classAt (unitOf a) = 5 then [] else data) ∧
      (s.sparesLeft (unitOf a) ≠ 0 → unitOf (unitOf a) ∈ t.tier.retiredUnits) ∧
      (s.sparesLeft (unitOf a) = 0 → unitOf a / 4096 * 4096 ∈ t.tier.lostPages)) ∧
  (∀ (a h : Nat) (data : List Byte) (b : Bool) (f : FailedUnit) (p : Prog) (cmds : List (Nat × Nat)) (s : State), s.keeper.kbusy = false →
    s.tier.failed.find? (fun f => f.unit == unitOf a) = some f → s.recompute (unitOf a) = some (h, p, cmds) →
    (f.rerun = false → ∃ t, exec (.persistentFailureRecovery a data b) s = .next t ∧ t.mem = s.mem ∧
      t.progAt h = some { p with redo := p.redo ++ cmds } ∧ ∀ x ∈ t.tier.failed, x.unit = unitOf a → x.rerun = true) ∧
    (f.rerun = true → p.redo ≠ [] → exec (.persistentFailureRecovery a data b) s = .next s) ∧
    (f.rerun = true → p.redo = [] → ∃ t, exec (.persistentFailureRecovery a data b) s = .next t ∧ t.mem = s.mem ∧
      ∀ x ∈ t.tier.failed, x.unit ≠ unitOf a)) ∧
  (∀ (a : Nat) (s : State), s.keeper.kbusy = false → unitOf a ∈ s.tier.toRetire → ∃ t, exec (.transientRetire a) s = .next t ∧
    unitOf a ∉ t.tier.toRetire ∧ t.mem = s.mem ∧ (s.sparesLeft (unitOf a) ≠ 0 → unitOf (unitOf a) ∈ t.tier.retiredUnits)) ∧
  (∀ (k : TileIx) (n : Nat) (s : State),
    exec (.bridgeFlitCrcFail k n ⟨false, []⟩) s = .next (s.setHealth { s.health with
      resends := s.health.resends.set k (satAdd64 (s.health.resends.get 0 k) n) }) ∧
    (∀ x, ∃ t, exec (.bridgeFlitCrcFail k n ⟨false, [x]⟩) s = .next t ∧ (s.postsTo 0 = true → s.entered t 0
      { code := 0x10D, fn := 0, seq := 0, data := healthData 0xFF (match x.1 with | .region => 0 | .farMap => 1) x.2 1 })) ∧
    ∃ t, exec (.bridgeFlitCrcFail k n ⟨true, []⟩) s = .next t ∧ k.val ∈ t.health.badTiles ∧ (s.run.active = true → t.run.stop ≠ none) ∧
      t.health.resends.get 0 k = satAdd64 (s.health.resends.get 0 k) n)

/-! ### Arrays and drains -/

/-- PRODUCT and LEASE_WAIT_RELEASE (R45 to R50, R67, R70, R72, R75, R76): a product that opens its tile starts from its preload, one that
joins by its tie goes on from the tile's values; a product whose slots are leased waits, and it starts when its turn comes. -/
def Obligations.ProductsAccumulate : Prop :=
  (∀ (t : TileIx) (g : Fin 10) (src : Src) (ws : List Word) (s : State) (r : ProductRec) (i p first : Nat) (panel : List (List FVal)),
    r = productRec ws → s.galleryTakes t g src ws [] = true → s.slotsHere t g src.fn r.tile r.foot = true →
    r.code (s.window src.fn.val) = 0 → r.ssrc = false → r.arrays = [i] → p = s.phys t (g.val * 8 + i) →
    first = (s.windowIn t g src.fn.val).base + r.tile → (s.array t p).waiting = [] → (s.array t p).tieBad r src.fn first = false →
    s.failedIn (r.reads t (fun _ => (s.array t p).holds i r)) = [] →
    panel = ((s.array t p).panel s.mem t i r).1.map (bytesVals ((NF.ofCode r.pfmt).getD .e4m3) (32 * r.kblk)) →
    ((s.array t p).verdict r first = .opens → (s.array t p).lease? first = none → ∃ u, exec (.product t g src ws 0) s = .next u ∧
      productEntered s u t p first src r
        (reduceTile r panel (streamLines s.mem t i r).1 ((preload s.mem t i r).map (fun x => (x, 0))))) ∧
    (∀ l, (s.array t p).verdict r first = .joins l → (s.array t p).lease? first = some l → l.fn = src.fn → l.foot = r.foot →
      ∃ u, exec (.product t g src ws 0) s = .next u ∧ productEntered s u t p first src r
        (reduceTile r panel (streamLines s.mem t i r).1
          (((s.array t p).readTile s.fresh first r.sh r.comp).1.zip ((s.array t p).readTile s.fresh first r.sh r.comp).2))) ∧
    ((s.array t p).verdict r first = .waits → ∃ u w, exec (.product t g src ws 0) s = .next u ∧ (u.array t p).waiting = [w] ∧
      w.words = ws ∧ w.src = src ∧ (u.array t p).tiles = (s.array t p).tiles ∧ (u.array t p).leases = (s.array t p).leases ∧
      u.mem = s.mem)) ∧
  (∀ (t : TileIx) (a : Fin 80) (s : State) (w : WaitOp) (r : ProductRec) (p first : Nat) (panel : List (List FVal)),
    p = s.phys t a → (s.array t p).waiting = [w] → w.isDrain = false → w.mism = false → r = productRec w.words → r.ssrc = false →
    first = (s.windowIn t (a.val / 8) w.src.fn.val).base + r.tile → w.need = 0 → (s.array t p).verdict r first = .opens →
    (s.array t p).lease? first = none →
    panel = ((s.array t p).panel s.mem t (a.val % 8) r).1.map (bytesVals ((NF.ofCode r.pfmt).getD .e4m3) (32 * r.kblk)) →
    ∃ u, exec (.leaseWaitRelease t a false) s = .next u ∧ productEntered s u t p first w.src r
      (reduceTile r panel (streamLines s.mem t (a.val % 8) r).1 ((preload s.mem t (a.val % 8) r).map (fun x => (x, 0)))))

/-- DRAIN and TILE_REPLAY (R84 to R86, R89, R94, R96 to R100, R105, R113): a tile drained to the scratchpad stores its lines and nothing
else, and its lease ends; a replayed tile's drain is emitted, and its mismatches count against its array. -/
def Obligations.DrainsEmit : Prop :=
  (∀ (t : TileIx) (g : Fin 10) (src : Src) (ws ext : List Word) (s : State) (r : DrainRec) (a p first : Nat) (y : ArraySt) (l : Lease),
    r = drainRec ws → a = g.val * 8 + r.aidx → p = s.phys t a → y = s.array t p →
    first = (s.windowIn t (a / 8) src.fn.val).base + r.tile → s.galleryTakes t g src ws ext = true →
    s.slotsHere t g src.fn r.tile r.foot = true → y.waiting = [] → s.drainBusy t a = false → (∀ k ∈ y.leases, k.part = none) →
    y.lease? first = some l → l.drained = false → l.marked = false →
    r.code ext (s.window src.fn.val) (s.target t).active.vsize.toNat (s.custSt t).active.isSome (some l) = 0 →
    (∀ k ∈ y.leases, k.overlaps first r.foot = true → k.first = first) →
    (r.dest = 0 → ∃ u, exec (.drain t g src ws ext ⟨0, none⟩) s = .next u ∧ s.storesOnly u (drainRanges r t) ∧
      (u.array t p).lease? first = none ∧ (u.array t p).tiles = y.tiles ∧
      (∀ c, c = (s.custSt t).active.getD { bnd := (s.custSt t).bnd, coef := (s.custSt t).coef } → r.lred = 0 → r.ssq = false →
        r.sr = false → r.fmt.scaled = false →
        u.mem = Mem.writeLines s.mem (spadBase t + r.oaddr) r.ostride
          ((tileLinesOf r.sh r.oblk ((List.range 1024).map (fun n => fusedStages s.mem t r c (n / r.sh.cols) (n % r.sh.cols)
            ((y.readTile s.fresh first r.sh r.comp).1.getD n 0) ((y.readTile s.fresh first r.sh r.comp).2.getD n 0)))).map
            (fun l => (plainLine r.fmt (fun _ => none) r.ftz l).1)))) ∧
    (r.dest = 2 → ∃ u b, exec (.drain t g src ws ext ⟨0, none⟩) s = .next u ∧ u.mem = s.mem ∧
      u.arr.bus.get [] t = s.arr.bus.get [] t ++ [b] ∧ b.array = a ∧ b.first = first ∧ b.src = src ∧ b.words = ws ∧ b.since = none ∧
      ∃ k, (u.array t p).lease? first = some k ∧ k.drained = true)) ∧
  (∀ (t : TileIx) (a : Fin 80) (slot : Nat) (s : State) (l : Lease) (h : HeldDrain) (p q : Nat),
    p = s.phys t a → q = s.phys t (twinOf a) → p ≠ q → (s.array t p).lease? slot = some l → l.held = some h → l.first = slot →
    l.overflowed = false → l.log.any (·.ssrc) = false → (∀ k ∈ (s.array t q).leases, k.overlaps l.first l.foot = false) →
    s.drainBusy t (twinOf a) = false → (drainRec h.words).dest = 0 → (s.awayFrom t (a.val / 8)).contains h.src.fn.val = false →
    ∃ u, exec (.tileReplay t a slot false false) s = .next u ∧ s.storesOnly u (drainRanges (drainRec h.words) t) ∧
      (u.array t p).lease? slot = none ∧ (u.array t q).lease? slot = none ∧
      (u.array t p).mismatches = (s.array t p).mismatches + l.mism ∧
      ((s.array t p).kept = false → 2 ≤ (s.array t p).mismatches + l.mism → (u.array t p).retiring = true) ∧
      u.health.mism.get 0 (t.val * 84 + p) = min 127 (s.health.mism.get 0 (t.val * 84 + p) + l.mism))

/-- ARRAY_RETIRE (R86, R87): an array under its second mismatch gives its number to the first spare left, which reloads its panel; with
no spare left SPARES_EXHAUSTED stands in the log, the gallery's map is refused to later programs, and the run stops. -/
def Obligations.ArraysRetire : Prop :=
  ∀ (t : TileIx) (a : Fin 80) (s : State) (p : Nat), s.keeper.kbusy = false → p = s.phys t a → (s.array t p).retiring = true →
    (s.array t p).retired = false → (s.array t p).leases = [] →
    (∀ q, 80 ≤ q → q ≤ 83 → (s.array t q).retired = false → (∀ b < 80, s.phys t b ≠ q) →
      (∀ k, 80 ≤ k → k < q → (s.array t k).retired = true ∨ ∃ b < 80, s.phys t b = k) →
      ∃ u, exec (.arrayRetire t a) s = .next u ∧ u.phys t a = q ∧ (u.array t p).retired = true ∧ (u.array t q).forceReload = true ∧
        (u.array t q).waiting = (s.array t p).waiting ∧ (∀ b : Fin 80, b ≠ a → u.phys t b = s.phys t b) ∧ u.run = s.run ∧
        u.mem = s.mem) ∧
    ((∀ q, 80 ≤ q → q ≤ 83 → (s.array t q).retired = true ∨ ∃ b < 80, s.phys t b = q) →
      ∃ u, exec (.arrayRetire t a) s = .next u ∧ u.phys t a = p ∧ (u.array t p).retired = false ∧
        t.val * 10 + a.val / 8 ∈ u.health.badGalleries ∧ (s.run.active = true → u.run.stop ≠ none) ∧ u.mem = s.mem ∧
        (∃ bs, u.health.log.get [] s.health.loghead = bs ∧ bs.take 2 = leBytes 2 0x102))

/-! ### The Target engine and the sampler -/

/-- TEACHER_TILE, RECORD_FORWARD, STUDENT_NORM_TILE and STUDENT_GRAD_TILE (R120, R125, R128, R130 to R134, R137, R138, R141 to R143):
positions open, their vocabulary advances with the tile, records are written at the end of a teacher pass, moved whole, read by the
student passes and consumed at the end of the gradient pass. How a module acknowledges a record it was sent
is the model's (log entry 63). -/
def Obligations.TargetTilesPass : Prop :=
  (∀ (t : TileIx) (a : Fin 80) (s : State) (b : BusTile) (ps : List Nat) (e1 : TargetSt), s.busTile t a 0 = some b →
    ps = (List.range b.npos).map b.pos → (∀ p ∈ ps, (s.target t).openAt p = none) → (drainRec b.words).vidx = 0 →
    (s.target t).openCount true + b.npos ≤ 640 → (s.target t).openScore ps = some e1 →
    ∃ u, exec (.teacherTile t a) s = .next u ∧ (∀ x ∈ u.arr.bus.get [] t, x.array ≠ b.array) ∧
      (u.target t).full = (u.arr.bus.get [] t).any (fun x => x.since.isSome && x.tmode == 0) ∧
      ((drainRec b.words).vend = false → u.mem = Mem.place s.mem b.owed ∧
        ∀ p ∈ ps, ∃ o, (u.target t).openAt p = some o ∧ o.mode = .teacher ∧ o.expect = b.nextV) ∧
      ((drainRec b.words).vend = true → ∀ p ∈ ps, (u.target t).openAt p = none ∧ ((u.target t).slots.get {} p).valid = true ∧
        ((u.target t).slots.get {} p).ptag = p ∧ ((u.target t).slots.get {} p).gen = (s.target t).parity)) ∧
  (∀ (n : Nat) (t d : TileIx) (m : Nat) (pairs : List Word) (w : DWord) (s : State) (x : SlotWord),
    x = (s.target t).slots.get {} (n % 65536) → x.valid = true → (s.target t).openAt (n % 65536) = none →
    ((s.target t).forwarding.find? (n % 65536) ≠ some m → ∃ u, exec (.recordForward n (.tile t) (.module m) pairs w) s = .next u ∧
      s.onlyChanges u [.tgt, .outbox] ∧
      u.outbox = .record m (n % 65536) (s.pairsOf t (n % 65536)) (BitVec.ofNat 64 x.word) :: s.outbox ∧
      (u.target t).slots = (s.target t).slots ∧ (u.target t).forwarding.find? (n % 65536) = some m) ∧
    ((s.target t).forwarding.find? (n % 65536) = some m → bitOf w.toNat 22 = true → bitsOf w.toNat 63 48 = n % 65536 →
      ∃ u, exec (.recordForward n (.tile t) (.module m) pairs w) s = .next u ∧ s.onlyChanges u [.tgt] ∧
        ((u.target t).slots.get {} (n % 65536)).valid = false ∧ (u.target t).forwarding.has (n % 65536) = false) ∧
    ((s.target t).forwarding.has (n % 65536) = false →
      (∀ sp, d ≠ t → (s.target d).slotFor (n % 65536) = some sp → ∃ u, exec (.recordForward n (.tile t) (.tile d) pairs w) s = .next u ∧
        s.onlyChanges u [.mem, .tgt] ∧ (u.target d).slots.get {} (n % 65536) = { x with ptag := n % 65536, valid := true, spilled := sp } ∧
        ((u.target t).slots.get {} (n % 65536)).valid = false ∧
        s.storesOnly u [(if sp then (s.target d).active.spillAddr d (n % 65536) else (s.target d).active.ringAddr d (n % 65536),
          4 * (s.target t).active.k)]) ∧
      ((s.target d).slotFor (n % 65536) = none → ∃ u, exec (.recordForward n (.tile t) (.tile d) pairs w) s = .next u ∧
        s.onlyChanges u [.tgt] ∧ (u.target t).slots = (s.target t).slots ∧ n % 65536 ∈ (u.target d).fwds ∧
        (u.target d).stalled = true))) ∧
  (∀ (t : TileIx) (a : Fin 80) (s : State) (b : BusTile) (ps : List Nat), s.busTile t a 1 = some b →
    ps = (List.range b.npos).map b.pos → (∀ p ∈ ps, (s.target t).openAt p = none ∧ ((s.target t).slots.get {} p).valid = true ∧
      ((s.target t).slots.get {} p).ptag = p) → (drainRec b.words).vidx = 0 → (s.target t).openCount false + b.npos ≤ 640 →
    ∃ u, exec (.studentNormTile t a) s = .next u ∧ (∀ x ∈ u.arr.bus.get [] t, x.array ≠ b.array) ∧
      (u.target t).waiting = (u.arr.bus.get [] t).any (fun x => x.since.isSome && x.tmode == 1) ∧
      u.mem = Mem.place s.mem b.owed ∧ ∀ p ∈ ps, ∃ o, (u.target t).openAt p = some o ∧
        ((drainRec b.words).vend = false → o.mode = .norm ∧ o.expect = b.nextV) ∧
        ((drainRec b.words).vend = true → o.mode = .grad ∧ o.expect = 0)) ∧
  (∀ (t : TileIx) (a : Fin 80) (s : State) (b : BusTile) (ps : List Nat), s.busTile t a 2 = some b →
    ps = (List.range b.npos).map b.pos → (∀ p ∈ ps, ∃ o, (s.target t).openAt p = some o ∧ o.mode = .grad ∧
      o.expect = (drainRec b.words).vidx) → (s.gallery t (a.val / 8)).delivery.length < 16 → (s.gallery t (a.val / 8)).takers = [] →
    ∃ u g, exec (.studentGradTile t a) s = .next u ∧ (u.gallery t (a.val / 8)).delivery = (s.gallery t (a.val / 8)).delivery ++ [g] ∧
      g.fmt = (s.target t).active.gfmt ∧ g.lines.length = b.npos ∧ g.handle = b.src.handle ∧
      ((drainRec b.words).vend = false → u.mem = Mem.place s.mem b.owed ∧
        ∀ p ∈ ps, ∃ o, (u.target t).openAt p = some o ∧ o.expect = b.nextV) ∧
      ((drainRec b.words).vend = true → (∀ p ∈ ps, (u.target t).openAt p = none ∧ ((u.target t).slots.get {} p).valid = false) ∧
        s.storesOnly u (b.owed.map (fun x => (x.1, x.2.length)) ++
          ps.map (fun p => (spadBase t + (s.target t).active.lossBase.toNat + 16 * p, 16)))))

/-- SAMPLE_TILE (R121, R122, R267): an accepted tile advances every position it brings; at the end of the vocabulary each sampled
position closes with its token drawn. -/
def Obligations.SamplerDraws : Prop :=
  ∀ (t : TileIx) (a : Fin 80) (s : State) (b : BusTile) (ps : List Nat), s.busTile t a 3 = some b →
    ps = (List.range b.npos).map b.pos → (∀ p ∈ ps, ((s.sampler t).at_ p).expect = (drainRec b.words).vidx) →
    (s.sampler t).open_.length + b.npos ≤ 640 → (∀ p ∈ ps, ∀ x, s.sampleSlot t p = some x → ∃ q, s.req? x.req = some q) →
    ∃ u, exec (.sampleTile t a) s = .next u ∧ (∀ x ∈ u.arr.bus.get [] t, x.array ≠ b.array) ∧ u.mem = Mem.place s.mem b.owed ∧
      ((drainRec b.words).vend = false → ∀ p ∈ ps, ((u.sampler t).at_ p).expect = b.nextV) ∧
      ((drainRec b.words).vend = true → (∀ p ∈ ps, ∀ o ∈ (u.sampler t).open_, o.pidx ≠ p) ∧
        ∀ p ∈ ps, ∀ x, s.sampleSlot t p = some x → ∃ d ∈ (u.sampler t).drawn, d.req = x.req ∧ d.t = x.t ∧ d.role = x.role)

/-! ### Vector engines -/

/-- CHAIN and SETLEN (R149, R150, R152, R155 to R164, R172): a chain stores its converted output rows over its function's length, or keeps
its place at the beat it is stopped at; SETLEN sets that length, for its function alone, from the immediate or from the compress count, and
behind a chain of its function the immediate is staged and the count is waited for. -/
def Obligations.ChainsRun : Prop :=
  (∀ (t : TileIx) (e : Fin 8) (src : Src) (ws : List Word) (s : State) (r : ChainRec) (n : Nat) (ls : List Lane) (kept : Nat),
    r = chainRec ws → s.vecTakes t e src ws = true → n = (s.vecEng t e).settle.len.get 0 src.fn.val → ls = (s.lanes t src.fn r n).1 →
    r.muse = 0 → kept = (ls.filter (fun l => l.mask != 0)).length → r.code n kept = 0 →
    s.failedIn (r.usedStreams.flatMap (fun i => (r.inAt i).ranges t r.rlen n kept)) = [] →
    (r.rop = 0 → ∃ u, exec (.chain t e src ws ⟨false, none⟩) s = .next u ∧ s.onlyChanges u [.mem, .eng, .run, .prog, .sched, .tier] ∧
      (r.oen = false → u.mem = s.mem) ∧
      (r.oen = true → ((NF.ofCode r.out.fmt).getD .fp32).scaled = false → u.mem = Mem.writeLines s.mem (spadBase t + r.out.addr) r.out.rstride
        ((chunks r.rlen ls).map (fun g => (outRow (s.draws t src.fn) r (g.map (fun l => l.vs.getD r.osel 0)) (g.map (fun l => r.index l.i))).1))) ∧
      (∀ f, (u.vecEng t e).len.get 0 f = (s.vecEng t e).settle.len.get 0 f) ∧ (u.vecEng t e).cnt = (s.vecEng t e).cnt) ∧
    (∀ b, r.atBeat n b < n → ∃ u x, exec (.chain t e src ws ⟨false, some b⟩) s = .next u ∧
      (u.vecEng t e).parts.find? src.fn.val = some x ∧ x.src = src ∧ x.words = ws ∧ x.len = n ∧ x.vals.length = r.atBeat n b ∧
      (u.vecEng t e).len = (s.vecEng t e).settle.len)) ∧
  (∀ (t : TileIx) (e : Fin 8) (src : Src) (w : Word) (rest ws : List Word) (s : State), ws = w :: rest → s.engineTakes t 2 e src (EngCmd.is ws []) = true →
    fld ws 0 31 28 = 2 → fld ws 0 26 0 = 0 → fld ws 1 31 24 = 0 → (∀ i < 14, ws.getD (2 + i) 0 = 0) →
    ((s.vecEng t e).parts.has src.fn.val = false →
      ∃ u, exec (.setlen t e src w rest) s = .next u ∧ s.onlyChanges u [.eng, .run, .prog, .sched] ∧
        (u.vecEng t e).len.get 0 src.fn.val =
          (if flag ws 0 27 then (s.vecEng t e).settle.cnt.get 0 src.fn.val else fld ws 1 23 0) ∧
        (∀ f, f ≠ src.fn.val → (u.vecEng t e).len.get 0 f = (s.vecEng t e).settle.len.get 0 f) ∧
        (u.vecEng t e).cnt = (s.vecEng t e).cnt) ∧
    ((s.vecEng t e).parts.has src.fn.val = true → flag ws 0 27 = false →
      ∃ u, exec (.setlen t e src w rest) s = .next u ∧ (u.vecEng t e).staged.find? src.fn.val = some (fld ws 1 23 0) ∧
        (u.vecEng t e).len = (s.vecEng t e).settle.len ∧
        ((s.vecEng t e).settle.staged = [] →
          (VecSt.settle { (u.vecEng t e) with parts := (u.vecEng t e).parts.del src.fn.val }).len.get 0 src.fn.val = fld ws 1 23 0)) ∧
    ((s.vecEng t e).parts.has src.fn.val = true → flag ws 0 27 = true → exec (.setlen t e src w rest) s = .next s))

/-- UPDATE (R214, R221 to R227, R233): a prepass stores its entries and marks the step prepassed; an update writes planes of the shadow
bank alone, leaves the step counter in its header, and marks the shadow bank written. -/
def Obligations.UpdatesWriteTheShadowBank : Prop :=
  ∀ (t : TileIx) (e : Fin 8) (src : Src) (ws : List Word) (s : State) (r : UpdRec) (d : GroupDesc) (k n : Nat) (p q : Planes) (rs : List (Nat × Nat)),
    r = updRec ws → s.vecTakes t e src ws = true → s.updateWaits t e src r.prepass = false → s.prog.groups.find? r.desc = some d →
    (∀ x ∈ (s.vecEng t e).upds, x.src ≠ src ∨ x.words ≠ ws) →
    r.code t.val (some d) = 0 → n = groupBlocks d → k = (d.entries.filter (fun x => (entryBlocks d x).any r.covers)).length →
    (p, q) = (if bitOf (Mem.nat s.mem (spadBase t + r.ucb + 16) 8) 0 then (d.bank1, d.bank0) else (d.bank0, d.bank1)) →
    rs = [(q.master, 64 * n), (q.work, 32 * n), (q.workS, n), (q.m, 32 * n), (q.mS, n)] ++
        (if d.rule = 1 then [(q.r, 32 * n), (q.rS, n)] else []) ++
        (if d.rule = 0 then [(q.fs, 2052 * (bandsOf d 256 * cdiv d.cols 256))] else []) ++
        (if r.turn then [(q.turn, 32 * (bandsOf d 32 * d.cols)), (q.turnS, bandsOf d 32 * d.cols)] else []) →
    (∀ a, (spadBase t + r.ucb ≤ a ∧ a < spadBase t + r.ucb + 64) ∨ (p.hdr ≤ a ∧ a < p.hdr + 8) → outside a rs) →
    (r.prepass = true → ∃ u, exec (.update t e src ⟨ws, none⟩) s = .next u ∧ u.run.prepassed = true ∧ u.run.shadow = s.run.shadow ∧
      cmdKey (queueCode t 2 e) src.index ∈ u.run.prepDone ∧ s.storesOnly u [(spadBase t + r.naddr, 4 * k)]) ∧
    (r.prepass = false → ∃ u, exec (.update t e src ⟨ws, none⟩) s = .next u ∧ u.run.shadow = true ∧ u.run.bank = s.run.bank ∧
      cmdKey (queueCode t 2 e) src.index ∈ u.run.updated ∧
      Mem.nat u.mem q.hdr 8 = (Mem.nat s.mem p.hdr 8 + 1) % 2 ^ 64 ∧ s.storesOnly u (rs ++ [(q.hdr, 8)]) ∧
      (d.rule ≠ 0 → r.turn = false → u.mem = Mem.writeN (((List.range r.nblk).map (fun j =>
          updateBlock s.mem { keys := [s.run.seed], step := s.run.step } r d p (Mem.word s.mem (spadBase t + r.ucb))
            ((Mem.nat s.mem p.hdr 8 + 1) % 2 ^ 64)
            (betaPow d.beta1 ((Mem.nat s.mem p.hdr 8 + 1) % 2 ^ 64)) (betaPow d.beta2 ((Mem.nat s.mem p.hdr 8 + 1) % 2 ^ 64))
            (r.blk0 + j))).foldl (writeBlock d q) s.mem) q.hdr (leBytes 8 ((Mem.nat s.mem p.hdr 8 + 1) % 2 ^ 64))) ∧
      (∀ b < r.nblk, b ≠ 0 → ∃ v x, exec (.update t e src ⟨ws, some b⟩) s = .next v ∧ x ∈ (v.vecEng t e).upds ∧ x.src = src ∧
        x.words = ws ∧ x.block = b ∧ v.run.updated = s.run.updated))

/-! ### Pack engines -/

/-- R189 to R192: the frame that holds 1 to 32 blocks of E4M3 codes, stored in a slot, is read back as those blocks. -/
def Obligations.FramesReadBack : Prop :=
  ∀ (m : Mem) (a : Nat) (bs : List PBlock), bs ≠ [] → bs.length ≤ 32 →
    (∀ b ∈ bs, b.1 < 256 ∧ b.2.length = 32 ∧ ∀ c ∈ b.2, c < 256) → decodeFrame (Mem.writeN m a (frameBytes bs)) a = some bs

/-- SAVE_DRAIN, SAVE_SPAD and EXPAND (R186 to R188, R192, R194, R195): a SAVE_DRAIN opens for its tile rows, a SAVE_SPAD stores into its
tiles' slots alone, an EXPAND stores into its rows of the scratchpad alone; a frame that cannot be decoded is a declared failure. -/
def Obligations.TilesArePacked : Prop :=
  ∀ (t : TileIx) (p : Fin 2) (src : Src) (ws : List Word) (s : State) (r : PackRec), r = packRec ws →
    s.engineTakes t 3 p src (EngCmd.is ws []) = true →
    (r.code 1 = 0 → (s.eng.saves.get [] (t.val * 2 + p.val)).length < 8 → s.eng.packWait.get [] (t.val * 2 + p.val) = [] →
      ∃ u, exec (.saveDrain t p src ws) s = .next u ∧ s.onlyChanges u [.eng, .run, .prog, .sched] ∧
        u.eng.saves.get [] (t.val * 2 + p.val) = s.eng.saves.get [] (t.val * 2 + p.val) ++
          (if r.ntr = 0 then [] else [{ src := src, words := ws, left := r.ntr }])) ∧
    (r.code 2 = 0 → s.failedIn (lineRanges (spadBase t + r.saddr) r.sstride (min (r.ntr * r.h) (r.nrow - r.tr0 * r.h))
        ((if r.bf16 then 2 else 4) * r.ncol) ++ mergedStripes [(r.dbase + r.tr0 * r.tcols * 1152, r.ntr * r.tcols * 1152)]) = [] →
      ∃ u, exec (.saveSpad t p src ws) s = .next u ∧ s.onlyChanges u [.mem, .eng, .run, .prog, .sched, .fnp] ∧
      s.storesOnly u ((List.range (r.ntr * r.tcols)).map (fun j => (r.dbase + (r.tr0 * r.tcols + j) * 1152, 1152))) ∧
      (r.ntr = 1 → r.tcols = 1 → u.mem = Mem.writeN s.mem (r.dbase + r.tr0 * 1152) (frameBytes (tileBlocks (spadTile s.mem t r r.tr0 0)).1))) ∧
    (r.code 3 = 0 → s.failedIn [(r.dbase + r.tr0 * r.tcols * 1152, r.ntr * r.tcols * 1152)] = [] →
      ∃ u, exec (.expand t p src ws) s = .next u ∧
      s.storesOnly u ((List.range (r.ntr * r.h)).flatMap (fun j =>
        [(spadBase t + r.saddr + j * r.sstride, if r.ofmt = 0 then 32 * cdiv r.ncol 32 else 4 * r.ncol),
         (spadBase t + r.sscale + j * r.ssstride, if r.ofmt = 0 then cdiv r.ncol 32 else 0)])) ∧
      (r.ntr = 1 → r.tcols = 1 →
        (∀ bs, decodeFrame s.mem (r.dbase + r.tr0 * 1152) = some bs → u.mem = (expandFrame s.mem t r r.tr0 0 bs).1 ∧
          u.tier.failed = s.tier.failed) ∧
        (decodeFrame s.mem (r.dbase + r.tr0 * 1152) = none → u.mem = s.mem ∧
          ∃ f ∈ u.tier.failed, f.unit = unitOf (r.dbase + r.tr0 * 1152) ∧ src ∈ f.waiters)))

/-! ### Turn, row and copy engines -/

/-- TURN_STORE, RMS, LAYER, SMAX_STAT, SMAX and MERGE (R182, R183, R196, R198, R199): each stores its results in the rows its command
names, and no other byte of memory changes. -/
def Obligations.RowsForward : Prop :=
  (∀ (t : TileIx) (p : Fin 2) (src : Src) (a : TurnArgs) (s : State), s.engineTakes t 4 p src (fun _ => true) = true →
    ([.e4m3, .e5m2, .bf16] : List NF).contains a.src.fmt = true → a.src.fits a.rows a.cols = true →
    s.failedIn (a.src.ranges t a.rows a.cols) = [] →
    TStream.fits { a.dst with fmt := a.src.fmt } a.cols a.rows = true →
    ∃ u, exec (.turnStore t p src a) s = .next u ∧ s.onlyChanges u [.mem, .eng, .run, .prog, .sched, .tier] ∧
      s.storesOnly u ((List.range a.cols).flatMap (fun i => tensorRanges { a.dst with fmt := a.src.fmt } t i a.rows)) ∧
      (a.src.fmt.scaled = false → u.mem = TStream.store { a.dst with fmt := a.src.fmt } s.mem t (turnCodes s.mem t a))) ∧
  (∀ (t : TileIx) (p : Fin 2) (src : Src) (a : RowArgs) (s : State) (n : Nat), s.engineTakes t 5 p src (fun _ => true) = true → a.failed = false →
    rowFmts a = true → s.failedIn ((a.x ++ a.dy ++ a.dp).flatMap (fun c => c.at_.ranges t a.rows c.width)) = [] →
    n = chunksWidth a.x →
    (chunksFit a.rows a.x = true → chunksFit a.rows a.out = true → a.gain.fits 1 n = true →
      ∃ u, exec (.rms t p src a) s = .next u ∧ s.onlyChanges u [.mem, .eng, .run, .prog, .sched, .tier] ∧ s.storesOnly u (rowRanges a t) ∧
        u.mem = (storeRows s.mem t a.ftz a.out ((List.range a.rows).map (fun i =>
          rmsRow a.eps (chunksRow s.mem t i a.x) (a.gain.line s.mem t 0 n)))).1) ∧
    (chunksFit a.rows a.x = true → chunksFit a.rows a.out = true → a.gain.fits 1 n = true → a.bias.fits 1 n = true →
      ∃ u, exec (.layer t p src a) s = .next u ∧ s.onlyChanges u [.mem, .eng, .run, .prog, .sched, .tier] ∧ s.storesOnly u (rowRanges a t) ∧
        u.mem = (storeRows s.mem t a.ftz a.out ((List.range a.rows).map (fun i =>
          layerRow a.eps (chunksRow s.mem t i a.x) (a.gain.line s.mem t 0 n) (a.bias.line s.mem t 0 n)))).1) ∧
    (chunksFit a.rows a.x = true → extentFits a.stat 0 1 (8 * a.rows) = true →
      ∃ u, exec (.smaxStat t p src a) s = .next u ∧ s.onlyChanges u [.mem, .eng, .run, .prog, .sched, .tier] ∧
        s.storesOnly u [(spadBase t + a.stat, 8 * a.rows)]) ∧
    (chunksFit a.rows a.x = true → chunksFit a.rows a.out = true → extentFits a.stat 0 1 (8 * a.rows) = true →
      ∃ u, exec (.smax t p src a) s = .next u ∧ s.onlyChanges u [.mem, .eng, .run, .prog, .sched, .tier] ∧ s.storesOnly u (rowRanges a t) ∧
        u.mem = (storeRows s.mem t a.ftz a.out ((List.range a.rows).map (fun i => probRow s.mem t a i))).1) ∧
    ((∀ b ∈ a.parts, extentFits b 0 1 ((if a.variance then 8 else 4) * a.rows) = true) →
      extentFits a.stat 0 1 ((if a.variance then 8 else 4) * a.rows) = true →
      ∃ u, exec (.merge t p src a) s = .next u ∧ s.onlyChanges u [.mem, .eng, .run, .prog, .sched, .tier] ∧
        s.storesOnly u [(spadBase t + a.stat, (if a.variance then 8 else 4) * a.rows)]))

/-- RMS_BWD, LAYER_BWD, SMAX_BWD and DOT (R107, R196 to R198, R200): gradients go to their rows, gain and bias gradients to their vectors
with their norm entries, and no other byte of memory changes. -/
def Obligations.RowsBackward : Prop :=
  ∀ (t : TileIx) (p : Fin 2) (src : Src) (a : RowArgs) (s : State) (n : Nat), s.engineTakes t 5 p src (fun _ => true) = true → a.failed = false →
    rowFmts a = true → s.failedIn ((a.x ++ a.dy ++ a.dp).flatMap (fun c => c.at_.ranges t a.rows c.width)) = [] →
    n = chunksWidth a.x → chunksFit a.rows a.x = true →
    (chunksFit a.rows a.dy = true → chunksFit a.rows a.out = true → a.gain.fits 1 n = true → extentFits a.dgain 0 1 (4 * n) = true →
      (extentFits a.norm 0 1 4 = true → ∃ u, exec (.rmsBwd t p src a) s = .next u ∧ s.onlyChanges u [.mem, .eng, .run, .prog, .sched, .tier] ∧
        s.storesOnly u (rowRanges a t ++ [(spadBase t + a.dgain, 4 * n), (spadBase t + a.norm, 4)])) ∧
      (extentFits a.dbias 0 1 (4 * n) = true → extentFits a.norm 0 1 8 = true →
        ∃ u, exec (.layerBwd t p src a) s = .next u ∧ s.onlyChanges u [.mem, .eng, .run, .prog, .sched, .tier] ∧
          s.storesOnly u (rowRanges a t ++ [(spadBase t + a.dgain, 4 * n), (spadBase t + a.dbias, 4 * n), (spadBase t + a.norm, 8)]))) ∧
    (chunksFit a.rows a.dp = true → chunksFit a.rows a.out = true → extentFits a.stat 0 1 (8 * a.rows) = true →
      extentFits a.delta 0 1 (4 * a.rows) = true →
      ∃ u, exec (.smaxBwd t p src a) s = .next u ∧ s.onlyChanges u [.mem, .eng, .run, .prog, .sched, .tier] ∧ s.storesOnly u (rowRanges a t) ∧
        u.mem = (storeRows s.mem t a.ftz a.out ((List.range a.rows).map (fun i =>
          zipW (fun pr d => rmul (rmul (ofFP32 a.c) pr) (rsub d (rowDelta s.mem t a i))) (probRow s.mem t a i)
            (chunksRow s.mem t i a.dp)))).1) ∧
    (chunksFit a.rows a.dy = true → extentFits a.delta 0 1 (4 * a.rows) = true →
      ∃ u, exec (.dot t p src a) s = .next u ∧ s.onlyChanges u [.mem, .eng, .run, .prog, .sched, .tier] ∧
        s.storesOnly u [(spadBase t + a.delta, 4 * a.rows)] ∧
        u.mem = (storeFP32 s.mem t a.delta a.ftz ((List.range a.rows).map (fun i =>
          rowSum (zipW rmul (chunksRow s.mem t i a.x) (chunksRow s.mem t i a.dy))))).1)

/-- COPY and FILL (R285): rows in order, read after the rows before them were written; a command whose addresses are local stores into
its destination rows alone, and one whose destination is another module stores nothing here. -/
def Obligations.CopiesMoveRows : Prop :=
  ∀ (t : TileIx) (e : Fin 4) (src : Src) (ws : List Word) (s : State) (r : CopyRec), r = copyRec ws →
    s.engineTakes t 7 e src (EngCmd.is ws []) = true →
    (∀ a b remote, s.copyPlace r r.src = .here a → s.copyPlace r r.dst = .here b → r.code false (.here a) (.here b) = 0 →
      (∀ i < r.nrow, ∀ x ∈ accessesOf (a + i * r.sstride) r.len, s.failedAt x = false) → s.failedIn ((Place.here b).merges r) = [] →
      ∃ u, exec (.copy t e src ws remote) s = .next u ∧ s.onlyChanges u [.mem, .run, .prog, .sched, .fnp] ∧
        u.mem = (List.range r.nrow).foldl (fun m i => Mem.writeN m (b + i * r.dstride) (Mem.readN m (a + i * r.sstride) r.len)) s.mem ∧
        s.storesOnly u ((List.range r.nrow).map (fun i => (b + i * r.dstride, r.len)))) ∧
    (∀ a m x remote, s.copyPlace r r.src = .here a → s.copyPlace r r.dst = .there m x → r.code false (.here a) (.there m x) = 0 →
      (∀ i < r.nrow, ∀ z ∈ accessesOf (a + i * r.sstride) r.len, s.failedAt z = false) →
      ∃ u, exec (.copy t e src ws remote) s = .next u ∧ u.mem = s.mem ∧
        u.link.nextMove = (s.link.nextMove + 1) % 2 ^ 32) ∧
    (∀ b, s.copyPlace r r.dst = .here b → r.code true .nowhere (.here b) = 0 → s.failedIn ((Place.here b).merges r) = [] →
      ∃ u, exec (.fill t e src ws) s = .next u ∧ s.onlyChanges u [.mem, .run, .prog, .sched, .fnp] ∧ s.storesOnly u ((List.range r.nrow).map (fun i => (b + i * r.dstride, r.len))) ∧
      (r.nrow = 1 → ∀ j < r.len / 4, Mem.word u.mem (b + 4 * j) = r.pattern))

/-! ### Frames -/

/-- What the mailbox commands, the Keeper's own commands, register accesses, serving, arrays and engines leave alone: a command that ends
in a next state changes no part of the state its entry in Instr.touches leaves out; the queue is in none (the Lean lemmas of
Laws/PerInstr say so of each command). -/
def Obligations.HostCommandsKeepTheRest : Prop :=
  ∀ (i : Instr) (s t : State), i.family = .mailbox ∨ i.family = .keeper ∨ i.family = .register ∨ i.family = .serving ∨
    i.family = .array ∨ i.family = .engine → exec i s = .next t → s.onlyChanges t i.touches

/-- The same for every other family: the training step, memory, links, power, functions and security. -/
def Obligations.ModuleCommandsKeepTheRest : Prop :=
  ∀ (i : Instr) (s t : State), i.family = .step ∨ i.family = .memory ∨ i.family = .link ∨ i.family = .power ∨ i.family = .function ∨
    i.family = .security → exec i s = .next t → s.onlyChanges t i.touches
end

