-- ==== Sys2Proof/Laws/State.lean ====
section
/-! SUPPORT. One lemma per field per update of the state, all true by definition. -/
namespace Sys2Proof.Machine
variable (s : State)
/-! ### setMem -/
@[simp] theorem State.setMem_mem (v : List Host.Cell) : (s.setMem v).mem = v := rfl
@[simp] theorem State.setMem_hostMem (v : List Host.Cell) : (s.setMem v).hostMem = s.hostMem := rfl
@[simp] theorem State.setMem_arr (v : List Host.Cell) : (s.setMem v).arr = s.arr := rfl
@[simp] theorem State.setMem_tgt (v : List Host.Cell) : (s.setMem v).tgt = s.tgt := rfl
@[simp] theorem State.setMem_eng (v : List Host.Cell) : (s.setMem v).eng = s.eng := rfl
@[simp] theorem State.setMem_keeper (v : List Host.Cell) : (s.setMem v).keeper = s.keeper := rfl
@[simp] theorem State.setMem_pair (v : List Host.Cell) : (s.setMem v).pair = s.pair := rfl
@[simp] theorem State.setMem_prog (v : List Host.Cell) : (s.setMem v).prog = s.prog := rfl
@[simp] theorem State.setMem_run (v : List Host.Cell) : (s.setMem v).run = s.run := rfl
@[simp] theorem State.setMem_lead (v : List Host.Cell) : (s.setMem v).lead = s.lead := rfl
@[simp] theorem State.setMem_serve (v : List Host.Cell) : (s.setMem v).serve = s.serve := rfl
@[simp] theorem State.setMem_tier (v : List Host.Cell) : (s.setMem v).tier = s.tier := rfl
@[simp] theorem State.setMem_arb (v : List Host.Cell) : (s.setMem v).arb = s.arb := rfl
@[simp] theorem State.setMem_sched (v : List Host.Cell) : (s.setMem v).sched = s.sched := rfl
@[simp] theorem State.setMem_fnp (v : List Host.Cell) : (s.setMem v).fnp = s.fnp := rfl
@[simp] theorem State.setMem_link (v : List Host.Cell) : (s.setMem v).link = s.link := rfl
@[simp] theorem State.setMem_pwr (v : List Host.Cell) : (s.setMem v).pwr = s.pwr := rfl
@[simp] theorem State.setMem_sec (v : List Host.Cell) : (s.setMem v).sec = s.sec := rfl
@[simp] theorem State.setMem_health (v : List Host.Cell) : (s.setMem v).health = s.health := rfl
@[simp] theorem State.setMem_outbox (v : List Host.Cell) : (s.setMem v).outbox = s.outbox := rfl
@[simp] theorem State.setMem_fresh (v : List Host.Cell) : (s.setMem v).fresh = s.fresh := rfl
@[simp] theorem State.setMem_pending (v : List Host.Cell) : (s.setMem v).pending = s.pending := rfl

/-! ### setHostMem -/
@[simp] theorem State.setHostMem_mem (v : List Host.Cell) : (s.setHostMem v).mem = s.mem := rfl
@[simp] theorem State.setHostMem_hostMem (v : List Host.Cell) : (s.setHostMem v).hostMem = v := rfl
@[simp] theorem State.setHostMem_arr (v : List Host.Cell) : (s.setHostMem v).arr = s.arr := rfl
@[simp] theorem State.setHostMem_tgt (v : List Host.Cell) : (s.setHostMem v).tgt = s.tgt := rfl
@[simp] theorem State.setHostMem_eng (v : List Host.Cell) : (s.setHostMem v).eng = s.eng := rfl
@[simp] theorem State.setHostMem_keeper (v : List Host.Cell) : (s.setHostMem v).keeper = s.keeper := rfl
@[simp] theorem State.setHostMem_pair (v : List Host.Cell) : (s.setHostMem v).pair = s.pair := rfl
@[simp] theorem State.setHostMem_prog (v : List Host.Cell) : (s.setHostMem v).prog = s.prog := rfl
@[simp] theorem State.setHostMem_run (v : List Host.Cell) : (s.setHostMem v).run = s.run := rfl
@[simp] theorem State.setHostMem_lead (v : List Host.Cell) : (s.setHostMem v).lead = s.lead := rfl
@[simp] theorem State.setHostMem_serve (v : List Host.Cell) : (s.setHostMem v).serve = s.serve := rfl
@[simp] theorem State.setHostMem_tier (v : List Host.Cell) : (s.setHostMem v).tier = s.tier := rfl
@[simp] theorem State.setHostMem_arb (v : List Host.Cell) : (s.setHostMem v).arb = s.arb := rfl
@[simp] theorem State.setHostMem_sched (v : List Host.Cell) : (s.setHostMem v).sched = s.sched := rfl
@[simp] theorem State.setHostMem_fnp (v : List Host.Cell) : (s.setHostMem v).fnp = s.fnp := rfl
@[simp] theorem State.setHostMem_link (v : List Host.Cell) : (s.setHostMem v).link = s.link := rfl
@[simp] theorem State.setHostMem_pwr (v : List Host.Cell) : (s.setHostMem v).pwr = s.pwr := rfl
@[simp] theorem State.setHostMem_sec (v : List Host.Cell) : (s.setHostMem v).sec = s.sec := rfl
@[simp] theorem State.setHostMem_health (v : List Host.Cell) : (s.setHostMem v).health = s.health := rfl
@[simp] theorem State.setHostMem_outbox (v : List Host.Cell) : (s.setHostMem v).outbox = s.outbox := rfl
@[simp] theorem State.setHostMem_fresh (v : List Host.Cell) : (s.setHostMem v).fresh = s.fresh := rfl
@[simp] theorem State.setHostMem_pending (v : List Host.Cell) : (s.setHostMem v).pending = s.pending := rfl

/-! ### setArr -/
@[simp] theorem State.setArr_mem (v : ArrPart) : (s.setArr v).mem = s.mem := rfl
@[simp] theorem State.setArr_hostMem (v : ArrPart) : (s.setArr v).hostMem = s.hostMem := rfl
@[simp] theorem State.setArr_arr (v : ArrPart) : (s.setArr v).arr = v := rfl
@[simp] theorem State.setArr_tgt (v : ArrPart) : (s.setArr v).tgt = s.tgt := rfl
@[simp] theorem State.setArr_eng (v : ArrPart) : (s.setArr v).eng = s.eng := rfl
@[simp] theorem State.setArr_keeper (v : ArrPart) : (s.setArr v).keeper = s.keeper := rfl
@[simp] theorem State.setArr_pair (v : ArrPart) : (s.setArr v).pair = s.pair := rfl
@[simp] theorem State.setArr_prog (v : ArrPart) : (s.setArr v).prog = s.prog := rfl
@[simp] theorem State.setArr_run (v : ArrPart) : (s.setArr v).run = s.run := rfl
@[simp] theorem State.setArr_lead (v : ArrPart) : (s.setArr v).lead = s.lead := rfl
@[simp] theorem State.setArr_serve (v : ArrPart) : (s.setArr v).serve = s.serve := rfl
@[simp] theorem State.setArr_tier (v : ArrPart) : (s.setArr v).tier = s.tier := rfl
@[simp] theorem State.setArr_arb (v : ArrPart) : (s.setArr v).arb = s.arb := rfl
@[simp] theorem State.setArr_sched (v : ArrPart) : (s.setArr v).sched = s.sched := rfl
@[simp] theorem State.setArr_fnp (v : ArrPart) : (s.setArr v).fnp = s.fnp := rfl
@[simp] theorem State.setArr_link (v : ArrPart) : (s.setArr v).link = s.link := rfl
@[simp] theorem State.setArr_pwr (v : ArrPart) : (s.setArr v).pwr = s.pwr := rfl
@[simp] theorem State.setArr_sec (v : ArrPart) : (s.setArr v).sec = s.sec := rfl
@[simp] theorem State.setArr_health (v : ArrPart) : (s.setArr v).health = s.health := rfl
@[simp] theorem State.setArr_outbox (v : ArrPart) : (s.setArr v).outbox = s.outbox := rfl
@[simp] theorem State.setArr_fresh (v : ArrPart) : (s.setArr v).fresh = s.fresh := rfl
@[simp] theorem State.setArr_pending (v : ArrPart) : (s.setArr v).pending = s.pending := rfl

/-! ### setTgt -/
@[simp] theorem State.setTgt_mem (v : Tab TargetSt) : (s.setTgt v).mem = s.mem := rfl
@[simp] theorem State.setTgt_hostMem (v : Tab TargetSt) : (s.setTgt v).hostMem = s.hostMem := rfl
@[simp] theorem State.setTgt_arr (v : Tab TargetSt) : (s.setTgt v).arr = s.arr := rfl
@[simp] theorem State.setTgt_tgt (v : Tab TargetSt) : (s.setTgt v).tgt = v := rfl
@[simp] theorem State.setTgt_eng (v : Tab TargetSt) : (s.setTgt v).eng = s.eng := rfl
@[simp] theorem State.setTgt_keeper (v : Tab TargetSt) : (s.setTgt v).keeper = s.keeper := rfl
@[simp] theorem State.setTgt_pair (v : Tab TargetSt) : (s.setTgt v).pair = s.pair := rfl
@[simp] theorem State.setTgt_prog (v : Tab TargetSt) : (s.setTgt v).prog = s.prog := rfl
@[simp] theorem State.setTgt_run (v : Tab TargetSt) : (s.setTgt v).run = s.run := rfl
@[simp] theorem State.setTgt_lead (v : Tab TargetSt) : (s.setTgt v).lead = s.lead := rfl
@[simp] theorem State.setTgt_serve (v : Tab TargetSt) : (s.setTgt v).serve = s.serve := rfl
@[simp] theorem State.setTgt_tier (v : Tab TargetSt) : (s.setTgt v).tier = s.tier := rfl
@[simp] theorem State.setTgt_arb (v : Tab TargetSt) : (s.setTgt v).arb = s.arb := rfl
@[simp] theorem State.setTgt_sched (v : Tab TargetSt) : (s.setTgt v).sched = s.sched := rfl
@[simp] theorem State.setTgt_fnp (v : Tab TargetSt) : (s.setTgt v).fnp = s.fnp := rfl
@[simp] theorem State.setTgt_link (v : Tab TargetSt) : (s.setTgt v).link = s.link := rfl
@[simp] theorem State.setTgt_pwr (v : Tab TargetSt) : (s.setTgt v).pwr = s.pwr := rfl
@[simp] theorem State.setTgt_sec (v : Tab TargetSt) : (s.setTgt v).sec = s.sec := rfl
@[simp] theorem State.setTgt_health (v : Tab TargetSt) : (s.setTgt v).health = s.health := rfl
@[simp] theorem State.setTgt_outbox (v : Tab TargetSt) : (s.setTgt v).outbox = s.outbox := rfl
@[simp] theorem State.setTgt_fresh (v : Tab TargetSt) : (s.setTgt v).fresh = s.fresh := rfl
@[simp] theorem State.setTgt_pending (v : Tab TargetSt) : (s.setTgt v).pending = s.pending := rfl

/-! ### setEng -/
@[simp] theorem State.setEng_mem (v : EngPart) : (s.setEng v).mem = s.mem := rfl
@[simp] theorem State.setEng_hostMem (v : EngPart) : (s.setEng v).hostMem = s.hostMem := rfl
@[simp] theorem State.setEng_arr (v : EngPart) : (s.setEng v).arr = s.arr := rfl
@[simp] theorem State.setEng_tgt (v : EngPart) : (s.setEng v).tgt = s.tgt := rfl
@[simp] theorem State.setEng_eng (v : EngPart) : (s.setEng v).eng = v := rfl
@[simp] theorem State.setEng_keeper (v : EngPart) : (s.setEng v).keeper = s.keeper := rfl
@[simp] theorem State.setEng_pair (v : EngPart) : (s.setEng v).pair = s.pair := rfl
@[simp] theorem State.setEng_prog (v : EngPart) : (s.setEng v).prog = s.prog := rfl
@[simp] theorem State.setEng_run (v : EngPart) : (s.setEng v).run = s.run := rfl
@[simp] theorem State.setEng_lead (v : EngPart) : (s.setEng v).lead = s.lead := rfl
@[simp] theorem State.setEng_serve (v : EngPart) : (s.setEng v).serve = s.serve := rfl
@[simp] theorem State.setEng_tier (v : EngPart) : (s.setEng v).tier = s.tier := rfl
@[simp] theorem State.setEng_arb (v : EngPart) : (s.setEng v).arb = s.arb := rfl
@[simp] theorem State.setEng_sched (v : EngPart) : (s.setEng v).sched = s.sched := rfl
@[simp] theorem State.setEng_fnp (v : EngPart) : (s.setEng v).fnp = s.fnp := rfl
@[simp] theorem State.setEng_link (v : EngPart) : (s.setEng v).link = s.link := rfl
@[simp] theorem State.setEng_pwr (v : EngPart) : (s.setEng v).pwr = s.pwr := rfl
@[simp] theorem State.setEng_sec (v : EngPart) : (s.setEng v).sec = s.sec := rfl
@[simp] theorem State.setEng_health (v : EngPart) : (s.setEng v).health = s.health := rfl
@[simp] theorem State.setEng_outbox (v : EngPart) : (s.setEng v).outbox = s.outbox := rfl
@[simp] theorem State.setEng_fresh (v : EngPart) : (s.setEng v).fresh = s.fresh := rfl
@[simp] theorem State.setEng_pending (v : EngPart) : (s.setEng v).pending = s.pending := rfl

/-! ### setKeeper -/
@[simp] theorem State.setKeeper_mem (v : Keeper) : (s.setKeeper v).mem = s.mem := rfl
@[simp] theorem State.setKeeper_hostMem (v : Keeper) : (s.setKeeper v).hostMem = s.hostMem := rfl
@[simp] theorem State.setKeeper_arr (v : Keeper) : (s.setKeeper v).arr = s.arr := rfl
@[simp] theorem State.setKeeper_tgt (v : Keeper) : (s.setKeeper v).tgt = s.tgt := rfl
@[simp] theorem State.setKeeper_eng (v : Keeper) : (s.setKeeper v).eng = s.eng := rfl
@[simp] theorem State.setKeeper_keeper (v : Keeper) : (s.setKeeper v).keeper = v := rfl
@[simp] theorem State.setKeeper_pair (v : Keeper) : (s.setKeeper v).pair = s.pair := rfl
@[simp] theorem State.setKeeper_prog (v : Keeper) : (s.setKeeper v).prog = s.prog := rfl
@[simp] theorem State.setKeeper_run (v : Keeper) : (s.setKeeper v).run = s.run := rfl
@[simp] theorem State.setKeeper_lead (v : Keeper) : (s.setKeeper v).lead = s.lead := rfl
@[simp] theorem State.setKeeper_serve (v : Keeper) : (s.setKeeper v).serve = s.serve := rfl
@[simp] theorem State.setKeeper_tier (v : Keeper) : (s.setKeeper v).tier = s.tier := rfl
@[simp] theorem State.setKeeper_arb (v : Keeper) : (s.setKeeper v).arb = s.arb := rfl
@[simp] theorem State.setKeeper_sched (v : Keeper) : (s.setKeeper v).sched = s.sched := rfl
@[simp] theorem State.setKeeper_fnp (v : Keeper) : (s.setKeeper v).fnp = s.fnp := rfl
@[simp] theorem State.setKeeper_link (v : Keeper) : (s.setKeeper v).link = s.link := rfl
@[simp] theorem State.setKeeper_pwr (v : Keeper) : (s.setKeeper v).pwr = s.pwr := rfl
@[simp] theorem State.setKeeper_sec (v : Keeper) : (s.setKeeper v).sec = s.sec := rfl
@[simp] theorem State.setKeeper_health (v : Keeper) : (s.setKeeper v).health = s.health := rfl
@[simp] theorem State.setKeeper_outbox (v : Keeper) : (s.setKeeper v).outbox = s.outbox := rfl
@[simp] theorem State.setKeeper_fresh (v : Keeper) : (s.setKeeper v).fresh = s.fresh := rfl
@[simp] theorem State.setKeeper_pending (v : Keeper) : (s.setKeeper v).pending = s.pending := rfl

/-! ### setPair -/
@[simp] theorem State.setPair_mem (v : Pairing) : (s.setPair v).mem = s.mem := rfl
@[simp] theorem State.setPair_hostMem (v : Pairing) : (s.setPair v).hostMem = s.hostMem := rfl
@[simp] theorem State.setPair_arr (v : Pairing) : (s.setPair v).arr = s.arr := rfl
@[simp] theorem State.setPair_tgt (v : Pairing) : (s.setPair v).tgt = s.tgt := rfl
@[simp] theorem State.setPair_eng (v : Pairing) : (s.setPair v).eng = s.eng := rfl
@[simp] theorem State.setPair_keeper (v : Pairing) : (s.setPair v).keeper = s.keeper := rfl
@[simp] theorem State.setPair_pair (v : Pairing) : (s.setPair v).pair = v := rfl
@[simp] theorem State.setPair_prog (v : Pairing) : (s.setPair v).prog = s.prog := rfl
@[simp] theorem State.setPair_run (v : Pairing) : (s.setPair v).run = s.run := rfl
@[simp] theorem State.setPair_lead (v : Pairing) : (s.setPair v).lead = s.lead := rfl
@[simp] theorem State.setPair_serve (v : Pairing) : (s.setPair v).serve = s.serve := rfl
@[simp] theorem State.setPair_tier (v : Pairing) : (s.setPair v).tier = s.tier := rfl
@[simp] theorem State.setPair_arb (v : Pairing) : (s.setPair v).arb = s.arb := rfl
@[simp] theorem State.setPair_sched (v : Pairing) : (s.setPair v).sched = s.sched := rfl
@[simp] theorem State.setPair_fnp (v : Pairing) : (s.setPair v).fnp = s.fnp := rfl
@[simp] theorem State.setPair_link (v : Pairing) : (s.setPair v).link = s.link := rfl
@[simp] theorem State.setPair_pwr (v : Pairing) : (s.setPair v).pwr = s.pwr := rfl
@[simp] theorem State.setPair_sec (v : Pairing) : (s.setPair v).sec = s.sec := rfl
@[simp] theorem State.setPair_health (v : Pairing) : (s.setPair v).health = s.health := rfl
@[simp] theorem State.setPair_outbox (v : Pairing) : (s.setPair v).outbox = s.outbox := rfl
@[simp] theorem State.setPair_fresh (v : Pairing) : (s.setPair v).fresh = s.fresh := rfl
@[simp] theorem State.setPair_pending (v : Pairing) : (s.setPair v).pending = s.pending := rfl

/-! ### setProg -/
@[simp] theorem State.setProg_mem (v : ProgPart) : (s.setProg v).mem = s.mem := rfl
@[simp] theorem State.setProg_hostMem (v : ProgPart) : (s.setProg v).hostMem = s.hostMem := rfl
@[simp] theorem State.setProg_arr (v : ProgPart) : (s.setProg v).arr = s.arr := rfl
@[simp] theorem State.setProg_tgt (v : ProgPart) : (s.setProg v).tgt = s.tgt := rfl
@[simp] theorem State.setProg_eng (v : ProgPart) : (s.setProg v).eng = s.eng := rfl
@[simp] theorem State.setProg_keeper (v : ProgPart) : (s.setProg v).keeper = s.keeper := rfl
@[simp] theorem State.setProg_pair (v : ProgPart) : (s.setProg v).pair = s.pair := rfl
@[simp] theorem State.setProg_prog (v : ProgPart) : (s.setProg v).prog = v := rfl
@[simp] theorem State.setProg_run (v : ProgPart) : (s.setProg v).run = s.run := rfl
@[simp] theorem State.setProg_lead (v : ProgPart) : (s.setProg v).lead = s.lead := rfl
@[simp] theorem State.setProg_serve (v : ProgPart) : (s.setProg v).serve = s.serve := rfl
@[simp] theorem State.setProg_tier (v : ProgPart) : (s.setProg v).tier = s.tier := rfl
@[simp] theorem State.setProg_arb (v : ProgPart) : (s.setProg v).arb = s.arb := rfl
@[simp] theorem State.setProg_sched (v : ProgPart) : (s.setProg v).sched = s.sched := rfl
@[simp] theorem State.setProg_fnp (v : ProgPart) : (s.setProg v).fnp = s.fnp := rfl
@[simp] theorem State.setProg_link (v : ProgPart) : (s.setProg v).link = s.link := rfl
@[simp] theorem State.setProg_pwr (v : ProgPart) : (s.setProg v).pwr = s.pwr := rfl
@[simp] theorem State.setProg_sec (v : ProgPart) : (s.setProg v).sec = s.sec := rfl
@[simp] theorem State.setProg_health (v : ProgPart) : (s.setProg v).health = s.health := rfl
@[simp] theorem State.setProg_outbox (v : ProgPart) : (s.setProg v).outbox = s.outbox := rfl
@[simp] theorem State.setProg_fresh (v : ProgPart) : (s.setProg v).fresh = s.fresh := rfl
@[simp] theorem State.setProg_pending (v : ProgPart) : (s.setProg v).pending = s.pending := rfl

/-! ### setRun -/
@[simp] theorem State.setRun_mem (v : Run) : (s.setRun v).mem = s.mem := rfl
@[simp] theorem State.setRun_hostMem (v : Run) : (s.setRun v).hostMem = s.hostMem := rfl
@[simp] theorem State.setRun_arr (v : Run) : (s.setRun v).arr = s.arr := rfl
@[simp] theorem State.setRun_tgt (v : Run) : (s.setRun v).tgt = s.tgt := rfl
@[simp] theorem State.setRun_eng (v : Run) : (s.setRun v).eng = s.eng := rfl
@[simp] theorem State.setRun_keeper (v : Run) : (s.setRun v).keeper = s.keeper := rfl
@[simp] theorem State.setRun_pair (v : Run) : (s.setRun v).pair = s.pair := rfl
@[simp] theorem State.setRun_prog (v : Run) : (s.setRun v).prog = s.prog := rfl
@[simp] theorem State.setRun_run (v : Run) : (s.setRun v).run = v := rfl
@[simp] theorem State.setRun_lead (v : Run) : (s.setRun v).lead = s.lead := rfl
@[simp] theorem State.setRun_serve (v : Run) : (s.setRun v).serve = s.serve := rfl
@[simp] theorem State.setRun_tier (v : Run) : (s.setRun v).tier = s.tier := rfl
@[simp] theorem State.setRun_arb (v : Run) : (s.setRun v).arb = s.arb := rfl
@[simp] theorem State.setRun_sched (v : Run) : (s.setRun v).sched = s.sched := rfl
@[simp] theorem State.setRun_fnp (v : Run) : (s.setRun v).fnp = s.fnp := rfl
@[simp] theorem State.setRun_link (v : Run) : (s.setRun v).link = s.link := rfl
@[simp] theorem State.setRun_pwr (v : Run) : (s.setRun v).pwr = s.pwr := rfl
@[simp] theorem State.setRun_sec (v : Run) : (s.setRun v).sec = s.sec := rfl
@[simp] theorem State.setRun_health (v : Run) : (s.setRun v).health = s.health := rfl
@[simp] theorem State.setRun_outbox (v : Run) : (s.setRun v).outbox = s.outbox := rfl
@[simp] theorem State.setRun_fresh (v : Run) : (s.setRun v).fresh = s.fresh := rfl
@[simp] theorem State.setRun_pending (v : Run) : (s.setRun v).pending = s.pending := rfl

/-! ### setLead -/
@[simp] theorem State.setLead_mem (v : Lead) : (s.setLead v).mem = s.mem := rfl
@[simp] theorem State.setLead_hostMem (v : Lead) : (s.setLead v).hostMem = s.hostMem := rfl
@[simp] theorem State.setLead_arr (v : Lead) : (s.setLead v).arr = s.arr := rfl
@[simp] theorem State.setLead_tgt (v : Lead) : (s.setLead v).tgt = s.tgt := rfl
@[simp] theorem State.setLead_eng (v : Lead) : (s.setLead v).eng = s.eng := rfl
@[simp] theorem State.setLead_keeper (v : Lead) : (s.setLead v).keeper = s.keeper := rfl
@[simp] theorem State.setLead_pair (v : Lead) : (s.setLead v).pair = s.pair := rfl
@[simp] theorem State.setLead_prog (v : Lead) : (s.setLead v).prog = s.prog := rfl
@[simp] theorem State.setLead_run (v : Lead) : (s.setLead v).run = s.run := rfl
@[simp] theorem State.setLead_lead (v : Lead) : (s.setLead v).lead = v := rfl
@[simp] theorem State.setLead_serve (v : Lead) : (s.setLead v).serve = s.serve := rfl
@[simp] theorem State.setLead_tier (v : Lead) : (s.setLead v).tier = s.tier := rfl
@[simp] theorem State.setLead_arb (v : Lead) : (s.setLead v).arb = s.arb := rfl
@[simp] theorem State.setLead_sched (v : Lead) : (s.setLead v).sched = s.sched := rfl
@[simp] theorem State.setLead_fnp (v : Lead) : (s.setLead v).fnp = s.fnp := rfl
@[simp] theorem State.setLead_link (v : Lead) : (s.setLead v).link = s.link := rfl
@[simp] theorem State.setLead_pwr (v : Lead) : (s.setLead v).pwr = s.pwr := rfl
@[simp] theorem State.setLead_sec (v : Lead) : (s.setLead v).sec = s.sec := rfl
@[simp] theorem State.setLead_health (v : Lead) : (s.setLead v).health = s.health := rfl
@[simp] theorem State.setLead_outbox (v : Lead) : (s.setLead v).outbox = s.outbox := rfl
@[simp] theorem State.setLead_fresh (v : Lead) : (s.setLead v).fresh = s.fresh := rfl
@[simp] theorem State.setLead_pending (v : Lead) : (s.setLead v).pending = s.pending := rfl

/-! ### setServe -/
@[simp] theorem State.setServe_mem (v : ServePart) : (s.setServe v).mem = s.mem := rfl
@[simp] theorem State.setServe_hostMem (v : ServePart) : (s.setServe v).hostMem = s.hostMem := rfl
@[simp] theorem State.setServe_arr (v : ServePart) : (s.setServe v).arr = s.arr := rfl
@[simp] theorem State.setServe_tgt (v : ServePart) : (s.setServe v).tgt = s.tgt := rfl
@[simp] theorem State.setServe_eng (v : ServePart) : (s.setServe v).eng = s.eng := rfl
@[simp] theorem State.setServe_keeper (v : ServePart) : (s.setServe v).keeper = s.keeper := rfl
@[simp] theorem State.setServe_pair (v : ServePart) : (s.setServe v).pair = s.pair := rfl
@[simp] theorem State.setServe_prog (v : ServePart) : (s.setServe v).prog = s.prog := rfl
@[simp] theorem State.setServe_run (v : ServePart) : (s.setServe v).run = s.run := rfl
@[simp] theorem State.setServe_lead (v : ServePart) : (s.setServe v).lead = s.lead := rfl
@[simp] theorem State.setServe_serve (v : ServePart) : (s.setServe v).serve = v := rfl
@[simp] theorem State.setServe_tier (v : ServePart) : (s.setServe v).tier = s.tier := rfl
@[simp] theorem State.setServe_arb (v : ServePart) : (s.setServe v).arb = s.arb := rfl
@[simp] theorem State.setServe_sched (v : ServePart) : (s.setServe v).sched = s.sched := rfl
@[simp] theorem State.setServe_fnp (v : ServePart) : (s.setServe v).fnp = s.fnp := rfl
@[simp] theorem State.setServe_link (v : ServePart) : (s.setServe v).link = s.link := rfl
@[simp] theorem State.setServe_pwr (v : ServePart) : (s.setServe v).pwr = s.pwr := rfl
@[simp] theorem State.setServe_sec (v : ServePart) : (s.setServe v).sec = s.sec := rfl
@[simp] theorem State.setServe_health (v : ServePart) : (s.setServe v).health = s.health := rfl
@[simp] theorem State.setServe_outbox (v : ServePart) : (s.setServe v).outbox = s.outbox := rfl
@[simp] theorem State.setServe_fresh (v : ServePart) : (s.setServe v).fresh = s.fresh := rfl
@[simp] theorem State.setServe_pending (v : ServePart) : (s.setServe v).pending = s.pending := rfl

/-! ### setTier -/
@[simp] theorem State.setTier_mem (v : TierPart) : (s.setTier v).mem = s.mem := rfl
@[simp] theorem State.setTier_hostMem (v : TierPart) : (s.setTier v).hostMem = s.hostMem := rfl
@[simp] theorem State.setTier_arr (v : TierPart) : (s.setTier v).arr = s.arr := rfl
@[simp] theorem State.setTier_tgt (v : TierPart) : (s.setTier v).tgt = s.tgt := rfl
@[simp] theorem State.setTier_eng (v : TierPart) : (s.setTier v).eng = s.eng := rfl
@[simp] theorem State.setTier_keeper (v : TierPart) : (s.setTier v).keeper = s.keeper := rfl
@[simp] theorem State.setTier_pair (v : TierPart) : (s.setTier v).pair = s.pair := rfl
@[simp] theorem State.setTier_prog (v : TierPart) : (s.setTier v).prog = s.prog := rfl
@[simp] theorem State.setTier_run (v : TierPart) : (s.setTier v).run = s.run := rfl
@[simp] theorem State.setTier_lead (v : TierPart) : (s.setTier v).lead = s.lead := rfl
@[simp] theorem State.setTier_serve (v : TierPart) : (s.setTier v).serve = s.serve := rfl
@[simp] theorem State.setTier_tier (v : TierPart) : (s.setTier v).tier = v := rfl
@[simp] theorem State.setTier_arb (v : TierPart) : (s.setTier v).arb = s.arb := rfl
@[simp] theorem State.setTier_sched (v : TierPart) : (s.setTier v).sched = s.sched := rfl
@[simp] theorem State.setTier_fnp (v : TierPart) : (s.setTier v).fnp = s.fnp := rfl
@[simp] theorem State.setTier_link (v : TierPart) : (s.setTier v).link = s.link := rfl
@[simp] theorem State.setTier_pwr (v : TierPart) : (s.setTier v).pwr = s.pwr := rfl
@[simp] theorem State.setTier_sec (v : TierPart) : (s.setTier v).sec = s.sec := rfl
@[simp] theorem State.setTier_health (v : TierPart) : (s.setTier v).health = s.health := rfl
@[simp] theorem State.setTier_outbox (v : TierPart) : (s.setTier v).outbox = s.outbox := rfl
@[simp] theorem State.setTier_fresh (v : TierPart) : (s.setTier v).fresh = s.fresh := rfl
@[simp] theorem State.setTier_pending (v : TierPart) : (s.setTier v).pending = s.pending := rfl

/-! ### setArb -/
@[simp] theorem State.setArb_mem (v : Tab Arb) : (s.setArb v).mem = s.mem := rfl
@[simp] theorem State.setArb_hostMem (v : Tab Arb) : (s.setArb v).hostMem = s.hostMem := rfl
@[simp] theorem State.setArb_arr (v : Tab Arb) : (s.setArb v).arr = s.arr := rfl
@[simp] theorem State.setArb_tgt (v : Tab Arb) : (s.setArb v).tgt = s.tgt := rfl
@[simp] theorem State.setArb_eng (v : Tab Arb) : (s.setArb v).eng = s.eng := rfl
@[simp] theorem State.setArb_keeper (v : Tab Arb) : (s.setArb v).keeper = s.keeper := rfl
@[simp] theorem State.setArb_pair (v : Tab Arb) : (s.setArb v).pair = s.pair := rfl
@[simp] theorem State.setArb_prog (v : Tab Arb) : (s.setArb v).prog = s.prog := rfl
@[simp] theorem State.setArb_run (v : Tab Arb) : (s.setArb v).run = s.run := rfl
@[simp] theorem State.setArb_lead (v : Tab Arb) : (s.setArb v).lead = s.lead := rfl
@[simp] theorem State.setArb_serve (v : Tab Arb) : (s.setArb v).serve = s.serve := rfl
@[simp] theorem State.setArb_tier (v : Tab Arb) : (s.setArb v).tier = s.tier := rfl
@[simp] theorem State.setArb_arb (v : Tab Arb) : (s.setArb v).arb = v := rfl
@[simp] theorem State.setArb_sched (v : Tab Arb) : (s.setArb v).sched = s.sched := rfl
@[simp] theorem State.setArb_fnp (v : Tab Arb) : (s.setArb v).fnp = s.fnp := rfl
@[simp] theorem State.setArb_link (v : Tab Arb) : (s.setArb v).link = s.link := rfl
@[simp] theorem State.setArb_pwr (v : Tab Arb) : (s.setArb v).pwr = s.pwr := rfl
@[simp] theorem State.setArb_sec (v : Tab Arb) : (s.setArb v).sec = s.sec := rfl
@[simp] theorem State.setArb_health (v : Tab Arb) : (s.setArb v).health = s.health := rfl
@[simp] theorem State.setArb_outbox (v : Tab Arb) : (s.setArb v).outbox = s.outbox := rfl
@[simp] theorem State.setArb_fresh (v : Tab Arb) : (s.setArb v).fresh = s.fresh := rfl
@[simp] theorem State.setArb_pending (v : Tab Arb) : (s.setArb v).pending = s.pending := rfl

/-! ### setSched -/
@[simp] theorem State.setSched_mem (v : Sched) : (s.setSched v).mem = s.mem := rfl
@[simp] theorem State.setSched_hostMem (v : Sched) : (s.setSched v).hostMem = s.hostMem := rfl
@[simp] theorem State.setSched_arr (v : Sched) : (s.setSched v).arr = s.arr := rfl
@[simp] theorem State.setSched_tgt (v : Sched) : (s.setSched v).tgt = s.tgt := rfl
@[simp] theorem State.setSched_eng (v : Sched) : (s.setSched v).eng = s.eng := rfl
@[simp] theorem State.setSched_keeper (v : Sched) : (s.setSched v).keeper = s.keeper := rfl
@[simp] theorem State.setSched_pair (v : Sched) : (s.setSched v).pair = s.pair := rfl
@[simp] theorem State.setSched_prog (v : Sched) : (s.setSched v).prog = s.prog := rfl
@[simp] theorem State.setSched_run (v : Sched) : (s.setSched v).run = s.run := rfl
@[simp] theorem State.setSched_lead (v : Sched) : (s.setSched v).lead = s.lead := rfl
@[simp] theorem State.setSched_serve (v : Sched) : (s.setSched v).serve = s.serve := rfl
@[simp] theorem State.setSched_tier (v : Sched) : (s.setSched v).tier = s.tier := rfl
@[simp] theorem State.setSched_arb (v : Sched) : (s.setSched v).arb = s.arb := rfl
@[simp] theorem State.setSched_sched (v : Sched) : (s.setSched v).sched = v := rfl
@[simp] theorem State.setSched_fnp (v : Sched) : (s.setSched v).fnp = s.fnp := rfl
@[simp] theorem State.setSched_link (v : Sched) : (s.setSched v).link = s.link := rfl
@[simp] theorem State.setSched_pwr (v : Sched) : (s.setSched v).pwr = s.pwr := rfl
@[simp] theorem State.setSched_sec (v : Sched) : (s.setSched v).sec = s.sec := rfl
@[simp] theorem State.setSched_health (v : Sched) : (s.setSched v).health = s.health := rfl
@[simp] theorem State.setSched_outbox (v : Sched) : (s.setSched v).outbox = s.outbox := rfl
@[simp] theorem State.setSched_fresh (v : Sched) : (s.setSched v).fresh = s.fresh := rfl
@[simp] theorem State.setSched_pending (v : Sched) : (s.setSched v).pending = s.pending := rfl

/-! ### setFnp -/
@[simp] theorem State.setFnp_mem (v : FnPart) : (s.setFnp v).mem = s.mem := rfl
@[simp] theorem State.setFnp_hostMem (v : FnPart) : (s.setFnp v).hostMem = s.hostMem := rfl
@[simp] theorem State.setFnp_arr (v : FnPart) : (s.setFnp v).arr = s.arr := rfl
@[simp] theorem State.setFnp_tgt (v : FnPart) : (s.setFnp v).tgt = s.tgt := rfl
@[simp] theorem State.setFnp_eng (v : FnPart) : (s.setFnp v).eng = s.eng := rfl
@[simp] theorem State.setFnp_keeper (v : FnPart) : (s.setFnp v).keeper = s.keeper := rfl
@[simp] theorem State.setFnp_pair (v : FnPart) : (s.setFnp v).pair = s.pair := rfl
@[simp] theorem State.setFnp_prog (v : FnPart) : (s.setFnp v).prog = s.prog := rfl
@[simp] theorem State.setFnp_run (v : FnPart) : (s.setFnp v).run = s.run := rfl
@[simp] theorem State.setFnp_lead (v : FnPart) : (s.setFnp v).lead = s.lead := rfl
@[simp] theorem State.setFnp_serve (v : FnPart) : (s.setFnp v).serve = s.serve := rfl
@[simp] theorem State.setFnp_tier (v : FnPart) : (s.setFnp v).tier = s.tier := rfl
@[simp] theorem State.setFnp_arb (v : FnPart) : (s.setFnp v).arb = s.arb := rfl
@[simp] theorem State.setFnp_sched (v : FnPart) : (s.setFnp v).sched = s.sched := rfl
@[simp] theorem State.setFnp_fnp (v : FnPart) : (s.setFnp v).fnp = v := rfl
@[simp] theorem State.setFnp_link (v : FnPart) : (s.setFnp v).link = s.link := rfl
@[simp] theorem State.setFnp_pwr (v : FnPart) : (s.setFnp v).pwr = s.pwr := rfl
@[simp] theorem State.setFnp_sec (v : FnPart) : (s.setFnp v).sec = s.sec := rfl
@[simp] theorem State.setFnp_health (v : FnPart) : (s.setFnp v).health = s.health := rfl
@[simp] theorem State.setFnp_outbox (v : FnPart) : (s.setFnp v).outbox = s.outbox := rfl
@[simp] theorem State.setFnp_fresh (v : FnPart) : (s.setFnp v).fresh = s.fresh := rfl
@[simp] theorem State.setFnp_pending (v : FnPart) : (s.setFnp v).pending = s.pending := rfl

/-! ### setLink -/
@[simp] theorem State.setLink_mem (v : LinkPart) : (s.setLink v).mem = s.mem := rfl
@[simp] theorem State.setLink_hostMem (v : LinkPart) : (s.setLink v).hostMem = s.hostMem := rfl
@[simp] theorem State.setLink_arr (v : LinkPart) : (s.setLink v).arr = s.arr := rfl
@[simp] theorem State.setLink_tgt (v : LinkPart) : (s.setLink v).tgt = s.tgt := rfl
@[simp] theorem State.setLink_eng (v : LinkPart) : (s.setLink v).eng = s.eng := rfl
@[simp] theorem State.setLink_keeper (v : LinkPart) : (s.setLink v).keeper = s.keeper := rfl
@[simp] theorem State.setLink_pair (v : LinkPart) : (s.setLink v).pair = s.pair := rfl
@[simp] theorem State.setLink_prog (v : LinkPart) : (s.setLink v).prog = s.prog := rfl
@[simp] theorem State.setLink_run (v : LinkPart) : (s.setLink v).run = s.run := rfl
@[simp] theorem State.setLink_lead (v : LinkPart) : (s.setLink v).lead = s.lead := rfl
@[simp] theorem State.setLink_serve (v : LinkPart) : (s.setLink v).serve = s.serve := rfl
@[simp] theorem State.setLink_tier (v : LinkPart) : (s.setLink v).tier = s.tier := rfl
@[simp] theorem State.setLink_arb (v : LinkPart) : (s.setLink v).arb = s.arb := rfl
@[simp] theorem State.setLink_sched (v : LinkPart) : (s.setLink v).sched = s.sched := rfl
@[simp] theorem State.setLink_fnp (v : LinkPart) : (s.setLink v).fnp = s.fnp := rfl
@[simp] theorem State.setLink_link (v : LinkPart) : (s.setLink v).link = v := rfl
@[simp] theorem State.setLink_pwr (v : LinkPart) : (s.setLink v).pwr = s.pwr := rfl
@[simp] theorem State.setLink_sec (v : LinkPart) : (s.setLink v).sec = s.sec := rfl
@[simp] theorem State.setLink_health (v : LinkPart) : (s.setLink v).health = s.health := rfl
@[simp] theorem State.setLink_outbox (v : LinkPart) : (s.setLink v).outbox = s.outbox := rfl
@[simp] theorem State.setLink_fresh (v : LinkPart) : (s.setLink v).fresh = s.fresh := rfl
@[simp] theorem State.setLink_pending (v : LinkPart) : (s.setLink v).pending = s.pending := rfl

/-! ### setPwr -/
@[simp] theorem State.setPwr_mem (v : PwrPart) : (s.setPwr v).mem = s.mem := rfl
@[simp] theorem State.setPwr_hostMem (v : PwrPart) : (s.setPwr v).hostMem = s.hostMem := rfl
@[simp] theorem State.setPwr_arr (v : PwrPart) : (s.setPwr v).arr = s.arr := rfl
@[simp] theorem State.setPwr_tgt (v : PwrPart) : (s.setPwr v).tgt = s.tgt := rfl
@[simp] theorem State.setPwr_eng (v : PwrPart) : (s.setPwr v).eng = s.eng := rfl
@[simp] theorem State.setPwr_keeper (v : PwrPart) : (s.setPwr v).keeper = s.keeper := rfl
@[simp] theorem State.setPwr_pair (v : PwrPart) : (s.setPwr v).pair = s.pair := rfl
@[simp] theorem State.setPwr_prog (v : PwrPart) : (s.setPwr v).prog = s.prog := rfl
@[simp] theorem State.setPwr_run (v : PwrPart) : (s.setPwr v).run = s.run := rfl
@[simp] theorem State.setPwr_lead (v : PwrPart) : (s.setPwr v).lead = s.lead := rfl
@[simp] theorem State.setPwr_serve (v : PwrPart) : (s.setPwr v).serve = s.serve := rfl
@[simp] theorem State.setPwr_tier (v : PwrPart) : (s.setPwr v).tier = s.tier := rfl
@[simp] theorem State.setPwr_arb (v : PwrPart) : (s.setPwr v).arb = s.arb := rfl
@[simp] theorem State.setPwr_sched (v : PwrPart) : (s.setPwr v).sched = s.sched := rfl
@[simp] theorem State.setPwr_fnp (v : PwrPart) : (s.setPwr v).fnp = s.fnp := rfl
@[simp] theorem State.setPwr_link (v : PwrPart) : (s.setPwr v).link = s.link := rfl
@[simp] theorem State.setPwr_pwr (v : PwrPart) : (s.setPwr v).pwr = v := rfl
@[simp] theorem State.setPwr_sec (v : PwrPart) : (s.setPwr v).sec = s.sec := rfl
@[simp] theorem State.setPwr_health (v : PwrPart) : (s.setPwr v).health = s.health := rfl
@[simp] theorem State.setPwr_outbox (v : PwrPart) : (s.setPwr v).outbox = s.outbox := rfl
@[simp] theorem State.setPwr_fresh (v : PwrPart) : (s.setPwr v).fresh = s.fresh := rfl
@[simp] theorem State.setPwr_pending (v : PwrPart) : (s.setPwr v).pending = s.pending := rfl

/-! ### setSec -/
@[simp] theorem State.setSec_mem (v : SecPart) : (s.setSec v).mem = s.mem := rfl
@[simp] theorem State.setSec_hostMem (v : SecPart) : (s.setSec v).hostMem = s.hostMem := rfl
@[simp] theorem State.setSec_arr (v : SecPart) : (s.setSec v).arr = s.arr := rfl
@[simp] theorem State.setSec_tgt (v : SecPart) : (s.setSec v).tgt = s.tgt := rfl
@[simp] theorem State.setSec_eng (v : SecPart) : (s.setSec v).eng = s.eng := rfl
@[simp] theorem State.setSec_keeper (v : SecPart) : (s.setSec v).keeper = s.keeper := rfl
@[simp] theorem State.setSec_pair (v : SecPart) : (s.setSec v).pair = s.pair := rfl
@[simp] theorem State.setSec_prog (v : SecPart) : (s.setSec v).prog = s.prog := rfl
@[simp] theorem State.setSec_run (v : SecPart) : (s.setSec v).run = s.run := rfl
@[simp] theorem State.setSec_lead (v : SecPart) : (s.setSec v).lead = s.lead := rfl
@[simp] theorem State.setSec_serve (v : SecPart) : (s.setSec v).serve = s.serve := rfl
@[simp] theorem State.setSec_tier (v : SecPart) : (s.setSec v).tier = s.tier := rfl
@[simp] theorem State.setSec_arb (v : SecPart) : (s.setSec v).arb = s.arb := rfl
@[simp] theorem State.setSec_sched (v : SecPart) : (s.setSec v).sched = s.sched := rfl
@[simp] theorem State.setSec_fnp (v : SecPart) : (s.setSec v).fnp = s.fnp := rfl
@[simp] theorem State.setSec_link (v : SecPart) : (s.setSec v).link = s.link := rfl
@[simp] theorem State.setSec_pwr (v : SecPart) : (s.setSec v).pwr = s.pwr := rfl
@[simp] theorem State.setSec_sec (v : SecPart) : (s.setSec v).sec = v := rfl
@[simp] theorem State.setSec_health (v : SecPart) : (s.setSec v).health = s.health := rfl
@[simp] theorem State.setSec_outbox (v : SecPart) : (s.setSec v).outbox = s.outbox := rfl
@[simp] theorem State.setSec_fresh (v : SecPart) : (s.setSec v).fresh = s.fresh := rfl
@[simp] theorem State.setSec_pending (v : SecPart) : (s.setSec v).pending = s.pending := rfl

/-! ### setHealth -/
@[simp] theorem State.setHealth_mem (v : HealthPart) : (s.setHealth v).mem = s.mem := rfl
@[simp] theorem State.setHealth_hostMem (v : HealthPart) : (s.setHealth v).hostMem = s.hostMem := rfl
@[simp] theorem State.setHealth_arr (v : HealthPart) : (s.setHealth v).arr = s.arr := rfl
@[simp] theorem State.setHealth_tgt (v : HealthPart) : (s.setHealth v).tgt = s.tgt := rfl
@[simp] theorem State.setHealth_eng (v : HealthPart) : (s.setHealth v).eng = s.eng := rfl
@[simp] theorem State.setHealth_keeper (v : HealthPart) : (s.setHealth v).keeper = s.keeper := rfl
@[simp] theorem State.setHealth_pair (v : HealthPart) : (s.setHealth v).pair = s.pair := rfl
@[simp] theorem State.setHealth_prog (v : HealthPart) : (s.setHealth v).prog = s.prog := rfl
@[simp] theorem State.setHealth_run (v : HealthPart) : (s.setHealth v).run = s.run := rfl
@[simp] theorem State.setHealth_lead (v : HealthPart) : (s.setHealth v).lead = s.lead := rfl
@[simp] theorem State.setHealth_serve (v : HealthPart) : (s.setHealth v).serve = s.serve := rfl
@[simp] theorem State.setHealth_tier (v : HealthPart) : (s.setHealth v).tier = s.tier := rfl
@[simp] theorem State.setHealth_arb (v : HealthPart) : (s.setHealth v).arb = s.arb := rfl
@[simp] theorem State.setHealth_sched (v : HealthPart) : (s.setHealth v).sched = s.sched := rfl
@[simp] theorem State.setHealth_fnp (v : HealthPart) : (s.setHealth v).fnp = s.fnp := rfl
@[simp] theorem State.setHealth_link (v : HealthPart) : (s.setHealth v).link = s.link := rfl
@[simp] theorem State.setHealth_pwr (v : HealthPart) : (s.setHealth v).pwr = s.pwr := rfl
@[simp] theorem State.setHealth_sec (v : HealthPart) : (s.setHealth v).sec = s.sec := rfl
@[simp] theorem State.setHealth_health (v : HealthPart) : (s.setHealth v).health = v := rfl
@[simp] theorem State.setHealth_outbox (v : HealthPart) : (s.setHealth v).outbox = s.outbox := rfl
@[simp] theorem State.setHealth_fresh (v : HealthPart) : (s.setHealth v).fresh = s.fresh := rfl
@[simp] theorem State.setHealth_pending (v : HealthPart) : (s.setHealth v).pending = s.pending := rfl

/-! ### setOutbox -/
@[simp] theorem State.setOutbox_mem (v : List Out) : (s.setOutbox v).mem = s.mem := rfl
@[simp] theorem State.setOutbox_hostMem (v : List Out) : (s.setOutbox v).hostMem = s.hostMem := rfl
@[simp] theorem State.setOutbox_arr (v : List Out) : (s.setOutbox v).arr = s.arr := rfl
@[simp] theorem State.setOutbox_tgt (v : List Out) : (s.setOutbox v).tgt = s.tgt := rfl
@[simp] theorem State.setOutbox_eng (v : List Out) : (s.setOutbox v).eng = s.eng := rfl
@[simp] theorem State.setOutbox_keeper (v : List Out) : (s.setOutbox v).keeper = s.keeper := rfl
@[simp] theorem State.setOutbox_pair (v : List Out) : (s.setOutbox v).pair = s.pair := rfl
@[simp] theorem State.setOutbox_prog (v : List Out) : (s.setOutbox v).prog = s.prog := rfl
@[simp] theorem State.setOutbox_run (v : List Out) : (s.setOutbox v).run = s.run := rfl
@[simp] theorem State.setOutbox_lead (v : List Out) : (s.setOutbox v).lead = s.lead := rfl
@[simp] theorem State.setOutbox_serve (v : List Out) : (s.setOutbox v).serve = s.serve := rfl
@[simp] theorem State.setOutbox_tier (v : List Out) : (s.setOutbox v).tier = s.tier := rfl
@[simp] theorem State.setOutbox_arb (v : List Out) : (s.setOutbox v).arb = s.arb := rfl
@[simp] theorem State.setOutbox_sched (v : List Out) : (s.setOutbox v).sched = s.sched := rfl
@[simp] theorem State.setOutbox_fnp (v : List Out) : (s.setOutbox v).fnp = s.fnp := rfl
@[simp] theorem State.setOutbox_link (v : List Out) : (s.setOutbox v).link = s.link := rfl
@[simp] theorem State.setOutbox_pwr (v : List Out) : (s.setOutbox v).pwr = s.pwr := rfl
@[simp] theorem State.setOutbox_sec (v : List Out) : (s.setOutbox v).sec = s.sec := rfl
@[simp] theorem State.setOutbox_health (v : List Out) : (s.setOutbox v).health = s.health := rfl
@[simp] theorem State.setOutbox_outbox (v : List Out) : (s.setOutbox v).outbox = v := rfl
@[simp] theorem State.setOutbox_fresh (v : List Out) : (s.setOutbox v).fresh = s.fresh := rfl
@[simp] theorem State.setOutbox_pending (v : List Out) : (s.setOutbox v).pending = s.pending := rfl

/-! ### setFresh -/
@[simp] theorem State.setFresh_mem (v : Nat) : (s.setFresh v).mem = s.mem := rfl
@[simp] theorem State.setFresh_hostMem (v : Nat) : (s.setFresh v).hostMem = s.hostMem := rfl
@[simp] theorem State.setFresh_arr (v : Nat) : (s.setFresh v).arr = s.arr := rfl
@[simp] theorem State.setFresh_tgt (v : Nat) : (s.setFresh v).tgt = s.tgt := rfl
@[simp] theorem State.setFresh_eng (v : Nat) : (s.setFresh v).eng = s.eng := rfl
@[simp] theorem State.setFresh_keeper (v : Nat) : (s.setFresh v).keeper = s.keeper := rfl
@[simp] theorem State.setFresh_pair (v : Nat) : (s.setFresh v).pair = s.pair := rfl
@[simp] theorem State.setFresh_prog (v : Nat) : (s.setFresh v).prog = s.prog := rfl
@[simp] theorem State.setFresh_run (v : Nat) : (s.setFresh v).run = s.run := rfl
@[simp] theorem State.setFresh_lead (v : Nat) : (s.setFresh v).lead = s.lead := rfl
@[simp] theorem State.setFresh_serve (v : Nat) : (s.setFresh v).serve = s.serve := rfl
@[simp] theorem State.setFresh_tier (v : Nat) : (s.setFresh v).tier = s.tier := rfl
@[simp] theorem State.setFresh_arb (v : Nat) : (s.setFresh v).arb = s.arb := rfl
@[simp] theorem State.setFresh_sched (v : Nat) : (s.setFresh v).sched = s.sched := rfl
@[simp] theorem State.setFresh_fnp (v : Nat) : (s.setFresh v).fnp = s.fnp := rfl
@[simp] theorem State.setFresh_link (v : Nat) : (s.setFresh v).link = s.link := rfl
@[simp] theorem State.setFresh_pwr (v : Nat) : (s.setFresh v).pwr = s.pwr := rfl
@[simp] theorem State.setFresh_sec (v : Nat) : (s.setFresh v).sec = s.sec := rfl
@[simp] theorem State.setFresh_health (v : Nat) : (s.setFresh v).health = s.health := rfl
@[simp] theorem State.setFresh_outbox (v : Nat) : (s.setFresh v).outbox = s.outbox := rfl
@[simp] theorem State.setFresh_fresh (v : Nat) : (s.setFresh v).fresh = v := rfl
@[simp] theorem State.setFresh_pending (v : Nat) : (s.setFresh v).pending = s.pending := rfl

/-! ### setPending -/
@[simp] theorem State.setPending_mem (v : List Instr) : (s.setPending v).mem = s.mem := rfl
@[simp] theorem State.setPending_hostMem (v : List Instr) : (s.setPending v).hostMem = s.hostMem := rfl
@[simp] theorem State.setPending_arr (v : List Instr) : (s.setPending v).arr = s.arr := rfl
@[simp] theorem State.setPending_tgt (v : List Instr) : (s.setPending v).tgt = s.tgt := rfl
@[simp] theorem State.setPending_eng (v : List Instr) : (s.setPending v).eng = s.eng := rfl
@[simp] theorem State.setPending_keeper (v : List Instr) : (s.setPending v).keeper = s.keeper := rfl
@[simp] theorem State.setPending_pair (v : List Instr) : (s.setPending v).pair = s.pair := rfl
@[simp] theorem State.setPending_prog (v : List Instr) : (s.setPending v).prog = s.prog := rfl
@[simp] theorem State.setPending_run (v : List Instr) : (s.setPending v).run = s.run := rfl
@[simp] theorem State.setPending_lead (v : List Instr) : (s.setPending v).lead = s.lead := rfl
@[simp] theorem State.setPending_serve (v : List Instr) : (s.setPending v).serve = s.serve := rfl
@[simp] theorem State.setPending_tier (v : List Instr) : (s.setPending v).tier = s.tier := rfl
@[simp] theorem State.setPending_arb (v : List Instr) : (s.setPending v).arb = s.arb := rfl
@[simp] theorem State.setPending_sched (v : List Instr) : (s.setPending v).sched = s.sched := rfl
@[simp] theorem State.setPending_fnp (v : List Instr) : (s.setPending v).fnp = s.fnp := rfl
@[simp] theorem State.setPending_link (v : List Instr) : (s.setPending v).link = s.link := rfl
@[simp] theorem State.setPending_pwr (v : List Instr) : (s.setPending v).pwr = s.pwr := rfl
@[simp] theorem State.setPending_sec (v : List Instr) : (s.setPending v).sec = s.sec := rfl
@[simp] theorem State.setPending_health (v : List Instr) : (s.setPending v).health = s.health := rfl
@[simp] theorem State.setPending_outbox (v : List Instr) : (s.setPending v).outbox = s.outbox := rfl
@[simp] theorem State.setPending_fresh (v : List Instr) : (s.setPending v).fresh = s.fresh := rfl
@[simp] theorem State.setPending_pending (v : List Instr) : (s.setPending v).pending = v := rfl

end Sys2Proof.Machine
end

