-- ==== Sys2Proof/Laws/Tab.lean ====
section
/-! SUPPORT. Reading a table after a change of it. -/
namespace Sys2Proof.Machine
variable {α : Type}

@[simp] theorem Tab.get_set_same (t : Tab α) (d v : α) (k : Nat) : (t.set k v).get d k = v := by
  induction t with
  | nil => simp [Tab.set, Tab.get]
  | cons e r ih =>
    obtain ⟨k', v'⟩ := e
    simp only [Tab.set]
    split
    · simp [Tab.get]
    · split
      · simp [Tab.get]
      · simp [Tab.get, *]

theorem Tab.get_set_other (t : Tab α) (d v : α) {k j : Nat} (h : j ≠ k) : (t.set k v).get d j = t.get d j := by
  induction t with
  | nil => simp [Tab.set, Tab.get, h]
  | cons e r ih =>
    obtain ⟨k', v'⟩ := e
    simp only [Tab.set]
    split
    · subst_vars; simp [Tab.get, h]
    · split
      · simp [Tab.get, h]
      · simp [Tab.get, ih]

@[simp] theorem Tab.find?_set_same (t : Tab α) (v : α) (k : Nat) : (t.set k v).find? k = some v := by
  induction t with
  | nil => simp [Tab.set, Tab.find?]
  | cons e r ih =>
    obtain ⟨k', v'⟩ := e
    simp only [Tab.set]
    split
    · simp [Tab.find?]
    · split
      · simp [Tab.find?]
      · simp [Tab.find?, *]

theorem Tab.find?_set_other (t : Tab α) (v : α) {k j : Nat} (h : j ≠ k) : (t.set k v).find? j = t.find? j := by
  induction t with
  | nil => simp [Tab.set, Tab.find?, h]
  | cons e r ih =>
    obtain ⟨k', v'⟩ := e
    simp only [Tab.set]
    split
    · subst_vars; simp [Tab.find?, h]
    · split
      · simp [Tab.find?, h]
      · simp [Tab.find?, ih]

theorem Tab.get_eq (t : Tab α) (d : α) (k : Nat) : t.get d k = (t.find? k).getD d := by
  induction t with
  | nil => rfl
  | cons e r ih =>
    obtain ⟨k', v'⟩ := e
    simp only [Tab.get, Tab.find?]
    split <;> simp [ih]

theorem Tab.get_upd_same (t : Tab α) (d : α) (k : Nat) (f : α → α) : (t.upd d k f).get d k = f (t.get d k) := by
  simp [Tab.upd]

theorem Tab.get_upd_other (t : Tab α) (d e : α) {k j : Nat} (f : α → α) (h : j ≠ k) : (t.upd d k f).get e j = t.get e j := by
  simp [Tab.upd, Tab.get_set_other _ _ _ h]

theorem Tab.del_cons (r : Tab α) (k k' : Nat) (v : α) :
    Tab.del ((k', v) :: r) k = if k' = k then r.del k else (k', v) :: r.del k := by
  by_cases h : k' = k <;> simp [Tab.del, h]

theorem Tab.find?_del_same (t : Tab α) (k : Nat) : (t.del k).find? k = none := by
  induction t with
  | nil => rfl
  | cons e r ih =>
    obtain ⟨k', v'⟩ := e
    rw [Tab.del_cons]
    split
    · exact ih
    · rename_i h; simp [Tab.find?, Ne.symm h, ih]

theorem Tab.find?_del_other (t : Tab α) {k j : Nat} (h : j ≠ k) : (t.del k).find? j = t.find? j := by
  induction t with
  | nil => rfl
  | cons e r ih =>
    obtain ⟨k', v'⟩ := e
    rw [Tab.del_cons]
    split
    · rename_i hk; subst hk; simp [Tab.find?, h, ih]
    · simp [Tab.find?, ih]

end Sys2Proof.Machine
end

