-- ==== Sys2Proof/Laws/Frame.lean ====
section
/-! SUPPORT. What the shared operations of the machine leave alone, as State.onlyChanges. -/
namespace Sys2Proof.Machine
variable {s t u : State} {ps qs : List Part}

theorem State.same_refl (s : State) (p : Part) : s.same s p := by cases p <;> rfl

theorem State.same_trans {p : Part} (h : s.same t p) (k : t.same u p) : s.same u p := by
  cases p <;> exact Eq.trans k h

theorem State.onlyChanges_refl (s : State) (ps : List Part) : s.onlyChanges s ps := fun p _ => s.same_refl p

theorem State.onlyChanges_trans (h : s.onlyChanges t ps) (k : t.onlyChanges u ps) : s.onlyChanges u ps :=
  fun p hp => State.same_trans (h p hp) (k p hp)

theorem State.onlyChanges_mono (h : s.onlyChanges t ps) (hs : ∀ p ∈ ps, p ∈ qs) : s.onlyChanges t qs :=
  fun p hp => h p (fun hq => hp (hs p hq))

/-- Two operations one after the other. -/
theorem State.onlyChanges_then (h : s.onlyChanges t ps) (k : t.onlyChanges u qs) : s.onlyChanges u (ps ++ qs) :=
  State.onlyChanges_trans (State.onlyChanges_mono h (fun _ hp => List.mem_append_left _ hp))
    (State.onlyChanges_mono k (fun _ hp => List.mem_append_right _ hp))

/-- An operation folded over a list changes what each of its rounds changes. -/
theorem State.onlyChanges_foldl {α : Type} (f : State → α → State) (h : ∀ (s : State) (x : α), s.onlyChanges (f s x) ps) (l : List α) :
    ∀ s : State, s.onlyChanges (l.foldl f s) ps := by
  induction l with
  | nil => intro s; exact s.onlyChanges_refl ps
  | cons x l ih => intro s; exact State.onlyChanges_trans (h s x) (ih (f s x))

theorem State.onlyChanges_ite {c : Prop} [Decidable c] (h : s.onlyChanges t ps) (k : s.onlyChanges u ps) :
    s.onlyChanges (if c then t else u) ps := by split <;> assumption

/-! ### Setters -/

theorem State.only_setMem (s : State) (v : List Host.Cell) (h : .mem ∈ ps) : s.onlyChanges (s.setMem v) ps := by
  intro p hp; cases p <;> first | rfl | exact absurd h hp
theorem State.only_setHostMem (s : State) (v : List Host.Cell) (h : .hostMem ∈ ps) : s.onlyChanges (s.setHostMem v) ps := by
  intro p hp; cases p <;> first | rfl | exact absurd h hp
theorem State.only_setArr (s : State) (v : ArrPart) (h : .arr ∈ ps) : s.onlyChanges (s.setArr v) ps := by
  intro p hp; cases p <;> first | rfl | exact absurd h hp
theorem State.only_setTgt (s : State) (v : Tab TargetSt) (h : .tgt ∈ ps) : s.onlyChanges (s.setTgt v) ps := by
  intro p hp; cases p <;> first | rfl | exact absurd h hp
theorem State.only_setEng (s : State) (v : EngPart) (h : .eng ∈ ps) : s.onlyChanges (s.setEng v) ps := by
  intro p hp; cases p <;> first | rfl | exact absurd h hp
theorem State.only_setKeeper (s : State) (v : Keeper) (h : .keeper ∈ ps) : s.onlyChanges (s.setKeeper v) ps := by
  intro p hp; cases p <;> first | rfl | exact absurd h hp
theorem State.only_setPair (s : State) (v : Pairing) (h : .pair ∈ ps) : s.onlyChanges (s.setPair v) ps := by
  intro p hp; cases p <;> first | rfl | exact absurd h hp
theorem State.only_setProg (s : State) (v : ProgPart) (h : .prog ∈ ps) : s.onlyChanges (s.setProg v) ps := by
  intro p hp; cases p <;> first | rfl | exact absurd h hp
theorem State.only_setRun (s : State) (v : Run) (h : .run ∈ ps) : s.onlyChanges (s.setRun v) ps := by
  intro p hp; cases p <;> first | rfl | exact absurd h hp
theorem State.only_setLead (s : State) (v : Lead) (h : .lead ∈ ps) : s.onlyChanges (s.setLead v) ps := by
  intro p hp; cases p <;> first | rfl | exact absurd h hp
theorem State.only_setServe (s : State) (v : ServePart) (h : .serve ∈ ps) : s.onlyChanges (s.setServe v) ps := by
  intro p hp; cases p <;> first | rfl | exact absurd h hp
theorem State.only_setTier (s : State) (v : TierPart) (h : .tier ∈ ps) : s.onlyChanges (s.setTier v) ps := by
  intro p hp; cases p <;> first | rfl | exact absurd h hp
theorem State.only_setArb (s : State) (v : Tab Arb) (h : .arb ∈ ps) : s.onlyChanges (s.setArb v) ps := by
  intro p hp; cases p <;> first | rfl | exact absurd h hp
theorem State.only_setSched (s : State) (v : Sched) (h : .sched ∈ ps) : s.onlyChanges (s.setSched v) ps := by
  intro p hp; cases p <;> first | rfl | exact absurd h hp
theorem State.only_setFnp (s : State) (v : FnPart) (h : .fnp ∈ ps) : s.onlyChanges (s.setFnp v) ps := by
  intro p hp; cases p <;> first | rfl | exact absurd h hp
theorem State.only_setLink (s : State) (v : LinkPart) (h : .link ∈ ps) : s.onlyChanges (s.setLink v) ps := by
  intro p hp; cases p <;> first | rfl | exact absurd h hp
theorem State.only_setPwr (s : State) (v : PwrPart) (h : .pwr ∈ ps) : s.onlyChanges (s.setPwr v) ps := by
  intro p hp; cases p <;> first | rfl | exact absurd h hp
theorem State.only_setSec (s : State) (v : SecPart) (h : .sec ∈ ps) : s.onlyChanges (s.setSec v) ps := by
  intro p hp; cases p <;> first | rfl | exact absurd h hp
theorem State.only_setHealth (s : State) (v : HealthPart) (h : .health ∈ ps) : s.onlyChanges (s.setHealth v) ps := by
  intro p hp; cases p <;> first | rfl | exact absurd h hp
theorem State.only_setOutbox (s : State) (v : List Out) (h : .outbox ∈ ps) : s.onlyChanges (s.setOutbox v) ps := by
  intro p hp; cases p <;> first | rfl | exact absurd h hp
theorem State.only_setFresh (s : State) (v : Nat) (h : .fresh ∈ ps) : s.onlyChanges (s.setFresh v) ps := by
  intro p hp; cases p <;> first | rfl | exact absurd h hp
theorem State.only_setPending (s : State) (v : List Instr) (h : .pending ∈ ps) : s.onlyChanges (s.setPending v) ps := by
  intro p hp; cases p <;> first | rfl | exact absurd h hp

/-! ### Small operations -/

theorem State.only_send (s : State) (x : Out) : s.onlyChanges (s.send x) [.outbox] := s.only_setOutbox _ (by simp)
theorem State.only_useFree (s : State) : s.onlyChanges s.useFree [.fresh] := s.only_setFresh _ (by simp)
theorem State.only_setFnSt (s : State) (f : Nat) (v : FnSt) : s.onlyChanges (s.setFnSt f v) [.fnp] := s.only_setFnp _ (by simp)
theorem State.only_setMbox (s : State) (f : Nat) (v : Mailbox) : s.onlyChanges (s.setMbox f v) [.keeper] := s.only_setKeeper _ (by simp)
theorem State.only_setArray (s : State) (t p : Nat) (v : ArraySt) : s.onlyChanges (s.setArray t p v) [.arr] := s.only_setArr _ (by simp)
theorem State.only_setGallery (s : State) (t g : Nat) (v : GallerySt) : s.onlyChanges (s.setGallery t g v) [.arr] := s.only_setArr _ (by simp)
theorem State.only_setTarget (s : State) (t : Nat) (v : TargetSt) : s.onlyChanges (s.setTarget t v) [.tgt] := s.only_setTgt _ (by simp)
theorem State.only_setVecEng (s : State) (t e : Nat) (v : VecSt) : s.onlyChanges (s.setVecEng t e v) [.eng] := s.only_setEng _ (by simp)
theorem State.only_setKeySt (s : State) (t f : Nat) (v : KeySt) : s.onlyChanges (s.setKeySt t f v) [.eng] := s.only_setEng _ (by simp)
theorem State.only_setReq (s : State) (i : Nat) (v : Req) : s.onlyChanges (s.setReq i v) [.serve] := s.only_setServe _ (by simp)
theorem State.only_setGroup (s : State) (g : Nat) (v : GroupSt) : s.onlyChanges (s.setGroup g v) [.serve] := s.only_setServe _ (by simp)
theorem State.only_setPort (s : State) (p : Nat) (v : Port) : s.onlyChanges (s.setPort p v) [.link] := s.only_setLink _ (by simp)
theorem State.only_setTilePwr (s : State) (t : Nat) (v : TilePwr) : s.onlyChanges (s.setTilePwr t v) [.pwr] := s.only_setPwr _ (by simp)
theorem State.only_advance (s : State) (n k : Nat) : s.onlyChanges (s.advance n k) [.pwr] := s.only_setPwr _ (by simp)
theorem State.only_owe (s : State) (i : Instr) : s.onlyChanges (s.owe i) [.keeper] := s.only_setKeeper _ (by simp)
theorem State.only_logHealth (s : State) (e : Event) : s.onlyChanges (s.logHealth e) [.health] := s.only_setHealth _ (by simp)
theorem State.only_setCust (s : State) (t : Nat) (v : CustSt) : s.onlyChanges (s.setCust t v) [.arr] := s.only_setArr _ (by simp)
theorem State.only_markFailed (s : State) (rs : List (Nat × Nat)) : s.onlyChanges (s.markFailed rs) [.tier] := s.only_setTier _ (by simp)

/-! ### Messages, causes and events -/

theorem State.only_raise (s : State) (f v : Nat) : s.onlyChanges (s.raise f v) [.fnp, .outbox] := by
  unfold State.raise
  simp only []
  split
  · exact s.onlyChanges_refl _
  · split
    · exact State.onlyChanges_mono (s.only_setFnSt f _) (by simp)
    · split
      · exact State.onlyChanges_mono (s.only_setFnSt f _) (by simp)
      · exact State.onlyChanges_mono (s.only_send _) (by simp)

theorem State.only_setCause (s : State) (f b v : Nat) : s.onlyChanges (s.setCause f b v) [.keeper, .fnp, .outbox] := by
  unfold State.setCause
  simp only []
  split
  · exact s.onlyChanges_refl _
  · exact State.onlyChanges_then (s.only_setMbox f _) (State.only_raise _ f v)

theorem State.only_setKprCause (s : State) (b : Nat) : s.onlyChanges (s.setKprCause b) [.keeper, .fnp, .outbox] := by
  unfold State.setKprCause
  split
  · exact s.onlyChanges_refl _
  · exact State.onlyChanges_then (s.only_setKeeper _ (ps := [.keeper]) (by simp)) (State.only_raise _ 0 3)

theorem State.only_deliver (s : State) (f : Nat) (e : Event) : s.onlyChanges (s.deliver f e) [.keeper, .fnp, .outbox] := by
  unfold State.deliver
  split
  · exact s.onlyChanges_refl _
  · have h := State.onlyChanges_mono (qs := [.keeper, .fnp, .outbox]) (s.only_setMbox f ((s.mbox f).put e)) (by simp)
    simp only []
    split
    · split
      · exact State.onlyChanges_trans h (State.only_setCause _ f 4 2)
      · exact h
    · exact State.onlyChanges_trans (State.onlyChanges_trans h
        (State.onlyChanges_mono (State.only_setMbox _ f _) (by simp))) (State.onlyChanges_mono (State.only_raise _ f _) (by simp))

/-- An event posted changes mailboxes, message state and what is sent, and nothing else. -/
theorem State.only_post (s : State) (f c q : Nat) (d : List Byte) : s.onlyChanges (s.post f c q d) [.keeper, .fnp, .outbox] := by
  unfold State.post
  simp only []
  split
  · exact State.onlyChanges_mono (s.only_setKeeper _ (ps := [.keeper]) (by simp)) (by simp)
  · exact s.only_deliver f _

theorem State.only_opDone (s : State) (x : LongOp) (c : Nat) : s.onlyChanges (s.opDone x c) [.keeper, .fnp, .outbox] := by
  unfold State.opDone
  exact State.onlyChanges_trans (State.onlyChanges_mono (s.only_setKeeper _ (ps := [.keeper]) (by simp)) (by simp)) (State.only_post _ _ _ _ _)

theorem State.only_fogMerge (s : State) (c x : Nat) (w : List Nat) (n : Nat) : s.onlyChanges (s.fogMerge c x w n) [.link] := by
  unfold State.fogMerge
  simp only []
  split
  · split <;> exact s.only_setLink _ (by simp)
  · exact s.only_setLink _ (by simp)

theorem State.only_fogNote (s : State) (c x : Nat) : s.onlyChanges (s.fogNote c x) [.link] := by
  unfold State.fogNote
  split
  · exact s.only_setLink _ (by simp)
  · exact State.onlyChanges_trans (s.only_setLink _ (by simp)) (State.only_fogMerge _ _ _ _ _)

/-- A health event changes mailboxes and message state, the health record, the fog, and what is sent. -/
theorem State.only_healthEvent (s : State) (c x n a k : Nat) :
    s.onlyChanges (s.healthEvent c x n a k) [.keeper, .fnp, .link, .health, .outbox] := by
  unfold State.healthEvent
  simp only []
  refine State.onlyChanges_trans (t := ((s.logHealth { code := c, fn := 0, seq := 0, data := healthData x n a k }).post 0 c 0
    (healthData x n a k)).setKprCause 1) ?_ ?_
  · exact State.onlyChanges_trans (State.onlyChanges_mono (s.only_logHealth _) (by simp))
      (State.onlyChanges_trans (State.onlyChanges_mono (State.only_post _ _ _ _ _) (by simp))
        (State.onlyChanges_mono (State.only_setKprCause _ _) (by simp)))
  · refine State.onlyChanges_ite ?_ ?_
    · refine State.onlyChanges_trans (State.onlyChanges_ite (t := State.send _ .faultPulse) ?_ (State.onlyChanges_refl _ _))
        (State.onlyChanges_mono (State.only_fogNote _ _ _) (by simp))
      exact State.onlyChanges_mono (State.only_send _ _) (by simp)
    · refine State.onlyChanges_ite ?_ (State.onlyChanges_refl _ _)
      exact State.onlyChanges_mono (State.only_send _ _) (by simp)

theorem State.only_complete (s : State) (m : MCmd) (c : Nat) (r : List Byte) : s.onlyChanges (s.complete m c r) [.keeper, .fnp, .outbox] := by
  unfold State.complete
  exact State.onlyChanges_trans (State.onlyChanges_mono (s.only_setMbox _ _) (by simp)) (State.only_setCause _ _ _ _)

theorem State.only_accept (s : State) (m : MCmd) (k : OpKind) (n : Nat) : s.onlyChanges (s.accept m k n) [.keeper, .fnp, .outbox] := by
  unfold State.accept
  exact State.onlyChanges_trans (State.onlyChanges_mono (s.only_setKeeper _ (ps := [.keeper]) (by simp)) (by simp)) (State.only_complete _ _ _ _)

/-- The intake of a mailbox command: it is ignored, latched or completed, or its body runs. -/
theorem State.only_intake (s : State) (i : Instr) (m : MCmd) (n : Nat) (pf ok : Bool) (body : State → State)
    (h : s.onlyChanges (body s) ps) (hk : .keeper ∈ ps) (hf : .fnp ∈ ps) (ho : .outbox ∈ ps) :
    s.onlyChanges (s.intake i m n pf ok body) ps := by
  have up : ∀ {t : State}, s.onlyChanges t [.keeper, .fnp, .outbox] → s.onlyChanges t ps := fun ht =>
    State.onlyChanges_mono ht (by simp [hk, hf, ho])
  unfold State.intake
  simp only []
  refine State.onlyChanges_ite (s.onlyChanges_refl _) ?_
  refine State.onlyChanges_ite (State.onlyChanges_ite (up (s.only_setCause _ _ _)) (up (State.onlyChanges_mono (s.only_setMbox _ _) (by simp)))) ?_
  refine State.onlyChanges_ite (up (s.only_setCause _ _ _)) ?_
  refine State.onlyChanges_ite (up (s.only_complete _ _ _)) ?_
  refine State.onlyChanges_ite (up (s.only_complete _ _ _)) ?_
  refine State.onlyChanges_ite (up (s.only_complete _ _ _)) ?_
  exact State.onlyChanges_ite (up (s.only_complete _ _ _)) h

/-! ### Turns and programs -/

theorem State.only_serveTurn (s : State) (c : Src) (x k n : Nat) : s.onlyChanges (s.serveTurn c x k n) [.sched] := by
  unfold State.serveTurn
  simp only []
  split
  · exact s.only_setSched _ (by simp)
  · exact s.onlyChanges_refl _

theorem State.only_settleProg (s : State) (h : Nat) : s.onlyChanges (s.settleProg h) [.prog] := by
  unfold State.settleProg
  split
  · exact s.onlyChanges_refl _
  · split
    · exact s.only_setProg _ (by simp)
    · exact s.onlyChanges_refl _

theorem State.only_phaseStart (s : State) (p : Phase) : s.onlyChanges (s.phaseStart p) [.run] := by
  unfold State.phaseStart
  split
  · exact s.onlyChanges_refl _
  · exact s.only_setRun _ (by simp)

theorem State.only_phaseStop (s : State) (p : Phase) : s.onlyChanges (s.phaseStop p) [.run] := by
  unfold State.phaseStop
  split
  · exact s.onlyChanges_refl _
  · exact s.only_setRun _ (by simp)

theorem State.only_settlePhases (s : State) : s.onlyChanges s.settlePhases [.run] := by
  unfold State.settlePhases
  split
  · exact s.onlyChanges_refl _
  · split
    · exact s.onlyChanges_refl _
    · simp only []
      split <;> split <;> try split
      all_goals first
        | exact State.onlyChanges_trans (s.only_phaseStop .score) (State.only_phaseStop _ _)
        | exact State.onlyChanges_trans (s.only_phaseStop .score) (State.only_phaseStart _ _)
        | exact s.only_phaseStop _
        | exact s.only_phaseStart _
        | exact s.onlyChanges_refl _

theorem State.only_took (s : State) (c : Src) (x k n : Nat) : s.onlyChanges (s.took c x k n) [.prog, .sched] := by
  unfold State.took
  have h := State.onlyChanges_mono (qs := [.prog, .sched]) (s.only_serveTurn c x k n) (by simp)
  simp only []
  split
  · exact h
  · split
    · exact h
    · exact State.onlyChanges_trans h (State.only_setProg _ _ (by simp))

theorem State.only_cmdDone (s : State) (c : Src) (x k n : Nat) : s.onlyChanges (s.cmdDone c x k n) [.prog, .run] := by
  unfold State.cmdDone
  split
  · exact s.onlyChanges_refl _
  · exact State.onlyChanges_trans (State.onlyChanges_trans (s.only_setProg _ (by simp))
      (State.onlyChanges_mono (State.only_settlePhases _) (by simp))) (State.onlyChanges_mono (State.only_settleProg _ _) (by simp))

/-- An engine that has taken and completed a command changes the turn it serves, its program's progress and the run's phases. -/
theorem State.only_finish (s : State) (c : Src) (x k n : Nat) : s.onlyChanges (s.finish c x k n) [.prog, .run, .sched] :=
  State.onlyChanges_trans (State.onlyChanges_mono (s.only_took c x k n) (by simp)) (State.onlyChanges_mono (State.only_cmdDone _ c x k n) (by simp))

theorem State.only_custSettle (s : State) (t : Nat) : s.onlyChanges (s.custSettle t) [.arr] := by
  unfold State.custSettle
  exact State.onlyChanges_ite (s.only_setCust _ _) (s.onlyChanges_refl _)

theorem State.only_settleWaits (s : State) (t : Nat) : s.onlyChanges (s.settleWaits t) [.tgt] := by
  unfold State.settleWaits
  exact State.onlyChanges_ite (s.onlyChanges_refl _) (s.only_setTarget _ _)

theorem State.only_keysSettle (s : State) (t : Nat) : s.onlyChanges (s.keysSettle t) [.eng] := by
  unfold State.keysSettle
  refine State.onlyChanges_foldl _ (fun s f => ?_) _ _
  exact State.onlyChanges_ite (s.only_setEng _ (by simp)) (s.onlyChanges_refl _)

/-- The work of a program lies in the arrays, the engines and the waits at the Target engines. -/
theorem State.only_dropWork (s : State) (h : Nat) : s.onlyChanges (s.dropWork h) [.arr, .tgt, .eng] := by
  have two : ∀ (a : ArrPart) (e : EngPart), s.onlyChanges ((s.setArr a).setEng e) [.arr, .tgt, .eng] := fun a e =>
    State.onlyChanges_trans (s.only_setArr a (by simp)) (State.only_setEng _ e (by simp))
  unfold State.dropWork
  refine State.onlyChanges_trans (two _ _) (State.onlyChanges_foldl _ (fun s t => ?_) _ _)
  exact State.onlyChanges_trans (State.onlyChanges_trans (State.onlyChanges_mono (s.only_custSettle t) (by simp))
    (State.onlyChanges_mono (State.only_settleWaits _ t) (by simp))) (State.onlyChanges_mono (State.only_keysSettle _ t) (by simp))

/-- A program that stops: its state, its work in the engines, and the run. -/
theorem State.only_faultStop (s : State) (h : Nat) : s.onlyChanges (s.faultStop h) [.arr, .tgt, .eng, .prog, .run] := by
  unfold State.faultStop
  split
  · exact s.onlyChanges_refl _
  · have mid : ∀ w : ProgPart, s.onlyChanges ((s.setProg w).dropWork h) [.arr, .tgt, .eng, .prog, .run] := fun w =>
      State.onlyChanges_trans (s.only_setProg w (by simp)) (State.onlyChanges_mono (State.only_dropWork _ h) (by simp))
    simp only []
    exact State.onlyChanges_ite (State.onlyChanges_ite (State.onlyChanges_trans (mid _) (State.only_setRun _ _ (by simp)))
      (State.onlyChanges_trans (mid _) (State.only_setRun _ _ (by simp)))) (mid _)

theorem State.only_holdQueue (s : State) (h x k n : Nat) : s.onlyChanges (s.holdQueue h x k n) [.prog] := by
  unfold State.holdQueue
  split
  · exact s.onlyChanges_refl _
  · exact s.only_setProg _ (by simp)

/-- A program fault: events, the program's state, the engines' work, and the run. -/
theorem State.only_programFault (s : State) (c : Src) (k x n q : Nat) :
    s.onlyChanges (s.programFault c k x n q) [.arr, .tgt, .eng, .keeper, .prog, .run, .fnp, .outbox] := by
  unfold State.programFault
  have post : ∀ (v : State) (f g w : Nat) (d : List Byte), v.onlyChanges (v.post f g w d) [.arr, .tgt, .eng, .keeper, .prog, .run, .fnp, .outbox] :=
    fun v f g w d => State.onlyChanges_mono (v.only_post f g w d) (by simp)
  simp only []
  have first := post s c.fn.val 6 0
  have hold := fun (v : State) => State.onlyChanges_mono (qs := [.arr, .tgt, .eng, .keeper, .prog, .run, .fnp, .outbox])
    (v.only_holdQueue c.handle x n q) (by simp)
  have stop := fun (v : State) => State.onlyChanges_mono (qs := [.arr, .tgt, .eng, .keeper, .prog, .run, .fnp, .outbox])
    (v.only_faultStop c.handle) (by simp)
  split <;> split
  · exact State.onlyChanges_trans (first _) (hold _)
  · exact State.onlyChanges_trans (first _) (stop _)
  · exact State.onlyChanges_trans (State.onlyChanges_trans (first _) (post _ 0 6 0 _)) (hold _)
  · exact State.onlyChanges_trans (State.onlyChanges_trans (first _) (post _ 0 6 0 _)) (stop _)

end Sys2Proof.Machine
end

