-- ==== Sys2Proof/Laws/Mem.lean ====
section
/-! SUPPORT. Memory: reading after a write, and every memory operation keeps the canonical form. -/
namespace Sys2Proof.Machine

@[simp] theorem Mem.read_write_same (m : Mem) (a : Nat) (v : Byte) (h : Mem.wf m = true) : (Mem.write m a v).read a = v := by
  suffices ∀ (m : Mem) (lo : Option Nat), Mem.wfAbove lo m = true → (Mem.write m a v).read a = v from this m none h
  intro m
  induction m with
  | nil =>
    intro _ _
    by_cases hv : v = 0
    · rw [Mem.write, if_pos hv]; exact hv.symm
    · rw [Mem.write, if_neg hv]; simp [Mem.read]
  | cons e r ih =>
    intro lo hw
    obtain ⟨k, w⟩ := e
    simp only [Mem.wfAbove, Bool.and_eq_true] at hw
    have above : ∀ (r : Mem) (l : Nat), Mem.wfAbove (some l) r = true → a ≤ l → Mem.read r a = 0 := by
      intro r
      induction r with
      | nil => intros; rfl
      | cons e r ih =>
        intro l hl hal
        obtain ⟨k, w⟩ := e
        simp only [Mem.wfAbove, Bool.and_eq_true, decide_eq_true_eq] at hl
        have : a ≠ k := by omega
        simp only [Mem.read, this, if_false]
        exact ih k hl.2 (by omega)
    simp only [Mem.write]
    split
    · by_cases hv : v = 0
      · have : a ≠ k := by omega
        simp only [hv, if_true, Mem.read, this, if_false]
        exact above r k hw.2 (by omega)
      · rw [if_neg hv]; simp [Mem.read]
    · split
      · rename_i hk
        by_cases hv : v = 0
        · simp only [hv, if_true]
          exact above r k hw.2 (by omega)
        · rw [if_neg hv]; simp [Mem.read]
      · rename_i h1 h2
        simp only [Mem.read, h2, if_false]
        exact ih (some k) hw.2

theorem Mem.read_write_other (m : Mem) {a b : Nat} (v : Byte) (h : b ≠ a) : (Mem.write m a v).read b = Mem.read m b := by
  induction m with
  | nil =>
    by_cases hv : v = 0
    · rw [Mem.write, if_pos hv]
    · rw [Mem.write, if_neg hv]; simp [Mem.read, h]
  | cons e r ih =>
    obtain ⟨k, w⟩ := e
    simp only [Mem.write]
    split
    · by_cases hv : v = 0
      · rw [if_pos hv]
      · rw [if_neg hv]; simp [Mem.read, h]
    · split
      · subst_vars
        by_cases hv : v = 0
        · rw [if_pos hv]; simp [Mem.read, h]
        · rw [if_neg hv]; simp [Mem.read, h]
      · simp [Mem.read, ih]

/-- Only the bytes written differ. -/
theorem Mem.read_writeN_outside (bs : List Byte) : ∀ (m : Mem) {a b : Nat}, (b < a ∨ a + bs.length ≤ b) →
    (Mem.writeN m a bs).read b = Mem.read m b := by
  induction bs with
  | nil => intros; rfl
  | cons x bs ih =>
    intro m a b h
    simp only [List.length_cons] at h
    rw [Mem.writeN, ih (Mem.write m a x) (by omega), Mem.read_write_other m x (by omega)]

theorem Mem.wf_write (m : Mem) (a : Nat) (v : Byte) (h : Mem.wf m = true) : Mem.wf (Mem.write m a v) = true := by
  suffices ∀ (m : Mem) (lo : Option Nat), (∀ l, lo = some l → l < a) → Mem.wfAbove lo m = true →
      Mem.wfAbove lo (Mem.write m a v) = true from this m none (by simp) h
  intro m
  induction m with
  | nil =>
    intro lo hlo _
    by_cases hv : v = 0
    · simp [Mem.write, hv, Mem.wfAbove]
    · cases lo <;> simp_all [Mem.write, Mem.wfAbove]
  | cons e r ih =>
    intro lo hlo hw
    obtain ⟨k, w⟩ := e
    have weaken : ∀ (r : Mem) (l : Nat), Mem.wfAbove (some k) r = true → l ≤ k → Mem.wfAbove (some l) r = true := by
      intro r l hr hl
      cases r with
      | nil => rfl
      | cons e r =>
        obtain ⟨k', w'⟩ := e
        simp only [Mem.wfAbove, Bool.and_eq_true, decide_eq_true_eq] at hr ⊢
        exact ⟨⟨by omega, hr.1.2⟩, hr.2⟩
    simp only [Mem.wfAbove, Bool.and_eq_true] at hw
    simp only [Mem.write]
    split
    · rename_i hak
      by_cases hv : v = 0
      · simp only [hv, if_true, Mem.wfAbove, Bool.and_eq_true]; exact hw
      · simp only [hv, if_false, Mem.wfAbove, Bool.and_eq_true, decide_eq_true_eq]
        refine ⟨⟨?_, by simpa using hv⟩, ⟨hak, hw.1.2⟩, hw.2⟩
        cases lo with
        | none => rfl
        | some l => simpa using hlo l rfl
    · split
      · rename_i hak; subst hak
        by_cases hv : v = 0
        · simp only [hv, if_true]
          cases lo with
          | none =>
            cases r with
            | nil => rfl
            | cons e r =>
              obtain ⟨k', w'⟩ := e
              simp only [Mem.wfAbove, Bool.and_eq_true, decide_eq_true_eq] at hw ⊢
              exact ⟨⟨trivial, hw.2.1.2⟩, hw.2.2⟩
          | some l => exact weaken r l hw.2 (Nat.le_of_lt (hlo l rfl))
        · simp only [hv, if_false, Mem.wfAbove, Bool.and_eq_true]
          exact ⟨⟨hw.1.1, by simpa using hv⟩, hw.2⟩
      · rename_i h1 h2
        simp only [Mem.wfAbove, Bool.and_eq_true]
        exact ⟨hw.1, ih (some k) (by intro l hl; cases hl; omega) hw.2⟩

theorem Mem.wf_writeN (bs : List Byte) : ∀ (m : Mem) (a : Nat), Mem.wf m = true → Mem.wf (Mem.writeN m a bs) = true := by
  induction bs with
  | nil => intro m a h; exact h
  | cons b bs ih => intro m a h; exact ih _ _ (Mem.wf_write m a b h)

theorem Mem.wf_place (p : Placed) : ∀ m : Mem, Mem.wf m = true → Mem.wf (Mem.place m p) = true := by
  induction p with
  | nil => intro m h; exact h
  | cons x p ih => intro m h; exact ih _ (Mem.wf_writeN x.2 m x.1 h)

theorem Mem.wf_writeLines (ls : List (List Byte)) : ∀ (m : Mem) (a n : Nat), Mem.wf m = true → Mem.wf (Mem.writeLines m a n ls) = true := by
  induction ls with
  | nil => intro m a n h; exact h
  | cons l ls ih => intro m a n h; exact ih _ _ _ (Mem.wf_writeN l m a h)

/-- Bytes read back where they were written. -/
theorem Mem.readN_writeN (bs : List Byte) : ∀ (m : Mem) (a : Nat), Mem.wf m = true → Mem.readN (Mem.writeN m a bs) a bs.length = bs := by
  induction bs with
  | nil => intros; rfl
  | cons b bs ih =>
    intro m a h
    simp only [Mem.writeN, List.length_cons, Mem.readN]
    rw [Mem.read_writeN_outside bs _ (by omega), Mem.read_write_same m a b h, ih _ _ (Mem.wf_write m a b h)]

/-- Bytes elsewhere are read as before. -/
theorem Mem.readN_writeN_outside (bs : List Byte) (n : Nat) : ∀ (m : Mem) {a b : Nat}, (b + n ≤ a ∨ a + bs.length ≤ b) →
    Mem.readN (Mem.writeN m a bs) b n = Mem.readN m b n := by
  induction n with
  | zero => intros; rfl
  | succ n ih =>
    intro m a b h
    simp only [Mem.readN]
    rw [Mem.read_writeN_outside bs m (by omega), ih m (by omega)]

/-- Only the bytes of the placed strings differ. -/
theorem Mem.read_place_outside (p : Placed) : ∀ (m : Mem) {b : Nat}, (∀ x ∈ p, b < x.1 ∨ x.1 + x.2.length ≤ b) →
    (Mem.place m p).read b = Mem.read m b := by
  induction p with
  | nil => intros; rfl
  | cons x p ih =>
    intro m b h
    rw [Mem.place, ih _ (fun y hy => h y (List.mem_cons_of_mem _ hy)), Mem.read_writeN_outside x.2 m (h x (List.mem_cons_self ..))]

/-- Only the bytes of the written lines differ. -/
theorem Mem.read_writeLines_outside (ls : List (List Byte)) : ∀ (m : Mem) {a n b : Nat},
    (∀ i, (h : i < ls.length) → b < a + i * n ∨ a + i * n + (ls[i]).length ≤ b) → (Mem.writeLines m a n ls).read b = Mem.read m b := by
  induction ls with
  | nil => intros; rfl
  | cons l ls ih =>
    intro m a n b h
    rw [Mem.writeLines, ih, Mem.read_writeN_outside l m (by have := h 0 (by simp); simp only [Nat.zero_mul, Nat.add_zero, List.getElem_cons_zero] at this; exact this)]
    intro i hi
    have := h (i + 1) (by simpa using hi)
    simp only [List.getElem_cons_succ] at this
    have e : a + (i + 1) * n = a + n + i * n := by rw [Nat.add_mul]; omega
    rw [e] at this
    exact this

end Sys2Proof.Machine
end

