-- ==== Sys2Proof/Laws/PerInstr.lean ====
section
/-! SUPPORT. Laws of every command as syntax, one lemma a constructor. -/

/-- No command's entry in Instr.touches names the queue. -/
def Sys2Proof.Laws.QueueKept.Statement (i : Sys2Proof.Instr) : Prop := Sys2Proof.Machine.Part.pending ∉ i.touches

theorem Sys2Proof.Laws.QueueKept.nop a0 a1 : Sys2Proof.Laws.QueueKept.Statement (.nop a0 a1) :=
  of_decide_eq_true (p := Sys2Proof.Machine.Part.pending ∉ Sys2Proof.Instr.touches (.nop a0 a1)) rfl
theorem Sys2Proof.Laws.QueueKept.identify a0 : Sys2Proof.Laws.QueueKept.Statement (.identify a0) :=
  of_decide_eq_true (p := Sys2Proof.Machine.Part.pending ∉ Sys2Proof.Instr.touches (.identify a0)) rfl
theorem Sys2Proof.Laws.QueueKept.healthRead a0 : Sys2Proof.Laws.QueueKept.Statement (.healthRead a0) :=
  of_decide_eq_true (p := Sys2Proof.Machine.Part.pending ∉ Sys2Proof.Instr.touches (.healthRead a0)) rfl
theorem Sys2Proof.Laws.QueueKept.accountRead a0 : Sys2Proof.Laws.QueueKept.Statement (.accountRead a0) :=
  of_decide_eq_true (p := Sys2Proof.Machine.Part.pending ∉ Sys2Proof.Instr.touches (.accountRead a0)) rfl
theorem Sys2Proof.Laws.QueueKept.pairLoad a0 a1 : Sys2Proof.Laws.QueueKept.Statement (.pairLoad a0 a1) :=
  of_decide_eq_true (p := Sys2Proof.Machine.Part.pending ∉ Sys2Proof.Instr.touches (.pairLoad a0 a1)) rfl
theorem Sys2Proof.Laws.QueueKept.pairLoadDone a0 : Sys2Proof.Laws.QueueKept.Statement (.pairLoadDone a0) :=
  of_decide_eq_true (p := Sys2Proof.Machine.Part.pending ∉ Sys2Proof.Instr.touches (.pairLoadDone a0)) rfl
theorem Sys2Proof.Laws.QueueKept.pairUnload a0 : Sys2Proof.Laws.QueueKept.Statement (.pairUnload a0) :=
  of_decide_eq_true (p := Sys2Proof.Machine.Part.pending ∉ Sys2Proof.Instr.touches (.pairUnload a0)) rfl
theorem Sys2Proof.Laws.QueueKept.refresh a0 a1 : Sys2Proof.Laws.QueueKept.Statement (.refresh a0 a1) :=
  of_decide_eq_true (p := Sys2Proof.Machine.Part.pending ∉ Sys2Proof.Instr.touches (.refresh a0 a1)) rfl
theorem Sys2Proof.Laws.QueueKept.pairStatus a0 : Sys2Proof.Laws.QueueKept.Statement (.pairStatus a0) :=
  of_decide_eq_true (p := Sys2Proof.Machine.Part.pending ∉ Sys2Proof.Instr.touches (.pairStatus a0)) rfl
theorem Sys2Proof.Laws.QueueKept.progSubmit a0 a1 : Sys2Proof.Laws.QueueKept.Statement (.progSubmit a0 a1) :=
  of_decide_eq_true (p := Sys2Proof.Machine.Part.pending ∉ Sys2Proof.Instr.touches (.progSubmit a0 a1)) rfl
theorem Sys2Proof.Laws.QueueKept.progRetire a0 : Sys2Proof.Laws.QueueKept.Statement (.progRetire a0) :=
  of_decide_eq_true (p := Sys2Proof.Machine.Part.pending ∉ Sys2Proof.Instr.touches (.progRetire a0)) rfl
theorem Sys2Proof.Laws.QueueKept.progRestart a0 : Sys2Proof.Laws.QueueKept.Statement (.progRestart a0) :=
  of_decide_eq_true (p := Sys2Proof.Machine.Part.pending ∉ Sys2Proof.Instr.touches (.progRestart a0)) rfl
theorem Sys2Proof.Laws.QueueKept.runStart a0 a1 : Sys2Proof.Laws.QueueKept.Statement (.runStart a0 a1) :=
  of_decide_eq_true (p := Sys2Proof.Machine.Part.pending ∉ Sys2Proof.Instr.touches (.runStart a0 a1)) rfl
theorem Sys2Proof.Laws.QueueKept.runStop a0 : Sys2Proof.Laws.QueueKept.Statement (.runStop a0) :=
  of_decide_eq_true (p := Sys2Proof.Machine.Part.pending ∉ Sys2Proof.Instr.touches (.runStop a0)) rfl
theorem Sys2Proof.Laws.QueueKept.snapRequest a0 : Sys2Proof.Laws.QueueKept.Statement (.snapRequest a0) :=
  of_decide_eq_true (p := Sys2Proof.Machine.Part.pending ∉ Sys2Proof.Instr.touches (.snapRequest a0)) rfl
theorem Sys2Proof.Laws.QueueKept.snapshotComplete a0 : Sys2Proof.Laws.QueueKept.Statement (.snapshotComplete a0) :=
  of_decide_eq_true (p := Sys2Proof.Machine.Part.pending ∉ Sys2Proof.Instr.touches (.snapshotComplete a0)) rfl
theorem Sys2Proof.Laws.QueueKept.join a0 : Sys2Proof.Laws.QueueKept.Statement (.join a0) :=
  of_decide_eq_true (p := Sys2Proof.Machine.Part.pending ∉ Sys2Proof.Instr.touches (.join a0)) rfl
theorem Sys2Proof.Laws.QueueKept.cancel a0 : Sys2Proof.Laws.QueueKept.Statement (.cancel a0) :=
  of_decide_eq_true (p := Sys2Proof.Machine.Part.pending ∉ Sys2Proof.Instr.touches (.cancel a0)) rfl
theorem Sys2Proof.Laws.QueueKept.pause a0 : Sys2Proof.Laws.QueueKept.Statement (.pause a0) :=
  of_decide_eq_true (p := Sys2Proof.Machine.Part.pending ∉ Sys2Proof.Instr.touches (.pause a0)) rfl
theorem Sys2Proof.Laws.QueueKept.batchClose a0 : Sys2Proof.Laws.QueueKept.Statement (.batchClose a0) :=
  of_decide_eq_true (p := Sys2Proof.Machine.Part.pending ∉ Sys2Proof.Instr.touches (.batchClose a0)) rfl
theorem Sys2Proof.Laws.QueueKept.reqStatus a0 : Sys2Proof.Laws.QueueKept.Statement (.reqStatus a0) :=
  of_decide_eq_true (p := Sys2Proof.Machine.Part.pending ∉ Sys2Proof.Instr.touches (.reqStatus a0)) rfl
theorem Sys2Proof.Laws.QueueKept.custBind a0 : Sys2Proof.Laws.QueueKept.Statement (.custBind a0) :=
  of_decide_eq_true (p := Sys2Proof.Machine.Part.pending ∉ Sys2Proof.Instr.touches (.custBind a0)) rfl
theorem Sys2Proof.Laws.QueueKept.budgetRefill a0 : Sys2Proof.Laws.QueueKept.Statement (.budgetRefill a0) :=
  of_decide_eq_true (p := Sys2Proof.Machine.Part.pending ∉ Sys2Proof.Instr.touches (.budgetRefill a0)) rfl
theorem Sys2Proof.Laws.QueueKept.budgetRead a0 : Sys2Proof.Laws.QueueKept.Statement (.budgetRead a0) :=
  of_decide_eq_true (p := Sys2Proof.Machine.Part.pending ∉ Sys2Proof.Instr.touches (.budgetRead a0)) rfl
theorem Sys2Proof.Laws.QueueKept.regionAlloc a0 : Sys2Proof.Laws.QueueKept.Statement (.regionAlloc a0) :=
  of_decide_eq_true (p := Sys2Proof.Machine.Part.pending ∉ Sys2Proof.Instr.touches (.regionAlloc a0)) rfl
theorem Sys2Proof.Laws.QueueKept.regionFree a0 : Sys2Proof.Laws.QueueKept.Statement (.regionFree a0) :=
  of_decide_eq_true (p := Sys2Proof.Machine.Part.pending ∉ Sys2Proof.Instr.touches (.regionFree a0)) rfl
theorem Sys2Proof.Laws.QueueKept.memTransfer a0 : Sys2Proof.Laws.QueueKept.Statement (.memTransfer a0) :=
  of_decide_eq_true (p := Sys2Proof.Machine.Part.pending ∉ Sys2Proof.Instr.touches (.memTransfer a0)) rfl
theorem Sys2Proof.Laws.QueueKept.memTransferDone a0 a1 a2 a3 : Sys2Proof.Laws.QueueKept.Statement (.memTransferDone a0 a1 a2 a3) :=
  of_decide_eq_true (p := Sys2Proof.Machine.Part.pending ∉ Sys2Proof.Instr.touches (.memTransferDone a0 a1 a2 a3)) rfl
theorem Sys2Proof.Laws.QueueKept.carrierEvacuate a0 : Sys2Proof.Laws.QueueKept.Statement (.carrierEvacuate a0) :=
  of_decide_eq_true (p := Sys2Proof.Machine.Part.pending ∉ Sys2Proof.Instr.touches (.carrierEvacuate a0)) rfl
theorem Sys2Proof.Laws.QueueKept.extentSwitch a0 a1 : Sys2Proof.Laws.QueueKept.Statement (.extentSwitch a0 a1) :=
  of_decide_eq_true (p := Sys2Proof.Machine.Part.pending ∉ Sys2Proof.Instr.touches (.extentSwitch a0 a1)) rfl
theorem Sys2Proof.Laws.QueueKept.carrierReleased a0 : Sys2Proof.Laws.QueueKept.Statement (.carrierReleased a0) :=
  of_decide_eq_true (p := Sys2Proof.Machine.Part.pending ∉ Sys2Proof.Instr.touches (.carrierReleased a0)) rfl
theorem Sys2Proof.Laws.QueueKept.cxlmemWindow a0 : Sys2Proof.Laws.QueueKept.Statement (.cxlmemWindow a0) :=
  of_decide_eq_true (p := Sys2Proof.Machine.Part.pending ∉ Sys2Proof.Instr.touches (.cxlmemWindow a0)) rfl
theorem Sys2Proof.Laws.QueueKept.sizeTableSet a0 : Sys2Proof.Laws.QueueKept.Statement (.sizeTableSet a0) :=
  of_decide_eq_true (p := Sys2Proof.Machine.Part.pending ∉ Sys2Proof.Instr.touches (.sizeTableSet a0)) rfl
theorem Sys2Proof.Laws.QueueKept.sizeTableInForce a0 a1 : Sys2Proof.Laws.QueueKept.Statement (.sizeTableInForce a0 a1) :=
  of_decide_eq_true (p := Sys2Proof.Machine.Part.pending ∉ Sys2Proof.Instr.touches (.sizeTableInForce a0 a1)) rfl
theorem Sys2Proof.Laws.QueueKept.sizeTableRead a0 : Sys2Proof.Laws.QueueKept.Statement (.sizeTableRead a0) :=
  of_decide_eq_true (p := Sys2Proof.Machine.Part.pending ∉ Sys2Proof.Instr.touches (.sizeTableRead a0)) rfl
theorem Sys2Proof.Laws.QueueKept.linkStatus a0 : Sys2Proof.Laws.QueueKept.Statement (.linkStatus a0) :=
  of_decide_eq_true (p := Sys2Proof.Machine.Part.pending ∉ Sys2Proof.Instr.touches (.linkStatus a0)) rfl
theorem Sys2Proof.Laws.QueueKept.fogRead a0 : Sys2Proof.Laws.QueueKept.Statement (.fogRead a0) :=
  of_decide_eq_true (p := Sys2Proof.Machine.Part.pending ∉ Sys2Proof.Instr.touches (.fogRead a0)) rfl
theorem Sys2Proof.Laws.QueueKept.daymarkRead a0 : Sys2Proof.Laws.QueueKept.Statement (.daymarkRead a0) :=
  of_decide_eq_true (p := Sys2Proof.Machine.Part.pending ∉ Sys2Proof.Instr.touches (.daymarkRead a0)) rfl
theorem Sys2Proof.Laws.QueueKept.fwLoad a0 a1 : Sys2Proof.Laws.QueueKept.Statement (.fwLoad a0 a1) :=
  of_decide_eq_true (p := Sys2Proof.Machine.Part.pending ∉ Sys2Proof.Instr.touches (.fwLoad a0 a1)) rfl
theorem Sys2Proof.Laws.QueueKept.fwActivate a0 a1 : Sys2Proof.Laws.QueueKept.Statement (.fwActivate a0 a1) :=
  of_decide_eq_true (p := Sys2Proof.Machine.Part.pending ∉ Sys2Proof.Instr.touches (.fwActivate a0 a1)) rfl
theorem Sys2Proof.Laws.QueueKept.servicePrepareLaser a0 : Sys2Proof.Laws.QueueKept.Statement (.servicePrepareLaser a0) :=
  of_decide_eq_true (p := Sys2Proof.Machine.Part.pending ∉ Sys2Proof.Instr.touches (.servicePrepareLaser a0)) rfl
theorem Sys2Proof.Laws.QueueKept.servicePreparePhase a0 : Sys2Proof.Laws.QueueKept.Statement (.servicePreparePhase a0) :=
  of_decide_eq_true (p := Sys2Proof.Machine.Part.pending ∉ Sys2Proof.Instr.touches (.servicePreparePhase a0)) rfl
theorem Sys2Proof.Laws.QueueKept.servicePrepareFibre a0 a1 : Sys2Proof.Laws.QueueKept.Statement (.servicePrepareFibre a0 a1) :=
  of_decide_eq_true (p := Sys2Proof.Machine.Part.pending ∉ Sys2Proof.Instr.touches (.servicePrepareFibre a0 a1)) rfl
theorem Sys2Proof.Laws.QueueKept.debugEnter a0 : Sys2Proof.Laws.QueueKept.Statement (.debugEnter a0) :=
  of_decide_eq_true (p := Sys2Proof.Machine.Part.pending ∉ Sys2Proof.Instr.touches (.debugEnter a0)) rfl
theorem Sys2Proof.Laws.QueueKept.debugExit a0 : Sys2Proof.Laws.QueueKept.Statement (.debugExit a0) :=
  of_decide_eq_true (p := Sys2Proof.Machine.Part.pending ∉ Sys2Proof.Instr.touches (.debugExit a0)) rfl
theorem Sys2Proof.Laws.QueueKept.accRead a0 : Sys2Proof.Laws.QueueKept.Statement (.accRead a0) :=
  of_decide_eq_true (p := Sys2Proof.Machine.Part.pending ∉ Sys2Proof.Instr.touches (.accRead a0)) rfl
theorem Sys2Proof.Laws.QueueKept.accWrite a0 : Sys2Proof.Laws.QueueKept.Statement (.accWrite a0) :=
  of_decide_eq_true (p := Sys2Proof.Machine.Part.pending ∉ Sys2Proof.Instr.touches (.accWrite a0)) rfl
theorem Sys2Proof.Laws.QueueKept.mbxEvtConsWrite a0 a1 : Sys2Proof.Laws.QueueKept.Statement (.mbxEvtConsWrite a0 a1) :=
  of_decide_eq_true (p := Sys2Proof.Machine.Part.pending ∉ Sys2Proof.Instr.touches (.mbxEvtConsWrite a0 a1)) rfl
theorem Sys2Proof.Laws.QueueKept.keeperHeartbeat : Sys2Proof.Laws.QueueKept.Statement (.keeperHeartbeat) :=
  of_decide_eq_true (p := Sys2Proof.Machine.Part.pending ∉ Sys2Proof.Instr.touches (.keeperHeartbeat)) rfl
theorem Sys2Proof.Laws.QueueKept.kprSwatchRead a0 : Sys2Proof.Laws.QueueKept.Statement (.kprSwatchRead a0) :=
  of_decide_eq_true (p := Sys2Proof.Machine.Part.pending ∉ Sys2Proof.Instr.touches (.kprSwatchRead a0)) rfl
theorem Sys2Proof.Laws.QueueKept.drnCustCommit a0 a1 a2 : Sys2Proof.Laws.QueueKept.Statement (.drnCustCommit a0 a1 a2) :=
  of_decide_eq_true (p := Sys2Proof.Machine.Part.pending ∉ Sys2Proof.Instr.touches (.drnCustCommit a0 a1 a2)) rfl
theorem Sys2Proof.Laws.QueueKept.drnCntClr a0 a1 a2 : Sys2Proof.Laws.QueueKept.Statement (.drnCntClr a0 a1 a2) :=
  of_decide_eq_true (p := Sys2Proof.Machine.Part.pending ∉ Sys2Proof.Instr.touches (.drnCntClr a0 a1 a2)) rfl
theorem Sys2Proof.Laws.QueueKept.tgtCommit a0 a1 a2 : Sys2Proof.Laws.QueueKept.Statement (.tgtCommit a0 a1 a2) :=
  of_decide_eq_true (p := Sys2Proof.Machine.Part.pending ∉ Sys2Proof.Instr.touches (.tgtCommit a0 a1 a2)) rfl
theorem Sys2Proof.Laws.QueueKept.tcfgApply a0 : Sys2Proof.Laws.QueueKept.Statement (.tcfgApply a0) :=
  of_decide_eq_true (p := Sys2Proof.Machine.Part.pending ∉ Sys2Proof.Instr.touches (.tcfgApply a0)) rfl
theorem Sys2Proof.Laws.QueueKept.tgtCntClr a0 a1 : Sys2Proof.Laws.QueueKept.Statement (.tgtCntClr a0 a1) :=
  of_decide_eq_true (p := Sys2Proof.Machine.Part.pending ∉ Sys2Proof.Instr.touches (.tgtCntClr a0 a1)) rfl
theorem Sys2Proof.Laws.QueueKept.vxeCntClr a0 a1 a2 : Sys2Proof.Laws.QueueKept.Statement (.vxeCntClr a0 a1 a2) :=
  of_decide_eq_true (p := Sys2Proof.Machine.Part.pending ∉ Sys2Proof.Instr.touches (.vxeCntClr a0 a1 a2)) rfl
theorem Sys2Proof.Laws.QueueKept.vxeKeyCommit a0 a1 a2 a3 : Sys2Proof.Laws.QueueKept.Statement (.vxeKeyCommit a0 a1 a2 a3) :=
  of_decide_eq_true (p := Sys2Proof.Machine.Part.pending ∉ Sys2Proof.Instr.touches (.vxeKeyCommit a0 a1 a2 a3)) rfl
theorem Sys2Proof.Laws.QueueKept.arbCommit a0 a1 a2 : Sys2Proof.Laws.QueueKept.Statement (.arbCommit a0 a1 a2) :=
  of_decide_eq_true (p := Sys2Proof.Machine.Part.pending ∉ Sys2Proof.Instr.touches (.arbCommit a0 a1 a2)) rfl
theorem Sys2Proof.Laws.QueueKept.arbFreeze a0 a1 a2 : Sys2Proof.Laws.QueueKept.Statement (.arbFreeze a0 a1 a2) :=
  of_decide_eq_true (p := Sys2Proof.Machine.Part.pending ∉ Sys2Proof.Instr.touches (.arbFreeze a0 a1 a2)) rfl
theorem Sys2Proof.Laws.QueueKept.kprSchedCommit a0 a1 : Sys2Proof.Laws.QueueKept.Statement (.kprSchedCommit a0 a1) :=
  of_decide_eq_true (p := Sys2Proof.Machine.Part.pending ∉ Sys2Proof.Instr.touches (.kprSchedCommit a0 a1)) rfl
theorem Sys2Proof.Laws.QueueKept.pwrHotreset a0 a1 a2 : Sys2Proof.Laws.QueueKept.Statement (.pwrHotreset a0 a1 a2) :=
  of_decide_eq_true (p := Sys2Proof.Machine.Part.pending ∉ Sys2Proof.Instr.touches (.pwrHotreset a0 a1 a2)) rfl
theorem Sys2Proof.Laws.QueueKept.registerWrite a0 a1 a2 a3 a4 : Sys2Proof.Laws.QueueKept.Statement (.registerWrite a0 a1 a2 a3 a4) :=
  of_decide_eq_true (p := Sys2Proof.Machine.Part.pending ∉ Sys2Proof.Instr.touches (.registerWrite a0 a1 a2 a3 a4)) rfl
theorem Sys2Proof.Laws.QueueKept.product a0 a1 a2 a3 a4 : Sys2Proof.Laws.QueueKept.Statement (.product a0 a1 a2 a3 a4) :=
  of_decide_eq_true (p := Sys2Proof.Machine.Part.pending ∉ Sys2Proof.Instr.touches (.product a0 a1 a2 a3 a4)) rfl
theorem Sys2Proof.Laws.QueueKept.leaseWaitRelease a0 a1 a2 : Sys2Proof.Laws.QueueKept.Statement (.leaseWaitRelease a0 a1 a2) :=
  of_decide_eq_true (p := Sys2Proof.Machine.Part.pending ∉ Sys2Proof.Instr.touches (.leaseWaitRelease a0 a1 a2)) rfl
theorem Sys2Proof.Laws.QueueKept.tileReplay a0 a1 a2 a3 a4 : Sys2Proof.Laws.QueueKept.Statement (.tileReplay a0 a1 a2 a3 a4) :=
  of_decide_eq_true (p := Sys2Proof.Machine.Part.pending ∉ Sys2Proof.Instr.touches (.tileReplay a0 a1 a2 a3 a4)) rfl
theorem Sys2Proof.Laws.QueueKept.arrayRetire a0 a1 : Sys2Proof.Laws.QueueKept.Statement (.arrayRetire a0 a1) :=
  of_decide_eq_true (p := Sys2Proof.Machine.Part.pending ∉ Sys2Proof.Instr.touches (.arrayRetire a0 a1)) rfl
theorem Sys2Proof.Laws.QueueKept.drain a0 a1 a2 a3 a4 a5 : Sys2Proof.Laws.QueueKept.Statement (.drain a0 a1 a2 a3 a4 a5) :=
  of_decide_eq_true (p := Sys2Proof.Machine.Part.pending ∉ Sys2Proof.Instr.touches (.drain a0 a1 a2 a3 a4 a5)) rfl
theorem Sys2Proof.Laws.QueueKept.teacherTile a0 a1 : Sys2Proof.Laws.QueueKept.Statement (.teacherTile a0 a1) :=
  of_decide_eq_true (p := Sys2Proof.Machine.Part.pending ∉ Sys2Proof.Instr.touches (.teacherTile a0 a1)) rfl
theorem Sys2Proof.Laws.QueueKept.recordForward a0 a1 a2 a3 a4 : Sys2Proof.Laws.QueueKept.Statement (.recordForward a0 a1 a2 a3 a4) :=
  of_decide_eq_true (p := Sys2Proof.Machine.Part.pending ∉ Sys2Proof.Instr.touches (.recordForward a0 a1 a2 a3 a4)) rfl
theorem Sys2Proof.Laws.QueueKept.studentNormTile a0 a1 : Sys2Proof.Laws.QueueKept.Statement (.studentNormTile a0 a1) :=
  of_decide_eq_true (p := Sys2Proof.Machine.Part.pending ∉ Sys2Proof.Instr.touches (.studentNormTile a0 a1)) rfl
theorem Sys2Proof.Laws.QueueKept.studentGradTile a0 a1 : Sys2Proof.Laws.QueueKept.Statement (.studentGradTile a0 a1) :=
  of_decide_eq_true (p := Sys2Proof.Machine.Part.pending ∉ Sys2Proof.Instr.touches (.studentGradTile a0 a1)) rfl
theorem Sys2Proof.Laws.QueueKept.sampleTile a0 a1 : Sys2Proof.Laws.QueueKept.Statement (.sampleTile a0 a1) :=
  of_decide_eq_true (p := Sys2Proof.Machine.Part.pending ∉ Sys2Proof.Instr.touches (.sampleTile a0 a1)) rfl
theorem Sys2Proof.Laws.QueueKept.chain a0 a1 a2 a3 a4 : Sys2Proof.Laws.QueueKept.Statement (.chain a0 a1 a2 a3 a4) :=
  of_decide_eq_true (p := Sys2Proof.Machine.Part.pending ∉ Sys2Proof.Instr.touches (.chain a0 a1 a2 a3 a4)) rfl
theorem Sys2Proof.Laws.QueueKept.setlen a0 a1 a2 a3 a4 : Sys2Proof.Laws.QueueKept.Statement (.setlen a0 a1 a2 a3 a4) :=
  of_decide_eq_true (p := Sys2Proof.Machine.Part.pending ∉ Sys2Proof.Instr.touches (.setlen a0 a1 a2 a3 a4)) rfl
theorem Sys2Proof.Laws.QueueKept.update a0 a1 a2 a3 : Sys2Proof.Laws.QueueKept.Statement (.update a0 a1 a2 a3) :=
  of_decide_eq_true (p := Sys2Proof.Machine.Part.pending ∉ Sys2Proof.Instr.touches (.update a0 a1 a2 a3)) rfl
theorem Sys2Proof.Laws.QueueKept.saveDrain a0 a1 a2 a3 : Sys2Proof.Laws.QueueKept.Statement (.saveDrain a0 a1 a2 a3) :=
  of_decide_eq_true (p := Sys2Proof.Machine.Part.pending ∉ Sys2Proof.Instr.touches (.saveDrain a0 a1 a2 a3)) rfl
theorem Sys2Proof.Laws.QueueKept.saveSpad a0 a1 a2 a3 : Sys2Proof.Laws.QueueKept.Statement (.saveSpad a0 a1 a2 a3) :=
  of_decide_eq_true (p := Sys2Proof.Machine.Part.pending ∉ Sys2Proof.Instr.touches (.saveSpad a0 a1 a2 a3)) rfl
theorem Sys2Proof.Laws.QueueKept.expand a0 a1 a2 a3 : Sys2Proof.Laws.QueueKept.Statement (.expand a0 a1 a2 a3) :=
  of_decide_eq_true (p := Sys2Proof.Machine.Part.pending ∉ Sys2Proof.Instr.touches (.expand a0 a1 a2 a3)) rfl
theorem Sys2Proof.Laws.QueueKept.turnStore a0 a1 a2 a3 : Sys2Proof.Laws.QueueKept.Statement (.turnStore a0 a1 a2 a3) :=
  of_decide_eq_true (p := Sys2Proof.Machine.Part.pending ∉ Sys2Proof.Instr.touches (.turnStore a0 a1 a2 a3)) rfl
theorem Sys2Proof.Laws.QueueKept.rms a0 a1 a2 a3 : Sys2Proof.Laws.QueueKept.Statement (.rms a0 a1 a2 a3) :=
  of_decide_eq_true (p := Sys2Proof.Machine.Part.pending ∉ Sys2Proof.Instr.touches (.rms a0 a1 a2 a3)) rfl
theorem Sys2Proof.Laws.QueueKept.layer a0 a1 a2 a3 : Sys2Proof.Laws.QueueKept.Statement (.layer a0 a1 a2 a3) :=
  of_decide_eq_true (p := Sys2Proof.Machine.Part.pending ∉ Sys2Proof.Instr.touches (.layer a0 a1 a2 a3)) rfl
theorem Sys2Proof.Laws.QueueKept.rmsBwd a0 a1 a2 a3 : Sys2Proof.Laws.QueueKept.Statement (.rmsBwd a0 a1 a2 a3) :=
  of_decide_eq_true (p := Sys2Proof.Machine.Part.pending ∉ Sys2Proof.Instr.touches (.rmsBwd a0 a1 a2 a3)) rfl
theorem Sys2Proof.Laws.QueueKept.layerBwd a0 a1 a2 a3 : Sys2Proof.Laws.QueueKept.Statement (.layerBwd a0 a1 a2 a3) :=
  of_decide_eq_true (p := Sys2Proof.Machine.Part.pending ∉ Sys2Proof.Instr.touches (.layerBwd a0 a1 a2 a3)) rfl
theorem Sys2Proof.Laws.QueueKept.smaxStat a0 a1 a2 a3 : Sys2Proof.Laws.QueueKept.Statement (.smaxStat a0 a1 a2 a3) :=
  of_decide_eq_true (p := Sys2Proof.Machine.Part.pending ∉ Sys2Proof.Instr.touches (.smaxStat a0 a1 a2 a3)) rfl
theorem Sys2Proof.Laws.QueueKept.smax a0 a1 a2 a3 : Sys2Proof.Laws.QueueKept.Statement (.smax a0 a1 a2 a3) :=
  of_decide_eq_true (p := Sys2Proof.Machine.Part.pending ∉ Sys2Proof.Instr.touches (.smax a0 a1 a2 a3)) rfl
theorem Sys2Proof.Laws.QueueKept.smaxBwd a0 a1 a2 a3 : Sys2Proof.Laws.QueueKept.Statement (.smaxBwd a0 a1 a2 a3) :=
  of_decide_eq_true (p := Sys2Proof.Machine.Part.pending ∉ Sys2Proof.Instr.touches (.smaxBwd a0 a1 a2 a3)) rfl
theorem Sys2Proof.Laws.QueueKept.dot a0 a1 a2 a3 : Sys2Proof.Laws.QueueKept.Statement (.dot a0 a1 a2 a3) :=
  of_decide_eq_true (p := Sys2Proof.Machine.Part.pending ∉ Sys2Proof.Instr.touches (.dot a0 a1 a2 a3)) rfl
theorem Sys2Proof.Laws.QueueKept.merge a0 a1 a2 a3 : Sys2Proof.Laws.QueueKept.Statement (.merge a0 a1 a2 a3) :=
  of_decide_eq_true (p := Sys2Proof.Machine.Part.pending ∉ Sys2Proof.Instr.touches (.merge a0 a1 a2 a3)) rfl
theorem Sys2Proof.Laws.QueueKept.copy a0 a1 a2 a3 a4 : Sys2Proof.Laws.QueueKept.Statement (.copy a0 a1 a2 a3 a4) :=
  of_decide_eq_true (p := Sys2Proof.Machine.Part.pending ∉ Sys2Proof.Instr.touches (.copy a0 a1 a2 a3 a4)) rfl
theorem Sys2Proof.Laws.QueueKept.fill a0 a1 a2 a3 : Sys2Proof.Laws.QueueKept.Statement (.fill a0 a1 a2 a3) :=
  of_decide_eq_true (p := Sys2Proof.Machine.Part.pending ∉ Sys2Proof.Instr.touches (.fill a0 a1 a2 a3)) rfl
theorem Sys2Proof.Laws.QueueKept.collectiveStep a0 a1 : Sys2Proof.Laws.QueueKept.Statement (.collectiveStep a0 a1) :=
  of_decide_eq_true (p := Sys2Proof.Machine.Part.pending ∉ Sys2Proof.Instr.touches (.collectiveStep a0 a1)) rfl
theorem Sys2Proof.Laws.QueueKept.reshardComplete a0 a1 a2 : Sys2Proof.Laws.QueueKept.Statement (.reshardComplete a0 a1 a2) :=
  of_decide_eq_true (p := Sys2Proof.Machine.Part.pending ∉ Sys2Proof.Instr.touches (.reshardComplete a0 a1 a2)) rfl
theorem Sys2Proof.Laws.QueueKept.contributionArrival a0 a1 a2 a3 a4 : Sys2Proof.Laws.QueueKept.Statement (.contributionArrival a0 a1 a2 a3 a4) :=
  of_decide_eq_true (p := Sys2Proof.Machine.Part.pending ∉ Sys2Proof.Instr.touches (.contributionArrival a0 a1 a2 a3 a4)) rfl
theorem Sys2Proof.Laws.QueueKept.lateLimitExpiry a0 : Sys2Proof.Laws.QueueKept.Statement (.lateLimitExpiry a0) :=
  of_decide_eq_true (p := Sys2Proof.Machine.Part.pending ∉ Sys2Proof.Instr.touches (.lateLimitExpiry a0)) rfl
theorem Sys2Proof.Laws.QueueKept.overflowReport a0 a1 a2 a3 a4 a5 : Sys2Proof.Laws.QueueKept.Statement (.overflowReport a0 a1 a2 a3 a4 a5) :=
  of_decide_eq_true (p := Sys2Proof.Machine.Part.pending ∉ Sys2Proof.Instr.touches (.overflowReport a0 a1 a2 a3 a4 a5)) rfl
theorem Sys2Proof.Laws.QueueKept.prepassRx a0 : Sys2Proof.Laws.QueueKept.Statement (.prepassRx a0) :=
  of_decide_eq_true (p := Sys2Proof.Machine.Part.pending ∉ Sys2Proof.Instr.touches (.prepassRx a0)) rfl
theorem Sys2Proof.Laws.QueueKept.goRx a0 a1 a2 a3 : Sys2Proof.Laws.QueueKept.Statement (.goRx a0 a1 a2 a3) :=
  of_decide_eq_true (p := Sys2Proof.Machine.Part.pending ∉ Sys2Proof.Instr.touches (.goRx a0 a1 a2 a3)) rfl
theorem Sys2Proof.Laws.QueueKept.skipRx a0 a1 a2 : Sys2Proof.Laws.QueueKept.Statement (.skipRx a0 a1 a2) :=
  of_decide_eq_true (p := Sys2Proof.Machine.Part.pending ∉ Sys2Proof.Instr.touches (.skipRx a0 a1 a2)) rfl
theorem Sys2Proof.Laws.QueueKept.readyRx a0 a1 a2 a3 a4 : Sys2Proof.Laws.QueueKept.Statement (.readyRx a0 a1 a2 a3 a4) :=
  of_decide_eq_true (p := Sys2Proof.Machine.Part.pending ∉ Sys2Proof.Instr.touches (.readyRx a0 a1 a2 a3 a4)) rfl
theorem Sys2Proof.Laws.QueueKept.commitMarkRx a0 a1 a2 : Sys2Proof.Laws.QueueKept.Statement (.commitMarkRx a0 a1 a2) :=
  of_decide_eq_true (p := Sys2Proof.Machine.Part.pending ∉ Sys2Proof.Instr.touches (.commitMarkRx a0 a1 a2)) rfl
theorem Sys2Proof.Laws.QueueKept.lscaleFloor : Sys2Proof.Laws.QueueKept.Statement (.lscaleFloor) :=
  of_decide_eq_true (p := Sys2Proof.Machine.Part.pending ∉ Sys2Proof.Instr.touches (.lscaleFloor)) rfl
theorem Sys2Proof.Laws.QueueKept.abortRx a0 a1 : Sys2Proof.Laws.QueueKept.Statement (.abortRx a0 a1) :=
  of_decide_eq_true (p := Sys2Proof.Machine.Part.pending ∉ Sys2Proof.Instr.touches (.abortRx a0 a1)) rfl
theorem Sys2Proof.Laws.QueueKept.commitWaitExpiry a0 : Sys2Proof.Laws.QueueKept.Statement (.commitWaitExpiry a0) :=
  of_decide_eq_true (p := Sys2Proof.Machine.Part.pending ∉ Sys2Proof.Instr.touches (.commitWaitExpiry a0)) rfl
theorem Sys2Proof.Laws.QueueKept.commitPulse a0 a1 : Sys2Proof.Laws.QueueKept.Statement (.commitPulse a0 a1) :=
  of_decide_eq_true (p := Sys2Proof.Machine.Part.pending ∉ Sys2Proof.Instr.touches (.commitPulse a0 a1)) rfl
theorem Sys2Proof.Laws.QueueKept.servingStepBoundary a0 a1 a2 a3 a4 : Sys2Proof.Laws.QueueKept.Statement (.servingStepBoundary a0 a1 a2 a3 a4) :=
  of_decide_eq_true (p := Sys2Proof.Machine.Part.pending ∉ Sys2Proof.Instr.touches (.servingStepBoundary a0 a1 a2 a3 a4)) rfl
theorem Sys2Proof.Laws.QueueKept.requestDeadlineExpiry a0 : Sys2Proof.Laws.QueueKept.Statement (.requestDeadlineExpiry a0) :=
  of_decide_eq_true (p := Sys2Proof.Machine.Part.pending ∉ Sys2Proof.Instr.touches (.requestDeadlineExpiry a0)) rfl
theorem Sys2Proof.Laws.QueueKept.noPages a0 : Sys2Proof.Laws.QueueKept.Statement (.noPages a0) :=
  of_decide_eq_true (p := Sys2Proof.Machine.Part.pending ∉ Sys2Proof.Instr.touches (.noPages a0)) rfl
theorem Sys2Proof.Laws.QueueKept.arbRound a0 a1 a2 a3 : Sys2Proof.Laws.QueueKept.Statement (.arbRound a0 a1 a2 a3) :=
  of_decide_eq_true (p := Sys2Proof.Machine.Part.pending ∉ Sys2Proof.Instr.touches (.arbRound a0 a1 a2 a3)) rfl
theorem Sys2Proof.Laws.QueueKept.arbBreakPoint a0 a1 a2 : Sys2Proof.Laws.QueueKept.Statement (.arbBreakPoint a0 a1 a2) :=
  of_decide_eq_true (p := Sys2Proof.Machine.Part.pending ∉ Sys2Proof.Instr.touches (.arbBreakPoint a0 a1 a2)) rfl
theorem Sys2Proof.Laws.QueueKept.reread a0 a1 a2 a3 : Sys2Proof.Laws.QueueKept.Statement (.reread a0 a1 a2 a3) :=
  of_decide_eq_true (p := Sys2Proof.Machine.Part.pending ∉ Sys2Proof.Instr.touches (.reread a0 a1 a2 a3)) rfl
theorem Sys2Proof.Laws.QueueKept.persistentFailureRecovery a0 a1 a2 : Sys2Proof.Laws.QueueKept.Statement (.persistentFailureRecovery a0 a1 a2) :=
  of_decide_eq_true (p := Sys2Proof.Machine.Part.pending ∉ Sys2Proof.Instr.touches (.persistentFailureRecovery a0 a1 a2)) rfl
theorem Sys2Proof.Laws.QueueKept.transientRetire a0 : Sys2Proof.Laws.QueueKept.Statement (.transientRetire a0) :=
  of_decide_eq_true (p := Sys2Proof.Machine.Part.pending ∉ Sys2Proof.Instr.touches (.transientRetire a0)) rfl
theorem Sys2Proof.Laws.QueueKept.bridgeFlitCrcFail a0 a1 a2 : Sys2Proof.Laws.QueueKept.Statement (.bridgeFlitCrcFail a0 a1 a2) :=
  of_decide_eq_true (p := Sys2Proof.Machine.Part.pending ∉ Sys2Proof.Instr.touches (.bridgeFlitCrcFail a0 a1 a2)) rfl
theorem Sys2Proof.Laws.QueueKept.linkTrain a0 a1 : Sys2Proof.Laws.QueueKept.Statement (.linkTrain a0 a1) :=
  of_decide_eq_true (p := Sys2Proof.Machine.Part.pending ∉ Sys2Proof.Instr.touches (.linkTrain a0 a1)) rfl
theorem Sys2Proof.Laws.QueueKept.linkTrainRetry a0 a1 : Sys2Proof.Laws.QueueKept.Statement (.linkTrainRetry a0 a1) :=
  of_decide_eq_true (p := Sys2Proof.Machine.Part.pending ∉ Sys2Proof.Instr.touches (.linkTrainRetry a0 a1)) rfl
theorem Sys2Proof.Laws.QueueKept.linkPacketRx a0 a1 : Sys2Proof.Laws.QueueKept.Statement (.linkPacketRx a0 a1) :=
  of_decide_eq_true (p := Sys2Proof.Machine.Part.pending ∉ Sys2Proof.Instr.touches (.linkPacketRx a0 a1)) rfl
theorem Sys2Proof.Laws.QueueKept.nakRx a0 a1 : Sys2Proof.Laws.QueueKept.Statement (.nakRx a0 a1) :=
  of_decide_eq_true (p := Sys2Proof.Machine.Part.pending ∉ Sys2Proof.Instr.touches (.nakRx a0 a1)) rfl
theorem Sys2Proof.Laws.QueueKept.ackRx a0 a1 : Sys2Proof.Laws.QueueKept.Statement (.ackRx a0 a1) :=
  of_decide_eq_true (p := Sys2Proof.Machine.Part.pending ∉ Sys2Proof.Instr.touches (.ackRx a0 a1)) rfl
theorem Sys2Proof.Laws.QueueKept.idleTimer a0 : Sys2Proof.Laws.QueueKept.Statement (.idleTimer a0) :=
  of_decide_eq_true (p := Sys2Proof.Machine.Part.pending ∉ Sys2Proof.Instr.touches (.idleTimer a0)) rfl
theorem Sys2Proof.Laws.QueueKept.laneSpared a0 a1 : Sys2Proof.Laws.QueueKept.Statement (.laneSpared a0 a1) :=
  of_decide_eq_true (p := Sys2Proof.Machine.Part.pending ∉ Sys2Proof.Instr.touches (.laneSpared a0 a1)) rfl
theorem Sys2Proof.Laws.QueueKept.peerSilent a0 : Sys2Proof.Laws.QueueKept.Statement (.peerSilent a0) :=
  of_decide_eq_true (p := Sys2Proof.Machine.Part.pending ∉ Sys2Proof.Instr.touches (.peerSilent a0)) rfl
theorem Sys2Proof.Laws.QueueKept.moveTimeout a0 : Sys2Proof.Laws.QueueKept.Statement (.moveTimeout a0) :=
  of_decide_eq_true (p := Sys2Proof.Machine.Part.pending ∉ Sys2Proof.Instr.touches (.moveTimeout a0)) rfl
theorem Sys2Proof.Laws.QueueKept.laserLow a0 a1 : Sys2Proof.Laws.QueueKept.Statement (.laserLow a0 a1) :=
  of_decide_eq_true (p := Sys2Proof.Machine.Part.pending ∉ Sys2Proof.Instr.touches (.laserLow a0 a1)) rfl
theorem Sys2Proof.Laws.QueueKept.laserFailover a0 : Sys2Proof.Laws.QueueKept.Statement (.laserFailover a0) :=
  of_decide_eq_true (p := Sys2Proof.Machine.Part.pending ∉ Sys2Proof.Instr.touches (.laserFailover a0)) rfl
theorem Sys2Proof.Laws.QueueKept.laserSourceFitted a0 : Sys2Proof.Laws.QueueKept.Statement (.laserSourceFitted a0) :=
  of_decide_eq_true (p := Sys2Proof.Machine.Part.pending ∉ Sys2Proof.Instr.touches (.laserSourceFitted a0)) rfl
theorem Sys2Proof.Laws.QueueKept.fogReport a0 a1 a2 a3 : Sys2Proof.Laws.QueueKept.Statement (.fogReport a0 a1 a2 a3) :=
  of_decide_eq_true (p := Sys2Proof.Machine.Part.pending ∉ Sys2Proof.Instr.touches (.fogReport a0 a1 a2 a3)) rfl
theorem Sys2Proof.Laws.QueueKept.fogHoldExpiry a0 a1 : Sys2Proof.Laws.QueueKept.Statement (.fogHoldExpiry a0 a1) :=
  of_decide_eq_true (p := Sys2Proof.Machine.Part.pending ∉ Sys2Proof.Instr.touches (.fogHoldExpiry a0 a1)) rfl
theorem Sys2Proof.Laws.QueueKept.fogWindowExpiry a0 a1 : Sys2Proof.Laws.QueueKept.Statement (.fogWindowExpiry a0 a1) :=
  of_decide_eq_true (p := Sys2Proof.Machine.Part.pending ∉ Sys2Proof.Instr.touches (.fogWindowExpiry a0 a1)) rfl
theorem Sys2Proof.Laws.QueueKept.inputFault a0 a1 a2 : Sys2Proof.Laws.QueueKept.Statement (.inputFault a0 a1 a2) :=
  of_decide_eq_true (p := Sys2Proof.Machine.Part.pending ∉ Sys2Proof.Instr.touches (.inputFault a0 a1 a2)) rfl
theorem Sys2Proof.Laws.QueueKept.inputRestored a0 a1 : Sys2Proof.Laws.QueueKept.Statement (.inputRestored a0 a1) :=
  of_decide_eq_true (p := Sys2Proof.Machine.Part.pending ∉ Sys2Proof.Instr.touches (.inputRestored a0 a1)) rfl
theorem Sys2Proof.Laws.QueueKept.shortRetry a0 a1 : Sys2Proof.Laws.QueueKept.Statement (.shortRetry a0 a1) :=
  of_decide_eq_true (p := Sys2Proof.Machine.Part.pending ∉ Sys2Proof.Instr.touches (.shortRetry a0 a1)) rfl
theorem Sys2Proof.Laws.QueueKept.inputSenseOpen a0 : Sys2Proof.Laws.QueueKept.Statement (.inputSenseOpen a0) :=
  of_decide_eq_true (p := Sys2Proof.Machine.Part.pending ∉ Sys2Proof.Instr.touches (.inputSenseOpen a0)) rfl
theorem Sys2Proof.Laws.QueueKept.powerLoss : Sys2Proof.Laws.QueueKept.Statement (.powerLoss) :=
  of_decide_eq_true (p := Sys2Proof.Machine.Part.pending ∉ Sys2Proof.Instr.touches (.powerLoss)) rfl
theorem Sys2Proof.Laws.QueueKept.phaseFailed a0 a1 : Sys2Proof.Laws.QueueKept.Statement (.phaseFailed a0 a1) :=
  of_decide_eq_true (p := Sys2Proof.Machine.Part.pending ∉ Sys2Proof.Instr.touches (.phaseFailed a0 a1)) rfl
theorem Sys2Proof.Laws.QueueKept.phaseFitted a0 a1 : Sys2Proof.Laws.QueueKept.Statement (.phaseFitted a0 a1) :=
  of_decide_eq_true (p := Sys2Proof.Machine.Part.pending ∉ Sys2Proof.Instr.touches (.phaseFitted a0 a1)) rfl
theorem Sys2Proof.Laws.QueueKept.voltageStep a0 : Sys2Proof.Laws.QueueKept.Statement (.voltageStep a0) :=
  of_decide_eq_true (p := Sys2Proof.Machine.Part.pending ∉ Sys2Proof.Instr.touches (.voltageStep a0)) rfl
theorem Sys2Proof.Laws.QueueKept.powerCap a0 a1 : Sys2Proof.Laws.QueueKept.Statement (.powerCap a0 a1) :=
  of_decide_eq_true (p := Sys2Proof.Machine.Part.pending ∉ Sys2Proof.Instr.touches (.powerCap a0 a1)) rfl
theorem Sys2Proof.Laws.QueueKept.thermalSpread a0 : Sys2Proof.Laws.QueueKept.Statement (.thermalSpread a0) :=
  of_decide_eq_true (p := Sys2Proof.Machine.Part.pending ∉ Sys2Proof.Instr.touches (.thermalSpread a0)) rfl
theorem Sys2Proof.Laws.QueueKept.thermalHold a0 a1 : Sys2Proof.Laws.QueueKept.Statement (.thermalHold a0 a1) :=
  of_decide_eq_true (p := Sys2Proof.Machine.Part.pending ∉ Sys2Proof.Instr.touches (.thermalHold a0 a1)) rfl
theorem Sys2Proof.Laws.QueueKept.thermalHoldRelease a0 a1 : Sys2Proof.Laws.QueueKept.Statement (.thermalHoldRelease a0 a1) :=
  of_decide_eq_true (p := Sys2Proof.Machine.Part.pending ∉ Sys2Proof.Instr.touches (.thermalHoldRelease a0 a1)) rfl
theorem Sys2Proof.Laws.QueueKept.hubOvertemp : Sys2Proof.Laws.QueueKept.Statement (.hubOvertemp) :=
  of_decide_eq_true (p := Sys2Proof.Machine.Part.pending ∉ Sys2Proof.Instr.touches (.hubOvertemp)) rfl
theorem Sys2Proof.Laws.QueueKept.modulePowerOn a0 a1 : Sys2Proof.Laws.QueueKept.Statement (.modulePowerOn a0 a1) :=
  of_decide_eq_true (p := Sys2Proof.Machine.Part.pending ∉ Sys2Proof.Instr.touches (.modulePowerOn a0 a1)) rfl
theorem Sys2Proof.Laws.QueueKept.startToken : Sys2Proof.Laws.QueueKept.Statement (.startToken) :=
  of_decide_eq_true (p := Sys2Proof.Machine.Part.pending ∉ Sys2Proof.Instr.touches (.startToken)) rfl
theorem Sys2Proof.Laws.QueueKept.tokenFallback : Sys2Proof.Laws.QueueKept.Statement (.tokenFallback) :=
  of_decide_eq_true (p := Sys2Proof.Machine.Part.pending ∉ Sys2Proof.Instr.touches (.tokenFallback)) rfl
theorem Sys2Proof.Laws.QueueKept.fallbackDelayExpiry : Sys2Proof.Laws.QueueKept.Statement (.fallbackDelayExpiry) :=
  of_decide_eq_true (p := Sys2Proof.Machine.Part.pending ∉ Sys2Proof.Instr.touches (.fallbackDelayExpiry)) rfl
theorem Sys2Proof.Laws.QueueKept.strapSample a0 : Sys2Proof.Laws.QueueKept.Statement (.strapSample a0) :=
  of_decide_eq_true (p := Sys2Proof.Machine.Part.pending ∉ Sys2Proof.Instr.touches (.strapSample a0)) rfl
theorem Sys2Proof.Laws.QueueKept.moduleResetRelease : Sys2Proof.Laws.QueueKept.Statement (.moduleResetRelease) :=
  of_decide_eq_true (p := Sys2Proof.Machine.Part.pending ∉ Sys2Proof.Instr.touches (.moduleResetRelease)) rfl
theorem Sys2Proof.Laws.QueueKept.galleryWake a0 a1 a2 a3 : Sys2Proof.Laws.QueueKept.Statement (.galleryWake a0 a1 a2 a3) :=
  of_decide_eq_true (p := Sys2Proof.Machine.Part.pending ∉ Sys2Proof.Instr.touches (.galleryWake a0 a1 a2 a3)) rfl
theorem Sys2Proof.Laws.QueueKept.galleryGate a0 a1 : Sys2Proof.Laws.QueueKept.Statement (.galleryGate a0 a1) :=
  of_decide_eq_true (p := Sys2Proof.Machine.Part.pending ∉ Sys2Proof.Instr.touches (.galleryGate a0 a1)) rfl
theorem Sys2Proof.Laws.QueueKept.builtInTest a0 : Sys2Proof.Laws.QueueKept.Statement (.builtInTest a0) :=
  of_decide_eq_true (p := Sys2Proof.Machine.Part.pending ∉ Sys2Proof.Instr.touches (.builtInTest a0)) rfl
theorem Sys2Proof.Laws.QueueKept.mailboxesOpen : Sys2Proof.Laws.QueueKept.Statement (.mailboxesOpen) :=
  of_decide_eq_true (p := Sys2Proof.Machine.Part.pending ∉ Sys2Proof.Instr.touches (.mailboxesOpen)) rfl
theorem Sys2Proof.Laws.QueueKept.beaconPinFault a0 a1 : Sys2Proof.Laws.QueueKept.Statement (.beaconPinFault a0 a1) :=
  of_decide_eq_true (p := Sys2Proof.Machine.Part.pending ∉ Sys2Proof.Instr.touches (.beaconPinFault a0 a1)) rfl
theorem Sys2Proof.Laws.QueueKept.hostReset a0 a1 : Sys2Proof.Laws.QueueKept.Statement (.hostReset a0 a1) :=
  of_decide_eq_true (p := Sys2Proof.Machine.Part.pending ∉ Sys2Proof.Instr.touches (.hostReset a0 a1)) rfl
theorem Sys2Proof.Laws.QueueKept.tileReset a0 : Sys2Proof.Laws.QueueKept.Statement (.tileReset a0) :=
  of_decide_eq_true (p := Sys2Proof.Machine.Part.pending ∉ Sys2Proof.Instr.touches (.tileReset a0)) rfl
theorem Sys2Proof.Laws.QueueKept.functionLevelReset a0 : Sys2Proof.Laws.QueueKept.Statement (.functionLevelReset a0) :=
  of_decide_eq_true (p := Sys2Proof.Machine.Part.pending ∉ Sys2Proof.Instr.touches (.functionLevelReset a0)) rfl
theorem Sys2Proof.Laws.QueueKept.flrKeeperClear a0 : Sys2Proof.Laws.QueueKept.Statement (.flrKeeperClear a0) :=
  of_decide_eq_true (p := Sys2Proof.Machine.Part.pending ∉ Sys2Proof.Instr.touches (.flrKeeperClear a0)) rfl
theorem Sys2Proof.Laws.QueueKept.vfEnableClear : Sys2Proof.Laws.QueueKept.Statement (.vfEnableClear) :=
  of_decide_eq_true (p := Sys2Proof.Machine.Part.pending ∉ Sys2Proof.Instr.touches (.vfEnableClear)) rfl
theorem Sys2Proof.Laws.QueueKept.functionPowerState a0 a1 : Sys2Proof.Laws.QueueKept.Statement (.functionPowerState a0 a1) :=
  of_decide_eq_true (p := Sys2Proof.Machine.Part.pending ∉ Sys2Proof.Instr.touches (.functionPowerState a0 a1)) rfl
theorem Sys2Proof.Laws.QueueKept.keeperRestart : Sys2Proof.Laws.QueueKept.Statement (.keeperRestart) :=
  of_decide_eq_true (p := Sys2Proof.Machine.Part.pending ∉ Sys2Proof.Instr.touches (.keeperRestart)) rfl
theorem Sys2Proof.Laws.QueueKept.keeperMemError : Sys2Proof.Laws.QueueKept.Statement (.keeperMemError) :=
  of_decide_eq_true (p := Sys2Proof.Machine.Part.pending ∉ Sys2Proof.Instr.touches (.keeperMemError)) rfl
theorem Sys2Proof.Laws.QueueKept.keeperRestartComplete a0 a1 : Sys2Proof.Laws.QueueKept.Statement (.keeperRestartComplete a0 a1) :=
  of_decide_eq_true (p := Sys2Proof.Machine.Part.pending ∉ Sys2Proof.Instr.touches (.keeperRestartComplete a0 a1)) rfl
theorem Sys2Proof.Laws.QueueKept.activateFailed : Sys2Proof.Laws.QueueKept.Statement (.activateFailed) :=
  of_decide_eq_true (p := Sys2Proof.Machine.Part.pending ∉ Sys2Proof.Instr.touches (.activateFailed)) rfl
theorem Sys2Proof.Laws.QueueKept.turnEnd a0 a1 a2 a3 a4 : Sys2Proof.Laws.QueueKept.Statement (.turnEnd a0 a1 a2 a3 a4) :=
  of_decide_eq_true (p := Sys2Proof.Machine.Part.pending ∉ Sys2Proof.Instr.touches (.turnEnd a0 a1 a2 a3 a4)) rfl
theorem Sys2Proof.Laws.QueueKept.preempt a0 a1 a2 : Sys2Proof.Laws.QueueKept.Statement (.preempt a0 a1 a2) :=
  of_decide_eq_true (p := Sys2Proof.Machine.Part.pending ∉ Sys2Proof.Instr.touches (.preempt a0 a1 a2)) rfl
theorem Sys2Proof.Laws.QueueKept.energyTick a0 a1 a2 a3 : Sys2Proof.Laws.QueueKept.Statement (.energyTick a0 a1 a2 a3) :=
  of_decide_eq_true (p := Sys2Proof.Machine.Part.pending ∉ Sys2Proof.Instr.touches (.energyTick a0 a1 a2 a3)) rfl
theorem Sys2Proof.Laws.QueueKept.hostRingPoll a0 a1 : Sys2Proof.Laws.QueueKept.Statement (.hostRingPoll a0 a1) :=
  of_decide_eq_true (p := Sys2Proof.Machine.Part.pending ∉ Sys2Proof.Instr.touches (.hostRingPoll a0 a1)) rfl
theorem Sys2Proof.Laws.QueueKept.cxlmemAccess a0 a1 a2 : Sys2Proof.Laws.QueueKept.Statement (.cxlmemAccess a0 a1 a2) :=
  of_decide_eq_true (p := Sys2Proof.Machine.Part.pending ∉ Sys2Proof.Instr.touches (.cxlmemAccess a0 a1 a2)) rfl
theorem Sys2Proof.Laws.QueueKept.carrierFitted a0 a1 : Sys2Proof.Laws.QueueKept.Statement (.carrierFitted a0 a1) :=
  of_decide_eq_true (p := Sys2Proof.Machine.Part.pending ∉ Sys2Proof.Instr.touches (.carrierFitted a0 a1)) rfl
theorem Sys2Proof.Laws.QueueKept.carrierLost a0 : Sys2Proof.Laws.QueueKept.Statement (.carrierLost a0) :=
  of_decide_eq_true (p := Sys2Proof.Machine.Part.pending ∉ Sys2Proof.Instr.touches (.carrierLost a0)) rfl
theorem Sys2Proof.Laws.QueueKept.getVersion a0 : Sys2Proof.Laws.QueueKept.Statement (.getVersion a0) :=
  of_decide_eq_true (p := Sys2Proof.Machine.Part.pending ∉ Sys2Proof.Instr.touches (.getVersion a0)) rfl
theorem Sys2Proof.Laws.QueueKept.getCapabilities a0 : Sys2Proof.Laws.QueueKept.Statement (.getCapabilities a0) :=
  of_decide_eq_true (p := Sys2Proof.Machine.Part.pending ∉ Sys2Proof.Instr.touches (.getCapabilities a0)) rfl
theorem Sys2Proof.Laws.QueueKept.negotiateAlgorithms a0 : Sys2Proof.Laws.QueueKept.Statement (.negotiateAlgorithms a0) :=
  of_decide_eq_true (p := Sys2Proof.Machine.Part.pending ∉ Sys2Proof.Instr.touches (.negotiateAlgorithms a0)) rfl
theorem Sys2Proof.Laws.QueueKept.getDigests a0 : Sys2Proof.Laws.QueueKept.Statement (.getDigests a0) :=
  of_decide_eq_true (p := Sys2Proof.Machine.Part.pending ∉ Sys2Proof.Instr.touches (.getDigests a0)) rfl
theorem Sys2Proof.Laws.QueueKept.getCertificate a0 a1 a2 a3 : Sys2Proof.Laws.QueueKept.Statement (.getCertificate a0 a1 a2 a3) :=
  of_decide_eq_true (p := Sys2Proof.Machine.Part.pending ∉ Sys2Proof.Instr.touches (.getCertificate a0 a1 a2 a3)) rfl
theorem Sys2Proof.Laws.QueueKept.challenge a0 a1 : Sys2Proof.Laws.QueueKept.Statement (.challenge a0 a1) :=
  of_decide_eq_true (p := Sys2Proof.Machine.Part.pending ∉ Sys2Proof.Instr.touches (.challenge a0 a1)) rfl
theorem Sys2Proof.Laws.QueueKept.getMeasurements a0 : Sys2Proof.Laws.QueueKept.Statement (.getMeasurements a0) :=
  of_decide_eq_true (p := Sys2Proof.Machine.Part.pending ∉ Sys2Proof.Instr.touches (.getMeasurements a0)) rfl
theorem Sys2Proof.Laws.QueueKept.keyExchange a0 : Sys2Proof.Laws.QueueKept.Statement (.keyExchange a0) :=
  of_decide_eq_true (p := Sys2Proof.Machine.Part.pending ∉ Sys2Proof.Instr.touches (.keyExchange a0)) rfl
theorem Sys2Proof.Laws.QueueKept.finish a0 : Sys2Proof.Laws.QueueKept.Statement (.finish a0) :=
  of_decide_eq_true (p := Sys2Proof.Machine.Part.pending ∉ Sys2Proof.Instr.touches (.finish a0)) rfl
theorem Sys2Proof.Laws.QueueKept.endSession a0 : Sys2Proof.Laws.QueueKept.Statement (.endSession a0) :=
  of_decide_eq_true (p := Sys2Proof.Machine.Part.pending ∉ Sys2Proof.Instr.touches (.endSession a0)) rfl
theorem Sys2Proof.Laws.QueueKept.heartbeat a0 : Sys2Proof.Laws.QueueKept.Statement (.heartbeat a0) :=
  of_decide_eq_true (p := Sys2Proof.Machine.Part.pending ∉ Sys2Proof.Instr.touches (.heartbeat a0)) rfl
theorem Sys2Proof.Laws.QueueKept.keyUpdate a0 : Sys2Proof.Laws.QueueKept.Statement (.keyUpdate a0) :=
  of_decide_eq_true (p := Sys2Proof.Machine.Part.pending ∉ Sys2Proof.Instr.touches (.keyUpdate a0)) rfl
theorem Sys2Proof.Laws.QueueKept.spdmUnsupportedRequest a0 : Sys2Proof.Laws.QueueKept.Statement (.spdmUnsupportedRequest a0) :=
  of_decide_eq_true (p := Sys2Proof.Machine.Part.pending ∉ Sys2Proof.Instr.touches (.spdmUnsupportedRequest a0)) rfl
theorem Sys2Proof.Laws.QueueKept.ideKm a0 a1 a2 : Sys2Proof.Laws.QueueKept.Statement (.ideKm a0 a1 a2) :=
  of_decide_eq_true (p := Sys2Proof.Machine.Part.pending ∉ Sys2Proof.Instr.touches (.ideKm a0 a1 a2)) rfl
theorem Sys2Proof.Laws.QueueKept.ideFault a0 a1 a2 : Sys2Proof.Laws.QueueKept.Statement (.ideFault a0 a1 a2) :=
  of_decide_eq_true (p := Sys2Proof.Machine.Part.pending ∉ Sys2Proof.Instr.touches (.ideFault a0 a1 a2)) rfl
theorem Sys2Proof.Laws.QueueKept.pairUnloadDone : Sys2Proof.Laws.QueueKept.Statement (.pairUnloadDone) :=
  of_decide_eq_true (p := Sys2Proof.Machine.Part.pending ∉ Sys2Proof.Instr.touches (.pairUnloadDone)) rfl
theorem Sys2Proof.Laws.QueueKept.fwLoadDone a0 : Sys2Proof.Laws.QueueKept.Statement (.fwLoadDone a0) :=
  of_decide_eq_true (p := Sys2Proof.Machine.Part.pending ∉ Sys2Proof.Instr.touches (.fwLoadDone a0)) rfl
theorem Sys2Proof.Laws.QueueKept.refreshDone a0 a1 : Sys2Proof.Laws.QueueKept.Statement (.refreshDone a0 a1) :=
  of_decide_eq_true (p := Sys2Proof.Machine.Part.pending ∉ Sys2Proof.Instr.touches (.refreshDone a0 a1)) rfl
theorem Sys2Proof.Laws.QueueKept.stepReportRx a0 a1 a2 : Sys2Proof.Laws.QueueKept.Statement (.stepReportRx a0 a1 a2) :=
  of_decide_eq_true (p := Sys2Proof.Machine.Part.pending ∉ Sys2Proof.Instr.touches (.stepReportRx a0 a1 a2)) rfl
theorem Sys2Proof.Laws.QueueKept.serviceNoticeRx a0 : Sys2Proof.Laws.QueueKept.Statement (.serviceNoticeRx a0) :=
  of_decide_eq_true (p := Sys2Proof.Machine.Part.pending ∉ Sys2Proof.Instr.touches (.serviceNoticeRx a0)) rfl
theorem Sys2Proof.Laws.QueueKept.serviceNoticeTimeout a0 : Sys2Proof.Laws.QueueKept.Statement (.serviceNoticeTimeout a0) :=
  of_decide_eq_true (p := Sys2Proof.Machine.Part.pending ∉ Sys2Proof.Instr.touches (.serviceNoticeTimeout a0)) rfl
theorem Sys2Proof.Laws.QueueKept.msixVectorUnmask a0 a1 : Sys2Proof.Laws.QueueKept.Statement (.msixVectorUnmask a0 a1) :=
  of_decide_eq_true (p := Sys2Proof.Machine.Part.pending ∉ Sys2Proof.Instr.touches (.msixVectorUnmask a0 a1)) rfl
theorem Sys2Proof.Laws.QueueKept.junctionTemperatureChange a0 a1 a2 : Sys2Proof.Laws.QueueKept.Statement (.junctionTemperatureChange a0 a1 a2) :=
  of_decide_eq_true (p := Sys2Proof.Machine.Part.pending ∉ Sys2Proof.Instr.touches (.junctionTemperatureChange a0 a1 a2)) rfl
end

