-- ==== Sys2Proof/WellFormed.lean ====
section
/-! DEFINITION. Which terms of Instr spell a command the surroundings can send: operand ranges that the types do not
already carry, by the rules that give the operand its width. -/
namespace Sys2Proof

/-- A mailbox command: header fields of R310, R314 in range, and an inline payload of LEN bytes. -/
def MCmd.wf (m : MCmd) : Bool :=
  decide (m.doorbell < 65536) && decide (m.seq < 65536) && decide (m.len ≤ 4080) && decide (m.ndesc ≤ 255) &&
    m.payload.length == m.len

/-- A record of n words (R78, R111, R169, R195, R230, R285). -/
def wordsWf (n : Nat) (ws : List Word) : Bool := ws.length == n

/-- A DRAIN record and its extension record: none or 16 words (R111, R112). -/
def extWf (ext : List Word) : Bool := ext.length == 0 || ext.length == 16

/-- A position of an edition's image that the hub stores (R405): 10 bits. -/
def moduleWf (m : Nat) : Bool := decide (m < 1024)

/-- Strap voltages in millivolts: eight pins (R436, R438). -/
def strapsWf (mv : List Nat) : Bool := mv.length == 8

/-- Well-formedness of a command. -/
def Instr.wf : Instr → Bool
  | .nop m op => m.wf && decide (op < 2048)
  | .identify m | .healthRead m | .accountRead m | .pairUnload m | .pairStatus m | .progRetire m | .progRestart m
  | .runStop m | .snapRequest m | .join m | .cancel m | .pause m | .batchClose m | .reqStatus m
  | .custBind m | .budgetRefill m | .budgetRead m | .regionAlloc m | .regionFree m | .memTransfer m
  | .carrierEvacuate m | .cxlmemWindow m | .sizeTableSet m | .sizeTableRead m | .linkStatus m | .fogRead m
  | .daymarkRead m | .servicePrepareLaser m | .servicePreparePhase m | .debugEnter m | .debugExit m
  | .accRead m | .accWrite m => m.wf
  | .pairLoad m _ => m.wf
  | .refresh m _ => m.wf
  | .runStart m lasts => m.wf && lasts.all (fun x => moduleWf x.module)
  | .progSubmit m _ => m.wf
  | .fwLoad m _ | .fwActivate m _ => m.wf
  | .servicePrepareFibre m _ => m.wf
  | .mbxEvtConsWrite _ v => decide (v < 64)
  | .memTransferDone _ seq _ _ => decide (seq < 65536)
  | .sizeTableInForce _ census => census.all (fun e => moduleWf e.id)
  | .registerWrite _ bar _ size _ => (bar == 0 || bar == 2 || bar == 4 || bar == 8 || bar == 9) && decide (size ≤ 8)
  | .product _ _ _ ws _ => wordsWf 16 ws
  | .drain _ _ _ ws ext _ => wordsWf 16 ws && extWf ext
  | .chain _ _ _ ws _ => wordsWf 48 ws
  | .setlen _ _ _ _ rest => wordsWf 15 rest
  | .update _ _ _ ws => wordsWf 16 ws.of
  | .saveDrain _ _ _ ws | .saveSpad _ _ _ ws | .expand _ _ _ ws => wordsWf 16 ws
  | .copy _ _ _ ws _ | .fill _ _ _ ws => wordsWf 16 ws
  | .strapSample mv => strapsWf mv
  | .hostReset mv _ => strapsWf mv
  | .getCertificate _ slot _ _ | .challenge _ slot => decide (slot < 8)
  | .contributionArrival _ m _ _ _ | .overflowReport m _ _ _ _ _ | .readyRx m _ _ _ _ | .commitWaitExpiry m
  | .stepReportRx m _ _ => moduleWf m
  | .powerCap _ settings => settings.length == 4
  | .thermalSpread temps => temps.length == 4
  | .pairLoadDone _ | .snapshotComplete _ | .extentSwitch _ _ | .carrierReleased _ | .keeperHeartbeat | .kprSwatchRead _
  | .drnCustCommit _ _ _ | .drnCntClr _ _ _ | .tgtCommit _ _ _ | .tcfgApply _ | .tgtCntClr _ _ | .vxeCntClr _ _ _
  | .vxeKeyCommit _ _ _ _ | .arbCommit _ _ _ | .arbFreeze _ _ _ | .kprSchedCommit _ _ | .pwrHotreset _ _ _
  | .leaseWaitRelease _ _ _ | .tileReplay _ _ _ _ _ | .arrayRetire _ _ | .teacherTile _ _ | .recordForward _ _ _ _ _
  | .studentNormTile _ _ | .studentGradTile _ _ | .sampleTile _ _ | .turnStore _ _ _ _ | .rms _ _ _ _ | .layer _ _ _ _
  | .rmsBwd _ _ _ _ | .layerBwd _ _ _ _ | .smaxStat _ _ _ _ | .smax _ _ _ _ | .smaxBwd _ _ _ _ | .dot _ _ _ _
  | .merge _ _ _ _ | .collectiveStep _ _ | .reshardComplete _ _ _ | .lateLimitExpiry _ | .prepassRx _ | .goRx _ _ _ _
  | .skipRx _ _ _ | .commitMarkRx _ _ _ | .lscaleFloor | .abortRx _ _ | .commitPulse _ _ | .servingStepBoundary _ _ _ _ _
  | .requestDeadlineExpiry _ | .noPages _ | .arbRound _ _ _ _ | .arbBreakPoint _ _ _ | .reread _ _ _ _
  | .persistentFailureRecovery _ _ _ | .transientRetire _ | .bridgeFlitCrcFail _ _ _ | .linkTrain _ _ | .linkTrainRetry _ _
  | .linkPacketRx _ _ | .nakRx _ _ | .ackRx _ _ | .idleTimer _ | .laneSpared _ _ | .peerSilent _ | .moveTimeout _
  | .laserLow _ _ | .laserFailover _ | .laserSourceFitted _ | .fogReport _ _ _ _ | .fogHoldExpiry _ _ | .fogWindowExpiry _ _
  | .inputFault _ _ _ | .inputRestored _ _ | .shortRetry _ _ | .inputSenseOpen _ | .powerLoss | .phaseFailed _ _
  | .phaseFitted _ _ | .voltageStep _ | .thermalHold _ _ | .thermalHoldRelease _ _ | .hubOvertemp | .modulePowerOn _ _
  | .startToken | .tokenFallback | .fallbackDelayExpiry | .moduleResetRelease | .galleryWake _ _ _ _ | .galleryGate _ _
  | .builtInTest _ | .mailboxesOpen | .beaconPinFault _ _ | .tileReset _ | .functionLevelReset _ | .flrKeeperClear _
  | .vfEnableClear | .functionPowerState _ _ | .keeperRestart | .keeperMemError | .keeperRestartComplete _ _
  | .activateFailed | .turnEnd _ _ _ _ _ | .preempt _ _ _ | .energyTick _ _ _ _ | .hostRingPoll _ _ | .cxlmemAccess _ _ _
  | .carrierFitted _ _ | .carrierLost _ | .getVersion _ | .getCapabilities _ | .negotiateAlgorithms _ | .getDigests _
  | .getMeasurements _ | .keyExchange _ | .finish _ | .endSession _ | .heartbeat _ | .keyUpdate _
  | .spdmUnsupportedRequest _ | .ideKm _ _ _ | .ideFault _ _ _ | .pairUnloadDone | .fwLoadDone _ | .refreshDone _ _
  | .serviceNoticeRx _ | .serviceNoticeTimeout _ | .msixVectorUnmask _ _ | .junctionTemperatureChange _ _ _ => true

end Sys2Proof
end

