-- ==== Sys2Proof/Tests/Slice0.lean ====
section
/-! SUPPORT. Small tests of the model: ill-formed commands, and for the statements of Certificates/Slice0 states and operands that
meet their hypotheses, each with one step. Expected values come from the rules the statements cite. -/
namespace Sys2Proof.Tests
open Sys2Proof.Machine
set_option Elab.async false

/-! ### Helpers -/

/-- A check of the next state. -/
def after (o : Host.Outcome State Fault Refusal) (p : State → Bool) : Bool :=
  match o with
  | .next t => p t
  | _ => false

/-- A payload of n bytes with fields (offset, length, value). -/
def pay (n : Nat) (fs : List (Nat × Nat × Nat)) : List Byte :=
  fs.foldl (fun p (o, k, v) => p.take o ++ leBytes k v ++ p.drop (o + k)) (List.replicate n 0)

/-- A descriptor of n bytes at a host address, the last of its command or not. -/
def dsc (a n : Nat) (out last : Bool) : List Byte := leBytes 8 a ++ leBytes 4 n ++ leBytes 4 (b2n last * 2 ^ 31 + b2n out * 2 ^ 27)

/-- A mailbox command with a payload, descriptors and what they read. -/
def mc (f : Fn) (p : List Byte) (nd : Nat) (reads : List (List Byte)) : MCmd :=
  { fn := f, doorbell := 5, seq := 5, len := p.length, ndesc := nd, payload := p, reads := reads, lists := [], iommu := true }

/-- A module that has started, alone and Lead, with its mailboxes open. -/
def up : State :=
  { State.reset with
    keeper := { up := true, isOpen := true },
    pwr := { start := .opened, hubLit := true, meaning := .operation, lead := true, tiles := (List.range 4).map (fun t => (t, { lit := true })),
             inputs := [(0, { state := .ok }), (1, { state := .ok })] } }
/-- The same with a pairing of small models. -/
def dims : ModelDims := { layers := 1, width := 32, heads := 1, kvheads := 1, headw := 32, ffw := 32, vocab := 32, wfmt := 3 }
def paired : State := up.setPair { state := .resident, teacher := some dims, student := some dims }
/-- A size table of one module. -/
def alone : SizeTable := { nx := 1, ny := 1, nz := 1, sspan := 1, lspan := 1, fogwin := 100, tgen := 1, present := [(0, 0)], raw := [] }
/-- An empty program image. -/
def img : ProgImage :=
  { signed := true, bytes := [], learn := false, serving := none, slots := 0, tileGroup := 1, pipelined := 0, queues := [], holds := [],
    seqLen := 0, workingCopy := 0, target := none, custom := [], galleries := 0, plan := [], sspan := 1, lspan := 1, mirroring := false,
    prio := [], worst := [], ucb := [], groups := [], shards := [], reshards := [], segments := [], batchTokens := 0 }
def prog (i : ProgImage) (st : ProgState) : Prog := { fn := 0, img := i, state := st, regions := [], ended := [] }
/-- A source: function 0, program 1, the given index. -/
def src0 : Src := { fn := 0, handle := 0, index := 0 }

/-! ### The queue and the mailbox -/

theorem witness_step : step (up.setPending [.keeperHeartbeat]) = exec .keeperHeartbeat up := by rfl
theorem witness_idle : up.pending = [] ∧ after (step up) (fun t => t.watch 4 == 1 && t.watch 0 == 1) = true := by decide +kernel

/-- A doorbell before the mailboxes open, while KBUSY (first and second), while RUNNING, and with another SEQ; SVN 0 blows no fuse. -/
theorem witness_doorbells :
    State.reset.mailboxOpen (mc 0 [] 0 []) = false ∧
    (let s := up.setKeeper { up.keeper with kbusy := true }
     s.mailboxOpen (mc 0 [] 0 []) = true ∧ (s.mbox 0).dbpend = false ∧
     after (exec (.identify (mc 0 [] 0 [])) s) (fun t => (t.mbox 0).dbpend) = true) ∧
    (let s := up.setKeeper { up.keeper with kbusy := true, mbox := [(0, { dbpend := true })] }
     s.mailboxOpen (mc 0 [] 0 []) = true ∧ after (exec (.identify (mc 0 [] 0 [])) s) (fun t => (t.mbox 0).cause == 4) = true) ∧
    (let s := up.setKeeper { up.keeper with mbox := [(0, { state := .running })] }
     s.mailboxOpen (mc 0 [] 0 []) = true ∧ after (exec (.identify (mc 0 [] 0 [])) s) (fun t => (t.mbox 0).cause == 4) = true) ∧
    (let m : MCmd := { mc 0 [] 0 [] with seq := 6 }
     up.mailboxOpen m = true ∧ after (exec (.identify m) up) (fun t => (t.mbox 0).code == 4 && (t.mbox 0).seq == 5) = true) := by
  decide +kernel

theorem witness_denied :
    let s := up.setFnp { up.fnp with numVfs := 16 }
    s.judges (mc 16 [] 0 []) = true ∧ after (exec (.runStop (mc 16 [] 0 [])) s) (fun t => (t.mbox 16).code == 3) = true := by decide +kernel

theorem witness_queries :
    up.judges (mc 0 [] 0 []) = true ∧ lenIs (mc 0 [] 0 []) 0 0 = true ∧
    after (exec (.nop (mc 0 [] 0 []) 0) up) (fun t => (t.mbox 0).code == 0 && (t.mbox 0).state == .done) = true ∧
    after (exec (.nop (mc 0 [] 0 []) 0x7FF) up) (fun t => (t.mbox 0).code == 2) = true ∧
    after (exec (.pairStatus (mc 0 [] 0 [])) up) (fun t => (t.mbox 0).resp.length == 32) = true ∧
    (let m := mc 0 (pay 8 [(0, 1, 5)]) 0 []
     lenIs m 8 0 = true ∧ reservedZero m.payload 8 [(0, 1)] = true ∧ after (exec (.linkStatus m) up) (fun t => (t.mbox 0).resp.length == 64) = true) ∧
    (let m := mc 0 (pay 8 [(0, 1, 255)]) 0 []
     paired.judges m = true ∧ lenIs m 8 0 = true ∧ paired.pair.state = .resident ∧ reservedZero m.payload 8 [(0, 1)] = true ∧
     after (exec (.budgetRead m) paired) (fun t => (t.mbox 0).code == 0) = true ∧ up.judges m = true ∧ up.pair.state ≠ .resident ∧
     after (exec (.budgetRead m) up) (fun t => (t.mbox 0).code == 6) = true) := by
  decide +kernel

/-- A request of function 0. -/
def req1 : Req :=
  { status := .decode, before := .queued, cancel := .none_, reason := .none_, cust := 1, group := 0, teacher := false, learn := false,
    logp := false, tree := false, held := false, fn := 0, reqid := 7, len := 1, prompt := [1], maxnew := 4, temp := 0, topp := 0x3F800000,
    topk := 0, draft := 0, seed := 0, deadline := 0, accepted := 0, order := 0, admitted := 0, pdir := 0, eos := [], stops := [],
    stoptab := 0, outbuf := 0, outcap := 0, generated := [], written := 0, done := 0, pages := [], heldSteps := 0, expired := false,
    late := false, charged := 0, ops := [], beforeClose := false, rebuild := 0, home := 0, outExts := [], flr := false, doomed := false, pageless := false }
/-- A paired module that serves one request, bound to customer 1. -/
def serving : State := paired.setServe { paired.serve with reqs := [(4, req1)], cust := [(1, { fn := some 0 })] }

theorem witness_req_status :
    let m := mc 0 (pay 8 [(0, 2, 4), (4, 4, 7)]) 0 []
    serving.judges m = true ∧ lenIs m 8 0 = true ∧ serving.pair.state = .resident ∧ reservedZero m.payload 8 [(0, 2), (4, 4)] = true ∧
    serving.reqNamed m = some (4, req1) ∧ after (exec (.reqStatus m) serving) (fun t => (t.mbox 0).resp.length == 128) = true := by
  decide +kernel

theorem witness_records :
    (let m := mc 0 (pay 8 [] ++ dsc 0x1000 12288 true true) 1 []
     up.judges m = true ∧ lenIs m 8 1 = true ∧ descsOk up m (descsAt m.payload 8 1) [true] = true ∧ hostRoom m.payload 8 12288 = true ∧
     reservedZero m.payload 8 [] = true) ∧
    (let m := mc 0 (pay 8 [] ++ dsc 0x1000 65536 true true) 1 []
     up.judges m = true ∧ descsOk up m (descsAt m.payload 8 1) [true] = true ∧
     hostRoom m.payload 8 (up.accounts (m.fn == 0) [m.fn.val]).length = true) ∧
    (let m := mc 0 (dsc 0x1000 65536 true true) 1 []
     let s := up.setLink { up.link with table := some { alone with raw := [1, 2, 3] } }
     s.judges m = true ∧ lenIs m 0 1 = true ∧ descsOk s m (descsAt m.payload 0 1) [true] = true ∧ hostRoom m.payload 0 3 = true ∧
     after (exec (.sizeTableRead m) s) (fun t => Mem.readN t.hostMem 0x1000 4 == [1, 2, 3, 0]) = true ∧
     s.isLead = true ∧ hostRoom m.payload 0 (16 + 160 * s.link.leadFog.length) = true ∧
     after (exec (.fogRead m) s) (fun t => (t.mbox 0).code == 0) = true) ∧
    (let m := mc 0 (pay 8 [(4, 1, 1)] ++ dsc 0x1000 65536 true true) 1 []
     let s := up.setKeeper { up.keeper with debug := true }
     s.judges m = true ∧ descsOk s m (descsAt m.payload 8 1) [true] = true ∧ (accArgs m.payload).ok m.payload = true ∧
     s.accBusy (accArgs m.payload) = false ∧ (accArgs m.payload).bytes ≤ 65536) := by
  decide +kernel

theorem witness_health_written :
    let m := mc 0 (pay 8 [] ++ dsc 0x1000 12288 true true) 1 []
    after (exec (.healthRead m) up) (fun t => (t.mbox 0).code == 0) = true := by decide +kernel
theorem witness_accounts_written :
    let m := mc 0 (pay 8 [] ++ dsc 0x1000 65536 true true) 1 []
    after (exec (.accountRead m) up) (fun t => (t.mbox 0).code == 0) = true := by decide +kernel

/-- The X32 values within 2 units in the last place of e = 2.71828182845905, whose last place is 2^-22 (R124), and the FP32 values
within 1 of 1 (R155): worked by hand. -/
theorem test_exp_bound : (match FVal.exp .one with | .fin _ m e => fX32.within 2 m e | _ => []) =
    [11401299, 11401300, 11401301, 11401302] := by decide +kernel
theorem test_unit_bound : fFP32.within 1 1 0 = [8388607, 8388608, 8388609] := by decide +kernel

/-! ### The mailbox's long operations and tables -/

/-- A command of function 0 answered with a code, with a look at the state after it. -/
def said (o : Host.Outcome State Fault Refusal) (code : Nat) (p : State → Bool) : Bool :=
  after o (fun t => (t.mbox 0).code == code && p t)
def yes (_ : State) : Bool := true
/-- The 32 bytes of a model block of R344. -/
def block (d : ModelDims) : List Byte :=
  pay 32 [(0, 4, d.layers), (4, 4, d.width), (8, 4, d.heads), (12, 4, d.kvheads), (16, 4, d.headw), (20, 4, d.ffw), (24, 4, d.vocab), (28, 1, d.wfmt)]
/-- A long operation of function 0. -/
def op (k : OpKind) (p : List Byte := []) : LongOp := { kind := k, fn := 0, seq := 5, opcode := 0x100, payload := p }
def withOp (s : State) (o : LongOp) : State := s.setKeeper { s.keeper with ops := [o] }
def loadRes : LoadResult :=
  { readable := true, teacher := dims, student := dims, digestsOk := true, near := [4096, 0, 0, 0], far := 0, placed := [(0x1000, [7, 8])] }
def wimg : WeightImage := { dims := dims, placed := [(0x2000, [9])], masters := [], state := none }

theorem witness_pairing_load :
    (let m := mc 0 (block dims ++ block dims ++ dsc 0x1000 64 false false ++ dsc 0x2000 64 false false ++ dsc 0x3000 64 false true) 3 []
     up.judges m = true ∧ lenIs m 64 3 = true ∧ descsOk up m (descsAt m.payload 64 m.ndesc) (List.replicate m.ndesc false) = true ∧
     up.excluded = false ∧ up.pair.state = .empty ∧ reservedZero m.payload 64 [(0, 29), (32, 29)] = true ∧ modelAt m.payload 0 = dims ∧
     modelAt m.payload 32 = dims ∧ modelOk dims = true ∧ up.inputLost m (descsAt m.payload 64 m.ndesc) = false ∧ said (exec (.pairLoad m true) up) 1 (fun t => t.pair.state == .loading) = true) ∧
    (let s := (withOp up (op .pairLoad)).setPair { up.pair with state := .loading, teacher := some dims, student := some dims }
     s.findOp .pairLoad = some (op .pairLoad) ∧ s.keeper.kbusy = false ∧ s.pair.teacher = some loadRes.teacher ∧
     s.pair.student = some loadRes.student ∧ s.loadFits loadRes = true ∧ s.postsTo 0 = true ∧
     after (exec (.pairLoadDone loadRes) s) (fun t => t.pair.state == .resident && Mem.readN t.mem 0x1000 2 == [7, 8]) = true) := by
  decide +kernel
theorem witness_pairing_unload :
    (let m := mc 0 [] 0 []
     paired.judges m = true ∧ lenIs m 0 0 = true ∧ paired.excluded = false ∧ paired.pair.state = .resident ∧ paired.run.active = false ∧
     said (exec (.pairUnload m) paired) 1 (fun t => t.pair.state == .unloading) = true) ∧
    (let s := withOp paired (op .pairUnload)
     s.findOp .pairUnload = some (op .pairUnload) ∧ s.keeper.kbusy = false ∧
     after (exec .pairUnloadDone s) (fun t => t.pair.state == .empty) = true) ∧
    (let m := mc 0 (pay 8 [] ++ dsc 0x1000 64 false true) 1 []
     paired.judges m = true ∧ lenIs m 8 1 = true ∧ descsOk paired m (descsAt m.payload 8 m.ndesc) (List.replicate m.ndesc false) = true ∧
     reservedZero m.payload 8 [(0, 1)] = true ∧ paired.inputLost m (descsAt m.payload 8 m.ndesc) = false ∧ fieldAt m.payload 0 1 = 0 ∧ paired.pair.teacher = some wimg.dims ∧
     said (exec (.refresh m wimg) paired) 1 (fun t => t.pair.heldTeacher.isSome) = true) ∧
    (let m := mc 0 (pay 8 [(0, 1, 1)] ++ dsc 0x1000 64 false true) 1 []
     paired.judges m = true ∧ lenIs m 8 1 = true ∧ descsOk paired m (descsAt m.payload 8 m.ndesc) (List.replicate m.ndesc false) = true ∧
     reservedZero m.payload 8 [(0, 1)] = true ∧ paired.inputLost m (descsAt m.payload 8 m.ndesc) = false ∧ fieldAt m.payload 0 1 = 1 ∧ paired.pair.student = some wimg.dims ∧
     said (exec (.refresh m wimg) paired) 1 (fun t => t.pair.heldStudent.isSome) = true) ∧
    (let h : HeldRefresh := { fn := 0, seq := 5, img := wimg }
     let s := paired.setPair { paired.pair with heldTeacher := some h }
     s.run.active = false ∧ s.keeper.kbusy = false ∧ s.pair.heldTeacher = some h ∧
     after (exec (.refreshDone 0 true) s) (fun t => t.pair.parity && Mem.readN t.mem 0x2000 1 == [9] && (t.target 3).parity) = true) := by
  decide +kernel

theorem witness_programs :
    (let m := mc 0 (pay 32 [] ++ dsc 0x1000 64 false true) 1 []
     up.judges m = true ∧ lenIs m 32 1 = true ∧ descsOk up m (descsAt m.payload 32 1) [false] = true ∧
     reservedZero m.payload 32 [(0, 26)] = true ∧ up.inputLost m (descsAt m.payload 32 1) = false ∧ declaresOk img = true ∧ fieldAt m.payload 24 2 = 0 ∧ up.prog.progs.freeFrom 65535 1 = some 1 ∧
     up.customBusy img 0 = false ∧ groupsOk img = true ∧ up.groupTaken img 0 = false ∧ up.submitCheck 0 1 img = none ∧
     (up.takeMemory 0 1 img).isSome = true ∧ said (exec (.progSubmit m img) up) 0 (fun t => (t.progAt 1).isSome) = true) ∧
    (let s := up.setProg { up.prog with progs := [(1, prog img .faulted)] }
     let m := mc 0 (pay 8 [(0, 2, 1)]) 0 []
     s.judges m = true ∧ lenIs m 8 0 = true ∧ reservedZero m.payload 8 [(0, 2)] = true ∧
     s.progFor 0 (fieldAt m.payload 0 2) = some (prog img .faulted) ∧ s.run.active = false ∧
     said (exec (.progRetire m) s) 0 (fun t => (t.progAt 1).isNone) = true ∧
     said (exec (.progRestart m) s) 0 (fun t => (t.progAt 1).any (fun p => p.state != .faulted)) = true) := by decide +kernel

/-- A learning program, admitted on a paired module alone in its size table. -/
def learnImg : ProgImage := { img with learn := true }
def ready1 : State := (paired.setLink { paired.link with table := some alone }).setProg { paired.prog with progs := [(1, prog learnImg .ready)] }
/-- The same with its run active. -/
def running1 : State :=
  (ready1.setProg { ready1.prog with progs := [(1, prog learnImg .running)] }).setRun { ready1.run with active := true, prog := 1 }
/-- A ring's control block. -/
def ringBlock : List Byte := pay 64 [(0, 4, 16), (4, 4, 4)]
def snap1 (due : List SnapSt) (s : State) : State :=
  s.setRun { s.run with snap := some { step := 9, slot := 2, seq := none, ring := {}, startedAt := 0, outside := false }, snapDue := due }
theorem witness_runs :
    (let m := mc 0 (pay 56 [(0, 2, 1), (16, 4, 0x3F800000), (20, 2, 100), (8, 8, 77)] ++ dsc 0x1000 4096 true false ++ dsc 0x4000 4096 true true) 2
       [ringBlock, ringBlock]
     let s := ready1
     s.judges m = true ∧ lenIs m 56 2 = true ∧ descsOk s m (descsAt m.payload 56 2) [true, true] = true ∧ s.pair.state = .resident ∧
     s.run.active = false ∧ s.keeper.debug = false ∧ s.link.table = some alone ∧ runFieldsOk m.payload = true ∧
     s.progAt (fieldAt m.payload 0 2) = some (prog learnImg .ready) ∧ learnImg.sspan = alone.sspan ∧ learnImg.lspan = alone.lspan ∧
     s.run.leadLost = false ∧
     said (exec (.runStart m [{ module := 1, last := some 4, lost := false }]) s) 0 (fun t => (t.mbox 0).prod == 1 && t.run.active && t.run.lscale == 0x3F800000 && (t.target 3).lscale == 0x3F800000 && t.run.seed == 77) = true) ∧
    (let m := mc 0 [] 0 []
     let s := running1
     s.judges m = true ∧ lenIs m 0 0 = true ∧ s.run.stop = none ∧ descsOk s m [] [] = true ∧
     said (exec (.runStop m) s) 1 (fun t => t.run.stop == some .command) = true ∧
     said (exec (.snapRequest m) s) 1 (fun t => t.run.snapAsked == [(0, 5)]) = true) ∧
    (let s := snap1 [] running1
     s.run.snap.isSome = true ∧ s.run.snapDue = [] ∧ s.postsTo 0 = true ∧
     after (exec (.snapshotComplete false) s) (fun t => t.run.snap.isNone && (t.mbox 0).prod == 1) = true ∧
     (let s := snap1 [{ step := 10, slot := 3, seq := none, ring := {}, startedAt := 0, outside := false }] running1
      after (exec (.snapshotComplete false) s) (fun t => t.run.snap.any (fun x => x.slot == 3) && t.run.snapDue == []) = true)) ∧
    (running1.keeper.up = true ∧ running1.keeper.kbusy = false ∧ running1.run.heldReports = [] ∧
     after (exec (.hostRingPoll true 3) running1) (fun t => t.run.snaps.cons == 3) = true) := by decide +kernel

def servCfg : ServingCfg :=
  { group := 0, stepTokens := 1024, chunk := 256, grow := true, reserve := 0, pagesNear := 4, pagesFar := 0, pageBase := [0x100000], farBase := 0,
    kvBf16 := false, farKv := false, studentDrafts := false, modelTeacherOk := false }
/-- A paired module that serves on group 0 with four free pages, function 0 bound to customer 1. -/
def serves : State :=
  (paired.setProg { paired.prog with progs := [(1, prog { img with serving := some servCfg } .ready)] }).setServe
    { paired.serve with groups := [(0, { prog := 1, freeNear := [0, 1, 2, 3] })], cust := [(1, { fn := some 0 })] }
theorem witness_join :
    let m := mc 0 (pay 72 [(0, 4, 9), (4, 1, 1), (8, 4, 2), (12, 4, 3), (20, 4, 0x3F800000), (28, 1, 1), (64, 4, 3)] ++ pay 68 [(0, 4, 1), (4, 4, 6)] ++
      dsc 0x1000 8 false false ++ dsc 0x2000 12 true true) 2 [pay 8 [(0, 4, 5), (4, 4, 6)]]
    let n := 72 + 68 * fieldAt m.payload 28 1
    let ds := descsAt m.payload n 2
    serves.judges m = true ∧ lenIs m n 2 = true ∧ descsOk serves m ds [false, true] = true ∧
    4 * fieldAt m.payload 8 4 ≤ extentBytes (cmdExtents m ds 0) ∧ fieldAt m.payload 64 4 * 4 ≤ extentBytes (cmdExtents m ds 1) ∧
    serves.pair.state = .resident ∧ joinFieldsOk m.payload (fieldAt m.payload 28 1) = true ∧
    (serves.customer (fieldAt m.payload 4 1)).fn = some m.fn ∧ serves.serve.reqs.freeFrom 4096 0 = some 0 ∧
    bitOf (fieldAt m.payload 5 1) 1 = false ∧ serves.chooseGroup (bitOf (fieldAt m.payload 5 1) 0) = some 0 ∧
    (serves.placeTables (serves.firstTile 0) 1).isSome = true ∧ serves.inputLost m ds = false ∧
    said (exec (.join m) serves) 0 (fun t => (t.req? 0).any (fun q => q.prompt == [5, 6] && q.status == .queued && q.stops == [[6]])) = true := by
  decide +kernel

theorem witness_requests :
    (let m := mc 0 (pay 8 [(0, 2, 4), (4, 4, 7)]) 0 []
     serving.judges m = true ∧ lenIs m 8 0 = true ∧ reservedZero m.payload 8 [(0, 2), (4, 4)] = true ∧ serving.reqNamed m = some (4, req1) ∧
     said (exec (.cancel m) serving) 1 (fun t => (t.req? 4).any (fun q => q.cancel == .pending)) = true ∧
     said (exec (.pause m) serving) 1 (fun t => (t.req? 4).any (fun q => q.ops.length == 1)) = true) ∧
    (let m := mc 0 [] 0 []
     running1.judges m = true ∧ lenIs m 0 0 = true ∧ running1.pair.state = .resident ∧ running1.run.active = true ∧ running1.serve.batchClosed = false ∧
     said (exec (.batchClose m) running1) 0 (fun t => t.serve.batchClosed) = true) ∧
    (let m := mc 0 (pay 8 [(0, 1, 255), (1, 1, 16)]) 0 []
     serving.judges m = true ∧ lenIs m 8 0 = true ∧ reservedZero m.payload 8 [(0, 2)] = true ∧ fieldAt m.payload 1 1 = (16 : Fn).val ∧
     (∀ e ∈ serving.serve.reqs, e.2.cust = fieldAt m.payload 0 1 → e.2.status.terminal = true) ∧
     said (exec (.custBind m) serving) 0 (fun t => (t.customer 255).fn == some 16) = true) ∧
    (let m := mc 0 (pay 16 [(0, 1, 1), (1, 1, 1), (8, 8, 2 ^ 63 - 1)]) 0 []
     serving.judges m = true ∧ lenIs m 16 0 = true ∧ reservedZero m.payload 16 [(0, 2), (8, 8)] = true ∧ fieldAt m.payload 1 1 ≤ 1 ∧
     serving.custInStep (fieldAt m.payload 0 1) = false ∧ said (exec (.budgetRefill m) serving) 0 (fun t => (t.customer 1).budget == 2 ^ 63 - 1) = true ∧
     (let s := serving.setServe { serving.serve with groups := [(0, { plan := some { parts := [], slots := [], startedAt := 0 } })] }
      s.judges m = true ∧ s.custInStep (fieldAt m.payload 0 1) = true ∧
      said (exec (.budgetRefill m) s) 0 (fun t => (t.customer 1).refills.length == 1) = true)) := by decide +kernel

def reg1 : Region := { tier := 0, tile := 0, base := 0x1000, length := 0x1000, cls := 5, fn := 0, source := .none_, prog := 0 }
def withReg : State := (up.setTier { up.tier with regions := [(3, reg1)] }).setMem [(0x1004, 0xAB)]
def xfer (dir : Nat) : List Byte := pay 32 [(0, 4, 3), (8, 8, 4), (16, 8, 2), (24, 1, dir)]
theorem witness_regions :
    (let p := pay 16 [(0, 8, 5000), (8, 1, 0), (9, 1, 3), (10, 1, 5), (11, 1, 12)]
     let m := mc 0 p 0 []
     p = m.payload ∧ up.judges m = true ∧ fieldAt p 10 1 ≠ 0 ∧ lenIs m 16 0 = true ∧ descsOk up m (descsAt p 16 0) [] = true ∧
     reservedZero p 16 [(0, 12)] = true ∧ fieldAt p 0 8 ≠ 0 ∧ up.place 0 3 4096 5000 = some (nearBase 3) ∧ up.tier.regions.freeFrom 16384 0 = some 0 ∧
     said (exec (.regionAlloc m) up) 0 (fun t => (t.tier.regions.find? 0).any (fun r => r.length == 8192)) = true) ∧
    (let m := mc 0 (pay 8 [(0, 4, 3)]) 0 []
     withReg.judges m = true ∧ lenIs m 8 0 = true ∧ reservedZero m.payload 8 [(0, 4)] = true ∧ withReg.regionFor 0 3 = some reg1 ∧
     said (exec (.regionFree m) withReg) 0 (fun t => t.tier.regions == []) = true) ∧
    (let m := mc 0 (xfer 1 ++ dsc 0x4000 2 true true) 1 []
     withReg.judges m = true ∧ lenIs m 32 1 = true ∧ descsOk withReg m (descsAt m.payload 32 1) [true] = true ∧
     reservedZero m.payload 32 [(0, 4), (8, 17)] = true ∧ extentBytes (cmdExtents m (descsAt m.payload 32 1) 0) = 2 ∧
     said (exec (.memTransfer m) withReg) 1 (fun t => t.keeper.ops.length == 1) = true) ∧
    (let o : LongOp := { op .transfer (xfer 0) with base := 0x1004 }
     let s := withOp withReg o
     s.keeper.kbusy = false ∧ s.keeper.ops.find? (fun o => o.kind == .transfer && o.fn == 0 && o.seq == 5) = some o ∧ fieldAt o.payload 24 1 = 0 ∧ s.windowLost o.extents = false ∧
     after (exec (.memTransferDone 0 5 [1, 2, 3] false) s) (fun t => Mem.readN t.mem 0x1004 3 == [1, 2, 0] && t.keeper.ops == []) = true) ∧
    (let o : LongOp := { op .transfer (xfer 1) with base := 0x1004, extents := [(0, 0x4000, 2)] }
     let s := withOp withReg o
     s.keeper.ops.find? (fun o => o.kind == .transfer && o.fn == 0 && o.seq == 5) = some o ∧ fieldAt o.payload 24 1 ≠ 0 ∧
     s.rangeFailed o.base 2 = false ∧ after (exec (.memTransferDone 0 5 [] false) s) (fun t => Mem.readN t.hostMem 0x4000 2 == [0xAB, 0]) = true) := by
  decide +kernel
theorem witness_window :
    (let m := mc 0 (pay 8 [(0, 4, 2047), (4, 4, 1)]) 0 []
     up.judges m = true ∧ lenIs m 8 0 = true ∧ up.excluded = false ∧ up.pair.state = .empty ∧
     (∀ i < fieldAt m.payload 4 4, (up.setTier { up.tier with windowBase := 0, windowSize := 0 }).extentHeld (fieldAt m.payload 0 4 + i) = false) ∧
     said (exec (.cxlmemWindow m) up) 0 (fun t => t.tier.windowBase == 2047 && t.tier.windowSize == 1) = true) ∧
    (let s := up.setTier { up.tier with windowBase := 2, windowSize := 1 }
     2 ^ 30 - 1 + 1 ≤ s.tier.windowSize * 2 ^ 30 ∧
     s.failedIn [(farBase + s.tier.windowBase * 2 ^ 30 + (2 ^ 30 - 1), 1)] = [] ∧
     after (exec (.cxlmemAccess true (2 ^ 30 - 1) [6]) s) (fun t => Mem.readN t.mem (farBase + 3 * 2 ^ 30 - 1) 1 == [6]) = true ∧
     (let u := s.setTier { s.tier with failedOut := [farBase + 2 * 2 ^ 30] }
      u.failedIn [(farBase + u.tier.windowBase * 2 ^ 30 + 0, 1)] ≠ [] ∧ after (exec (.cxlmemAccess false 0 [0]) u) (fun t => t.fresh == s.fresh + 1) = true) ∧
     s.tier.windowSize * 2 ^ 30 < 2 ^ 30 + 1 ∧ after (exec (.cxlmemAccess true (2 ^ 30) [6]) s) yes = false) := by decide +kernel

/-- A far region over n logical extents from e. -/
def farReg (e n : Nat) : Region := { reg1 with tier := 1, base := farBase + e * 2 ^ 30, length := n * 2 ^ 30 }
/-- Of the extents off carrier 3, two are free; carrier 3 holds one. -/
def onCarrier3 : State := up.setTier { up.tier with regions := [(0, farReg 2 1535)] }
theorem witness_evacuate :
    let m := mc 0 (pay 8 [(0, 1, 3)]) 0 []
    onCarrier3.judges m = true ∧ lenIs m 8 0 = true ∧ onCarrier3.excluded = false ∧ reservedZero m.payload 8 [(0, 1)] = true ∧
    onCarrier3.carrierServes 3 = true ∧ (onCarrier3.heldOn 3).length ≤ (onCarrier3.freeElsewhere 3).length ∧
    said (exec (.carrierEvacuate m) onCarrier3) 1 (fun t => (t.carrier 3).evacuating) = true := by decide +kernel
/-- Carrier 1 is being emptied: its extent 512 is held, and of the extents elsewhere only 0 is free. -/
def onCarrier1 : State :=
  up.setTier { up.tier with regions := [(0, farReg 1 512), (1, farReg 1024 1024)], carriers := [(1, { evacuating := true })] }
theorem witness_switch :
    onCarrier1.keeper.kbusy = false ∧ (onCarrier1.carrier 1).evacuating = true ∧ 512 ∈ onCarrier1.heldOn 1 ∧ onCarrier1.freeElsewhere 1 ≠ [] ∧
    after (exec (.extentSwitch 1 512) onCarrier1) (fun t => t.physExtent 512 == 0 && t.physExtent 0 == 512) = true := by decide +kernel
theorem witness_carriers_change :
    (let s := (withOp up (op (.evacuate 1))).setTier { up.tier with carriers := [(1, { evacuating := true })] }
     s.keeper.kbusy = false ∧ (s.carrier 1).evacuating = true ∧ s.heldOn 1 = [] ∧ (s.arbAt 33).held = false ∧
     after (exec (.carrierReleased 1) s) (fun t => !(t.carrier 1).powered && t.keeper.ops == []) = true) ∧
    (let s := up.setTier { up.tier with carriers := [(1, { present := false })] }
     (s.carrier 1).present = false ∧ after (exec (.carrierFitted 1 []) s) (fun t => (t.carrier 1).present && (t.carrier 1).spares == 2097152) = true) ∧
    (up.carrier 2).present = true ∧ after (exec (.carrierLost 2) up) (fun t => !(t.carrier 2).present && (t.carrier 1).present) = true := by
  decide +kernel

/-- The bytes of a size table of one module: before its CRC (R408), the CRC, after it. -/
def tableHead : List Byte :=
  pay 60 [(0, 4, 0x4C4B5354), (4, 2, 1), (6, 1, 1), (7, 1, 1), (8, 1, 1), (9, 1, 1), (10, 1, 1), (12, 4, 100), (16, 4, 1)]
def tableTail : List Byte := [0, 0, 0, 0x80] ++ List.replicate 4092 0
def tableBytes : List Byte := tableHead ++ (leBytes 4 0x23d31065 ++ tableTail)
/-- A value worked out before it is used, so that the CRC is computed byte by byte. -/
def force : Nat → (Nat → Nat) → Nat
  | 0, k => k 0
  | n + 1, k => k (n + 1)
theorem force_eq (n : Nat) (k : Nat → Nat) : force n k = k n := by cases n <;> rfl
def crcGo : List Byte → Nat → Nat
  | [], c => c
  | b :: r, c => force (crcByte c b) (crcGo r)
theorem crcGo_eq (bs : List Byte) : ∀ c, crcGo bs c = bs.foldl crcByte c := by
  induction bs with
  | nil => intro c; rfl
  | cons b r ih => intro c; rw [crcGo, force_eq, ih, List.foldl_cons]
theorem table_crc : crc32c (tableHead ++ (List.replicate 4 0 ++ tableTail)) = 0x23d31065 := by
  rw [crc32c, ← crcGo_eq]
  decide +kernel
theorem table_body : tableBytes.take 0x3C ++ List.replicate 4 0 ++ tableBytes.drop 0x40 = tableHead ++ (List.replicate 4 0 ++ tableTail) := by
  have h : tableHead.length = 0x3C := by decide +kernel
  have h' : (tableHead ++ leBytes 4 0x23d31065).length = 0x40 := by decide +kernel
  rw [tableBytes, List.take_left' h, ← List.append_assoc tableHead, List.drop_left' h', List.append_assoc]
theorem table_ok : up.tableOk tableBytes = true := by
  simp only [State.tableOk, tableFormOk, table_body, table_crc]
  decide +kernel
theorem witness_size_table :
    let m := mc 0 (dsc 0x1000 4160 false true) 1 [tableBytes]
    up.judges m = true ∧ lenIs m 0 1 = true ∧ descsOk up m (descsAt m.payload 0 1) [false] = true ∧
    4160 ≤ extentBytes (cmdExtents m (descsAt m.payload 0 1) 0) ∧ up.pwr.strapBad = false ∧ up.run.active = false ∧
    up.inputLost m (descsAt m.payload 0 1) = false ∧ up.tableOk ((m.reads.getD 0 []).take 4160) = true := by
  have h : ((mc 0 (dsc 0x1000 4160 false true) 1 [tableBytes]).reads.getD 0 []).take 4160 = tableBytes :=
    List.take_of_length_le (by decide +kernel)
  simp only [h, table_ok]
  decide +kernel
def cen (maj : Nat) : List CensusEntry := [{ id := 0, position := 0, serial := 1, fwmaj := maj, tableCrc := 0 }]
theorem witness_table_in_force :
    let s := up.setLink { up.link with pendingTable := some (alone, 0, 5) }
    s.keeper.kbusy = false ∧ s.run.active = false ∧ (∀ x ∈ alone.present, ∃ e ∈ cen 0, e.id = x.1) ∧ duplicateOf (cen 0) = none ∧
    (∀ e ∈ cen 0, e.fwmaj = s.keeper.fwmaj) ∧ (∃ e ∈ cen 1, e.fwmaj ≠ s.keeper.fwmaj) ∧ s.postsTo 0 = true ∧
    after (exec (.sizeTableInForce (tableCrc alone.raw) (cen 0)) s) (fun t => t.link.table == some alone) = true ∧
    after (exec (.sizeTableInForce (tableCrc alone.raw) (cen 1)) s) (fun t => t.link.table.isNone && t.link.pendingTable.isNone) = true ∧
    after (exec (.sizeTableInForce (tableCrc alone.raw + 1) (cen 0)) s) (fun t => t.link.table.isNone && t.link.pendingTable.isNone) = true := by
  decide +kernel

/-- A firmware image of header only, SVN 2 (R455). -/
def fwBytes : List Byte :=
  pay 256 [(0, 4, 0x4C4B4657), (4, 2, 1), (6, 1, 0xB0), (8, 8, leNat partName), (0x10, 1, 3), (0x12, 1, 2), (0x14, 4, 4096), (0x18, 4, 1)]
def fwOk : FwVerdict := { certOk := true, sigOk := true, hashOk := true }
theorem witness_firmware :
    (let m := mc 0 (dsc 0x1000 64 false true) 1 [fwBytes]
     up.judges m = true ∧ lenIs m 0 1 = true ∧ descsOk up m (descsAt m.payload 0 1) [false] = true ∧ up.findOp .fwLoad = none ∧
     up.inputLost m (descsAt m.payload 0 1) = false ∧ fwFormatOk fwBytes = true) ∧
    (let s := withOp up (op .fwLoad)
     s.findOp .fwLoad = some (op .fwLoad) ∧ s.keeper.kbusy = false ∧ s.postsTo 0 = true ∧
     after (exec (.fwLoadDone true) s) (fun t => (t.fwSlot true).ok && t.keeper.ops == []) = true) ∧
    (let m := mc 0 [] 0 []
     up.judges m = true ∧ lenIs m 0 0 = true ∧ up.findOp .fwActivate = none ∧ (up.fwSlot up.otherSlot).present = true ∧
     up.fwCheck (up.fwSlot up.otherSlot) fwOk = 0 ∧ up.inCascade = false ∧
     said (exec (.fwActivate m fwOk) up) 1 (fun t => t.keeper.kbusy && t.keeper.restart == some .activate) = true) := by decide +kernel
/-- The checks of R456 pass, whatever the digest. -/
theorem witness_firmware_checked : up.fwCheck (imageSlot fwBytes) fwOk = 0 := by
  have h : (imageSlot fwBytes).format = true ∧ (imageSlot fwBytes).fits = true ∧ (imageSlot fwBytes).svn = 2 ∧ up.sec.counter = 0 := by decide +kernel
  simp [State.fwCheck, h.1, h.2.1, h.2.2.1, h.2.2.2, fwOk, codeOk]

theorem witness_service :
    (let m := mc 0 (pay 8 [(0, 1, 0), (1, 1, 1)]) 0 []
     up.judges m = true ∧ lenIs m 8 0 = true ∧ reservedZero m.payload 8 [(0, 2)] = true ∧ (up.laser 0).state = 0 ∧
     said (exec (.servicePrepareLaser m) up) 1 (fun t => (t.laser 1).state == 3 && (t.laser 0).full) = true ∧
     (up.setLaser 0 { state := 1 }).judges m = true ∧ ((up.setLaser 0 { state := 1 }).laser 0).state ≠ 0 ∧
     said (exec (.servicePrepareLaser m) (up.setLaser 0 { state := 1 })) 1 (fun t => (t.laser 1).state == 0) = true) ∧
    (let m := mc 0 (pay 8 [(0, 1, 1), (1, 1, 0xB1)]) 0 []
     up.judges m = true ∧ lenIs m 8 0 = true ∧ reservedZero m.payload 8 [(0, 2)] = true ∧ 0xB1 % 16 < phasesOf (0xB1 / 16) ∧
     (∀ x ∈ up.pwr.phaseOut, x / 16 = 0xB1 / 16 → x = 0xB1) ∧ said (exec (.servicePreparePhase m) up) 1 (fun t => t.pwr.phaseOut == [0xB1]) = true) ∧
    (let m := mc 0 (pay 8 [(0, 1, 2), (1, 1, 5)]) 0 []
     up.judges m = true ∧ lenIs m 8 0 = true ∧ reservedZero m.payload 8 [(0, 2)] = true ∧
     said (exec (.servicePrepareFibre m false) up) 1 (fun t => (t.port 5).serviced && t.keeper.ops.length == 1) = true) ∧
    (let s := up.setPort 2 { state := .degraded }
     (s.port 2).isUp = true ∧ after (exec (.serviceNoticeRx 2) s) (fun t => (t.port 2).serviced) = true) ∧
    (let s := withOp up (op (.fibre 5))
     s.findOp (.fibre 5) = some (op (.fibre 5)) ∧ s.postsTo 0 = true ∧ after (exec (.serviceNoticeTimeout 5) s) (fun t => t.keeper.ops == []) = true) := by
  decide +kernel

theorem witness_debug :
    (let m := mc 0 [] 0 []
     up.judges m = true ∧ lenIs m 0 0 = true ∧ up.run.active = false ∧ said (exec (.debugEnter m) up) 0 (fun t => t.keeper.debug) = true ∧
     up.keeper.debug = false ∧ said (exec (.debugExit m) up) 0 (fun t => t.arr == up.arr) = true ∧
     (let s := (up.setKeeper { up.keeper with debug := true }).setTarget 2 { staged := { vsize := 5 }, active := { vsize := 5 } }
      s.judges m = true ∧ s.keeper.debug = true ∧ s.prog.progs = [] ∧
      said (exec (.debugExit m) s) 0 (fun t => !t.keeper.debug && (t.target 2).active.vsize == 0) = true)) ∧
    (let s := up.setKeeper { up.keeper with debug := true }
     let m := mc 0 (pay 8 [(0, 1, 3), (1, 1, 79), (2, 1, 31), (4, 1, 1)] ++ dsc 0x1000 8192 false true) 1 [pay 8 [(0, 8, 2 ^ 34 - 1)]]
     let a := accArgs m.payload
     s.judges m = true ∧ lenIs m 8 1 = true ∧ descsOk s m (descsAt m.payload 8 1) [false] = true ∧ a.ok m.payload = true ∧
     (∀ w ∈ accWords a (m.reads.getD 0 []), w < 2 ^ 34) ∧ s.accBusy a = false ∧ s.inputLost m (descsAt m.payload 8 1) = false ∧ a.bytes ≤ extentBytes (cmdExtents m (descsAt m.payload 8 1) 0) ∧
     said (exec (.accWrite m) s) 0 (fun t => ((t.array 3 79).readTile 0 31 .s32x32 false).1.getD 0 0 == BitVec.allOnes 34) = true) := by decide +kernel

/-! ### Registers -/

theorem witness_status_clear :
    up.released = true ∧
    (let s := up.setDrnStat 1 83 { ovf := true, vanished := 9 }
     s.released = true ∧ after (exec (.drnCntClr 1 83 0x90000000) s) (fun t => !(t.drnStat 1 83).ovf && (t.drnStat 1 83).vanished == 0) = true) ∧
    (let s := up.setTarget 2 { stat := { nan := true }, badpos := 4 }
     s.released = true ∧ (0x10000000 : Word).getLsbD 28 = true ∧ (0x20000000 : Word).getLsbD 28 = false ∧
     after (exec (.tgtCntClr 2 0x10000000) s) (fun t => (t.target 2).stat.nan && (t.target 2).badpos == 0) = true ∧
     after (exec (.tgtCntClr 2 0x20000000) s) (fun t => !(t.target 2).stat.nan && (t.target 2).badpos == 4) = true) ∧
    (let s := up.setVecEng 0 7 { stat := { sat := true } }
     s.released = true ∧ after (exec (.vxeCntClr 0 7 0x08000000) s) (fun t => !(t.vecEng 0 7).stat.sat) = true) := by decide +kernel

def debugged : State := up.setKeeper { up.keeper with debug := true }
/-- Ascending boundaries. -/
def rising : List Word := [0x3F800000, 0x40000000, 0x40400000, 0x40800000, 0x40A00000, 0x40C00000, 0x40E00000, 0x41000000, 0x41100000, 0x41200000,
  0x41300000, 0x41400000, 0x41500000, 0x41600000, 0x41700000]

theorem witness_groups_denied :
    up.regsAnswer 0 = true ∧ up.released = true ∧ up.keeper.debug = false ∧
    after (exec (.drnCustCommit 0 1 1) up) (fun t => t.keeper.cause == 4) = true ∧
    after (exec (.tgtCommit 0 1 1) up) (fun t => t.keeper.cause == 4) = true ∧
    after (exec (.vxeKeyCommit 0 1 16 1) up) (fun t => t.keeper.cause == 4) = true := by decide +kernel
/-- A valid TCFG. -/
def cfg (v : Nat) : Tcfg := { vsize := BitVec.ofNat 32 v, posBase := 0x4000000, lossBase := 0x4080000 }
theorem witness_groups_cust :
    debugged.regsAnswer 0 = true ∧ debugged.released = true ∧ debugged.keeper.debug = true ∧ (1 : Word).getLsbD 0 = true ∧
    (∃ x ∈ (debugged.custSt 3).bnd.zip (debugged.custSt 3).bnd.tail, (ofFP32 x.1).lt (ofFP32 x.2) = false) ∧
    after (exec (.drnCustCommit 0 3 1) debugged) (fun t => (t.custSt 3).refused) = true ∧
    (let s := debugged.setCust 3 { bnd := rising }
     s.regsAnswer 0 = true ∧ s.released = true ∧ s.keeper.debug = true ∧
     after (exec (.drnCustCommit 0 3 1) s) (fun t => (t.custSt 3).active.isSome) = true) := by decide +kernel
theorem witness_cust_ascends :
    (∀ w ∈ rising ++ List.replicate 64 (0 : Word), (ofFP32 w).special = false) ∧
    (∀ x ∈ rising.zip rising.tail, (ofFP32 x.1).lt (ofFP32 x.2) = true) := by
  have h : (rising ++ List.replicate 64 (0 : Word)).all (fun w => !(ofFP32 w).special) = true := by decide +kernel
  have h' : (rising.zip rising.tail).all (fun x => (ofFP32 x.1).lt (ofFP32 x.2)) = true := by decide +kernel
  exact ⟨fun w hw => by simpa using List.all_eq_true.mp h w hw, List.all_eq_true.mp h'⟩
theorem witness_groups_tcfg :
    (let s := debugged.setTarget 0 { staged := cfg 32 }
     s.regsAnswer 0 = true ∧ s.released = true ∧ s.keeper.debug = true ∧ (s.target 0).staged.valid = true ∧ (s.target 0).busy = false ∧
     after (exec (.tgtCommit 0 0 1) s) (fun t => (t.target 0).active.vsize == 32) = true) ∧
    (let s := debugged.setTarget 0 { staged := cfg 262144, slots := [(0, { valid := true })] }
     s.regsAnswer 0 = true ∧ (s.target 0).staged.valid = true ∧ (s.target 0).busy = true ∧
     after (exec (.tgtCommit 0 0 1) s) (fun t => (t.target 0).active.vsize == 0 && (t.target 0).committed.isSome) = true) ∧
    (debugged.target 0).staged.valid = false ∧ after (exec (.tgtCommit 0 0 1) debugged) (fun t => (t.target 0).refused) = true := by decide +kernel
theorem witness_groups_apply :
    (let s := up.setTarget 1 { committed := some { vsize := 64 } }
     (s.target 1).busy = false ∧ (s.target 1).committed = some { vsize := 64 } ∧ (up.target 1).committed = none ∧
     after (exec (.tcfgApply 1) s) (fun t => (t.target 1).active.vsize == 64) = true) ∧
    (let s := debugged.setKeySt 2 16 { staged := [1, 2, 3, 4] }
     s.regsAnswer 0 = true ∧ s.released = true ∧ s.keeper.debug = true ∧
     after (exec (.vxeKeyCommit 0 2 16 1) s) (fun t => (t.keySt 2 16).active == [1, 2, 3, 4] && !(t.keySt 2 16).pending) = true ∧
     (let u := s.setServe { s.serve with samp := [(2, { open_ := [{ pidx := 0, m := 0 }] })] }
      u.keyUser 2 8 = true ∧ after (exec (.vxeKeyCommit 0 2 16 1) u) (fun t => (t.keySt 2 16).pending) = true)) ∧
    (let s := up.setSched { up.sched with staged := [(1, { slice := 100000, suspend := true })] }
     s.regsAnswer 0 = true ∧ (∀ f < 17, 100 ≤ (s.stagedFn f).slice ∧ (s.stagedFn f).slice ≤ 100000) ∧ (s.stagedFn 0).suspend = false ∧
     after (exec (.kprSchedCommit 0 1) s) (fun t => (t.sched.active.get {} 1).slice == 100000) = true) ∧
    (let s := up.setSched { up.sched with staged := [(16, { slice := 100001 })] }
     s.regsAnswer 0 = true ∧ (∃ f < 17, (s.stagedFn f).slice < 100 ∨ 100000 < (s.stagedFn f).slice) ∧
     after (exec (.kprSchedCommit 0 1) s) (fun t => t.sched.refused) = true) := by decide +kernel

def withMbx (b : Mailbox) : State := up.setMbox 0 b
def evt : Event := { code := 0x106, fn := 0, seq := 0, data := List.replicate 24 0 }
theorem witness_event_ring :
    up.regsAnswer 0 = true ∧ after (exec (.mbxEvtConsWrite 0 0) up) (fun t => (t.mbox 0).cause == 32) = true ∧
    (let s := withMbx { prod := 2, cons := 1, ring := [(1, evt)] }
     s.regsAnswer 0 = true ∧ after (exec (.mbxEvtConsWrite 0 3) s) (fun t => (t.mbox 0).cause == 32 && (t.mbox 0).cons == 1) = true ∧
     s.keeper.kbusy = false ∧ after (exec (.mbxEvtConsWrite 0 2) s) (fun t => (t.mbox 0).cons == 2) = true) ∧
    (let s := withMbx { prod := 0, cons := 1, ring := [(1, evt)], held := [evt, evt] }
     s.regsAnswer 0 = true ∧ after (exec (.mbxEvtConsWrite 0 2) s) (fun t => (t.mbox 0).prod == 1 && (t.mbox 0).held.length == 1) = true ∧
     (let u := s.setKeeper { s.keeper with kbusy := true }
      u.regsAnswer 0 = true ∧ u.keeper.kbusy = true ∧ after (exec (.mbxEvtConsWrite 0 2) u) (fun t => (t.mbox 0).held.length == 2) = true)) := by
  decide +kernel

theorem witness_heartbeat :
    up.keeper.kbusy = false ∧ up.keeper.up = true ∧ (up.setKeeper { up.keeper with heartbeat := 2 ^ 32 - 1 }).keeper.up = true ∧
    after (exec .keeperHeartbeat (up.setKeeper { up.keeper with heartbeat := 2 ^ 32 - 1 })) (fun t => t.keeper.heartbeat == 0) = true ∧
    (up.setKeeper { up.keeper with kbusy := true }).keeper.kbusy = true ∧ up.regsAnswer 0 = true ∧
    after (exec (.kprSwatchRead 4) (up.setPwr { up.pwr with watches := [(4, 2 ^ 32 + 5)] })) (fun t => t.outbox == [.swatch 4 5] && t.keeper.swHi.get 0 4 == 1) = true ∧
    (let s := up.setFnSt 0 { msix := [(2, { addr := 8, data := 9, masked := true, pending := true })] }
     s.pwr.hubLit = true ∧ s.fnExists 0 = true ∧ (s.fnSt 0).resetting = false ∧ (s.fnSt 0).d3hot = false ∧ ((s.fnSt 0).msix.get {} 2).pending = true ∧
     ((s.fnSt 0).msix.get {} 63).pending = false ∧ (s.fnSt 0).fmask = false ∧ after (exec (.msixVectorUnmask 0 2) s) (fun t => t.outbox == [.msix 0 2 8 9]) = true ∧
     after (exec (.msixVectorUnmask 0 63) s) (fun t => t.outbox == []) = true) := by decide +kernel

theorem witness_register_writes :
    up.regsAnswer 0 = true ∧ (let s := up.setFnp { up.fnp with numVfs := 1 }; s.regsAnswer 1 = true) ∧
    after (exec (.registerWrite 0 2 0x800100 4 0x100007D0) up) (fun t => (t.stagedFn 16).slice == 0x7D0) = true ∧
    after (exec (.registerWrite 0 4 1016 4 77) up) (fun t => ((t.fnSt 0).msix.get {} 63).data == 77) = true ∧
    after (exec (.registerWrite 0 8 0x10 2 16) up) (fun t => t.fnp.numVfs == 16) = true ∧
    (0x4000 : Word).getLsbD 14 = true ∧ after (exec (.registerWrite 0 9 2 2 0x4000) up) (fun t => (t.fnSt 0).fmask) = true ∧
    after (exec (.registerWrite 0 0 4 4 4) (up.setKeeper { up.keeper with cause := 6 })) (fun t => t.keeper.cause == 2) = true ∧
    after (exec (.registerWrite 0 2 0x800100 4 0x100007D1) up) (fun t => t.readBar2 0x800100 == 0x7D1 && t.sched.active == up.sched.active) = true ∧
    debugged.regsAnswer 0 = true ∧ debugged.released = true ∧ debugged.keeper.debug = true ∧ (debugged.custSt 3).bnd.length = 15 ∧
    after (exec (.registerWrite 0 2 0x430838 4 0x40000000) debugged) (fun t => t.readBar2 0x430838 == 0x40000000 && (t.custSt 3).active.isNone) = true := by decide +kernel

/-! ### Arbiters -/

def arb (a : Arb) : State := up.setArbAt 42 a
theorem witness_arbiter_rounds :
    (after (exec (.arbRound 42 false [(0, 0), (6, 0)] []) (arb { held := true, owner := 3 })) (fun t => (t.arbAt 42).owner == 3) = true) ∧
    (after (exec (.arbRound 42 true [(0, 0), (6, 0)] []) (arb { held := true, owner := 3 })) (fun t => (t.arbAt 42).owner == 6) = true) ∧
    (after (exec (.arbRound 42 true [(0, 0), (6, 0)] []) (arb { held := true, owner := 3, freeze := true })) (fun t => !(t.arbAt 42).held) = true) ∧
    (after (exec (.arbRound 42 false [(6, 0)] [6]) (arb {})) (fun t => !(t.arbAt 42).held) = true) ∧
    (after (exec (.arbRound 42 false [(0, 0), (6, 0)] []) (arb { owner := 4, reqs := [(0, { cur := 7 }), (6, { cur := 7, base := 2 })] }))
      (fun t => (t.arbAt 42).owner == 6 && ((t.arbAt 42).req 6).cur == 2 && ((t.arbAt 42).req 0).cur == 8) = true) ∧
    (up.slotMasked 42 6 0 = false ∧ (up.arbAsked 42 false [(6, 0)] []).waiters = [6] ∧ ((up.arbAsked 42 false [(6, 0)] [6]).req 6).masked = true ∧
      ((up.arbAsked 42 false [(7, 0)] []).req 7).waiting = false) := by decide +kernel
theorem witness_starvation :
    let s := arb { owner := 5, reqs := [(0, { lost := 0x3F }), (1, { lost := 0x3E })] }
    let a := s.arbAsked 42 false [(0, 0), (1, 0), (6, 0)] []
    (s.arbAt 42).pending = none ∧ (s.arbAt 42).held = false ∧ (s.arbAt 42).freeze = false ∧ a.choose = some 6 ∧ 0 ∈ a.waiters ∧ 1 ∈ a.waiters ∧
    a.starveLim ≤ (a.req 0).lost + 1 ∧ (a.req 1).lost + 1 < a.starveLim ∧
    after (exec (.arbRound 42 false [(0, 0), (1, 0), (6, 0)] []) s)
      (fun t => ((t.arbAt 42).req 0).starved && !((t.arbAt 42).req 1).starved && t.keeper.cause == 1) = true ∧
    (let u := arb { owner := 5, starveLim := 0, reqs := [(0, { lost := 8190 })] }
     (u.arbAsked 42 false [(0, 0), (6, 0)] []).starveLim = 0 ∧
     after (exec (.arbRound 42 false [(0, 0), (6, 0)] []) u) (fun t => !((t.arbAt 42).req 0).starved) = true) := by decide +kernel
theorem witness_grants :
    (let s := arb { held := true, owner := 5 }
     (s.arbAt 42).held = true ∧ (s.arbAt 42).pending = none ∧ (s.arbAt 42).freeze = false ∧ (s.fnSt (s.arbAt 42).ownerFn).resetting = false ∧
     s.slotMasked 42 5 0 = false ∧ (s.arbAt 42).waiters = [] ∧ after (exec (.arbBreakPoint 42 true false) s) (fun t => !(t.arbAt 42).held && ((t.arbAt 42).req 5).masked) = true ∧
     after (exec (.arbBreakPoint 42 false true) s) (fun t => (t.arbAt 42).held && (t.arbAt 42).owner == 5) = true) ∧
    (let s := arb { held := true, owner := 5, freeze := true }
     (s.arbAt 42).held = true ∧ (s.arbAt 42).pending = none ∧ (s.arbAt 42).freeze = true ∧
     after (exec (.arbBreakPoint 42 false false) s) (fun t => !(t.arbAt 42).held && ((t.arbAt 42).req 5).waiting) = true) ∧
    (up.regsAnswer 0 = true ∧ up.released = true ∧ up.keeperOwns = false ∧
     after (exec (.arbCommit 0 42 1) up) (fun t => (t.arbAt 42).pending.isSome) = true ∧
     after (exec (.arbFreeze 0 42 0x80000007) up) (fun t => (t.arbAt 42).freeze && (t.arbAt 42).stagedLim == 7) = true) ∧
    (running1.regsAnswer 0 = true ∧ running1.released = true ∧ running1.keeperOwns = true ∧
     after (exec (.arbCommit 0 42 1) running1) (fun t => t.keeper.cause == 4) = true) ∧
    (let s := arb { freeze := true, reqs := [(4, { waiting := true })] }
     s.regsAnswer 0 = true ∧ (s.arbAt 42).freeze = true ∧ (s.arbAt 42).held = false ∧ (s.arbAt 42).pending = none ∧ (s.arbAt 42).waiters ≠ [] ∧
     after (exec (.arbFreeze 0 42 0x40) s) (fun t => (t.arbAt 42).held && (t.arbAt 42).owner == 4) = true) := by decide +kernel

/-! ### Links, light and fog -/

/-- What a port sees: light, a neighbour on the same axis, all eighteen lanes in place but those listed. -/
def sees (p : Nat) (dead : List Nat) : TrainObs :=
  { lightRx := true, lightTx := false, peerLightRx := true, peerLightTx := false, peerPlus := p % 2 == 1, peerAxis := p / 2,
    markers := (List.range 18).map (fun i => (i, i)), failed := dead, peerDead := [], peerPos := 0, peerPort := 1, duration := 9 }
theorem witness_training :
    up.ramped = true ∧ up.hasLight = true ∧ up.pwr.strapBad = false ∧ (up.port 0).serviced = false ∧ (up.port 0).state = .down ∧
    (let o := sees 0 [16, 17]
     lightCheck 0 o = .go false ∧ widthOf (trainHealthy o).length = 16 ∧ widthOf (18 - o.peerDead.length) = 16 ∧ up.neighbourOk 0 o = true ∧
     (up.port 0).replay = [] ∧ (up.port 0).txWait = [] ∧
     after (exec (.linkTrain 0 o) up) (fun t => (t.port 0).state == .up && (t.port 0).rxmap.length == 18) = true) ∧
    (let o := sees 5 [0, 1, 2]
     lightCheck 5 o = .go false ∧ widthOf (trainHealthy o).length = 8 ∧ up.neighbourOk 5 o = true ∧
     after (exec (.linkTrainRetry 5 o) up) (fun t => (t.port 5).state == .degraded) = true) ∧
    (let o := { sees 1 [] with lightRx := false, peerLightRx := false }
     lightCheck 1 o = .dark ∧ after (exec (.linkTrain 1 o) up) (fun t => (t.port 1).state == .down) = true) ∧
    (let o := sees 1 (List.range 11)
     widthOf (trainHealthy o).length = 0 ∧ lightCheck 1 o ≠ .miscabled ∧ after (exec (.linkTrain 1 o) up) (fun t => (t.port 1).state == .down) = true) ∧
    (lightCheck 2 (sees 3 []) = .miscabled ∧ after (exec (.linkTrain 2 (sees 3 [])) up) (fun t => (t.port 2).miscabled) = true) ∧
    (let o := sees 4 []
     lightCheck 2 o = .go false ∧ up.neighbourOk 2 o = false ∧ after (exec (.linkTrain 2 o) up) (fun t => (t.port 2).miscabled) = true) := by
  decide +kernel

def linked (x : Port) : State := up.setPort 3 { x with state := .up, txWide := 16, rxWide := 16 }
def pkt (kind seq : Nat) (ok : Bool) : Packet :=
  { kind := kind, seq := seq, ackseq := 0, dest := 0, src := 1, move := 0, offset := 0, payload := [1, 2], crcOk := ok }
theorem witness_lanes :
    (let s := linked { spareRx := 1, rxmap := (List.range 17) ++ [0xFF] }
     (s.port 3).isUp = true ∧ (s.port 3).spareRx ≠ 0 ∧ 15 < (s.port 3).rxmap.length ∧ (s.port 3).rxmap.getD 16 0xFF ≠ 0xFF ∧
     after (exec (.laneSpared 3 15) s) (fun t => (t.port 3).rxmap.getD 15 0 == 16 && (t.port 3).spareRx == 0) = true) ∧
    (let s := linked { spareRx := 0 }
     (s.port 3).isUp = true ∧ (s.port 3).spareRx = 0 ∧ (s.port 3).serviced = false ∧
     after (exec (.laneSpared 3 17) s) (fun t => (t.port 3).state == .training && (t.port 3).rxDead == 0x20000) = true ∧
     after (exec (.peerSilent 3) s) (fun t => (t.port 3).silent) = true) ∧
    (let s := up.setLink { up.link with moves := [{ move := 4, dest := 1, bytes := 2 }] }
     s.link.moves.find? (fun m => m.move == 4) = some { move := 4, dest := 1, bytes := 2 } ∧
     after (exec (.moveTimeout 4) s) (fun t => t.link.moves == []) = true) := by decide +kernel
theorem witness_packets :
    (let s := linked { rxSeq := 4095 }
     (s.port 3).isUp = true ∧
     after (exec (.linkPacketRx 3 (pkt 1 0 false)) s) (fun t => (t.port 3).crcErr == 1 && t.outbox.length == 1) = true ∧
     (4095 + 4096 - (s.port 3).rxSeq) % 4096 = 0 ∧ after (exec (.linkPacketRx 3 (pkt 1 4095 true)) s) (fun t => (t.port 3).rxSeq == 0) = true ∧
     (1 + 4096 - (s.port 3).rxSeq) % 4096 = 2 ∧ after (exec (.linkPacketRx 3 (pkt 2 1 true)) s) (fun t => t.outbox.head?.any (fun o => match o with | .packet _ k => k.kind == 4 | _ => false)) = true ∧
     (4094 + 4096 - (s.port 3).rxSeq) % 4096 = 4095 ∧ after (exec (.linkPacketRx 3 (pkt 2 4094 true)) s) (fun t => t.outbox.head?.any (fun o => match o with | .packet _ k => k.kind == 3 | _ => false)) = true ∧
     after (exec (.idleTimer 3) s) (fun t => t.outbox.length == 1) = true) ∧
    (let s := linked { replay := [pkt 1 7 true, pkt 1 8 true] }
     (s.port 3).isUp = true ∧ (s.port 3).replay.findIdx? (fun k => k.seq == 7 % 4096) = some 0 ∧ (s.port 3).txWait = [] ∧
     (s.port 3).replay.findIdx? (fun k => k.seq == 9 % 4096) = none ∧
     after (exec (.ackRx 3 7) s) (fun t => (t.port 3).replay == [pkt 1 8 true]) = true ∧ after (exec (.ackRx 3 9) s) (fun t => t == s) = true ∧
     ((s.acked 3 8).port 3).replay = [] ∧ ((s.acked 3 7).port 3).replay ≠ [] ∧ ((s.acked 3 7).port 3).resends < 8 ∧
     after (exec (.nakRx 3 7) s) (fun t => (t.port 3).resends == 1 && t.outbox.length == 1) = true) ∧
    (let s := linked { replay := [pkt 1 8 true], resends := 8 }
     ((s.acked 3 7).port 3).replay ≠ [] ∧ 8 ≤ ((s.acked 3 7).port 3).resends ∧
     after (exec (.nakRx 3 7) s) (fun t => (t.port 3).state == .training) = true) := by decide +kernel

theorem witness_light :
    ((up.laser 0).state = 0 ∧ after (exec (.laserLow 0 70) up) (fun t => (t.laser 0).percent == 70) = true) ∧
    ((up.laser 1).lit = true ∧ (up.laser 0).lit = true ∧ after (exec (.laserFailover 1) up) (fun t => (t.laser 0).full && (t.laser 1).state == 2) = true) ∧
    (let s := (linked {}).setLaser 0 { state := 2 }
     (s.laser 1).lit = true ∧ (s.laser 0).lit = false ∧ after (exec (.laserFailover 1) s) (fun t => (t.port 3).state == .down) = true ∧
     after (exec (.laserSourceFitted 0) s) (fun t => (t.laser 0).state == 0 && !(t.laser 1).full) = true) := by decide +kernel

def fe (c x : Nat) : FogEntry := { code := c, subject := x, witnesses := [1], count := 2, openedAt := 0, mergedAt := 0, failed := false }
def notLead : State := up.setPwr { up.pwr with lead := false, position := 1 }
theorem witness_fog :
    (notLead.keeper.kbusy = false ∧ notLead.isLead = false ∧ after (exec (.fogReport 0x112 3 [5] 4) notLead) (fun t => t.link.fog.length == 1) = true) ∧
    (up.keeper.kbusy = false ∧ up.isLead = true ∧ up.link.leadFog.length < 256 ∧
     after (exec (.fogReport 0x112 3 [5] 4) up) (fun t => t.link.leadFog.length == 1) = true) ∧
    (let s := up.setLink { up.link with leadFog := (List.range 256).map (fe 0x112) }
     s.keeper.kbusy = false ∧ s.isLead = true ∧ 256 ≤ s.link.leadFog.length ∧ (∃ e ∈ s.link.leadFog, e.code = 0x112 ∧ e.subject = 255) ∧
     after (exec (.fogReport 0x112 255 [5] 4) s) (fun t => t.link.leadFog.length == 256 && t.link.fogDropped == 0) = true ∧
     (∀ e ∈ s.link.leadFog, e.code = 0x112 → e.subject ≠ 256) ∧ after (exec (.fogReport 0x112 256 [5] 4) s) (fun t => t.link.fogDropped == 1) = true) ∧
    (let s := notLead.setLink { notLead.link with fog := [fe 1 2, fe 1 3], windows := [{ code := 1, subject := 2, count := 0 }, { code := 1, subject := 3, count := 6 }] }
     s.link.fog.find? (fun e => e.code == 1 && e.subject == 2) = some (fe 1 2) ∧
     after (exec (.fogHoldExpiry 1 2) s) (fun t => t.link.fog == [fe 1 3]) = true ∧
     s.link.windows.find? (fun w => w.code == 1 && w.subject == 2) = some { code := 1, subject := 2, count := 0 } ∧
     after (exec (.fogWindowExpiry 1 2) s) (fun t => t.link.windows.length == 1 && t.link.fog == s.link.fog) = true ∧
     s.link.windows.find? (fun w => w.code == 1 && w.subject == 3) = some { code := 1, subject := 3, count := 6 } ∧ s.isLead = false ∧
     after (exec (.fogWindowExpiry 1 3) s) (fun t => t.link.fog.any (fun e => e.subject == 3 && e.count == 8 && e.witnesses == [1])) = true ∧
     (let u := s.setLink { s.link with fog := [fe 1 2] }
      after (exec (.fogWindowExpiry 1 3) u) (fun t => t.link.fog.any (fun e => e.subject == 3 && e.count == 6)) = true) ∧
     s.link.fog.find? (fun e => e.code == 9 && e.subject == 2) = none ∧ after (exec (.fogHoldExpiry 9 2) s) (fun t => t == s) = true ∧
     s.link.windows.find? (fun w => w.code == 9 && w.subject == 2) = none ∧ after (exec (.fogWindowExpiry 9 2) s) (fun t => t == s) = true ∧
     after (exec (.fogReport 1 2 [5] 4) s) (fun t => t.link.fog.any (fun e => e.subject == 2 && e.count == 6)) = true ∧
     (let u := s.setKeeper { s.keeper with kbusy := true }
      u.keeper.kbusy = true ∧ after (exec (.fogReport 1 2 [5] 4) u) (fun t => t.keeper.owed.length == 1 && t.link.fog == s.link.fog) = true)) := by decide +kernel

/-! ### Power and temperature -/

theorem witness_inputs :
    ((up.input 0).state = .ok ∧ after (exec (.inputFault 0 5 0) up) (fun t => (t.input 0).state.code == 5 && (t.input 0).faults == 1) = true) ∧
    (let s := up.setInput 1 { state := .under }
     (s.input 1).state ≠ .ok ∧ (s.input 1).latchedOff = false ∧ after (exec (.inputRestored 1 600) s) (fun t => (t.input 1).state == .ok) = true) ∧
    (let s := up.setInput 1 { state := .short, retries := 7 }
     (s.input 1).state = .short ∧ (s.input 1).latchedOff = false ∧ after (exec (.shortRetry 1 true) s) (fun t => (t.input 1).state == .ok) = true ∧
     after (exec (.shortRetry 1 false) s) (fun t => (t.input 1).latchedOff) = true ∧ (s.input 1).state ≠ .open_ ∧
     after (exec (.inputSenseOpen 1) s) (fun t => (t.input 1).state == .open_) = true) ∧
    (let s := (up.setInput 0 { state := .under }).setInput 1 { state := .over }
     s.pwr.hubLit = true ∧ (s.input 0).state ≠ .ok ∧ (s.input 1).state ≠ .ok ∧
     after (exec .powerLoss (s.setMem [(5, 5)])) (fun t => !t.pwr.hubLit && t.mem == []) = true) := by decide +kernel
theorem witness_phases :
    (up.pwr.hubLit = true ∧ 10 < phasesOf 3 ∧ 1 < phasesOf 11 ∧ 3 * 16 + 10 ∉ up.pwr.phaseOut ∧
     after (exec (.phaseFailed 3 10) up) (fun t => t.phasesLost 3 == 1) = true) ∧
    (let s := up.setPwr { up.pwr with phases := [(3, 1)], phaseOut := [3 * 16] }
     s.pwr.hubLit = true ∧ 3 * 16 + 10 ∉ s.pwr.phaseOut ∧ s.phasesLost 3 = 1 ∧
     after (exec (.phaseFailed 3 10) s) (fun t => t.pwr.limited == [3] && (t.tilePwr 3).target == 5 && (t.gallery 3 9).gated) = true) ∧
    (let s := up.setPwr { up.pwr with phases := [(3, 2)], phaseOut := [3 * 16, 3 * 16 + 10], limited := [3] }
     s.pwr.hubLit = true ∧ 3 * 16 + 10 ∈ s.pwr.phaseOut ∧ s.phasesLost 3 ≤ 2 ∧
     after (exec (.phaseFitted 3 10) s) (fun t => t.pwr.limited == [] && t.phasesLost 3 == 1) = true) := by decide +kernel
theorem witness_voltage :
    (let s := up.setTilePwr 2 { lit := true, vset := 15, target := 25 }
     (s.tilePwr 2).lit = true ∧ (s.tilePwr 2).vset ≠ (s.tilePwr 2).target ∧ s.inStep 2 16 = true ∧
     after (exec (.voltageStep 2) s) (fun t => (t.tilePwr 2).vset == 16) = true) ∧
    (let s := up.setTilePwr 2 { lit := true, vset := 25, target := 30 }
     s.inStep 2 26 = false ∧ after (exec (.voltageStep 2) s) (fun t => t == s) = true) ∧
    (up.tilePwr 1).lit = true ∧ after (exec (.junctionTemperatureChange 1 71 25) up) (fun t => (t.tilePwr 1).target == 25 && (t.tilePwr 1).tj == 71) = true ∧
    up.ramped = true ∧ after (exec (.powerCap 1601 [5, 6, 7, 25]) up) (fun t => (t.tilePwr 1).target == 6 && (t.tilePwr 3).target == 15) = true ∧
    ([60, 91, 60, 60] : List Nat).foldl min 1000 + 30 < ([60, 91, 60, 60] : List Nat).foldl max 0 ∧
    after (exec (.thermalSpread [60, 91, 60, 60]) up) (fun t => (t.tilePwr 1).tj == 91) = true ∧
    (let s := up.setRun { up.run with active := true }
     s.ramped = true ∧ ([60, 101, 60, 60] : List Nat).foldl min 1000 + 40 < ([60, 101, 60, 60] : List Nat).foldl max 0 ∧
     after (exec (.thermalSpread [60, 101, 60, 60]) s) (fun t => t.run.stop.isSome) = true) ∧
    ((up.tilePwr 0).hold = false ∧ after (exec (.thermalHold 0 106) up) (fun t => (t.tilePwr 0).hold) = true) ∧
    (let s := up.setTilePwr 0 { lit := true, hold := true }
     (s.tilePwr 0).hold = true ∧ after (exec (.thermalHoldRelease 0 100) s) (fun t => !(t.tilePwr 0).hold) = true) ∧
    up.pwr.hubLit = true ∧ after (exec .hubOvertemp up) (fun t => t.pwr.hot && !t.pwr.hubLit && (t.input 1).state == .open_) = true := by decide +kernel

/-! ### The start, the resets, functions and turns -/

/-- The straps of the Lead: pin 5 at level 1, CHECK 6. -/
def leadStraps : List Nat := [100, 100, 100, 100, 100, 400, 780, 400]
theorem witness_start :
    (let s := { State.reset with pwr := { inputs := [(0, { state := .ok })], hot := true } }
     s.pwr.hubLit = false ∧ s.fed = true ∧ s.pwr.hot = true ∧
     after (exec (.modulePowerOn 90 { slot0 := true, slot1 := false }) s) (fun t => t.keeper.up && !t.keeper.slot && t.pwr.start == .waitToken) = true ∧
     after (exec (.modulePowerOn 90 { slot0 := false, slot1 := true }) s) (fun t => t.keeper.up && t.keeper.slot && t.sec.bootSlot) = true ∧
     after (exec (.modulePowerOn 90 { slot0 := false, slot1 := false }) s) (fun t => t.keeper.recovery && t.keeper.isOpen) = true) ∧
    (let s := up.setPwr { up.pwr with start := .waitToken }
     s.pwr.start = .waitToken ∧ after (exec .startToken s) (fun t => t.pwr.start == .strapWindow && (t.tilePwr 3).vset == 15) = true ∧
     after (exec .tokenFallback s) (fun t => t.pwr.start == .fallback && t.pwr.tokFall) = true) ∧
    (let s := up.setPwr { up.pwr with start := .fallback }
     s.pwr.start = .fallback ∧ after (exec .fallbackDelayExpiry s) (fun t => t.pwr.start == .strapWindow && t.pwr.tokenOut) = true) ∧
    (let s := up.setPwr { up.pwr with start := .strapWindow }
     s.pwr.start = .strapWindow ∧ strapValid leadStraps = true ∧ strapValid [] = false ∧
     after (exec (.strapSample leadStraps) s) (fun t => !t.pwr.strapBad && t.isLead && t.moduleId == 0 && t.pwr.start == .strapped) = true ∧
     after (exec (.strapSample []) s) (fun t => t.pwr.strapBad && !t.isLead) = true) := by decide +kernel
theorem witness_start_ends :
    (let s := (up.setPwr { up.pwr with start := .strapped }).setMem [(5, 5), (0x40000000000, 6)]
     s.pwr.start = .strapped ∧ s.keeper.up = true ∧
     after (exec .moduleResetRelease s) (fun t => t.pwr.start == .released && t.mem == [(5, 5)] && t.link.table.isSome) = true) ∧
    (up.released = true ∧ (up.gallery 3 9).gated = true ∧ 3 ∉ up.pwr.limited ∧
     after (exec (.galleryWake 3 9 16 40) up) (fun t => !(t.gallery 3 9).gated && (t.fnp.acct.get {} 16).switch == 40) = true ∧
     (∀ i < 8, (up.array 3 (up.phys 3 (9 * 8 + i))).waiting = []) ∧
     after (exec (.galleryGate 3 9) (up.setGallery 3 9 { gated := false })) (fun t => (t.gallery 3 9).gated) = true) ∧
    (let s := (up.setKeeper { up.keeper with isOpen := false }).setArr
       { up.arr with gal := (List.range 40).map (fun k => (k, { gated := false, woken := true })) }
     let r : List BistTile := [{ mismatches := [], tokensOk := false, proposed := 9, accepted := 7 }]
     s.released = true ∧ s.keeper.up = true ∧ s.keeper.isOpen = false ∧ s.allWoken = true ∧ r[0]? = some { mismatches := [], tokensOk := false, proposed := 9, accepted := 7 } ∧
     after (exec (.builtInTest r) s) (fun t => t.pwr.bistDone && t.health.bistAccepted.get 0 0 == 7 && t.health.badTiles == [0]) = true ∧
     (let u := s.setPwr { s.pwr with bistDone := true }
      u.released = true ∧ u.pwr.bistDone = true ∧ u.sec.counter ≤ 64 ∧ u.keeper.kbusy = false ∧
      after (exec .mailboxesOpen u) (fun t => t.keeper.isOpen && t.keeper.fwmaj == 3) = true)) ∧
    (up.pwr.hubLit = true ∧ after (exec (.beaconPinFault 7 false) up) (fun t => t.pwr.pinFault == 0x80) = true ∧
     after (exec (.beaconPinFault 3 true) up) (fun t => t.pwr.pinFault == 0x0C) = true) := by decide +kernel

def dirty : State := (running1.setMem [(5, 5), (0x40000000000, 6), (0x4003FFFFFFF, 7)]).setTarget 1 { badpos := 3 }
theorem witness_resets :
    dirty.pwr.hubLit = true ∧
    after (exec (.hostReset (List.replicate 8 0) { slot0 := true, slot1 := true }) dirty) (fun t => t.mem == [(5, 5)] && t.run == {} && t.tgt == []) = true ∧
    after (exec (.pwrHotreset 0 0x4C4B4854 { slot0 := true, slot1 := true }) dirty) (fun t => t.mem == [(5, 5)] && t.pair == {}) = true ∧
    (let s := (up.setMem [(5, 5), (0x40010000000, 6)]).setTarget 1 { badpos := 3 }
     s.released = true ∧ s.keeper.up = true ∧ s.tileBusy 1 = false ∧
     after (exec (.tileReset 1) s) (fun t => t.mem == [(5, 5)] && (t.target 1).badpos == 0) = true) := by decide +kernel

def twoFns : State :=
  ((up.setFnp { up.fnp with numVfs := 16 }).setProg { up.prog with progs := [(1, { prog img .running with fn := 16 })] }).setKeySt 3 16 { active := [1, 2, 3, 4] }
theorem witness_functions :
    (twoFns.pwr.hubLit = true ∧ twoFns.fnExists 16 = true ∧ (twoFns.fnSt 16).resetting = false ∧
     twoFns.progAt 1 = some { prog img .running with fn := 16 } ∧ twoFns.stepRuns 1 = false ∧
     after (exec (.functionLevelReset 16) twoFns) (fun t => (t.fnSt 16).resetting && (t.progAt 1).any (fun p => p.state == .faulted)) = true ∧
     after (exec .vfEnableClear twoFns) (fun t => (t.fnSt 1).resetting && !(t.fnSt 0).resetting) = true ∧
     after (exec (.functionPowerState 16 true) twoFns) (fun t => (t.fnSt 16).d3hot) = true ∧
     after (exec (.functionPowerState 16 false) twoFns) (fun t => !(t.fnSt 16).d3hot) = true) ∧
    (let s := twoFns.setFnSt 16 { resetting := true }
     (s.fnSt 16).resetting = true ∧ s.keeper.up = true ∧ s.keeper.kbusy = false ∧ s.ownsGrant 16 = false ∧ s.stepRuns 1 = false ∧
     (let u := s.setArbAt 42 { held := true, owner := 5, ownerFn := 16 }
      u.ownsGrant 16 = true ∧ after (exec (.flrKeeperClear 16) u) (fun t => (t.fnSt 16).resetting) = true) ∧
     after (exec (.flrKeeperClear 16) s) (fun t => !(t.fnSt 16).resetting && ((t.keySt 3 16).active.getD 3 0) == 0 && t.progAt 1 == none) = true) := by decide +kernel

theorem witness_keeper_restart :
    (up.keeper.up = true ∧ up.keeper.kbusy = false ∧ after (exec .keeperMemError up) (fun t => t.keeper.restart == some .memError) = true) ∧
    (let s := up.setKeeper { up.keeper with kbusy := true, restart := some .activate }
     s.keeper.restart = some .activate ∧ s.keeper.kbusy = true ∧ s.keeper.coreReset = false ∧
     after (exec .keeperRestart s) (fun t => t.keeper.coreReset && t.keeper.slot) = true) ∧
    (let s := up.setKeeper { up.keeper with kbusy := true, coreReset := true, restart := some .activate, slot := true }
     s.keeper.coreReset = true ∧ s.keeper.restart = some .activate ∧ s.keeper.activateFailed = false ∧ s.keeper.owed = [] ∧
     after (exec .activateFailed s) (fun t => t.keeper.activateFailed && !t.keeper.slot) = true ∧
     (∀ e ∈ s.prog.progs, e.2.heldQs = []) ∧ after (exec (.keeperRestartComplete true false) s) (fun t => !t.keeper.kbusy && t.sec.bootSlot && (t.mbox 0).cause.getLsbD 3) = true) ∧
    (let s := running1.setKeeper { running1.keeper with kbusy := true, coreReset := true, restart := some .memError }
     s.keeper.coreReset = true ∧ s.keeper.owed = [] ∧ s.pair.state = .resident ∧ s.run.active = true ∧ s.run.markApplied = false ∧
     after (exec (.keeperRestartComplete false false) s) (fun t => t.run.stop == some .stateLost && t.pair.state == .resident) = true) := by decide +kernel
theorem witness_nothing_latched (s : State) (h : s.keeper.mbox = []) : ∀ f, (s.mbox f).latched = none := by
  intro f; rw [State.mbox, h]; rfl

def ek : EngRef := { kind := 0, tile := 1, num := 9 }
theorem witness_turns :
    (let s := up.setEngSched (engCode ek) { last := 0, current := some 0, length := 5 }
     s.released = true ∧ s.keeper.kbusy = false ∧ (s.engSched (engCode ek)).current = some 0 ∧
     after (exec (.turnEnd ek 7 [] 2 0) s) (fun t => (t.engSched (engCode ek)).current.isNone && (t.fnp.acct.get {} 0).overrun == 2) = true ∧
     (s.readyOn ek [0]).filter (fun g => s.fnExists g && !(s.fnSt g).resetting && !(s.sched.active.get {} g).suspend) = [0] ∧ s.readyOn ek [] = [] ∧ nextReady 0 [0] = some 0 ∧ s.sliceOf 0 = 200000 ∧
     after (exec (.turnEnd ek 7 [0] 199999 0) s) (fun t => (t.engSched (engCode ek)).length == 1) = true ∧
     after (exec (.preempt ek 3 false) s) (fun t => (t.fnp.acct.get {} 0).preempts == 1) = true ∧
     after (exec (.preempt ek 3 true) s) (fun t => (t.fnp.acct.get {} 0).preempts == 0) = true) ∧
    (up.keeper.up = true ∧ up.keeper.kbusy = false ∧
     after (exec (.energyTick [10, 20] [40] [1, 2] [{ fn := 16, rail := 1, activity := 3 }]) up)
       (fun t => (t.fnp.acct.get {} 16).energy == 18 && t.fnp.unattributed == 22) = true) := by decide +kernel

/-! ### Security -/

def rq (session : Option Nat) (index : Nat) (signed : Bool) : SpdmReq :=
  { version := 0x13, session := session, choicesOk := true, index := index, signed := signed, nonce := [] }
def ssn (i : Nat) (e : Bool) : Session := { id := i, secret := [], established := e, updates := 0 }
def spdm (r : State → Option SpdmResp → Bool) (t : State) : Bool := r t t.sec.response
theorem witness_responder :
    up.keeper.up = true ∧ up.keeper.kbusy = false ∧ up.keeper.recovery = false ∧ up.keeper.isOpen = true ∧ (rq none 7 false).version = 0x13 ∧
    (rq none 7 false).choicesOk = true ∧ after (exec (.getVersion (rq none 0 false)) up) (fun t => t.sec.response == some (.version [0x12, 0x13])) = true ∧
    after (exec (.spdmUnsupportedRequest 9) up) (fun t => t.sec.response == some (.errorUnsupported 9)) = true ∧
    after (exec (.negotiateAlgorithms (rq none 0 false)) up) (fun t => t.sec.negotiated) = true ∧
    after (exec (.getMeasurements (rq none 7 false)) up) (fun t => t.sec.response.any (fun r => match r with | .measurements [(7, _)] none => true | _ => false)) = true ∧
    after (exec (.getMeasurements (rq none 0xFF false)) up) (fun t => t.sec.response.any (fun r => match r with | .measurements vs none => vs.length == 7 | _ => false)) = true ∧
    after (exec (.getMeasurements (rq none 1 true)) up) (fun t => t.fresh == 1) = true ∧
    after (exec (.challenge (rq none 0 false) 0) up) (fun t => t.fresh == 1) = true := by decide +kernel
/-- Bytes of the chain follow its length and reserved fields, so an offset of 3 lies inside it. -/
theorem witness_chain : 3 < daymarkChain.length := by
  simp only [daymarkChain, List.length_append, List.length_cons, List.length_nil]
  have h : (leBytes 2 (36 + (Config.daymarkCerts.flatMap id).length)).length = 2 := rfl
  omega
theorem witness_sessions :
    (up.sec.sessions.length < 2 ∧ after (exec (.keyExchange (rq none 0 false)) up) (fun t => t.sec.sessions.length == 1) = true) ∧
    (let s := up.setSec { up.sec with sessions := [ssn 1 true, ssn 2 false], ideIo := { keyed := true, secure := true }, ideCm := { keyed := true, secure := true } }
     2 ≤ s.sec.sessions.length ∧ ssn 2 false ∈ s.sec.sessions ∧ s.inSession (rq (some 1) 0 false) = some (ssn 1 true) ∧
     after (exec (.keyExchange (rq none 0 false)) s) (fun t => t.sec.response == some .errorBusy) = true ∧
     after (exec (.finish (rq (some 2) 0 false)) s) (fun t => t.sec.sessions.all (fun x => x.established)) = true ∧
     after (exec (.heartbeat (rq (some 1) 0 false)) s) (fun t => t.sec.response == some .heartbeatAck) = true ∧
     after (exec (.endSession (rq (some 1) 0 false)) s) (fun t => t.sec.sessions == [ssn 2 false]) = true ∧
     after (exec (.keyUpdate (rq (some 1) 0 false)) s) (fun t => t.sec.sessions.any (fun x => x.updates == 1)) = true ∧
     after (exec (.ideKm (rq (some 1) 0 false) true [4]) s) (fun t => t.sec.ideCm.key == [4] && t.sec.ideIo.key == []) = true ∧
     after (exec (.ideKm (rq (some 1) 0 false) false [4]) s) (fun t => t.sec.ideIo.key == [4] && t.sec.ideCm.key == []) = true ∧
     s.sec.ideIo.keyed = true ∧ s.sec.ideCm.keyed = true ∧
     (let u := withOp s (op .transfer)
      u.sec.ideIo.keyed = true ∧ op .transfer ∈ u.keeper.ops ∧ after (exec (.ideFault false 1 [(0, 5)]) u) (fun t => !t.sec.ideIo.secure && t.keeper.ops == []) = true) ∧
     after (exec (.ideFault true 1 []) s) (fun t => !t.sec.ideCm.secure && t.sec.ideIo.secure) = true) := by decide +kernel

/-! ### The exchange and the commit -/

def plane (a : Nat) : TStream := { fmt := .fp32, addr := a, scale := 0, stride := 128, sstride := 0 }
/-- A shard of 32 elements that module o owns and modules 0 and 1 hold. -/
def shard1 (o : Nat) : ShardDesc :=
  { index := 2, owner := o, replicas := [0, 1], tiles := [plane 0x1000], count := 32, out := plane 0x2000, group := 0 }
def reshard1 : ReshardDesc := { index := 4, kind := 0, phase := 2, tiles := [1, 3], sourceRegions := [], destRegions := [], producers := [] }
def pairTable : SizeTable := { alone with nx := 2, present := [(0, 1), (1, 0)] }
/-- A run at step 3 on the module with the given identifier, of a table of two; module o owns its shard. -/
def stepping (id o : Nat) : State :=
  let hub : ProgQueue := { tile := 0xFF, kind := 10, num := 0, cmds := [{ words := [], ext := [], phase := 0 }] }
  let i : ProgImage := { learnImg with queues := [hub], shards := [shard1 o], reshards := [reshard1], ucb := [0, 64, 128, 0x10000000 - 64] }
  let s := (running1.setLink { running1.link with table := some pairTable }).setProg { running1.prog with progs := [(1, prog i .running)] }
  (s.setRun { s.run with step := 3, late := 500 }).setPwr { s.pwr with lead := id == 0, position := id }
def withShard (s : State) (x : ShardSt) : State := s.setShard 2 x
def hub : Src := { fn := 0, handle := 1, index := 0 }
def ones : List X32 := List.replicate 32 0

theorem witness_collective :
    (let s := stepping 0 0
     s.collTakes hub = true ∧ s.placeOf 0x3000 = .here 0x3000 ∧ localOk 0x3000 2 = true ∧
     after (exec (.collectiveStep hub (.send 7 1 0x3000 0 2)) s) (fun t => t.link.moves.any (fun m => m.move == 7)) = true ∧
     s.received 1 7 0 2 = none ∧ after (exec (.collectiveStep hub (.recv 7 1 0x3000 0 2 none)) s) (fun t => t == s) = true ∧
     (let u := s.setLink { s.link with inbox := [{ src := 1, move := 7, off := 0, data := [8, 9] }] }
      u.collTakes hub = true ∧ u.received 1 7 0 2 = some [8, 9] ∧
      after (exec (.collectiveStep hub (.recv 7 1 0x3000 0 2 none)) u) (fun t => Mem.readN t.mem 0x3000 2 == [8, 9] && t.link.inbox.all (fun e => e.data == [])) = true ∧
      after (exec (.collectiveStep hub (.recv 7 1 0x3000 0 2 (some 1))) u) (fun t => t.link.moves.any (fun m => m.move == 7)) = true) ∧
     s.shardDesc 2 = some (shard1 0) ∧ s.run.active = true ∧ s.run.needRejoin = false ∧ s.run.silent = false ∧ s.spanIdle = false ∧ (s.shard 2).own = none ∧ s.ownerOf (shard1 0) = s.moduleId ∧
     after (exec (.collectiveStep hub (.contribute 2)) s) (fun t => (t.shard 2).armed) = true ∧
     (let u := withShard s { closed := true }
      u.shardDesc 2 = some (shard1 0) ∧ (u.shard 2).closed = true ∧ u.ownerOf (shard1 0) = u.moduleId ∧
      after (exec (.collectiveStep hub (.mirror 2)) u) yes = true)) ∧
    (let s := stepping 0 1
     s.shardDesc 2 = some (shard1 1) ∧ s.ownerOf (shard1 1) ≠ s.moduleId ∧
     after (exec (.collectiveStep hub (.contribute 2)) s) (fun t => t.outbox.length == 1) = true) ∧
    (let s := stepping 0 0
     s.keeper.kbusy = false ∧ (s.progAt s.run.prog).any (fun p => p.img.reshards.find? (fun d => d.index == 4) == some reshard1 && s.reshardReady p reshard1 3 &&
       !s.reshardReady p { reshard1 with producers := [(queueCode 0xFF 10 0, 0)] } 3) = true ∧ s.run.active = true ∧ reshard1.tiles.contains 3 = true ∧
     after (exec (.reshardComplete 4 3 50) s) (fun t => (t.run.reshards.get {} 4).tiles == [3]) = true) := by decide +kernel

theorem witness_contributions :
    (let s := stepping 0 0
     s.shardDesc 2 = some (shard1 0) ∧ s.run.active = true ∧ s.ownerOf (shard1 0) = s.moduleId ∧ 1 ≠ s.moduleId ∧ 1 ∈ (shard1 0).replicas ∧
     1 ∉ s.run.absent ∧ (∀ c ∈ (s.shard 2).arrived ++ (s.shard 2).folded, c.module = 1 → c.step ≠ 3) ∧ s.run.step = 3 ∧ (s.shard 2).closed = false ∧ (s.shard 2).armed = false ∧
     after (exec (.contributionArrival 2 1 3 ⟨ones, []⟩ false) s) (fun t => (t.shard 2).arrived.length == 1 && !(t.shard 2).closed) = true ∧
     after (exec (.contributionArrival 2 1 2 ⟨ones, []⟩ false) s) (fun t => (t.shard 2).folded.length == 1) = true ∧
     after (exec (.contributionArrival 2 1 2 ⟨ones, []⟩ true) s) (fun t => t.run.stragglers.length == 1 && t.run.ovf) = true ∧
     after (exec (.contributionArrival 2 1 1 ⟨ones, []⟩ false) s) (fun t => t.run.stragglers.length == 1) = true) ∧
    (let s := withShard (stepping 0 0) { closed := true }
     s.shardDesc 2 = some (shard1 0) ∧ (s.shard 2).closed = true ∧
     after (exec (.contributionArrival 2 1 3 ⟨ones, []⟩ false) s) (fun t => (t.shard 2).arrived.any (fun c => c.late)) = true) ∧
    (let s := withShard (stepping 0 0) { armed := true, own := some ones }
     s.shardDesc 2 = some (shard1 0) ∧ (s.shard 2).armed = true ∧ (s.shard 2).closed = false ∧ s.run.late ≠ 0 ∧ s.alone = false ∧
     (∀ x ∈ s.contributors (shard1 0), x = s.moduleId ∨ x = 1 ∨ ∃ c ∈ (s.shard 2).arrived, c.module = x ∧ c.late = false) ∧
     after (exec (.contributionArrival 2 1 3 ⟨ones, []⟩ false) s) (fun t => (t.shard 2).closed) = true ∧
     1 ∈ s.contributors (shard1 0) ∧ (∀ c ∈ (s.shard 2).arrived, c.module = 1 → c.late = true) ∧
     after (exec (.lateLimitExpiry 2) s) (fun t => (t.shard 2).closed && t.run.stragglers.any (fun e => e.outcome == .missed)) = true) := by decide +kernel

def rep (o f : Bool) : LeadReport := { ovf := o, part := 0, fallback := f }
def reported (rs : Tab LeadReport) : State := let s := stepping 0 0; s.setLead { s.lead with reports := rs }
def decided (d : Decision) : State := let s := stepping 0 0; s.setLead { s.lead with decision := d, k := 0x3F000000 }
/-- Both shards closed: the exchange is done. -/
def member : State := withShard (stepping 1 1) { closed := true }
theorem witness_reports :
    (let s := stepping 0 0
     s.keeper.kbusy = false ∧ s.run.active = true ∧ s.run.step = 3 ∧ 1 ≠ s.moduleId ∧ s.isLead = true ∧ 1 ∉ s.lead.absent ∧
     after (exec (.overflowReport 1 3 true 0 false false) s) (fun t => t.lead.reports.has 1) = true ∧
     after (exec (.overflowReport 1 3 true 0 false true) s) (fun t => t.lead.seconds.has 1) = true) ∧
    (member.isLead = false ∧ member.moduleId = 1 ∧ member.run.needRejoin = false ∧ member.run.silent = false ∧ member.exchangeDone = true ∧
     (let s := member.setRun { member.run with prepassGate := true }
      s.run.prepassGate = true ∧ s.prepassesDone = true ∧ s.exchangeDone = true ∧
      after (exec (.overflowReport 1 3 true 0 false true) s) (fun t => t.outbox.length == 1) = true) ∧
     after (exec (.overflowReport 1 3 true 0 false false) member) (fun t => t.run.reported && t.outbox.length == 1) = true) ∧
    (let s := reported [(0, rep false false), (1, rep true false)]
     s.lead.decision = .none_ ∧ (∀ m ∈ s.expected, s.lead.reports.has m = true) ∧ (∃ e ∈ s.lead.reports, e.2.ovf = true) ∧ s.leadDecide.lead.decision = .skip) ∧
    (let s := reported [(0, rep false false), (1, rep false true)]
     (∀ m ∈ s.expected, s.lead.reports.has m = true) ∧ (∀ e ∈ s.lead.reports, e.2.ovf = false) ∧ 1 ∈ s.expected ∧
     s.lead.reports.find? 1 = some (rep false true) ∧ s.leadDecide.lead.decision = .prepass) ∧
    (let s := reported [(0, rep false false), (1, rep false false)]
     (∀ m ∈ s.expected, s.lead.reports.has m = true) ∧ (∀ e ∈ s.lead.reports, e.2.ovf = false ∧ e.2.fallback = false) ∧
     s.leadDecide.lead.decision = .go) := by decide +kernel
theorem witness_no_fallback :
    let s := reported [(0, rep false false), (1, rep false false)]
    ∀ m ∈ s.expected, ∀ r, s.lead.reports.find? m = some r → r.fallback = false := by
  intro s m hm r hr
  have h : ∀ m ∈ s.expected, (s.lead.reports.find? m).all (fun r => !r.fallback) = true := by decide +kernel
  have h' := h m hm
  rw [hr] at h'
  simpa using h'
theorem witness_gates :
    (let s := decided .prepass
     s.keeper.kbusy = false ∧ s.run.active = true ∧ s.run.step = 3 ∧ (s.isLead = true → s.lead.decision = .prepass) ∧
     after (exec (.prepassRx 3) s) (fun t => t.run.prepassGate) = true) ∧
    (member.hasFallback = false ∧ member.isLead = false ∧ after (exec (.prepassRx 3) member) (fun t => t.outbox.length == 1) = true) ∧
    (let s := decided .go
     s.keeper.kbusy = false ∧ s.run.active = true ∧ s.run.step = 3 ∧ (s.isLead = true → s.lead.decision = .go) ∧ s.lead.k = 0x3F000000 ∧ s.runImage.isSome = true ∧
     (s.runImage.map (·.ucb)) = some [0, 64, 128, 0x10000000 - 64] ∧ (∀ o ∈ ([0, 64, 128, 0x10000000 - 64] : List Nat), o + 64 ≤ 0x10000000) ∧
     after (exec (.goRx 3 0 0 0) s) (fun t => t.run.gateOpen && Mem.word t.mem (spadBase 1 + 64) == 0x3F000000) = true) ∧
    (let s := member.setProg { member.prog with progs := [] }
     s.runImage.isNone = true ∧ (s.isLead = true → s.lead.decision = .go) ∧ after (exec (.goRx 3 5 0 0) s) (fun t => t.run.k == 5) = true) ∧
    (let s := member.setRun { member.run with gateOpen := true }
     s.moduleId = 1 ∧ s.run.gateOpen = true ∧ s.updatesDone = true ∧ s.run.silent = false ∧ s.isLead = false ∧
     after (exec (.readyRx 1 3 false [] []) s) (fun t => t.run.readied && t.outbox.length == 1) = true) ∧
    (let s := decided .go
     1 ≠ s.moduleId ∧ s.isLead = true ∧ 1 ∉ s.lead.absent ∧ after (exec (.readyRx 1 3 false [] []) s) (fun t => t.lead.readies.has 1) = true) := by
  decide +kernel
/-- R220 on a clipped step: N2 = 4, clip 1/2, loss scale 1: k = clip / 2. -/
theorem witness_factor_clipped :
    let s := (stepping 0 0).setRun { (stepping 0 0).run with clip := 0x3F000000, lscale := 0x3F800000 }
    FVal.lt .zero (ofFP32 s.run.clip) = true ∧ (ofFP32 (fmul s.run.clip s.run.lscale)).lt (ofFP32 (fsqrt (sumPartials [0x40400000, 0x3F800000]))) = true ∧
    fdiv s.run.clip (fsqrt (sumPartials [0x40400000, 0x3F800000])) = 0x3E800000 ∧ (s.decideGo [0x40400000, 0x3F800000]).lead.k = 0x3E800000 := by decide +kernel
/-- Without a clip: k is one over the loss scale. -/
theorem witness_factor_unclipped :
    let s := stepping 0 0
    FVal.lt .zero (ofFP32 s.run.clip) = false ∧ s.run.lscale = 0x47800000 ∧ (s.decideGo [0x40400000]).lead.k = 0x37800000 := by decide +kernel

theorem witness_boundary :
    (let s := decided .skip
     s.keeper.kbusy = false ∧ s.run.active = true ∧ s.run.step = 3 ∧ s.run.markApplied = false ∧ (s.isLead = true → s.lead.decision = .skip) ∧
     s.alone = false ∧ s.run.needRejoin = false ∧ after (exec (.skipRx 3 0 0) s) (fun t => !t.run.bank && t.run.last == some 3) = true) ∧
    (let s := decided .commit
     (s.isLead = true → s.lead.decision = .commit) ∧ s.run.silent = false ∧ after (exec (.commitMarkRx 3 0 0) s) (fun t => t.run.bank && t.run.commits == 1) = true) ∧
    (member.keeper.kbusy = false ∧ member.run.active = true ∧ member.run.step = 3 ∧ member.run.markApplied = false ∧ member.isLead = false ∧
     after (exec (.skipRx 3 0x3F800000 0) member) (fun t => t.run.lscale == 0x3F800000 && (t.target 2).lscale == 0x3F800000) = true ∧
     after (exec (.commitMarkRx 3 0x40000000 7) member) (fun t => t.run.lscale == 0x40000000 && t.run.clean == 7) = true) := by decide +kernel
theorem witness_commit_fails :
    (member.keeper.kbusy = false ∧ member.run.active = true ∧ member.run.step = 3 ∧ 0 ≠ member.moduleId ∧
     after (exec (.abortRx 3 0) member) (fun t => t.run.absent == [0] && t.run.replays == 1) = true) ∧
    (let s := member.setRun { member.run with reported := true }
     s.isLead = false ∧ s.run.reported = true ∧ s.run.gateOpen = false ∧ s.run.prepassGate = false ∧
     after (exec (.commitWaitExpiry 0) s) (fun t => !t.run.active) = true) ∧
    (let s := stepping 0 0
     s.isLead = true ∧ s.lead.decision = .none_ ∧ s.lead.reports.has 1 = false ∧ 1 ∈ s.present ∧ 1 ≠ s.moduleId ∧ 1 ∉ s.lead.absent ∧
     (∀ e ∈ s.lead.reports, e.2.ovf = false) ∧ after (exec (.commitWaitExpiry 1) s) (fun t => t.lead.absent == [1] && t.outbox.length == 1) = true) ∧
    (let s := (stepping 0 0).setLead { (stepping 0 0).lead with floor := 16 }
     s.run.active = true ∧ s.run.stop ≠ some .lscaleFloor ∧ (s.isLead = true → 16 ≤ s.lead.floor) ∧ s.postsTo 0 = true ∧
     after (exec .lscaleFloor s) (fun t => t.run.stop == some .lscaleFloor && (t.mbox 0).prod == 1) = true) ∧
    (let s := (stepping 0 0).setLead { (stepping 0 0).lead with summaryStep := some 2 }
     s.keeper.kbusy = false ∧ s.isLead = true ∧ s.run.active = true ∧ 1 ∈ s.present ∧ s.lead.summaryStep = some 2 ∧
     (∃ x ∈ s.present, x ≠ 1 ∧ s.lead.stepReports.has x = false) ∧ after (exec (.stepReportRx 1 2 [5]) s) (fun t => t.lead.stepReports.has 1) = true ∧
     (let u := s.setLead { s.lead with stepReports := [(0, [])] }
      u.lead.summaryStep = some 2 ∧ (∀ x ∈ u.present, x = 1 ∨ u.lead.stepReports.has x = true) ∧
      after (exec (.stepReportRx 1 2 [5]) u) (fun t => t.lead.summaryStep.isNone) = true)) := by decide +kernel
theorem witness_pulse :
    (let s := decided .go
     let s := s.setLead { s.lead with readies := [(0, { ovf := false, owned := [], mirrored := [] }), (1, { ovf := false, owned := [], mirrored := [] })] }
     s.lead.decision = .go ∧ (∀ m ∈ s.expected, s.lead.readies.has m = true) ∧ (∀ e ∈ s.lead.readies, e.2.ovf = false) ∧
     s.leadCommit.outbox.head? = some (.commitPulse 3000)) ∧
    (let s := (member.setRun { member.run with shadow := true }).setPwr { member.pwr with meaning := .operation }
     s.pwr.meaning = .operation ∧ s.isLead = false ∧ ((!s.pwr.pinFault.getLsbD 2 && (2 : BitVec 2).getLsbD 0) || (!s.pwr.pinFault.getLsbD 3 && (2 : BitVec 2).getLsbD 1)) = true ∧
     s.run.active = true ∧ s.run.shadow = true ∧ s.run.needRejoin = false ∧ s.run.step % 2 = 1 ∧
     after (exec (.commitPulse 2500 2) s) (fun t => t.run.needRejoin) = true ∧ after (exec (.commitPulse 1500 2) s) (fun t => !t.run.needRejoin) = true) := by
  decide +kernel

/-! ### Serving and memory failures -/

def gone : Req := { req1 with expired := true, deadline := 9 }
def grows : State := (serves.setServe { serves.serve with reqs := [(4, { req1 with held := true, heldSteps := 64 })] })
theorem witness_serving :
    (let s := serves.setServe { serves.serve with reqs := [(4, gone)] }
     s.keeper.kbusy = false ∧ (s.group 0).plan = none ∧ s.req? 4 = some gone ∧ gone.group = (0 : Fin 4).val ∧ gone.expired = true ∧
     after (exec (.servingStepBoundary 0 [] [] [] []) s) (fun t => (t.req? 4).isNone) = true) ∧
    (let q := { req1 with deadline := 9 }
     let s := serves.setServe { serves.serve with reqs := [(4, q)] }
     s.req? 4 = some q ∧ q.status.terminal = false ∧ q.deadline ≠ 0 ∧ q.expired = false ∧
     after (exec (.requestDeadlineExpiry 4) s) (fun t => (t.req? 4).any (fun r => r.expired && !r.late)) = true) ∧
    (grows.keeper.kbusy = false ∧ grows.req? 4 = some { req1 with held := true, heldSteps := 64 } ∧ grows.servingCfg 0 = some servCfg ∧ servCfg.grow = true ∧
     after (exec (.noPages 4) grows) (fun t => (t.req? 4).any (fun q => q.pageless && q.status == .decode)) = true) := by decide +kernel

def anyEng : EngRef := { kind := 0, tile := 0, num := 0 }
theorem witness_rereads :
    (localOk 0x1040 1 = true ∧ up.health.transients.length < 192 ∧
     after (exec (.reread hub anyEng 0x1040 2) up) (fun t => t.health.transients.length == 1) = true ∧
     after (exec (.reread hub anyEng 0x1040 3) up) (fun t => t.tier.failed.length == 1) = true) ∧
    (let s := up.setHealth { up.health with transients := [{ tier := 1, addr := unitOf 0x1040, count := 2 }] }
     s.health.transients.find? (fun y => y.addr == unitOf 0x1040) = some { tier := 1, addr := unitOf 0x1040, count := 2 } ∧
     after (exec (.reread hub anyEng 0x1040 0) s) (fun t => t.tier.toRetire == [unitOf 0x1040]) = true) ∧
    (let f : FailedUnit := { tier := 0, unit := unitOf 0x1040, accesses := [accessOf 0x1040], waiters := [] }
     let s := withReg.setTier { withReg.tier with failed := [f] }
     s.keeper.kbusy = false ∧ s.tier.failed.find? (fun f => f.unit == unitOf 0x1040) = some f ∧ s.classAt (unitOf 0x1040) = 5 ∧
     s.sparesLeft (unitOf 0x1040) ≠ 0 ∧ after (exec (.persistentFailureRecovery 0x1040 [7] false) s) (fun t => t.tier.failed == []) = true) ∧
    (let s := up.setTier { up.tier with toRetire := [unitOf 0x1040] }
     s.keeper.kbusy = false ∧ unitOf 0x1040 ∈ s.tier.toRetire ∧ s.sparesLeft (unitOf 0x1040) ≠ 0 ∧
     after (exec (.transientRetire 0x1040) s) (fun t => t.tier.toRetire == []) = true) ∧
    (running1.run.active = true ∧ after (exec (.bridgeFlitCrcFail 3 3 ⟨false, [(.farMap, 9)]⟩) up) (fun t => (t.mbox 0).prod == 1) = true ∧ up.postsTo 0 = true ∧
     after (exec (.bridgeFlitCrcFail 3 3 ⟨true, []⟩) running1) (fun t => t.health.badTiles == [3] && t.run.stop.isSome) = true) := by
  decide +kernel
/-- A program of one recompute segment whose saved tensor has failed, its segment being rerun or not. -/
def segImg : ProgImage := { learnImg with segments := [{ input := none, saves := [0], layers := 1, cmds := [(5, 0)] }] }
def segProg (redo : List (Nat × Nat)) : Prog := { prog segImg .running with regions := [3], redo := redo }
def lostA (rerun : Bool) (redo : List (Nat × Nat)) : State :=
  let f : FailedUnit := { tier := 0, unit := unitOf 0x1040, accesses := [accessOf 0x1040], waiters := [], rerun := rerun }
  let s := running1.setProg { running1.prog with progs := [(1, segProg redo)] }
  s.setTier { s.tier with regions := [(3, { reg1 with cls := 1, prog := 1 })], failed := [f] }
theorem witness_recompute :
    (∀ s ∈ [lostA false [], lostA true [(5, 0)], lostA true []], s.keeper.kbusy = false ∧ (s.tier.failed.find? (fun f => f.unit == unitOf 0x1040)).isSome = true) ∧
    (lostA false []).recompute (unitOf 0x1040) = some (1, segProg [], [(5, 0)]) ∧
    after (exec (.persistentFailureRecovery 0x1040 [] false) (lostA false [])) (fun t => t.progAt 1 == some (segProg [(5, 0)]) && t.tier.failed.all (fun x => x.rerun)) = true ∧
    (lostA true [(5, 0)]).recompute (unitOf 0x1040) = some (1, segProg [(5, 0)], [(5, 0)]) ∧
    after (exec (.persistentFailureRecovery 0x1040 [] false) (lostA true [(5, 0)])) (fun t => t == lostA true [(5, 0)]) = true ∧
    (lostA true []).recompute (unitOf 0x1040) = some (1, segProg [], [(5, 0)]) ∧
    after (exec (.persistentFailureRecovery 0x1040 [] false) (lostA true [])) (fun t => t.tier.failed == []) = true := by decide +kernel
def copy1 : Adopted :=
  { module := 1, order := 0, fn := 0, cust := 0, reqid := 7, teacher := false, logp := false, prompt := [1], generated := [2], maxnew := 4, temp := 0,
    topp := 0, topk := 0, draft := 0, seed := 0, deadline := 0, age := 0, eos := [], stops := [], outbuf := 0, outcap := 0, outExts := [], ended := false }
theorem witness_late_messages :
    (let s := (stepping 0 0).setRun { (stepping 0 0).run with shadow := true }
     s.behind 4 = true ∧ after (exec (.contributionArrival 2 1 4 ⟨ones, []⟩ false) s) (fun t => t.run.needRejoin && !t.run.shadow) = true) ∧
    (let s := (stepping 0 0).setRun { (stepping 0 0).run with reported := true }
     s.shardDesc 2 = some (shard1 0) ∧ s.run.active = true ∧ s.run.reported = true ∧
     after (exec (.contributionArrival 2 1 2 ⟨ones, []⟩ true) s) (fun t => t.run.updOvf && t.run.stragglers.any (fun e => e.outcome == .droppedOvf)) = true) ∧
    (let s := stepping 0 0
     s.lead.summaryStep ≠ some 3 ∧ after (exec (.stepReportRx 1 3 [5]) s) (fun t => t.lead.early == [(1, 3, [5])]) = true) ∧
    (let s := stepping 0 0
     s.mirrors 1 = true ∧ s.collTakes hub = true ∧
     after (exec (.collectiveStep hub (.copies 1 [copy1])) s) (fun t => t.serve.copies == [copy1]) = true) := by decide +kernel

/-! ### Arrays and drains -/

/-- A record of words from fields (word, lowest bit, value). -/
def rec_ (fs : List (Nat × Nat × Nat)) : List Word :=
  (List.range 48).map (fun i => BitVec.ofNat 32 ((fs.filter (fun f => f.1 == i)).map (fun f => f.2.2 * 2 ^ f.2.1)).sum)
/-- A running program with a window of 32 slots, and gallery 1 of tile 2 awake. -/
def eng : State :=
  let s := running1.setProg { running1.prog with windows := [(0, { base := 0, size := 32 })] }
  (s.setGallery 2 1 { gated := false }).setRun { s.run with gateOpen := true }
def withArray (y : ArraySt) : State := eng.setArray 2 11 y
/-- A product on array 11 (index 3), tile slot 0: E4M3 by E4M3, one k-block, and its operands' places. -/
def prodRec (tie : Nat) : List Word :=
  rec_ [(0, 28, 1), (0, 20, 8), (1, 16, tie), (2, 0, 1), (3, 0, 0x1000), (4, 0, 0x2000), (5, 16, 32), (5, 0, 1), (6, 0, 0x3000), (7, 0, 0x4000), (8, 16, 32), (8, 0, 1)]
def lease (tie : Nat) : Lease :=
  { first := 0, foot := 1, shape := .s32x32, comp := false, tie := tie, fn := 0, handle := 0, drained := false, mism := 0,
    log := [{ words := prodRec tie, ssrc := false }], overflowed := false, marked := false, held := none }
theorem witness_products :
    (let r := productRec (prodRec 5)
     eng.galleryTakes 2 1 src0 (prodRec 5) [] = true ∧ eng.slotsHere 2 1 0 r.tile r.foot = true ∧ r.code (eng.window 0) = 0 ∧
     (eng.array 2 11).tieBad r 0 0 = false ∧ eng.failedIn (r.reads 2 (fun _ => (eng.array 2 11).holds 3 r)) = [] ∧ r.ssrc = false ∧ r.arrays = [3] ∧ eng.phys 2 11 = 11 ∧
     (eng.array 2 11).waiting = [] ∧ (eng.array 2 11).verdict r 0 = .opens ∧ (eng.array 2 11).lease? 0 = none) ∧
    (let r := productRec (prodRec 5)
     let s := withArray { leases := [lease 5] }
     s.galleryTakes 2 1 src0 (prodRec 5) [] = true ∧ (s.array 2 11).waiting = [] ∧ (s.array 2 11).verdict r 0 = .joins (lease 5) ∧
     (s.array 2 11).tieBad r 0 0 = false ∧ s.failedIn (r.reads 2 (fun _ => (s.array 2 11).holds 3 r)) = [] ∧ (lease 5).fn = 0 ∧
     (s.array 2 11).lease? 0 = some (lease 5) ∧ (lease 5).foot = r.foot) ∧
    (let s := withArray { leases := [lease 6] }
     s.galleryTakes 2 1 src0 (prodRec 5) [] = true ∧ (s.array 2 11).waiting = [] ∧ (s.array 2 11).verdict (productRec (prodRec 5)) 0 = .waits ∧
     (s.array 2 11).tieBad (productRec (prodRec 5)) 0 0 = false ∧ s.failedIn ((productRec (prodRec 5)).reads 2 (fun _ => (s.array 2 11).holds 3 (productRec (prodRec 5)))) = [] ∧
     after (exec (.product 2 1 src0 (prodRec 5) 0) s) (fun t => (t.array 2 11).waiting.length == 1) = true) ∧
    (let w : WaitOp := { isDrain := false, src := src0, words := prodRec 5, ext := [], sideFailed := 0, mism := false, id := 0, need := 0, taken := [] }
     let s := withArray { waiting := [w] }
     s.phys 2 11 = 11 ∧ (s.array 2 11).waiting = [w] ∧ (productRec w.words).ssrc = false ∧ (s.array 2 11).verdict (productRec w.words) 0 = .opens ∧
     (s.array 2 11).lease? 0 = none) := by decide +kernel

/-- A drain of slot 0 of array 11 to the scratchpad, as FP32. -/
def drnRec : List Word := rec_ [(0, 28, 2), (0, 20, 3), (1, 28, 4), (2, 0, 0x3F800000), (3, 0, 0x8000), (5, 16, 128)]
/-- The same drain to the Target engine, a teacher tile at position 0. -/
def tgtRec : List Word := rec_ [(0, 28, 2), (0, 20, 3), (0, 10, 2), (1, 28, 4), (2, 0, 0x3F800000)]
theorem witness_drains :
    (let r := drainRec drnRec
     let c : CustTable := { bnd := rising, coef := List.replicate 64 0 }
     let s := (withArray { leases := [lease 5] }).setCust 2 { active := some c }
     let y := s.array 2 11
     1 * 8 + r.aidx = 11 ∧ s.phys 2 11 = 11 ∧ s.galleryTakes 2 1 src0 drnRec [] = true ∧ s.slotsHere 2 1 0 r.tile r.foot = true ∧ y.waiting = [] ∧
     s.drainBusy 2 11 = false ∧ (∀ k ∈ y.leases, k.part = none) ∧
     y.lease? 0 = some (lease 5) ∧ r.dest = 0 ∧
     r.code [] (s.window 0) (s.target 2).active.vsize.toNat (s.custSt 2).active.isSome (some (lease 5)) = 0 ∧
     (∀ k ∈ y.leases, k.overlaps 0 r.foot = true → k.first = 0) ∧
     (s.custSt 2).active = some c ∧ r.lred = 0 ∧ r.ssq = false ∧ r.sr = false ∧ r.fmt.scaled = false ∧
     after (exec (.drain 2 1 src0 drnRec [] ⟨0, none⟩) s) (fun t => (t.array 2 11).leases.isEmpty) = true) ∧
    (let r := drainRec tgtRec
     let s := ((withArray { leases := [lease 5] }).setTarget 2 { active := cfg 64 })
     r.dest = 2 ∧ s.galleryTakes 2 1 src0 tgtRec [] = true ∧ r.code [] (s.window 0) (s.target 2).active.vsize.toNat (s.custSt 2).active.isSome (some (lease 5)) = 0 ∧
     after (exec (.drain 2 1 src0 tgtRec [] ⟨0, none⟩) s) (fun t => ((t.arr.bus.get [] 2).length == 1)) = true) ∧
    (let h : HeldDrain := { src := src0, words := drnRec, ext := [], sideFailed := 0, table := none }
     let l : Lease := { lease 5 with mism := 1, marked := true, held := some h }
     let s := withArray { leases := [l], mismatches := 1 }
     s.phys 2 11 = 11 ∧ s.phys 2 (twinOf 11) = 10 ∧ (s.array 2 11).lease? 0 = some l ∧ l.overflowed = false ∧ l.log.any (·.ssrc) = false ∧
     (∀ k ∈ (s.array 2 10).leases, k.overlaps l.first l.foot = false) ∧ s.drainBusy 2 (twinOf 11) = false ∧ (drainRec h.words).dest = 0 ∧
     (s.awayFrom 2 1).contains h.src.fn.val = false ∧ (s.array 2 11).kept = false ∧ 2 ≤ (s.array 2 11).mismatches + l.mism) := by decide +kernel

theorem witness_retire :
    (let s := withArray { retiring := true }
     s.keeper.kbusy = false ∧ s.phys 2 11 = 11 ∧ (s.array 2 11).retiring = true ∧ (s.array 2 11).retired = false ∧ (s.array 2 11).leases = [] ∧
     (s.array 2 80).retired = false ∧ ((List.range 80).all (fun b => s.phys 2 b != 80)) = true ∧
     after (exec (.arrayRetire 2 11) s) (fun t => t.phys 2 11 == 80 && (t.array 2 11).retired) = true) ∧
    (let s := (withArray { retiring := true }).setArr { (withArray { retiring := true }).arr with
        map := [(160, 80), (161, 81), (162, 82)], arrays := [(2 * 84 + 11, { retiring := true }), (2 * 84 + 83, { retired := true })] }
     ((List.range 3).all (fun q => (List.range 80).any (fun b => s.phys 2 b == 80 + q))) = true ∧ (s.array 2 83).retired = true ∧ (s.array 2 11).retiring = true ∧ s.phys 2 11 = 11 ∧
     after (exec (.arrayRetire 2 11) s) (fun t => t.health.badGalleries == [21] && t.run.stop.isSome) = true) := by decide +kernel
theorem witness_lowest_spare : ∀ k, 80 ≤ k → k < 80 → False := by omega

/-! ### The Target engine and the sampler -/

def busRec (tmode vend vidx : Nat) : List Word := rec_ [(0, 28, 2), (0, 10, 2), (1, 28, 4), (15, 30, tmode), (15, 28, vend), (15, 0, vidx)]
def busTile (tmode vend : Nat) : BusTile :=
  { array := 3, first := 0, src := src0, words := busRec tmode vend 0, shape := .s32x32, vals := List.replicate 1024 0 }
/-- A tile of the mode waits on the drain bus of tile 0, whose Target engine is as given. -/
def bussed (b : BusTile) (e : TargetSt) : State := (eng.setArr { eng.arr with bus := [(0, [b])] }).setTarget 0 e
def rec32 (mode : PosMode) : List OpenPos := (List.range 32).map (fun p => { pos := p, mode := mode })
def slots32 : Tab SlotWord := (List.range 32).map (fun p => (p, { ptag := p, valid := true }))
theorem witness_teacher :
    (let b := busTile 0 0
     let s := bussed b { active := cfg 64 }
     let ps := (List.range b.npos).map b.pos
     s.busTile 0 3 0 = some b ∧ (∀ p ∈ ps, (s.target 0).openAt p = none) ∧ (drainRec b.words).vidx = 0 ∧
     (s.target 0).openCount true + b.npos ≤ 640 ∧ ((s.target 0).openScore ps).isSome = true ∧ (drainRec b.words).vend = false ∧
     after (exec (.teacherTile 0 3) (bussed (busTile 0 1) { active := cfg 2 })) (fun t => (t.arr.bus.get [] 0).isEmpty) = true) ∧
    (drainRec (busTile 0 1).words).vend = true ∧ (bussed (busTile 0 1) { active := cfg 32 }).busTile 0 3 0 = some (busTile 0 1) := by decide +kernel
theorem witness_record_moves :
    let s := (eng.setTarget 1 { active := cfg 64, slots := [(65535, { ptag := 65535, valid := true })] }).setTarget 2 { active := cfg 64 }
    ((s.target 1).slots.get {} (131071 % 65536)).valid = true ∧ (s.target 1).openAt (131071 % 65536) = none ∧
    (s.target 1).forwarding.has (131071 % 65536) = false ∧
    after (exec (.recordForward 131071 (.tile 1) (.module 3) [] 0) s) (fun t => t.outbox.length == 1 && ((t.target 1).slots.get {} 65535).valid &&
      after (exec (.recordForward 131071 (.tile 1) (.module 3) [] (2 ^ 22 + 65535 * 2 ^ 48)) t) (fun u =>
        (t.target 1).forwarding.find? 65535 == some 3 && !((u.target 1).slots.get {} 65535).valid)) = true ∧
    bitOf ((2 ^ 22 + 65535 * 2 ^ 48 : DWord)).toNat 22 = true ∧ bitsOf ((2 ^ 22 + 65535 * 2 ^ 48 : DWord)).toNat 63 48 = 131071 % 65536 ∧
    (s.target 2).slotFor (131071 % 65536) = some false ∧
    after (exec (.recordForward 131071 (.tile 1) (.tile 2) [] 0) s) (fun t => ((t.target 2).slots.get {} 65535).valid) = true ∧
    (let x := s.setTarget 2 { active := cfg 64, slots := [(65535, { ptag := 65535, valid := true })], ringOcc := [(65535 % 65536, 65535)] }
     (x.target 2).slotFor (131071 % 65536) = none ∧ (x.target 1).forwarding.has (131071 % 65536) = false) := by decide +kernel
theorem witness_student :
    (let b := busTile 1 0
     let s := bussed b { active := cfg 64, slots := slots32 }
     s.busTile 0 3 1 = some b ∧ (∀ p ∈ (List.range b.npos).map b.pos, (s.target 0).openAt p = none ∧ ((s.target 0).slots.get {} p).valid = true ∧
       ((s.target 0).slots.get {} p).ptag = p) ∧ (drainRec b.words).vidx = 0 ∧ (s.target 0).openCount false + b.npos ≤ 640 ∧
     (drainRec b.words).vend = false) ∧
    (drainRec (busTile 1 1).words).vend = true ∧ (drainRec (busTile 2 1).words).vend = true ∧
    (let b := busTile 2 0
     let s := bussed b { active := cfg 64, slots := slots32, open_ := rec32 .grad }
     s.busTile 0 3 2 = some b ∧ (∀ p ∈ (List.range b.npos).map b.pos, ((s.target 0).openAt p).any (fun o => o.mode == .grad && o.expect == (drainRec b.words).vidx) = true) ∧
     (s.gallery 0 (3 / 8)).delivery.length < 16 ∧ (s.gallery 0 (3 / 8)).takers = [] ∧ (drainRec b.words).vend = false) := by decide +kernel
theorem witness_sampler :
    let b := busTile 3 0
    let s := (bussed b {}).setServe { eng.serve with
      reqs := [(4, req1)], groups := [(0, { plan := some { parts := [], slots := [{ tile := 0, pidx := 31, req := 4, t := 1, role := .plain }], startedAt := 0 } })] }
    s.busTile 0 3 3 = some b ∧ (∀ p ∈ (List.range b.npos).map b.pos, ((s.sampler 0).at_ p).expect = (drainRec b.words).vidx) ∧
    (s.sampler 0).open_.length + b.npos ≤ 640 ∧ s.sampleSlot 0 31 = some { tile := 0, pidx := 31, req := 4, t := 1, role := .plain } ∧
    (∀ p ∈ (List.range b.npos).map b.pos, (s.sampleSlot 0 p).all (fun x => (s.req? x.req).isSome) = true) ∧ (drainRec b.words).vend = false ∧
    (drainRec (busTile 3 1).words).vend = true ∧ (drainRec (busTile 3 1).words).vidx = 0 := by decide +kernel

/-! ### Engines -/

/-- A chain of one stage that moves input 0 to the output, four FP32 elements. -/
def chnRec : List Word :=
  rec_ [(0, 28, 1), (0, 5, 1), (1, 0, 4), (13, 22, 8), (21, 28, 4), (21, 0, 0x1000), (23, 16, 16), (33, 28, 4), (33, 0, 0x2000), (35, 16, 16)]
theorem witness_chain_run :
    let s := (eng.setVecEng 2 7 { len := [(0, 4)] }).setMem [(spadBase 2 + 0x1003, 0x40)]
    let r := chainRec chnRec
    s.vecTakes 2 7 src0 chnRec = true ∧ (s.vecEng 2 7).settle.len.get 0 src0.fn.val = 4 ∧ r.muse = 0 ∧ r.rop = 0 ∧
    r.code 4 ((s.lanes 2 0 r 4).1.filter (fun l => l.mask != 0)).length = 0 ∧ r.oen = true ∧
    s.failedIn (r.usedStreams.flatMap (fun i => (r.inAt i).ranges 2 r.rlen 4 4)) = [] ∧
    ((NF.ofCode r.out.fmt).getD .fp32).scaled = false ∧ r.atBeat 4 0 < 4 ∧
    after (exec (.chain 2 7 src0 chnRec ⟨false, none⟩) s) (fun t => Mem.readN t.mem (spadBase 2 + 0x2000) 4 == [0, 0, 0, 0x40]) = true ∧
    after (exec (.chain 2 7 src0 chnRec ⟨false, some 0⟩) s) (fun t => (t.vecEng 2 7).parts.has 0 &&
      after (exec (.chain 2 7 src0 chnRec ⟨false, none⟩) t) (fun u => Mem.readN u.mem (spadBase 2 + 0x2000) 4 == [0, 0, 0, 0x40] && !(u.vecEng 2 7).parts.has 0)) = true := by
  decide +kernel
def setRec (cnt n : Nat) : List Word := rec_ [(0, 28, 2), (0, 27, cnt), (1, 0, n)]
/-- A vector engine with a stopped chain of function 0. -/
def stopped7 : VecSt :=
  { cnt := [(0, 9)], parts := [(0, { src := src0, words := chnRec, len := 4, vals := [], written := 0, ptr := 0, failed := false, draws := { keys := [], step := 0 } })] }
theorem witness_setlen :
    (let ws := setRec 0 (2 ^ 24 - 1)
     eng.engineTakes 0 2 7 src0 (EngCmd.is ws []) = true ∧ fld ws 0 31 28 = 2 ∧ fld ws 0 26 0 = 0 ∧ fld ws 1 31 24 = 0 ∧
     ((List.range 14).all (fun i => ws.getD (2 + i) 0 == 0)) = true ∧ (eng.vecEng 0 7).parts.has 0 = false ∧
     flag ws 0 27 = false ∧ after (exec (.setlen 0 7 src0 ws.head! ws.tail) eng) (fun t => (t.vecEng 0 7).len.get 0 0 == 2 ^ 24 - 1) = true) ∧
    (let ws := setRec 1 0
     let s := eng.setVecEng 0 7 { cnt := [(0, 9)] }
     s.engineTakes 0 2 7 src0 (EngCmd.is ws []) = true ∧ fld ws 0 31 28 = 2 ∧ fld ws 0 26 0 = 0 ∧ flag ws 0 27 = true ∧
     after (exec (.setlen 0 7 src0 ws.head! ws.tail) s) (fun t => (t.vecEng 0 7).len.get 0 0 == 9) = true) ∧
    (let s := eng.setVecEng 0 7 stopped7
     s.engineTakes 0 2 7 src0 (EngCmd.is (setRec 0 (2 ^ 24 - 1)) []) = true ∧ s.engineTakes 0 2 7 src0 (EngCmd.is (setRec 1 0) []) = true ∧
     (s.vecEng 0 7).parts.has 0 = true ∧ (s.vecEng 0 7).settle.staged = [] ∧
     after (exec (.setlen 0 7 src0 (setRec 0 5).head! (setRec 0 5).tail) s) (fun t => (t.vecEng 0 7).staged.find? 0 == some 5) = true) := by decide +kernel

def bankAt (a : Nat) : Planes :=
  { master := a, work := a + 0x100, workS := a + 0x200, turn := a + 0x300, turnS := a + 0x400, m := a + 0x500, mS := a + 0x600, r := a + 0x700,
    rS := a + 0x800, fs := a + 0x1000, hdr := a + 0x900 }
def grp : GroupDesc :=
  { desc := 0x5000, tile := 0, rule := 1, rows := 1, cols := 32, eta := 0x3F800000, beta1 := 0x3F000000, beta2 := 0x3F000000, eps := 0, eps1 := 0, lam := 0,
    tid := 1, bank0 := bankAt 0x10000, bank1 := bankAt 0x20000, grad := 0x30000, gradS := 0x31000, mask := 0x32000, norm := 0x33000,
    entries := [{ row := 0, col := 0, shape := .s32x32 }], ssqAll := true, mirror := false, turn := false }
def updWords (prepass : Nat) : List Word := rec_ [(0, 28, 3), (0, 26, 1), (0, 25, prepass), (1, 0, 0x40), (2, 0, 0x5000), (5, 0, 1), (6, 0, 0x6000)]
/-- A group of two blocks, and its UPDATE. -/
def grp2 : GroupDesc := { grp with desc := 0x7000, cols := 64, entries := [{ row := 0, col := 0, shape := .s32x32 }, { row := 0, col := 32, shape := .s32x32 }] }
def updTwo : List Word := rec_ [(0, 28, 3), (0, 26, 1), (1, 0, 0x40), (2, 0, 0x7000), (5, 0, 2), (6, 0, 0x6000)]
/-- A run of a program whose first vector engine holds an UPDATE and the prepass of the same group. -/
def updating : State :=
  let q : ProgQueue := { tile := 0, kind := 2, num := 0,
                         cmds := [{ words := updWords 0, ext := [], phase := 3 }, { words := updWords 1, ext := [], phase := 3 }, { words := updTwo, ext := [], phase := 3 }] }
  (eng.setProg { eng.prog with progs := [(1, prog { learnImg with queues := [q] } .running)], groups := [(0x5000, grp), (0x7000, grp2)] }).setRun
    { eng.run with prepassGate := true }
theorem witness_update :
    let s := updating
    s.vecTakes 0 0 hub (updWords 0) = true ∧ s.prog.groups.find? 0x5000 = some grp ∧ (s.vecEng 0 0).upds = [] ∧
    (let r := updRec (updWords 0)
     r.desc = 0x5000 ∧ r.prepass = false ∧ s.updateWaits 0 0 hub r.prepass = false ∧ r.code 0 (some grp) = 0 ∧ grp.rule ≠ 0 ∧ r.turn = false ∧
     bitOf (Mem.nat s.mem (spadBase 0 + r.ucb + 16) 8) 0 = false ∧ groupBlocks grp = 1 ∧
     after (exec (.update 0 0 hub ⟨updWords 0, none⟩) s) (fun t => t.run.shadow && Mem.nat t.mem 0x20900 8 == 1) = true) ∧
    (let r := updRec (updWords 1)
     let c : Src := { hub with index := 1 }
     s.vecTakes 0 0 c (updWords 1) = true ∧ r.desc = 0x5000 ∧ r.prepass = true ∧ s.updateWaits 0 0 c r.prepass = false ∧ r.code 0 (some grp) = 0 ∧
     after (exec (.update 0 0 c ⟨updWords 1, none⟩) s) (fun t => t.run.prepassed && !t.run.shadow) = true) ∧
    (let r := updRec updTwo
     let c : Src := { hub with index := 2 }
     s.vecTakes 0 0 c updTwo = true ∧ s.prog.groups.find? r.desc = some grp2 ∧ r.prepass = false ∧ s.updateWaits 0 0 c false = false ∧
     r.code 0 (some grp2) = 0 ∧ 1 < r.nblk ∧
     after (exec (.update 0 0 c ⟨updTwo, some 1⟩) s) (fun t => (t.vecEng 0 0).upds.any (fun x => x.block == 1) && t.run.updated.isEmpty) = true) := by
  decide +kernel

/-- The step counters and the control block lie apart from the planes its UPDATE writes. -/
theorem witness_update_apart :
    let q := bankAt 0x20000
    ∀ a ∈ (List.range 64).map (spadBase 0 + (updRec (updWords 0)).ucb + ·) ++ (List.range 8).map (grp.bank0.hdr + ·),
      outside a [(q.master, 64), (q.work, 32), (q.workS, 1), (q.m, 32), (q.mS, 1), (q.r, 32), (q.rS, 1)] := by
  unfold outside
  decide +kernel

def packWords (opc ofmt : Nat) : List Word :=
  rec_ [(0, 28, opc), (0, 24, ofmt), (2, 0, 32), (3, 0, 32), (4, 0, 0x100000), (7, 0, 1), (8, 0, 0x1000), (10, 16, 128)]
/-- The frame of one block of zeros lies in the slot an EXPAND reads. -/
def framed : State := eng.setMem (Mem.writeN [] 0x100000 (frameBytes [(127, List.replicate 32 56)]))
theorem witness_packs :
    eng.engineTakes 3 3 1 src0 (EngCmd.is (packWords 1 0) []) = true ∧ (packRec (packWords 1 0)).code 1 = 0 ∧ (eng.eng.saves.get [] (3 * 2 + 1)).length < 8 ∧
    eng.eng.packWait.get [] (3 * 2 + 1) = [] ∧
    after (exec (.saveDrain 3 1 src0 (packWords 1 0)) eng) (fun t => (t.eng.saves.get [] 7).length == 1) = true ∧
    (packRec (packWords 2 0)).code 2 = 0 ∧ (packRec (packWords 2 0)).ntr = 1 ∧ (packRec (packWords 2 0)).tcols = 1 ∧
    (packRec (packWords 3 4)).code 3 = 0 ∧ framed.engineTakes 3 3 1 src0 (EngCmd.is (packWords 3 4) []) = true ∧ framed.failedIn [((packRec (packWords 3 4)).dbase, 1152)] = [] ∧
    decodeFrame framed.mem ((packRec (packWords 3 4)).dbase) = some [(127, List.replicate 32 56)] ∧
    after (exec (.expand 3 1 src0 (packWords 3 4)) framed) (fun t => Mem.word t.mem (spadBase 3 + 0x1000) == 0x3F800000) = true ∧
    decodeFrame eng.mem ((packRec (packWords 3 4)).dbase) = none ∧
    after (exec (.expand 3 1 src0 (packWords 3 4)) eng) (fun t => t.tier.failed.length == 1) = true := by decide +kernel
theorem witness_frame_blocks :
    let bs : List PBlock := [(255, List.replicate 32 255), (0, List.replicate 32 0)]
    bs ≠ [] ∧ bs.length ≤ 32 ∧ (∀ b ∈ bs, b.1 < 256 ∧ b.2.length = 32 ∧ ∀ c ∈ b.2, c < 256) ∧
    decodeFrame (Mem.writeN [] 0x40 (frameBytes bs)) 0x40 = some bs := by decide +kernel

def vec (a n : Nat) : TStream := { fmt := .fp32, addr := a, scale := 0, stride := 4 * n, sstride := 0 }
def chunk (a : Nat) : List Chunk := [{ width := 2, at_ := vec a 2 }]
def rows1 : RowArgs :=
  { rows := 1, x := chunk 0x1000, dy := chunk 0x1100, dp := chunk 0x1200, gain := vec 0x1300 2, bias := vec 0x1400 2, stat := 0x1500, delta := 0x1600,
    eps := 0x3F800000, c := 0x3F800000, causal := none, tree := none, out := chunk 0x1700, dgain := 0x1800, dbias := 0x1900, norm := 0x1A00, parts := [0x1B00, 0x1C00],
    counts := [1, 1], variance := true, ftz := false, failed := false }
def turn1 : TurnArgs := { rows := 1, cols := 2, src := { vec 0x1000 2 with fmt := .bf16 }, dst := { vec 0x2000 1 with fmt := .bf16 } }
theorem witness_rows_forward :
    let s := eng.setMem [(spadBase 0 + 0x1003, 0x40)]
    s.engineTakes 0 4 1 src0 (fun _ => true) = true ∧ ([.e4m3, .e5m2, .bf16] : List NF).contains turn1.src.fmt = true ∧ s.failedIn (turn1.src.ranges 0 1 2) = [] ∧ turn1.src.fits 1 2 = true ∧ TStream.fits { turn1.dst with fmt := turn1.src.fmt } 2 1 = true ∧
    turn1.src.fmt.scaled = false ∧
    after (exec (.turnStore 0 1 src0 turn1) s) (fun t => Mem.readN t.mem (spadBase 0 + 0x2000) 8 == [0, 0, 0, 0, 0, 0x40, 0, 0]) = true ∧
    s.engineTakes 0 5 1 src0 (fun _ => true) = true ∧ rowFmts rows1 = true ∧
    s.failedIn ((rows1.x ++ rows1.dy ++ rows1.dp).flatMap (fun c => c.at_.ranges 0 1 c.width)) = [] ∧ rows1.failed = false ∧ chunksFit 1 rows1.x = true ∧ chunksFit 1 rows1.out = true ∧
    rows1.gain.fits 1 (chunksWidth rows1.x) = true ∧ rows1.bias.fits 1 (chunksWidth rows1.x) = true ∧ extentFits rows1.stat 0 1 (8 * rows1.rows) = true ∧
    (∀ b ∈ rows1.parts, extentFits b 0 1 (8 * rows1.rows) = true) ∧
    after (exec (.rms 0 1 src0 rows1) s) yes = true ∧ after (exec (.layer 0 1 src0 rows1) s) yes = true ∧ after (exec (.merge 0 1 src0 rows1) s) yes = true := by
  decide +kernel
theorem witness_rows_backward :
    chunksFit 1 rows1.dy = true ∧ chunksFit 1 rows1.dp = true ∧ extentFits rows1.dgain 0 1 (4 * chunksWidth rows1.x) = true ∧
    extentFits rows1.norm 0 1 4 = true ∧ extentFits rows1.norm 0 1 8 = true ∧ extentFits rows1.dbias 0 1 (4 * chunksWidth rows1.x) = true ∧
    extentFits rows1.delta 0 1 (4 * rows1.rows) = true ∧ after (exec (.dot 0 1 src0 rows1) eng) yes = true ∧
    after (exec (.rmsBwd 0 1 src0 rows1) eng) yes = true ∧ after (exec (.layerBwd 0 1 src0 rows1) eng) yes = true := by decide +kernel
def copyWords (opc dst hi : Nat) : List Word := rec_ [(0, 28, opc), (1, 0, if opc = 1 then 0x1000 else 0), (3, 0, dst), (4, 0, hi), (5, 0, 64), (6, 0, 1), (9, 0, if opc = 2 then 0xAABBCCDD else 0)]
theorem witness_copies :
    let s := (eng.setMem [(0x103F, 7)]).setLink { eng.link with table := some pairTable }
    (let r := copyRec (copyWords 1 0x2000 0)
     s.engineTakes 1 7 3 src0 (EngCmd.is (copyWords 1 0x2000 0) []) = true ∧ s.copyPlace r r.src = .here 0x1000 ∧ s.copyPlace r r.dst = .here 0x2000 ∧
     r.code false (.here 0x1000) (.here 0x2000) = 0 ∧ (∀ i < r.nrow, ∀ x ∈ accessesOf (0x1000 + i * r.sstride) r.len, s.failedAt x = false) ∧ s.failedIn ((Place.here 0x2000).merges r) = [] ∧
     after (exec (.copy 1 3 src0 (copyWords 1 0x2000 0) []) s) (fun t => Mem.readN t.mem 0x203F 1 == [7]) = true) ∧
    (let ws := copyWords 1 0x2000 0x18000
     let r := copyRec ws
     s.copyPlace r r.dst = .there 1 0x2000 ∧ r.code false (.here 0x1000) (.there 1 0x2000) = 0 ∧
     after (exec (.copy 1 3 src0 ws []) s) (fun t => t.link.nextMove == 1) = true) ∧
    (let r := copyRec (copyWords 2 0x2000 0)
     s.copyPlace r r.dst = .here 0x2000 ∧ r.code true .nowhere (.here 0x2000) = 0 ∧ r.nrow = 1 ∧
     after (exec (.fill 1 3 src0 (copyWords 2 0x2000 0)) s) (fun t => Mem.word t.mem 0x203C == 0xAABBCCDD) = true) := by decide +kernel

/-- Each family of commands has members, and one completes. -/
theorem witness_families :
    (Instr.keeperHeartbeat).family = .keeper ∧ (Instr.chain 0 0 src0 [] ⟨false, none⟩).family = .engine ∧ (Instr.idleTimer 0).family = .link ∧
    after (exec .keeperHeartbeat up) yes = true ∧ after (exec (.chain 0 0 src0 [] ⟨false, none⟩) up) yes = true ∧ after (exec (.idleTimer 0) up) yes = true := by
  decide +kernel

/-! ### Ill-formed commands -/

/-- Each part of a mailbox command's form: the doorbell and SEQ are 16-bit fields, LEN at most 4,080, NDESC a byte, and the payload
is of LEN bytes (R310, R314). -/
theorem test_wf_mailbox :
    (mc 1 [] 0 []).wf = true ∧ { mc 1 [] 0 [] with doorbell := 65536 }.wf = false ∧ { mc 1 [] 0 [] with seq := 65536 }.wf = false ∧
    { mc 1 [] 0 [] with len := 4081, payload := List.replicate 4081 0 }.wf = false ∧ { mc 1 [] 0 [] with ndesc := 256 }.wf = false ∧
    { mc 1 [] 0 [] with len := 4 }.wf = false := by decide +kernel
/-- The opcode has 11 bits beside the flag bit of an event (R314). -/
theorem test_wf_nop : (Instr.nop (mc 1 [] 0 []) 2047).wf = true ∧ (Instr.nop (mc 1 [] 0 []) 2048).wf = false := by decide +kernel
theorem test_wf_mailbox_commands :
    (Instr.runStop { mc 1 [] 0 [] with seq := 65536 }).wf = false ∧ (Instr.pairLoad { mc 1 [] 0 [] with len := 4 } true).wf = false ∧
    (Instr.refresh { mc 1 [] 0 [] with len := 4 } wimg).wf = false ∧ (Instr.progSubmit { mc 1 [] 0 [] with len := 4 } img).wf = false ∧
    (Instr.fwLoad { mc 0 [] 0 [] with len := 4 } { certOk := true, sigOk := true, hashOk := true }).wf = false ∧ (Instr.servicePrepareFibre { mc 0 [] 0 [] with len := 4 } true).wf = false := by
  decide +kernel
/-- Widths of single operands: a ring index, a sequence number, a module number, a BAR and a width, a certificate slot. -/
theorem test_wf_operands :
    (Instr.mbxEvtConsWrite 0 63).wf = true ∧ (Instr.mbxEvtConsWrite 0 64).wf = false ∧ (Instr.commitWaitExpiry 1023).wf = true ∧
    (Instr.commitWaitExpiry 1024).wf = false ∧ (Instr.registerWrite 0 0 0 4 0).wf = true ∧ (Instr.registerWrite 0 1 0 4 0).wf = false ∧
    (Instr.registerWrite 0 0 0 9 0).wf = false ∧ (Instr.challenge (rq none 0 false) 8).wf = false ∧ (Instr.challenge (rq none 0 false) 7).wf = true := by decide +kernel
/-- Records are of 16 words, a CHAIN's of 48, and a DRAIN's extension of none or 16 (R78, R111, R112, R169). -/
theorem test_wf_records :
    (Instr.product 0 0 hub (rec_ []) 0).wf = false ∧ (Instr.product 0 0 hub (List.replicate 16 0) 0).wf = true ∧
    (Instr.drain 0 0 hub (List.replicate 16 0) (List.replicate 8 0) ⟨0, none⟩).wf = false ∧
    (Instr.drain 0 0 hub (List.replicate 16 0) (List.replicate 16 0) ⟨0, none⟩).wf = true ∧ (Instr.chain 0 0 hub (List.replicate 16 0) ⟨false, none⟩).wf = false ∧
    (Instr.setlen 0 0 hub 0 (List.replicate 47 0)).wf = false ∧ (Instr.update 0 0 hub ⟨[], none⟩).wf = false ∧
    (Instr.expand 0 0 hub []).wf = false ∧ (Instr.fill 0 0 hub []).wf = false := by decide +kernel
/-- Eight strap pins, four tiles. -/
theorem test_wf_pins :
    (Instr.strapSample (List.replicate 7 0)).wf = false ∧ (Instr.strapSample (List.replicate 8 0)).wf = true ∧
    (Instr.powerCap 0 [1, 1, 1]).wf = false ∧ (Instr.thermalSpread [0, 0, 0, 0, 0]).wf = false := by decide +kernel
/-- Reset lists no byte of any local memory. -/
theorem test_reset_memory : State.reset.memOk := by decide +kernel

/-! ### Routes and rates -/

/-- Four modules along X, every port up. -/
def ring4 : State :=
  let s := up.setLink { up.link with table := some { alone with nx := 4, present := (List.range 4).map (fun i => (i, i)) } }
  (List.range 6).foldl (fun s p => s.setPort p { state := .up }) s
/-- R406: the shorter way, the other way where the link is down, and straight on once on the way (worked example of chapter 14). -/
theorem test_routes :
    ring4.routePort 1 = some 0 ∧ ring4.routePort 2 = some 0 ∧ ring4.routePort 3 = some 1 ∧
    (ring4.setPort 1 { state := .down }).routePort 3 = some 0 ∧ ring4.routeVia (some 1) 3 = some 0 := by decide +kernel
/-- R431: raised, the old entry until the rail has settled; lowered, the new one at once (0.80 V and 62 °C: 1.72 G wf/s). -/
theorem test_rates :
    (({ vset := 20, held := 15, target := 25, tj := 62 } : TilePwr).settle).rate = 1600 ∧
    (({ vset := 25, held := 25, target := 20, tj := 62 } : TilePwr).settle).rate = 1720 ∧
    (({ vset := 20, held := 15, target := 20, tj := 62 } : TilePwr).settle).rate = 1720 := by decide +kernel
/-- Registers read as their fields lie (R311, R172, R302, R383): a mailbox that is DONE with CODE 8, LEN staged behind a chain, a frozen
arbiter without a grant, a suspended function with a window. -/
theorem test_register_reads :
    (up.setMbox 3 { seq := 0x1234, state := .done, code := 8 }).readBar0 3 0x10C004 = 0x12342008 ∧
    (eng.setVecEng 0 7 { stopped7 with staged := [(0, 5)], len := [(0, 4)], mode := .chain }).readBar2 0x6001C0 = 0x80000005 ∧
    (eng.setVecEng 0 7 { stopped7 with mode := .chain }).readBar2 0x6001D8 = 0x40000000 ∧
    (up.setArbAt 42 { freeze := true }).readBar2 0x72A000 = 0xC0000040 ∧
    (eng.setSched { eng.sched with active := [(0, { suspend := true })] }).readBar2 0x800008 = 0xA0100000 := by decide +kernel
end Sys2Proof.Tests
end

/-! # O41: the update factor a GO carries

R220, R231 and R234: the Lead forms k, and each module writes it into the update control block of each tile. On a memory in canonical
form GO_RX does so (`goRx_writes_factor`). The statement of O41 asks it of every state, also of one whose memory lists its bytes out of
order, which the type of `State.mem` allows and where `Mem.write` can leave an old byte to be read: there it fails
(`not_goCarriesTheFactor`). Reset's memory is canonical, and that each step keeps it so is a statement of its own
(`Obligations.StepsKeepMemoryCanonical`). -/

section
namespace Sys2Proof.Machine

/-! ### Little-endian bytes -/

@[simp] theorem length_leBytes (n : Nat) : ∀ v : Nat, (leBytes n v).length = n := by
  induction n with
  | zero => intro v; rfl
  | succ n ih => intro v; simp [leBytes, ih]

theorem leNat_leBytes (n : Nat) : ∀ v : Nat, leNat (leBytes n v) = v % 256 ^ n := by
  induction n with
  | zero => intro v; simp [leBytes, leNat, Nat.mod_one]
  | succ n ih =>
    intro v
    rw [leBytes, leNat, ih, Nat.pow_succ', Nat.mod_mul, BitVec.toNat_ofNat]

theorem leBytes_add (a b : Nat) : ∀ v : Nat, leBytes (a + b) v = leBytes a v ++ leBytes b (v / 256 ^ a) := by
  induction a with
  | zero => intro v; simp [leBytes]
  | succ a ih =>
    intro v
    rw [Nat.add_right_comm, leBytes, leBytes, ih, Nat.div_div_eq_div_mul, Nat.pow_succ', List.cons_append]

/-- The low half of a 64-bit word that holds a 32-bit one. -/
theorem take_leBytes_word (w : Word) : (leBytes 8 w.toNat).take 4 = leBytes 4 w.toNat := by
  rw [leBytes_add 4 4, List.take_left' (length_leBytes 4 _)]

theorem ofNat_leNat_leBytes (w : Word) : BitVec.ofNat 32 (leNat (leBytes 4 w.toNat)) = w := by
  rw [leNat_leBytes]
  apply BitVec.eq_of_toNat_eq
  rw [BitVec.toNat_ofNat]
  omega

/-! ### Reading the head of a byte string -/

theorem Mem.readN_take (m : Mem) (n p : Nat) : ∀ a : Nat, p ≤ n → (Mem.readN m a n).take p = Mem.readN m a p := by
  induction n generalizing p with
  | zero =>
    intro a hp
    rw [Nat.le_zero.mp hp, List.take_zero, Mem.readN]
  | succ n ih =>
    intro a hp
    cases p with
    | zero => rfl
    | succ p => rw [Mem.readN, Mem.readN, List.take_succ_cons, ih p (a + 1) (by omega)]

/-! ### The update control block (R231) -/

/-- The 64 bytes of the update control block: k, the step number, the active bank and five reserved words. -/
def State.ucbBytes (s : State) (k : Word) : List Byte := dwordsBytes ([k.toNat, s.run.step, b2n s.run.bank] ++ List.replicate 5 0)

/-- The memory with bs at each offset of a list, on tile i and those after it. -/
def Mem.writeTiles (m : Mem) (bs : List Byte) (i : Nat) (offs : List Nat) : Mem :=
  (offs.zipIdx i).foldl (fun m (o, t) => Mem.writeN m (spadBase t + o) bs) m

theorem Mem.writeTiles_cons (m : Mem) (bs : List Byte) (i o : Nat) (offs : List Nat) :
    Mem.writeTiles m bs i (o :: offs) = Mem.writeTiles (Mem.writeN m (spadBase i + o) bs) bs (i + 1) offs := rfl

theorem State.writeUcb_mem {s : State} {p : ProgImage} (k : Word) (h : s.runImage = some p) :
    (s.writeUcb k).mem = Mem.writeTiles s.mem (s.ucbBytes k) 0 p.ucb := by
  simp [State.writeUcb, h, State.ucbBytes, Mem.writeTiles]

theorem State.length_ucbBytes (s : State) (k : Word) : (s.ucbBytes k).length = 64 := by
  simp [State.ucbBytes, dwordsBytes]

theorem State.take_ucbBytes (s : State) (k : Word) : (s.ucbBytes k).take 4 = leBytes 4 k.toNat := by
  rw [State.ucbBytes, dwordsBytes, List.cons_append, List.flatMap_cons, List.take_append_of_le_length (by simp), take_leBytes_word]

/-- A block within its own tile's 256 MiB is not touched by blocks on later tiles. -/
theorem Mem.readN_writeTiles_before (bs : List Byte) (offs : List Nat) : ∀ (m : Mem) (i a n : Nat), a + n ≤ spadBase i →
    Mem.readN (Mem.writeTiles m bs i offs) a n = Mem.readN m a n := by
  induction offs with
  | nil => intros; rfl
  | cons o offs ih =>
    intro m i a n h
    have hnext : spadBase i ≤ spadBase (i + 1) := by simp only [spadBase]; omega
    rw [Mem.writeTiles_cons, ih _ _ _ _ (h.trans hnext), Mem.readN_writeN_outside bs n m (Or.inl (by omega))]

/-- In canonical memory each tile's block reads back as it was written. -/
theorem Mem.readN_writeTiles (bs : List Byte) (offs : List Nat) : ∀ (m : Mem) (i j : Nat), Mem.wf m = true →
    (∀ o ∈ offs, o + bs.length ≤ 0x10000000) → j < offs.length →
    Mem.readN (Mem.writeTiles m bs i offs) (spadBase (i + j) + offs.getD j 0) bs.length = bs := by
  induction offs with
  | nil => intro m i j _ _ hj; exact absurd hj (Nat.not_lt_zero j)
  | cons o offs ih =>
    intro m i j hm hfit hj
    rw [Mem.writeTiles_cons]
    cases j with
    | zero =>
      have hend : spadBase i + o + bs.length ≤ spadBase (i + 1) := by
        have := hfit o (List.mem_cons_self ..)
        simp only [spadBase]; omega
      rw [List.getD_cons_zero, Nat.add_zero i, Mem.readN_writeTiles_before bs offs _ _ _ _ hend, Mem.readN_writeN bs m _ hm]
    | succ j =>
      rw [List.getD_cons_succ, ← Nat.add_assoc, Nat.add_right_comm]
      exact ih _ (i + 1) j (Mem.wf_writeN bs m _ hm) (fun o ho => hfit o (List.mem_cons_of_mem _ ho)) (Nat.lt_of_succ_lt_succ hj)

/-- In canonical memory word 0 of each tile's update control block holds k. -/
theorem State.word_writeUcb {s : State} {p : ProgImage} (k : Word) (hp : s.runImage = some p) (hm : Mem.wf s.mem = true)
    (hfit : ∀ o ∈ p.ucb, o + 64 ≤ 0x10000000) {j : Nat} (hj : j < p.ucb.length) :
    Mem.word (s.writeUcb k).mem (spadBase j + p.ucb.getD j 0) = k := by
  have hblock := Mem.readN_writeTiles (s.ucbBytes k) p.ucb s.mem 0 j hm (by rwa [s.length_ucbBytes]) hj
  rw [s.length_ucbBytes, Nat.zero_add, ← State.writeUcb_mem k hp] at hblock
  rw [Mem.word, Mem.nat, ← Mem.readN_take _ 64 4 _ (by omega), hblock, s.take_ucbBytes, ofNat_leNat_leBytes]

/-! ### GO (R220, R234) -/

@[simp] theorem State.phaseStart_mem (s : State) (p : Phase) : (s.phaseStart p).mem = s.mem := s.only_phaseStart p .mem (by simp)

/-- A module takes a GO of the step in progress unless it must rejoin; the Lead takes one that it has decided. -/
theorem State.takes_iff (s : State) (d : Decision) :
    s.takes s.run.step d = true ↔ s.run.active = true ∧ s.run.needRejoin = false ∧ (s.isLead = true → s.lead.decision = d) := by
  cases h : s.isLead <;> simp [State.takes, h, and_assoc]

@[simp] theorem State.behind_step (s : State) : s.behind s.run.step = false := by simp [State.behind]

/-- A GO that is taken leaves in memory the update control blocks, with the Lead's own k on the Lead. -/
theorem exec_goRx_mem {s : State} (k l : Word) (c : Nat) (hk : s.keeper.kbusy = false) (ht : s.takes s.run.step .go = true) :
    ∃ t, exec (.goRx s.run.step k l c) s = .next t ∧ t.mem = (s.writeUcb (if s.isLead then s.lead.k else k)).mem := by
  rw [exec, execGoRx, if_neg (by simp [hk]), if_neg (by simp), if_neg (by simp [ht])]
  refine ⟨_, rfl, ?_⟩
  rw [State.setRun_mem]
  split
  · rfl
  · rw [State.phaseStart_mem]

/-- The Lead clips where c > 0 and ns > c × l (R220). -/
theorem updateFactor_of_clipped {n2 c l : Word} (hc : FVal.lt .zero (ofFP32 c) = true)
    (hn : (ofFP32 (fmul c l)).lt (ofFP32 (fsqrt n2)) = true) : updateFactor n2 c l = fdiv c (fsqrt n2) := by
  simp [updateFactor, hc, hn]

/-- Otherwise k only removes the loss scale (R220). -/
theorem updateFactor_of_unclipped {n2 c l : Word}
    (h : FVal.lt .zero (ofFP32 c) = false ∨ (ofFP32 (fmul c l)).lt (ofFP32 (fsqrt n2)) = false) :
    updateFactor n2 c l = fdiv fOne l := by
  rcases h with h | h <;> simp [updateFactor, h]

/-- The Lead's GO carries R220's k with the scale and the clean count in force, and the Lead keeps it with N2: the first part of O41. -/
theorem decideGo_sends_factor {s : State} {ps : List Word} {k : Word}
    (hclip : FVal.lt .zero (ofFP32 s.run.clip) = true → (ofFP32 (fmul s.run.clip s.run.lscale)).lt (ofFP32 (fsqrt (sumPartials ps))) = true →
      k = fdiv s.run.clip (fsqrt (sumPartials ps)))
    (hplain : FVal.lt .zero (ofFP32 s.run.clip) = false ∨
      (ofFP32 (fmul s.run.clip s.run.lscale)).lt (ofFP32 (fsqrt (sumPartials ps))) = false → k = fdiv fOne s.run.lscale) :
    (s.decideGo ps).outbox = .go s.run.step k s.run.lscale s.run.clean :: s.outbox ∧ (s.decideGo ps).lead.k = k ∧
      (s.decideGo ps).lead.n2 = sumPartials ps := by
  have hk : k = updateFactor (sumPartials ps) s.run.clip s.run.lscale := by
    by_cases hc : FVal.lt .zero (ofFP32 s.run.clip) = true
    · by_cases hn : (ofFP32 (fmul s.run.clip s.run.lscale)).lt (ofFP32 (fsqrt (sumPartials ps))) = true
      · rw [updateFactor_of_clipped hc hn, hclip hc hn]
      · rw [Bool.not_eq_true] at hn
        rw [updateFactor_of_unclipped (.inr hn), hplain (.inr hn)]
    · rw [Bool.not_eq_true] at hc
      rw [updateFactor_of_unclipped (.inl hc), hplain (.inl hc)]
  subst hk
  exact ⟨rfl, rfl, rfl⟩

/-- On canonical memory a GO that is taken puts k into the update control block of each tile: the second part of O41, with the
hypothesis on memory that it lacks. -/
theorem goRx_writes_factor {k : Word} {p : ProgImage} {s : State} (l : Word) (c : Nat) (hm : s.memOk = true)
    (hk : s.keeper.kbusy = false) (ha : s.run.active = true) (hr : s.run.needRejoin = false)
    (hl : s.isLead = true → s.lead.decision = .go ∧ s.lead.k = k) (hp : s.runImage = some p) (hlen : p.ucb.length = 4)
    (hfit : ∀ o ∈ p.ucb, o + 64 ≤ 0x10000000) :
    ∃ t, exec (.goRx s.run.step k l c) s = .next t ∧ ∀ j < 4, Mem.word t.mem (spadBase j + p.ucb.getD j 0) = k := by
  obtain ⟨t, ht, htm⟩ := exec_goRx_mem k l c hk ((s.takes_iff .go).2 ⟨ha, hr, fun h => (hl h).1⟩)
  have hsent : (if s.isLead then s.lead.k else k) = k := by
    split
    · exact (hl ‹_›).2
    · rfl
  have hwf : Mem.wf s.mem = true := ((Bool.and_eq_true _ _).mp hm).1
  refine ⟨t, ht, fun j hj => ?_⟩
  rw [htm, hsent]
  exact State.word_writeUcb k hp hwf hfit (hlen ▸ hj)

/-! ### A run that takes a GO, and a memory out of order -/

/-- A run in its step 0 on a module that is not the Lead, with its update control block at the start of each scratchpad and m as memory. -/
def State.goAt (m : Mem) : State :=
  let p : ProgImage :=
    { signed := true, bytes := [], learn := true, serving := none, slots := 0, tileGroup := 1, pipelined := 0, queues := [], holds := [],
      seqLen := 0, workingCopy := 0, target := none, custom := [], galleries := 0, plan := [], sspan := 1, lspan := 1, mirroring := false,
      prio := [], worst := [], ucb := [0, 0, 0, 0], groups := [], shards := [], reshards := [], segments := [], batchTokens := 0 }
  let s := State.reset.setProg { progs := [(1, { fn := 0, img := p, state := .running, regions := [], ended := [] })] }
  (s.setMem m).setRun { active := true, prog := 1 }

/-- On an empty memory the same run takes a GO with k = 1/2 and each tile's block holds it. -/
theorem goRx_writes_half_on_empty_memory : ∃ t, exec (.goRx 0 0x3F000000 0 0) (State.goAt []) = .next t ∧
    ∀ j < 4, Mem.word t.mem (spadBase j + [0, 0, 0, 0].getD j 0) = 0x3F000000 :=
  goRx_writes_factor (s := State.goAt []) 0 0 rfl rfl rfl rfl (by decide +kernel) rfl rfl (by simp)

/-- The byte at the start of tile 0's scratchpad is 7, listed behind a higher address. -/
def Mem.outOfOrder : Mem := [(spadBase 0 + 1, 1), (spadBase 0, 7)]

/-- A 0 written below the first listed address is taken to be there already, so the 7 stays. -/
theorem writeUcb_outOfOrder : ((State.goAt Mem.outOfOrder).writeUcb 0).mem = [(spadBase 0, 7)] := by decide +kernel

/-- Refutes O41: the first part holds (`decideGo_sends_factor`), but in the second nothing says that memory is canonical. On `Mem.outOfOrder` a GO with k = 0
leaves word 0 of tile 0's update control block at 7. -/
theorem not_goCarriesTheFactor : ¬ Obligations.GoCarriesTheFactor := by
  unfold Obligations.GoCarriesTheFactor
  rintro ⟨-, hgo⟩
  have hlead : (State.goAt Mem.outOfOrder).isLead = false := rfl
  obtain ⟨t, ht, hword⟩ := hgo 0 0 0 0 _ (State.goAt Mem.outOfOrder) rfl rfl rfl rfl (by simp [hlead]) rfl rfl (by simp)
  obtain ⟨u, hu, hmem⟩ := exec_goRx_mem (s := State.goAt Mem.outOfOrder) 0 0 0 rfl (by decide +kernel)
  obtain rfl : t = u := Host.Outcome.next.inj (ht.symm.trans hu)
  rw [hlead, if_neg Bool.false_ne_true, writeUcb_outOfOrder] at hmem
  have h0 := hword 0 (by omega)
  rw [hmem] at h0
  exact absurd h0 (by decide +kernel)

end Sys2Proof.Machine
end

/-! # O23: arbitration rounds

R295, R296, R299 and R303. Every pass of the model over an arbiter's slots (the asking, a committed group, the aging of those that lose)
sets each slot from its own content alone, so one lemma (`Arb.slotsChanged_foldl`) says what each of them leaves. -/

section
namespace Sys2Proof.Machine
section

/-! ### Passes over the slots -/

@[simp] theorem Arb.req_setReq_same (a : Arb) (i : Nat) (r : ArbReq) : (a.setReq i r).req i = r := Tab.get_set_same _ _ _ _

theorem Arb.req_setReq_other (a : Arb) (r : ArbReq) {i j : Nat} (h : j ≠ i) : (a.setReq i r).req j = a.req j :=
  Tab.get_set_other _ _ _ h

/-- b is a with each slot of l changed by g and nothing else. -/
structure Arb.SlotsChanged (g : Nat → ArbReq → ArbReq) (l : List Nat) (a b : Arb) : Prop where
  head : b = { a with reqs := b.reqs }
  mem : ∀ j ∈ l, b.req j = g j (a.req j)
  notMem : ∀ j, j ∉ l → b.req j = a.req j

variable {g : Nat → ArbReq → ArbReq} {l : List Nat} {a b c : Arb} {n i : Nat}

theorem Arb.SlotsChanged.owner (h : Arb.SlotsChanged g l a b) : b.owner = a.owner := by rw [h.head]

theorem Arb.SlotsChanged.pending (h : Arb.SlotsChanged g l a b) : b.pending = a.pending := by rw [h.head]

theorem Arb.slotsChanged_setReq {r : ArbReq} (h : r = g i (a.req i)) : Arb.SlotsChanged g [i] a (a.setReq i r) where
  head := rfl
  mem j hj := by rw [List.mem_singleton.1 hj, Arb.req_setReq_same, h]
  notMem j hj := Arb.req_setReq_other a r (fun e => hj (List.mem_singleton.2 e))

theorem Arb.slotsChanged_self (h : a.req i = g i (a.req i)) : Arb.SlotsChanged g [i] a a where
  head := rfl
  mem j hj := by rw [List.mem_singleton.1 hj, ← h]
  notMem _ _ := rfl

theorem Arb.SlotsChanged.cons (h : Arb.SlotsChanged g [i] a b) (k : Arb.SlotsChanged g l b c) (hi : i ∉ l) :
    Arb.SlotsChanged g (i :: l) a c where
  head := by rw [k.head, h.head]
  mem j hj := by
    rcases List.mem_cons.1 hj with rfl | hl
    · rw [k.notMem _ hi, h.mem _ (List.mem_singleton_self _)]
    · rw [k.mem j hl, h.notMem j (fun e => hi (List.mem_singleton.1 e ▸ hl))]
  notMem j hj := by
    obtain ⟨hne, hl⟩ := not_or.1 (mt List.mem_cons.2 hj)
    rw [k.notMem j hl, h.notMem j (fun e => hne (List.mem_singleton.1 e))]

/-- A pass whose steps each change their own slot by g changes every slot it meets by g; p reads the arbiter out of what the pass carries. -/
theorem Arb.slotsChanged_foldl {α : Type} (p : α → Arb) (f : α → Nat → α)
    (hf : ∀ x i, Arb.SlotsChanged g [i] (p x) (p (f x i))) (l : List Nat) (hl : l.Nodup) :
    ∀ x, Arb.SlotsChanged g l (p x) (p (l.foldl f x)) := by
  induction l with
  | nil => exact fun x => ⟨rfl, fun _ h => absurd h List.not_mem_nil, fun _ _ => rfl⟩
  | cons i l ih =>
    obtain ⟨hi, hl⟩ := List.nodup_cons.1 hl
    exact fun x => (hf x i).cons (ih hl (f x i)) hi

/-! ### A committed group (R303) -/

/-- A slot once its base of the group is in force. -/
def Arb.priReq (n : Nat) (bases : List Nat) (i : Nat) (r : ArbReq) : ArbReq :=
  if slotBase n i (bases.getD i 0) = r.base then r
  else { r with base := slotBase n i (bases.getD i 0), cur := max r.cur (slotBase n i (bases.getD i 0)) }

theorem Arb.priReq_waiting (bases : List Nat) (r : ArbReq) : (Arb.priReq n bases i r).waiting = r.waiting := by
  unfold Arb.priReq
  split <;> rfl

/-- What is committed waits no longer, and slots are changed by `Arb.priReq`. -/
theorem Arb.applyPri_of_pending {lim : Nat} {bases : List Nat} (h : a.pending = some (lim, bases)) :
    ∃ b, Arb.SlotsChanged (Arb.priReq n bases) (List.range 48) a b ∧ a.applyPri n = { b with starveLim := lim, pending := none } := by
  refine ⟨_, Arb.slotsChanged_foldl id _ (fun x i => ?_) _ List.nodup_range a, by rw [Arb.applyPri, h]; rfl⟩
  dsimp only [id]
  split
  · exact Arb.slotsChanged_self (by rw [Arb.priReq, if_pos ‹_›])
  · exact Arb.slotsChanged_setReq (by rw [Arb.priReq, if_neg ‹_›])

theorem Arb.applyPri_pending : (a.applyPri n).pending = none := by
  cases h : a.pending with
  | none => rw [Arb.applyPri, h]; exact h
  | some e =>
    obtain ⟨b, -, heq⟩ := Arb.applyPri_of_pending (n := n) h
    rw [heq]

/-- The group changes neither who waits nor whose turn is next. -/
theorem Arb.applyPri_waiters : (a.applyPri n).waiters = a.waiters := by
  cases h : a.pending with
  | none => rw [Arb.applyPri, h]
  | some e =>
    obtain ⟨b, hb, heq⟩ := Arb.applyPri_of_pending (n := n) h
    have hw (j : Nat) : (b.req j).waiting = (a.req j).waiting := by
      by_cases hj : j ∈ List.range 48
      · rw [hb.mem j hj, Arb.priReq_waiting]
      · rw [hb.notMem j hj]
    have ho : b.owner = a.owner := hb.owner
    have hr (j : Nat) : (a.applyPri n).req j = b.req j := by rw [heq]; rfl
    simp only [Arb.waiters, hr, hw]
    rw [heq, ← ho]

/-! ### Turns and the choice (R296) -/

/-- How many slots lie between the last granted slot and i, in ascending order and wrapping from 47 to 0. -/
def Arb.turn (a : Arb) (i : Nat) : Nat := (i + 47 - a.owner % 48) % 48

theorem Arb.waiting_of_mem_waiters (h : i ∈ a.waiters) : (a.req i).waiting = true := (List.mem_filter.1 h).2

theorem Arb.turn_of_lt {k : Nat} (h : k < 48) : a.turn ((a.owner + 1 + k) % 48) = k := by
  unfold Arb.turn
  omega

theorem Arb.waiters_pairwise_turn : a.waiters.Pairwise (fun i j => a.turn i < a.turn j) := by
  refine List.Pairwise.filter _ (List.pairwise_map.2 (List.Pairwise.imp_of_mem (fun hi hj hlt => ?_) List.pairwise_lt_range))
  rwa [Arb.turn_of_lt (List.mem_range.1 hi), Arb.turn_of_lt (List.mem_range.1 hj)]

theorem Arb.waiters_nodup : a.waiters.Nodup :=
  Arb.waiters_pairwise_turn.imp (fun hlt he => absurd (he ▸ hlt) (Nat.lt_irrefl _))

/-- Keeping the better of two in a pass over a list in ascending order of t finds the best by v, and the first of those by t. -/
theorem foldl_better_first_best (v t : Nat → Nat) (l : List Nat) : ∀ i, (i :: l).Pairwise (fun x y => t x < t y) →
    ∃ w ∈ i :: l, l.foldl (fun b x => if v b < v x then x else b) i = w ∧ ∀ x ∈ i :: l, v x ≤ v w ∧ (v x = v w → t w ≤ t x) := by
  induction l with
  | nil => simp
  | cons y l ih =>
    intro i h
    obtain ⟨hi, hyl⟩ := List.pairwise_cons.1 h
    have hiy : t i < t y := hi y List.mem_cons_self
    rw [List.foldl_cons]
    split
    case isTrue hlt =>
      obtain ⟨w, hw, heq, hbest⟩ := ih y hyl
      refine ⟨w, List.mem_cons_of_mem _ hw, heq, fun x hx => ?_⟩
      rcases List.mem_cons.1 hx with rfl | hx
      · have := (hbest y List.mem_cons_self).1
        omega
      · exact hbest x hx
    case isFalse hge =>
      obtain ⟨w, hw, heq, hbest⟩ := ih i (h.sublist ((List.sublist_cons_self y l).cons_cons i))
      refine ⟨w, List.mem_cons.2 ((List.mem_cons.1 hw).imp id (List.mem_cons_of_mem _)), heq, fun x hx => ?_⟩
      have hbi := hbest i List.mem_cons_self
      rcases List.mem_cons.1 hx with rfl | hx
      · exact hbi
      rcases List.mem_cons.1 hx with rfl | hx
      · omega
      · exact hbest x (List.mem_cons_of_mem _ hx)

theorem Arb.choose_eq_none (h : a.waiters = []) : a.choose = none := by rw [Arb.choose, h]

/-- Someone who waits is chosen: of the highest current priority, and first in turn among those. -/
theorem Arb.exists_choose (h : a.waiters ≠ []) : ∃ w, a.choose = some w ∧ w ∈ a.waiters ∧
    ∀ x ∈ a.waiters, (a.req x).cur ≤ (a.req w).cur ∧ ((a.req x).cur = (a.req w).cur → a.turn w ≤ a.turn x) := by
  have hp := a.waiters_pairwise_turn
  unfold Arb.choose
  cases hw : a.waiters with
  | nil => exact absurd hw h
  | cons i l =>
    obtain ⟨w, hmem, heq, hbest⟩ := foldl_better_first_best (fun x => (a.req x).cur) a.turn l i (hw ▸ hp)
    exact ⟨w, congrArg some heq, hmem, hbest⟩

/-! ### Rounds (R296, R300, R303) -/

/-- A slot that waited in a round and was not granted, under a STARVE_LIM. -/
def Arb.agedReq (lim : Nat) (r : ArbReq) : ArbReq :=
  { r with
    cur := min 15 (r.cur + 1), lost := min 8191 (r.lost + 1),
    starved := r.starved || (lim != 0 && decide (lim ≤ min 8191 (r.lost + 1))) }

/-- A slot that was granted. -/
def Arb.grantedReq (r : ArbReq) : ArbReq := { r with cur := r.base, lost := 0, waiting := false }

theorem Arb.round_of_no_waiters (h : a.waiters = []) : (a.round n).1 = a := by
  rw [Arb.round, Arb.choose_eq_none (Arb.applyPri_waiters.trans h)]

/-- A round that grants slot w: the losers age, and w's slot and the grant are set. -/
theorem Arb.round_of_choose {w : Nat} (h : (a.applyPri n).choose = some w) :
    ∃ c, Arb.SlotsChanged (fun _ => Arb.agedReq (a.applyPri n).starveLim) ((a.applyPri n).waiters.filter (· != w)) (a.applyPri n) c ∧
      (a.round n).1 = { c.setReq w (Arb.grantedReq (c.req w)) with held := true, owner := w, ownerFn := (c.req w).fn } := by
  refine ⟨_, Arb.slotsChanged_foldl Prod.fst _ (fun x i => ?_) _ (Arb.waiters_nodup.filter _) (a.applyPri n, false),
    by rw [Arb.round, h]; rfl⟩
  exact Arb.slotsChanged_setReq rfl

/-- R296 for a round that takes place, in full. -/
theorem Arb.round_grants (hb : b = a.applyPri n) (h : a.waiters ≠ []) : ∃ w ∈ b.waiters,
    (∀ x ∈ b.waiters, (b.req x).cur ≤ (b.req w).cur ∧ ((b.req x).cur = (b.req w).cur → b.turn w ≤ b.turn x)) ∧
    (a.round n).1.held = true ∧ (a.round n).1.owner = w ∧ (a.round n).1.ownerFn = (b.req w).fn ∧ (a.round n).1.pending = none ∧
    (a.round n).1.req w = Arb.grantedReq (b.req w) ∧
    (∀ x ∈ b.waiters, x ≠ w → (a.round n).1.req x = Arb.agedReq b.starveLim (b.req x)) ∧
    ∀ x, x ∉ b.waiters → (a.round n).1.req x = b.req x := by
  obtain ⟨w, hw, hmem, hbest⟩ := Arb.exists_choose (a := b) (by rwa [hb, Arb.applyPri_waiters])
  obtain ⟨c, hc, hround⟩ := Arb.round_of_choose (hb ▸ hw)
  rw [← hb] at hc
  have hcw : c.req w = b.req w := hc.notMem w (by simp)
  have hother {x : Nat} (hx : x ≠ w) : (a.round n).1.req x = c.req x := by
    rw [hround]
    exact Arb.req_setReq_other c _ hx
  refine ⟨w, hmem, hbest, by rw [hround], by rw [hround], by rw [hround, hcw], ?_, ?_, fun x hx hne => ?_, fun x hx => ?_⟩
  · rw [hround]
    exact hc.pending.trans (hb ▸ Arb.applyPri_pending)
  · rw [hround, ← hcw]
    exact Arb.req_setReq_same c w _
  · rw [hother hne, hc.mem x (List.mem_filter.2 ⟨hx, bne_iff_ne.2 hne⟩)]
  · rw [hother (fun e : x = w => hx (e ▸ hmem)), hc.notMem x (fun hl => hx (List.mem_filter.1 hl).1)]

/-! ### The requests a round sees (R295, R299) -/

/-- A slot after the asking, which reqs and masked describe. -/
def Arb.askedReq (reqs : List (Nat × Nat)) (masked : List Nat) (i : Nat) (r : ArbReq) : ArbReq :=
  match reqs.find? (fun x => x.1 == i) with
  | some (_, f) =>
    if masked.contains i then { r with waiting := false, masked := true, lost := 0, fn := f }
    else { r with waiting := true, masked := false, fn := f }
  | none =>
    if r.waiting || r.masked then
      if masked.contains i then { r with waiting := false, masked := true, lost := 0 }
      else if r.masked then { r with waiting := true, masked := false } else r
    else r

theorem Arb.slotsChanged_present (a : Arb) (reqs : List (Nat × Nat)) (masked : List Nat) :
    Arb.SlotsChanged (Arb.askedReq reqs masked) (List.range 48) a (a.present reqs masked) := by
  refine Arb.slotsChanged_foldl id _ (fun x i => ?_) _ List.nodup_range a
  dsimp only [id]
  split
  next hf =>
    split
    next hm => exact Arb.slotsChanged_setReq (by simp only [Arb.askedReq, hf, if_pos hm])
    next hm => exact Arb.slotsChanged_setReq (by simp only [Arb.askedReq, hf, if_neg hm])
  next hf =>
    split
    next hr =>
      split
      next hm => exact Arb.slotsChanged_setReq (by simp only [Arb.askedReq, hf, if_pos hr, if_pos hm])
      next hm =>
        split
        next hw => exact Arb.slotsChanged_setReq (by simp only [Arb.askedReq, hf, if_pos hr, if_neg hm, if_pos hw])
        next hw => exact Arb.slotsChanged_self (by simp only [Arb.askedReq, hf, if_pos hr, if_neg hm, if_neg hw])
    next hr => exact Arb.slotsChanged_self (by simp only [Arb.askedReq, hf, if_neg hr])

/-- A slot without a request of its own and with none waiting asks only if a request of it was masked and is so no more. -/
theorem Arb.askedReq_waiting_of_silent {reqs : List (Nat × Nat)} {masked : List Nat} {r : ArbReq}
    (hf : reqs.find? (fun x => x.1 == i) = none) (hw : r.waiting = false) :
    (Arb.askedReq reqs masked i r).waiting = (r.masked && !masked.contains i) := by
  cases hr : r.masked with
  | false => simp [Arb.askedReq, hf, hw, hr]
  | true =>
    by_cases hm : i ∈ masked
    · simp [Arb.askedReq, hf, hr, hm]
    · simp [Arb.askedReq, hf, hr, hm]

theorem slotCount_le (n : Nat) : slotCount n ≤ 42 := by
  unfold slotCount
  split_ifs <;> omega

/-- The requests of the slots that have a requester (R295). -/
def Arb.ofSlots (n : Nat) (reqs : List (Nat × Nat)) : List (Nat × Nat) := reqs.filter (fun x => decide (x.1 < slotCount n))

theorem Arb.find?_ofSlots (reqs : List (Nat × Nat)) (h : i < slotCount n) :
    (Arb.ofSlots n reqs).find? (fun x => x.1 == i) = reqs.find? (fun x => x.1 == i) := by
  rw [Arb.ofSlots, List.find?_filter]
  congr 1
  funext x
  by_cases hx : x.1 = i
  · simp [hx, h]
  · simp [hx]

theorem Arb.find?_ofSlots_none (reqs : List (Nat × Nat)) (h : slotCount n ≤ i) :
    (Arb.ofSlots n reqs).find? (fun x => x.1 == i) = none := by
  rw [Arb.ofSlots, List.find?_filter, List.find?_eq_none]
  intro x _
  simp only [decide_eq_true_eq, beq_iff_eq]
  omega

/-- The function a slot's request is for: a new one names it, and one that waits already keeps its own. -/
def State.askedFn (s : State) (n : Nat) (reqs : List (Nat × Nat)) (i : Nat) : Nat :=
  (((Arb.ofSlots n reqs).find? (fun x => x.1 == i)).map (·.2)).getD ((s.arbAt n).req i).fn

/-- The slots masked in a round: by their sideband signal, or by R299. -/
def State.askedMask (s : State) (n : Nat) (reqs : List (Nat × Nat)) (masked : List Nat) : List Nat :=
  masked ++ (List.range (slotCount n)).filter (fun i => s.slotMasked n i (s.askedFn n reqs i))

variable {s : State} {f : Nat} {reqs : List (Nat × Nat)} {masked : List Nat}

theorem State.arbAsked_req (s : State) (n : Nat) (dropped : Bool) (reqs : List (Nat × Nat)) (masked : List Nat) (h : i < 48) :
    (s.arbAsked n dropped reqs masked).req i =
      Arb.askedReq (Arb.ofSlots n reqs) (s.askedMask n reqs masked) i ((s.arbAt n).req i) := by
  cases dropped with
  | false => exact (Arb.slotsChanged_present _ _ _).mem i (List.mem_range.2 h)
  | true => exact (Arb.slotsChanged_present _ _ _).mem i (List.mem_range.2 h)

theorem State.mem_askedMask (h : i < slotCount n) (hf : reqs.find? (fun x => x.1 == i) = some (i, f)) :
    i ∈ s.askedMask n reqs masked ↔ i ∈ masked ∨ s.slotMasked n i f = true := by
  simp [State.askedMask, State.askedFn, Arb.find?_ofSlots reqs h, hf, h]

theorem State.mem_askedMask_of_noRequester (h : slotCount n ≤ i) : i ∈ s.askedMask n reqs masked ↔ i ∈ masked := by
  simp [State.askedMask, Nat.not_lt.2 h]

/-- R299: a masked request does not wait, and its lost count is 0. -/
theorem State.arbAsked_of_masked (dropped : Bool) (h : i < slotCount n) (hf : reqs.find? (fun x => x.1 == i) = some (i, f))
    (hm : i ∈ masked ∨ s.slotMasked n i f = true) : (s.arbAsked n dropped reqs masked).req i =
      { (s.arbAt n).req i with waiting := false, masked := true, lost := 0, fn := f } := by
  have hi : i < 48 := by have := slotCount_le n; omega
  have hc : i ∈ s.askedMask n reqs masked := (State.mem_askedMask h hf).2 hm
  simp [s.arbAsked_req n dropped reqs masked hi, Arb.askedReq, Arb.find?_ofSlots reqs h, hf, hc]

theorem State.arbAsked_of_unmasked (dropped : Bool) (h : i < slotCount n) (hf : reqs.find? (fun x => x.1 == i) = some (i, f))
    (hm : i ∉ masked) (hs : s.slotMasked n i f = false) : (s.arbAsked n dropped reqs masked).req i =
      { (s.arbAt n).req i with waiting := true, masked := false, fn := f } := by
  have hi : i < 48 := by have := slotCount_le n; omega
  have hc : i ∉ s.askedMask n reqs masked := by simp [State.mem_askedMask h hf, hm, hs]
  simp [s.arbAsked_req n dropped reqs masked hi, Arb.askedReq, Arb.find?_ofSlots reqs h, hf, hc]

/-- R295: a slot without a requester asks nothing, whatever reqs lists for it. -/
theorem State.arbAsked_of_noRequester (dropped : Bool) (h : slotCount n ≤ i) (hi : i < 48) (hw : ((s.arbAt n).req i).waiting = false) :
    ((s.arbAsked n dropped reqs masked).req i).waiting = (((s.arbAt n).req i).masked && !masked.contains i) := by
  have hc : (s.askedMask n reqs masked).contains i = masked.contains i := by
    rw [Bool.eq_iff_iff, List.contains_iff_mem, List.contains_iff_mem, State.mem_askedMask_of_noRequester h]
  rw [s.arbAsked_req n dropped reqs masked hi, Arb.askedReq_waiting_of_silent (Arb.find?_ofSlots_none reqs h) hw, hc]

/-! ### ARB_ROUND -/

@[simp] theorem State.arbAt_setArbAt_same (s : State) (n : Nat) (a : Arb) : (s.setArbAt n a).arbAt n = a := Tab.get_set_same _ _ _ _

theorem State.arbAt_setArbAt_other (s : State) (a : Arb) {k : Nat} (h : k ≠ n) : (s.setArbAt n a).arbAt k = s.arbAt k :=
  Tab.get_set_other _ _ _ h

theorem State.only_setArbAt (s : State) (n : Nat) (a : Arb) : s.onlyChanges (s.setArbAt n a) [.arb] := s.only_setArb _ (by simp)

/-- Beside the arbiter itself the end of a round may raise ARB_STARVE. -/
theorem State.only_endRound (s : State) (n : Nat) (x : Arb × Bool) : s.onlyChanges (s.endRound n x) [.keeper, .arb, .fnp, .outbox] := by
  have hset := State.onlyChanges_mono (qs := [.keeper, .arb, .fnp, .outbox]) (s.only_setArbAt n x.1) (by simp)
  exact State.onlyChanges_ite (State.onlyChanges_trans hset (State.onlyChanges_mono (State.only_setKprCause _ 0) (by simp))) hset

theorem State.endRound_arb (s : State) (n : Nat) (x : Arb × Bool) : (s.endRound n x).arb = (s.setArbAt n x.1).arb := by
  unfold State.endRound
  split
  · exact State.only_setKprCause _ 0 .arb (by simp)
  · rfl

theorem State.endRound_arbAt (s : State) (n : Nat) (x : Arb × Bool) (k : Nat) : (s.endRound n x).arbAt k = (s.setArbAt n x.1).arbAt k := by
  rw [State.arbAt, State.endRound_arb, State.arbAt]

theorem State.only_arbSettle (s : State) (n : Nat) (a : Arb) : s.onlyChanges (s.arbSettle n a) [.keeper, .arb, .fnp, .outbox] :=
  State.onlyChanges_ite (State.onlyChanges_mono (s.only_setArbAt n a) (by simp)) (s.only_endRound n _)

/-- What settling leaves: the arbiter as asked, or after a round where no grant is held and it is not frozen. -/
theorem State.arbSettle_arbAt (s : State) (n : Nat) (a : Arb) :
    (s.arbSettle n a).arbAt n = if a.held || a.freeze then a else (a.round n).1 := by
  unfold State.arbSettle
  split
  · exact s.arbAt_setArbAt_same n a
  · rw [State.endRound_arbAt, State.arbAt_setArbAt_same]

theorem State.arbSettle_arbAt_other (s : State) (a : Arb) {k : Nat} (h : k ≠ n) : (s.arbSettle n a).arbAt k = s.arbAt k := by
  unfold State.arbSettle
  split
  · exact s.arbAt_setArbAt_other a h
  · rw [State.endRound_arbAt, s.arbAt_setArbAt_other _ h]

theorem exec_arbRound (n : Fin 43) (dropped : Bool) (reqs : List (Nat × Nat)) (masked : List Nat) (s : State) :
    exec (.arbRound n dropped reqs masked) s = .next (s.arbSettle n (s.arbAsked n dropped reqs masked)) := rfl

/-- No round begins while a grant is held or FREEZE is set, nor where no one waits; a committed group is then still PENDING. -/
theorem State.arbSettle_no_round (s : State) (n : Nat) (h : a.held = true ∨ a.freeze = true ∨ a.waiters = []) :
    (s.arbSettle n a).arbAt n = a := by
  rw [State.arbSettle_arbAt]
  split
  · rfl
  next hno =>
    obtain ⟨hheld, hfreeze⟩ := not_or.1 (mt (Bool.or_eq_true _ _).mpr hno)
    exact Arb.round_of_no_waiters ((h.resolve_left hheld).resolve_left hfreeze)

theorem State.arbSettle_round (s : State) (n : Nat) (hheld : a.held = false) (hfreeze : a.freeze = false) :
    (s.arbSettle n a).arbAt n = (a.round n).1 := by
  rw [State.arbSettle_arbAt, hheld, hfreeze]
  rfl

end

/-- Settles O23: the round by `Arb.round_grants`, what it sees by the lemmas on `State.arbAsked`. -/
theorem arbiterRounds : Obligations.ArbiterRounds := by
  unfold Obligations.ArbiterRounds
  refine ⟨?_, ?_⟩
  · intro n dropped reqs masked s b a hb ha
    refine ⟨s.arbSettle n b, by rw [exec_arbRound, hb], s.only_arbSettle n b, fun k hk => s.arbSettle_arbAt_other b hk,
      s.arbSettle_no_round n, fun hheld hfreeze hwait => ?_⟩
    obtain ⟨w, hw, hbest, hh, ho, hfn, hp, hgrant, hlose, hrest⟩ := Arb.round_grants ha hwait
    rw [s.arbSettle_round n hheld hfreeze]
    refine ⟨w, hw, hbest, hh, ho, hfn, hp, by rw [hgrant]; rfl, by rw [hgrant]; rfl, by rw [hgrant]; rfl, fun x hx hne => ?_, hrest⟩
    rw [hlose x hx hne]
    exact ⟨rfl, rfl, Arb.waiting_of_mem_waiters hx⟩
  · rintro n dropped reqs masked s b i f rfl hf
    refine ⟨fun hi hm => ?_, fun hi hm hs => ?_, fun hi h48 hw => State.arbAsked_of_noRequester dropped hi h48 hw⟩
    · rw [State.arbAsked_of_masked dropped hi hf hm]
      exact ⟨rfl, rfl, rfl⟩
    · rw [State.arbAsked_of_unmasked dropped hi hf hm hs]
      exact ⟨rfl, rfl, rfl, rfl⟩

end Sys2Proof.Machine
end

/-! # O44: the commit pulse

R441: the pulse's width carries the parity of the Lead's step. On another module it only reports a disagreement of the two copies (R442)
and tests for a missed commit (R238); no width of it makes the module apply a mark. -/

section
namespace Sys2Proof.Machine
section
variable {s : State} {w : Nat}

/-! ### The Lead's pulse -/

/-- With every READY in and no overflow among them the Lead sends COMMIT and then the pulse. -/
theorem State.leadCommit_outbox (hd : s.lead.decision = .go) (hr : ∀ m ∈ s.expected, s.lead.readies.has m = true)
    (ho : ∀ e ∈ s.lead.readies, e.2.ovf = false) :
    s.leadCommit.outbox = .commitPulse (if s.run.step % 2 = 0 then 1000 else 3000) ::
      .commit s.run.step (nextScale false s.run.interval s.run.lscale s.run.clean).1
        (nextScale false s.run.interval s.run.lscale s.run.clean).2 :: s.outbox := by
  have hall : s.expected.all (fun m => s.lead.readies.has m) = true := List.all_eq_true.2 hr
  have hovf : List.any s.lead.readies (fun e => e.2.ovf) = false := List.any_eq_false.2 fun e he => by simp [ho e he]
  rw [State.leadCommit, if_neg (by simp [hd, hall]), if_neg (by simp [hovf])]
  rfl

/-! ### The width -/

/-- Whether a width is that of an odd step; none outside both windows of R441. -/
def pulseParity (w : Nat) : Option Bool :=
  if 500 ≤ w && w ≤ 1500 then some false else if 2500 ≤ w && w ≤ 3500 then some true else none

theorem pulseParity_eq_even_iff (w : Nat) : pulseParity w = some false ↔ 500 ≤ w ∧ w ≤ 1500 := by
  unfold pulseParity
  split <;> simp_all

/-- The window of the odd width begins above that of the even one. -/
theorem pulseParity_eq_odd_iff (w : Nat) : pulseParity w = some true ↔ 2500 ≤ w ∧ w ≤ 3500 := by
  unfold pulseParity
  split
  next heven =>
    simp only [Bool.and_eq_true, decide_eq_true_eq] at heven
    simp
    omega
  · simp

theorem pulseParity_eq_parity_iff (w n : Nat) :
    pulseParity w = some (n % 2 == 1) ↔ n % 2 = 0 ∧ 500 ≤ w ∧ w ≤ 1500 ∨ n % 2 = 1 ∧ 2500 ≤ w ∧ w ≤ 3500 := by
  rcases Nat.mod_two_eq_zero_or_one n with hn | hn
  · simp [hn, pulseParity_eq_even_iff]
  · simp [hn, pulseParity_eq_odd_iff]

/-! ### The missed-commit test -/

@[simp] theorem State.missedCommit_run_bank (s : State) : s.missedCommit.run.bank = s.run.bank := by
  unfold State.missedCommit
  split <;> rfl

@[simp] theorem State.missedCommit_run_step (s : State) : s.missedCommit.run.step = s.run.step := by
  unfold State.missedCommit
  split <;> rfl

/-- A module that does not know yet that it missed a commit drops its shadow and asks to rejoin (R238). -/
theorem State.missedCommit_asks (h : s.run.needRejoin = false) : s.missedCommit.run.needRejoin = true ∧
    s.missedCommit.run.shadow = false ∧ s.missedCommit.outbox = .rejoin s.run.step :: s.outbox := by
  rw [State.missedCommit, if_neg (by simp [h])]
  exact ⟨rfl, rfl, rfl⟩

/-- The state with CDIS as given (R442). -/
def State.setCdis (s : State) (d : Bool) : State := s.setPwr { s.pwr with cdis := d }

@[simp] theorem State.setCdis_run (s : State) (d : Bool) : (s.setCdis d).run = s.run := rfl

@[simp] theorem State.setCdis_outbox (s : State) (d : Bool) : (s.setCdis d).outbox = s.outbox := rfl

/-- What a pulse does to a module that holds an unapplied shadow for a step of the pulse's parity, and to any other. -/
def State.testPulse (s : State) (w : Nat) : State :=
  if s.run.active && s.run.shadow && pulseParity w == some (s.run.step % 2 == 1) then s.missedCommit else s

theorem State.testPulse_missed (s : State) (ha : s.run.active = true) (hs : s.run.shadow = true)
    (hw : pulseParity w = some (s.run.step % 2 == 1)) : s.testPulse w = s.missedCommit :=
  if_pos (by simp [ha, hs, hw])

theorem State.testPulse_ignored (s : State)
    (h : s.run.active = false ∨ s.run.shadow = false ∨ pulseParity w ≠ some (s.run.step % 2 == 1)) :
    s.testPulse w = s :=
  if_neg (by rcases h with h | h | h <;> simp [h])

/-- A pulse applies no mark: neither the active bank nor the step moves. -/
theorem State.testPulse_applies_no_mark (s : State) (w : Nat) :
    (s.testPulse w).run.bank = s.run.bank ∧ (s.testPulse w).run.step = s.run.step := by
  unfold State.testPulse
  split
  · exact ⟨s.missedCommit_run_bank, s.missedCommit_run_step⟩
  · exact ⟨rfl, rfl⟩

/-- A module in operation that sees the pulse on a copy in use notes at most in CDIS that the copies disagree, and makes the test. -/
theorem exec_commitPulse (c : BitVec 2) (hop : s.pwr.meaning = .operation) (hlead : s.isLead = false)
    (hseen : ((!s.pwr.pinFault.getLsbD 2 && c.getLsbD 0) || (!s.pwr.pinFault.getLsbD 3 && c.getLsbD 1)) = true) :
    ∃ d, exec (.commitPulse w c) s = .next ((s.setCdis d).testPulse w) := by
  rw [exec, execCommitPulse, if_neg (by simp only [hop, hlead, hseen]; decide)]
  split
  · exact ⟨true, rfl⟩
  · exact ⟨s.pwr.cdis, rfl⟩

end

/-- Settles O44: the Lead's part by `State.leadCommit_outbox`, the other modules' by `exec_commitPulse` and the lemmas on `State.testPulse`. -/
theorem commitPulseParity : Obligations.CommitPulseParity := by
  unfold Obligations.CommitPulseParity
  refine ⟨fun s hd hr ho => by rw [State.leadCommit_outbox hd hr ho, List.head?_cons], fun w c s hop hlead hseen => ?_⟩
  obtain ⟨d, hexec⟩ := exec_commitPulse (w := w) c hop hlead hseen
  obtain ⟨hbank, hstep⟩ := (s.setCdis d).testPulse_applies_no_mark w
  refine ⟨_, hexec, hbank, hstep, fun ha hs hr hw => ?_, fun h => ?_⟩
  · rw [(s.setCdis d).testPulse_missed ha hs ((pulseParity_eq_parity_iff w _).2 hw)]
    exact State.missedCommit_asks hr
  · rw [(s.setCdis d).testPulse_ignored (h.imp_right (Or.imp_right (mt (pulseParity_eq_parity_iff w _).1)))]
    exact ⟨s.setCdis_run d, s.setCdis_outbox d⟩

end Sys2Proof.Machine
end

/-! # O54: frames read back

The statement asks that a frame stored in any memory reads back. Where memory is out of canonical form, writing a zero byte can leave an
old byte to be read, and the frame's header does not read back. -/

section
namespace Sys2Proof.Machine

/-- A memory that lists its bytes out of order, at a place below its first entry. -/
def Mem.misplaced : Mem := [(5, 1), (1, 7)]

/-- The header's second byte, which is 0, is not written there: the length read back is 1801, past 1096. -/
theorem decodeFrame_misplaced : decodeFrame (Mem.writeN Mem.misplaced 0 (frameBytes [(0, List.replicate 32 0)])) 0 = none := by
  decide

/-- Refutes O54: the statement ranges over memories out of canonical form too, where a zero byte of the frame leaves an old byte to be
read. -/
theorem not_framesReadBack : ¬ Obligations.FramesReadBack := by
  unfold Obligations.FramesReadBack
  intro h
  have hread := h Mem.misplaced 0 [(0, List.replicate 32 0)] (by decide) (by decide) (by decide)
  rw [decodeFrame_misplaced] at hread
  cases hread

end Sys2Proof.Machine
end

/-! # The frame: which parts of the state each function of the model changes

One lemma for each function of the model that returns a state: it changes only the parts listed. Each is an equivalence, so that `simp`
carries a comparison back through a chain of functions to the state they start from. -/

section
namespace Sys2Proof.Machine
section
variable {r s t u : State} {ps qs : List Part}

/-- After an operation that changes parts of `ps` alone, nothing but `ps` has changed if and only if that was so before it. -/
theorem State.onlyChanges_iff (h : t.onlyChanges u qs) (hq : qs ⊆ ps) : s.onlyChanges u ps ↔ s.onlyChanges t ps := by
  have back : u.onlyChanges t ps := fun p hp => by
    have := h p (fun k => hp (hq k))
    cases p <;> exact Eq.symm this
  exact ⟨fun k => State.onlyChanges_trans k back, fun k => State.onlyChanges_trans k (State.onlyChanges_mono h (fun _ hp => hq hp))⟩

@[simp] theorem State.onlyChanges_self (s : State) (ps : List Part) : s.onlyChanges s ps := s.onlyChanges_refl ps

@[simp] theorem State.onlyChanges_of_if {c : Prop} [Decidable c] :
    s.onlyChanges (if c then t else u) ps ↔ (c → s.onlyChanges t ps) ∧ (¬c → s.onlyChanges u ps) := by
  split <;> simp [*]

@[simp] theorem State.onlyChanges_of_foldl {α : Type} {f : State → α → State} (l : List α)
    (h : ∀ (s : State) (x : α), s.onlyChanges (f s x) ps) : r.onlyChanges (l.foldl f s) ps ↔ r.onlyChanges s ps :=
  State.onlyChanges_iff (State.onlyChanges_foldl f h l s) (List.Subset.refl ps)
end
end Sys2Proof.Machine
end

section
namespace Sys2Proof.Machine
section
variable {s₀ : State} {ps : List Part}

@[simp] theorem State.onlyChanges_setMem (s : State) (v : List Host.Cell) (hps : [.mem] ⊆ ps) :
    s₀.onlyChanges (s.setMem v) ps ↔ s₀.onlyChanges s ps :=
  State.onlyChanges_iff (s.only_setMem v (List.mem_singleton_self _)) hps

@[simp] theorem State.onlyChanges_setHostMem (s : State) (v : List Host.Cell) (hps : [.hostMem] ⊆ ps) :
    s₀.onlyChanges (s.setHostMem v) ps ↔ s₀.onlyChanges s ps :=
  State.onlyChanges_iff (s.only_setHostMem v (List.mem_singleton_self _)) hps

@[simp] theorem State.onlyChanges_setArr (s : State) (v : ArrPart) (hps : [.arr] ⊆ ps) :
    s₀.onlyChanges (s.setArr v) ps ↔ s₀.onlyChanges s ps :=
  State.onlyChanges_iff (s.only_setArr v (List.mem_singleton_self _)) hps

@[simp] theorem State.onlyChanges_setTgt (s : State) (v : Tab TargetSt) (hps : [.tgt] ⊆ ps) :
    s₀.onlyChanges (s.setTgt v) ps ↔ s₀.onlyChanges s ps :=
  State.onlyChanges_iff (s.only_setTgt v (List.mem_singleton_self _)) hps

@[simp] theorem State.onlyChanges_setEng (s : State) (v : EngPart) (hps : [.eng] ⊆ ps) :
    s₀.onlyChanges (s.setEng v) ps ↔ s₀.onlyChanges s ps :=
  State.onlyChanges_iff (s.only_setEng v (List.mem_singleton_self _)) hps

@[simp] theorem State.onlyChanges_setKeeper (s : State) (v : Keeper) (hps : [.keeper] ⊆ ps) :
    s₀.onlyChanges (s.setKeeper v) ps ↔ s₀.onlyChanges s ps :=
  State.onlyChanges_iff (s.only_setKeeper v (List.mem_singleton_self _)) hps

@[simp] theorem State.onlyChanges_setPair (s : State) (v : Pairing) (hps : [.pair] ⊆ ps) :
    s₀.onlyChanges (s.setPair v) ps ↔ s₀.onlyChanges s ps :=
  State.onlyChanges_iff (s.only_setPair v (List.mem_singleton_self _)) hps

@[simp] theorem State.onlyChanges_setProg (s : State) (v : ProgPart) (hps : [.prog] ⊆ ps) :
    s₀.onlyChanges (s.setProg v) ps ↔ s₀.onlyChanges s ps :=
  State.onlyChanges_iff (s.only_setProg v (List.mem_singleton_self _)) hps

@[simp] theorem State.onlyChanges_setRun (s : State) (v : Run) (hps : [.run] ⊆ ps) :
    s₀.onlyChanges (s.setRun v) ps ↔ s₀.onlyChanges s ps :=
  State.onlyChanges_iff (s.only_setRun v (List.mem_singleton_self _)) hps

@[simp] theorem State.onlyChanges_setLead (s : State) (v : Lead) (hps : [.lead] ⊆ ps) :
    s₀.onlyChanges (s.setLead v) ps ↔ s₀.onlyChanges s ps :=
  State.onlyChanges_iff (s.only_setLead v (List.mem_singleton_self _)) hps

@[simp] theorem State.onlyChanges_setServe (s : State) (v : ServePart) (hps : [.serve] ⊆ ps) :
    s₀.onlyChanges (s.setServe v) ps ↔ s₀.onlyChanges s ps :=
  State.onlyChanges_iff (s.only_setServe v (List.mem_singleton_self _)) hps

@[simp] theorem State.onlyChanges_setTier (s : State) (v : TierPart) (hps : [.tier] ⊆ ps) :
    s₀.onlyChanges (s.setTier v) ps ↔ s₀.onlyChanges s ps :=
  State.onlyChanges_iff (s.only_setTier v (List.mem_singleton_self _)) hps

@[simp] theorem State.onlyChanges_setArb (s : State) (v : Tab Arb) (hps : [.arb] ⊆ ps) :
    s₀.onlyChanges (s.setArb v) ps ↔ s₀.onlyChanges s ps :=
  State.onlyChanges_iff (s.only_setArb v (List.mem_singleton_self _)) hps

@[simp] theorem State.onlyChanges_setSched (s : State) (v : Sched) (hps : [.sched] ⊆ ps) :
    s₀.onlyChanges (s.setSched v) ps ↔ s₀.onlyChanges s ps :=
  State.onlyChanges_iff (s.only_setSched v (List.mem_singleton_self _)) hps

@[simp] theorem State.onlyChanges_setFnp (s : State) (v : FnPart) (hps : [.fnp] ⊆ ps) :
    s₀.onlyChanges (s.setFnp v) ps ↔ s₀.onlyChanges s ps :=
  State.onlyChanges_iff (s.only_setFnp v (List.mem_singleton_self _)) hps

@[simp] theorem State.onlyChanges_setLink (s : State) (v : LinkPart) (hps : [.link] ⊆ ps) :
    s₀.onlyChanges (s.setLink v) ps ↔ s₀.onlyChanges s ps :=
  State.onlyChanges_iff (s.only_setLink v (List.mem_singleton_self _)) hps

@[simp] theorem State.onlyChanges_setPwr (s : State) (v : PwrPart) (hps : [.pwr] ⊆ ps) :
    s₀.onlyChanges (s.setPwr v) ps ↔ s₀.onlyChanges s ps :=
  State.onlyChanges_iff (s.only_setPwr v (List.mem_singleton_self _)) hps

@[simp] theorem State.onlyChanges_setSec (s : State) (v : SecPart) (hps : [.sec] ⊆ ps) :
    s₀.onlyChanges (s.setSec v) ps ↔ s₀.onlyChanges s ps :=
  State.onlyChanges_iff (s.only_setSec v (List.mem_singleton_self _)) hps

@[simp] theorem State.onlyChanges_setHealth (s : State) (v : HealthPart) (hps : [.health] ⊆ ps) :
    s₀.onlyChanges (s.setHealth v) ps ↔ s₀.onlyChanges s ps :=
  State.onlyChanges_iff (s.only_setHealth v (List.mem_singleton_self _)) hps

@[simp] theorem State.onlyChanges_setOutbox (s : State) (v : List Out) (hps : [.outbox] ⊆ ps) :
    s₀.onlyChanges (s.setOutbox v) ps ↔ s₀.onlyChanges s ps :=
  State.onlyChanges_iff (s.only_setOutbox v (List.mem_singleton_self _)) hps

@[simp] theorem State.onlyChanges_setFresh (s : State) (v : Nat) (hps : [.fresh] ⊆ ps) :
    s₀.onlyChanges (s.setFresh v) ps ↔ s₀.onlyChanges s ps :=
  State.onlyChanges_iff (s.only_setFresh v (List.mem_singleton_self _)) hps

@[simp] theorem State.onlyChanges_setPending (s : State) (v : List Instr) (hps : [.pending] ⊆ ps) :
    s₀.onlyChanges (s.setPending v) ps ↔ s₀.onlyChanges s ps :=
  State.onlyChanges_iff (s.only_setPending v (List.mem_singleton_self _)) hps

@[simp] theorem State.onlyChanges_send (s : State) (o : Out) (hps : [.outbox] ⊆ ps) :
    s₀.onlyChanges (s.send o) ps ↔ s₀.onlyChanges s ps :=
  State.onlyChanges_iff (s.only_send o) hps

@[simp] theorem State.onlyChanges_useFree (s : State) (hps : [.fresh] ⊆ ps) :
    s₀.onlyChanges (s.useFree) ps ↔ s₀.onlyChanges s ps :=
  State.onlyChanges_iff (s.only_useFree) hps

@[simp] theorem State.onlyChanges_setFnSt (s : State) (f : Nat) (v : FnSt) (hps : [.fnp] ⊆ ps) :
    s₀.onlyChanges (s.setFnSt f v) ps ↔ s₀.onlyChanges s ps :=
  State.onlyChanges_iff (s.only_setFnSt f v) hps

@[simp] theorem State.onlyChanges_setMbox (s : State) (f : Nat) (v : Mailbox) (hps : [.keeper] ⊆ ps) :
    s₀.onlyChanges (s.setMbox f v) ps ↔ s₀.onlyChanges s ps :=
  State.onlyChanges_iff (s.only_setMbox f v) hps

@[simp] theorem State.onlyChanges_setArray (s : State) (t p : Nat) (v : ArraySt) (hps : [.arr] ⊆ ps) :
    s₀.onlyChanges (s.setArray t p v) ps ↔ s₀.onlyChanges s ps :=
  State.onlyChanges_iff (s.only_setArray t p v) hps

@[simp] theorem State.onlyChanges_setGallery (s : State) (t g : Nat) (v : GallerySt) (hps : [.arr] ⊆ ps) :
    s₀.onlyChanges (s.setGallery t g v) ps ↔ s₀.onlyChanges s ps :=
  State.onlyChanges_iff (s.only_setGallery t g v) hps

@[simp] theorem State.onlyChanges_setTarget (s : State) (t : Nat) (v : TargetSt) (hps : [.tgt] ⊆ ps) :
    s₀.onlyChanges (s.setTarget t v) ps ↔ s₀.onlyChanges s ps :=
  State.onlyChanges_iff (s.only_setTarget t v) hps

@[simp] theorem State.onlyChanges_setVecEng (s : State) (t e : Nat) (v : VecSt) (hps : [.eng] ⊆ ps) :
    s₀.onlyChanges (s.setVecEng t e v) ps ↔ s₀.onlyChanges s ps :=
  State.onlyChanges_iff (s.only_setVecEng t e v) hps

@[simp] theorem State.onlyChanges_setKeySt (s : State) (t f : Nat) (v : KeySt) (hps : [.eng] ⊆ ps) :
    s₀.onlyChanges (s.setKeySt t f v) ps ↔ s₀.onlyChanges s ps :=
  State.onlyChanges_iff (s.only_setKeySt t f v) hps

@[simp] theorem State.onlyChanges_setReq (s : State) (i : Nat) (r : Req) (hps : [.serve] ⊆ ps) :
    s₀.onlyChanges (s.setReq i r) ps ↔ s₀.onlyChanges s ps :=
  State.onlyChanges_iff (s.only_setReq i r) hps

@[simp] theorem State.onlyChanges_setGroup (s : State) (g : Nat) (v : GroupSt) (hps : [.serve] ⊆ ps) :
    s₀.onlyChanges (s.setGroup g v) ps ↔ s₀.onlyChanges s ps :=
  State.onlyChanges_iff (s.only_setGroup g v) hps

@[simp] theorem State.onlyChanges_setPort (s : State) (p : Nat) (v : Port) (hps : [.link] ⊆ ps) :
    s₀.onlyChanges (s.setPort p v) ps ↔ s₀.onlyChanges s ps :=
  State.onlyChanges_iff (s.only_setPort p v) hps

@[simp] theorem State.onlyChanges_setTilePwr (s : State) (t : Nat) (v : TilePwr) (hps : [.pwr] ⊆ ps) :
    s₀.onlyChanges (s.setTilePwr t v) ps ↔ s₀.onlyChanges s ps :=
  State.onlyChanges_iff (s.only_setTilePwr t v) hps

@[simp] theorem State.onlyChanges_advance (s : State) (u n : Nat) (hps : [.pwr] ⊆ ps) :
    s₀.onlyChanges (s.advance u n) ps ↔ s₀.onlyChanges s ps :=
  State.onlyChanges_iff (s.only_advance u n) hps

@[simp] theorem State.onlyChanges_second (s : State) (hps : [.link, .health] ⊆ ps) :
    s₀.onlyChanges (s.second) ps ↔ s₀.onlyChanges s ps :=
  State.onlyChanges_iff (by unfold State.second; simp) hps

@[simp] theorem State.onlyChanges_tick (s : State) (hps : [.link, .pwr, .health] ⊆ ps) :
    s₀.onlyChanges (s.tick) ps ↔ s₀.onlyChanges s ps :=
  State.onlyChanges_iff (by unfold State.tick; simp) hps

@[simp] theorem State.onlyChanges_raise (s : State) (f v : Nat) (hps : [.fnp, .outbox] ⊆ ps) :
    s₀.onlyChanges (s.raise f v) ps ↔ s₀.onlyChanges s ps :=
  State.onlyChanges_iff (s.only_raise f v) hps

@[simp] theorem State.onlyChanges_setCause (s : State) (f bit v : Nat) (hps : [.keeper, .fnp, .outbox] ⊆ ps) :
    s₀.onlyChanges (s.setCause f bit v) ps ↔ s₀.onlyChanges s ps :=
  State.onlyChanges_iff (s.only_setCause f bit v) hps

@[simp] theorem State.onlyChanges_setKprCause (s : State) (bit : Nat) (hps : [.keeper, .fnp, .outbox] ⊆ ps) :
    s₀.onlyChanges (s.setKprCause bit) ps ↔ s₀.onlyChanges s ps :=
  State.onlyChanges_iff (s.only_setKprCause bit) hps

@[simp] theorem State.onlyChanges_deliver (s : State) (f : Nat) (e : Event) (hps : [.keeper, .fnp, .outbox] ⊆ ps) :
    s₀.onlyChanges (s.deliver f e) ps ↔ s₀.onlyChanges s ps :=
  State.onlyChanges_iff (s.only_deliver f e) hps

@[simp] theorem State.onlyChanges_post (s : State) (f : Nat) (code seq : Nat) (data : List Byte) (hps : [.keeper, .fnp, .outbox] ⊆ ps) :
    s₀.onlyChanges (s.post f code seq data) ps ↔ s₀.onlyChanges s ps :=
  State.onlyChanges_iff (s.only_post f code seq data) hps

@[simp] theorem State.onlyChanges_owe (s : State) (i : Instr) (hps : [.keeper] ⊆ ps) :
    s₀.onlyChanges (s.owe i) ps ↔ s₀.onlyChanges s ps :=
  State.onlyChanges_iff (s.only_owe i) hps

@[simp] theorem State.onlyChanges_opDone (s : State) (o : LongOp) (code : Nat) (hps : [.keeper, .fnp, .outbox] ⊆ ps) :
    s₀.onlyChanges (s.opDone o code) ps ↔ s₀.onlyChanges s ps :=
  State.onlyChanges_iff (s.only_opDone o code) hps

@[simp] theorem State.onlyChanges_logHealth (s : State) (e : Event) (hps : [.health] ⊆ ps) :
    s₀.onlyChanges (s.logHealth e) ps ↔ s₀.onlyChanges s ps :=
  State.onlyChanges_iff (s.only_logHealth e) hps

@[simp] theorem State.onlyChanges_fogMerge (s : State) (code subject : Nat) (wit : List Nat) (cnt : Nat) (hps : [.link] ⊆ ps) :
    s₀.onlyChanges (s.fogMerge code subject wit cnt) ps ↔ s₀.onlyChanges s ps :=
  State.onlyChanges_iff (s.only_fogMerge code subject wit cnt) hps

@[simp] theorem State.onlyChanges_fogNote (s : State) (code subject : Nat) (hps : [.link] ⊆ ps) :
    s₀.onlyChanges (s.fogNote code subject) ps ↔ s₀.onlyChanges s ps :=
  State.onlyChanges_iff (s.only_fogNote code subject) hps

@[simp] theorem State.onlyChanges_healthEvent (s : State) (code tile unit addr count : Nat) (hps : [.keeper, .fnp, .link, .health, .outbox] ⊆ ps) :
    s₀.onlyChanges (s.healthEvent code tile unit addr count) ps ↔ s₀.onlyChanges s ps :=
  State.onlyChanges_iff (s.only_healthEvent code tile unit addr count) hps

@[simp] theorem State.onlyChanges_complete (s : State) (m : MCmd) (code : Nat) (resp : List Byte) (hps : [.keeper, .fnp, .outbox] ⊆ ps) :
    s₀.onlyChanges (s.complete m code resp) ps ↔ s₀.onlyChanges s ps :=
  State.onlyChanges_iff (s.only_complete m code resp) hps

@[simp] theorem State.onlyChanges_accept (s : State) (m : MCmd) (k : OpKind) (opcode : Nat) (hps : [.keeper, .fnp, .outbox] ⊆ ps) :
    s₀.onlyChanges (s.accept m k opcode) ps ↔ s₀.onlyChanges s ps :=
  State.onlyChanges_iff (s.only_accept m k opcode) hps

@[simp] theorem State.onlyChanges_writeOut (s : State) (es : List Extent) (bs : List Byte) (hps : [.mem, .hostMem] ⊆ ps) :
    s₀.onlyChanges (s.writeOut es bs) ps ↔ s₀.onlyChanges s ps := by
  induction es generalizing s bs with
  | nil => rfl
  | cons e es ih =>
    have one : s₀.onlyChanges (if e.1 = 0 then s.setHostMem (Mem.writeN s.hostMem e.2.1 (bs.take e.2.2))
        else s.setMem (Mem.writeN s.mem (0x20000000000 + s.tier.windowBase * 2 ^ 30 + e.2.1) (bs.take e.2.2))) ps ↔
        s₀.onlyChanges s ps := by split <;> simp_all
    rw [State.writeOut]
    split
    · exact one
    · rw [ih]; exact one

@[simp] theorem State.onlyChanges_intake (s : State) (i : Instr) (m : MCmd) (n : Nat) (pf ok : Bool) (body : State → State)
    (hps : [.keeper, .fnp, .outbox] ⊆ ps) (hb : s.onlyChanges (body s) ps) : s.onlyChanges (s.intake i m n pf ok body) ps :=
  s.only_intake i m n pf ok body hb (hps (by simp)) (hps (by simp)) (hps (by simp))

@[simp] theorem State.onlyChanges_setDrnStat (s : State) (t p : Nat) (v : NumStat) (hps : [.arr] ⊆ ps) :
    s₀.onlyChanges (s.setDrnStat t p v) ps ↔ s₀.onlyChanges s ps :=
  State.onlyChanges_iff (by unfold State.setDrnStat; simp) hps

@[simp] theorem State.onlyChanges_setCust (s : State) (t : Nat) (v : CustSt) (hps : [.arr] ⊆ ps) :
    s₀.onlyChanges (s.setCust t v) ps ↔ s₀.onlyChanges s ps :=
  State.onlyChanges_iff (s.only_setCust t v) hps

@[simp] theorem State.onlyChanges_custSettle (s : State) (t : Nat) (hps : [.arr] ⊆ ps) :
    s₀.onlyChanges (s.custSettle t) ps ↔ s₀.onlyChanges s ps :=
  State.onlyChanges_iff (s.only_custSettle t) hps

@[simp] theorem State.onlyChanges_settleWaits (s : State) (t : Nat) (hps : [.tgt] ⊆ ps) :
    s₀.onlyChanges (s.settleWaits t) ps ↔ s₀.onlyChanges s ps :=
  State.onlyChanges_iff (s.only_settleWaits t) hps

@[simp] theorem State.onlyChanges_keysSettle (s : State) (t : Nat) (hps : [.eng] ⊆ ps) :
    s₀.onlyChanges (s.keysSettle t) ps ↔ s₀.onlyChanges s ps :=
  State.onlyChanges_iff (s.only_keysSettle t) hps

@[simp] theorem State.onlyChanges_dropWork (s : State) (h : Nat) (hps : [.arr, .tgt, .eng] ⊆ ps) :
    s₀.onlyChanges (s.dropWork h) ps ↔ s₀.onlyChanges s ps :=
  State.onlyChanges_iff (s.only_dropWork h) hps

@[simp] theorem State.onlyChanges_setEngSched (s : State) (k : Nat) (v : EngSched) (hps : [.sched] ⊆ ps) :
    s₀.onlyChanges (s.setEngSched k v) ps ↔ s₀.onlyChanges s ps :=
  State.onlyChanges_iff (by unfold State.setEngSched; simp) hps

@[simp] theorem State.onlyChanges_startTurn (s : State) (k f : Nat) (hps : [.sched] ⊆ ps) :
    s₀.onlyChanges (s.startTurn k f) ps ↔ s₀.onlyChanges s ps :=
  State.onlyChanges_iff (by unfold State.startTurn; simp) hps

@[simp] theorem State.onlyChanges_serveTurn (s : State) (c : Src) (tile kind num : Nat) (hps : [.sched] ⊆ ps) :
    s₀.onlyChanges (s.serveTurn c tile kind num) ps ↔ s₀.onlyChanges s ps :=
  State.onlyChanges_iff (s.only_serveTurn c tile kind num) hps

@[simp] theorem State.onlyChanges_phaseStart (s : State) (p : Phase) (hps : [.run] ⊆ ps) :
    s₀.onlyChanges (s.phaseStart p) ps ↔ s₀.onlyChanges s ps :=
  State.onlyChanges_iff (s.only_phaseStart p) hps

@[simp] theorem State.onlyChanges_phaseStop (s : State) (p : Phase) (hps : [.run] ⊆ ps) :
    s₀.onlyChanges (s.phaseStop p) ps ↔ s₀.onlyChanges s ps :=
  State.onlyChanges_iff (s.only_phaseStop p) hps

@[simp] theorem State.onlyChanges_settlePhases (s : State) (hps : [.run] ⊆ ps) :
    s₀.onlyChanges (s.settlePhases) ps ↔ s₀.onlyChanges s ps :=
  State.onlyChanges_iff (s.only_settlePhases) hps

@[simp] theorem State.onlyChanges_settleProg (s : State) (h : Nat) (hps : [.prog] ⊆ ps) :
    s₀.onlyChanges (s.settleProg h) ps ↔ s₀.onlyChanges s ps :=
  State.onlyChanges_iff (s.only_settleProg h) hps

@[simp] theorem State.onlyChanges_took (s : State) (c : Src) (tile kind num : Nat) (hps : [.prog, .sched] ⊆ ps) :
    s₀.onlyChanges (s.took c tile kind num) ps ↔ s₀.onlyChanges s ps :=
  State.onlyChanges_iff (s.only_took c tile kind num) hps

@[simp] theorem State.onlyChanges_cmdDone (s : State) (c : Src) (tile kind num : Nat) (hps : [.prog, .run] ⊆ ps) :
    s₀.onlyChanges (s.cmdDone c tile kind num) ps ↔ s₀.onlyChanges s ps :=
  State.onlyChanges_iff (s.only_cmdDone c tile kind num) hps

@[simp] theorem State.onlyChanges_finish (s : State) (c : Src) (tile kind num : Nat) (hps : [.prog, .run, .sched] ⊆ ps) :
    s₀.onlyChanges (s.finish c tile kind num) ps ↔ s₀.onlyChanges s ps :=
  State.onlyChanges_iff (s.only_finish c tile kind num) hps

@[simp] theorem State.onlyChanges_poison (s : State) (c : Src) (tile kind num : Nat) (hps : [.prog] ⊆ ps) :
    s₀.onlyChanges (s.poison c tile kind num) ps ↔ s₀.onlyChanges s ps :=
  State.onlyChanges_iff (by unfold State.poison; split <;> simp) hps

@[simp] theorem State.onlyChanges_faultStop (s : State) (h : Nat) (hps : [.arr, .tgt, .eng, .prog, .run] ⊆ ps) :
    s₀.onlyChanges (s.faultStop h) ps ↔ s₀.onlyChanges s ps :=
  State.onlyChanges_iff (s.only_faultStop h) hps

@[simp] theorem State.onlyChanges_holdQueue (s : State) (h tile kind num : Nat) (hps : [.prog] ⊆ ps) :
    s₀.onlyChanges (s.holdQueue h tile kind num) ps ↔ s₀.onlyChanges s ps :=
  State.onlyChanges_iff (s.only_holdQueue h tile kind num) hps

@[simp] theorem State.onlyChanges_programFault (s : State) (c : Src) (code tile kind num : Nat) (hps : [.arr, .tgt, .eng, .keeper, .prog, .run, .fnp, .outbox] ⊆ ps) :
    s₀.onlyChanges (s.programFault c code tile kind num) ps ↔ s₀.onlyChanges s ps :=
  State.onlyChanges_iff (s.only_programFault c code tile kind num) hps

@[simp] theorem State.onlyChanges_setArbAt (s : State) (n : Nat) (a : Arb) (hps : [.arb] ⊆ ps) :
    s₀.onlyChanges (s.setArbAt n a) ps ↔ s₀.onlyChanges s ps :=
  State.onlyChanges_iff (s.only_setArbAt n a) hps

end
end Sys2Proof.Machine
end

section
namespace Sys2Proof.Machine
section
variable {s₀ u : State} {ps : List Part}

@[simp] theorem State.onlyChanges_endRound (s : State) (n : Nat) (x : Arb × Bool) (hps : [.keeper, .arb, .fnp, .outbox] ⊆ ps) :
    s₀.onlyChanges (s.endRound n x) ps ↔ s₀.onlyChanges s ps :=
  State.onlyChanges_iff (s.only_endRound n x) hps

@[simp] theorem State.onlyChanges_arbSettle (s : State) (n : Nat) (a : Arb) (hps : [.keeper, .arb, .fnp, .outbox] ⊆ ps) :
    s₀.onlyChanges (s.arbSettle n a) ps ↔ s₀.onlyChanges s ps :=
  State.onlyChanges_iff (s.only_arbSettle n a) hps

@[simp] theorem State.onlyChanges_freezeArb (s : State) (n : Nat) (v : Bool) (hps : [.keeper, .arb, .fnp, .outbox] ⊆ ps) :
    s₀.onlyChanges (s.freezeArb n v) ps ↔ s₀.onlyChanges s ps :=
  State.onlyChanges_iff (by unfold State.freezeArb; simp) hps

@[simp] theorem State.onlyChanges_maskFn (s : State) (f : Nat) (hps : [.arb] ⊆ ps) :
    s₀.onlyChanges (s.maskFn f) ps ↔ s₀.onlyChanges s ps :=
  State.onlyChanges_iff (by unfold State.maskFn; simp) hps

@[simp] theorem State.onlyChanges_denied (s : State) (hps : [.keeper, .fnp, .outbox] ⊆ ps) :
    s₀.onlyChanges (s.denied) ps ↔ s₀.onlyChanges s ps :=
  State.onlyChanges_iff (by unfold State.denied; simp) hps

@[simp] theorem State.onlyChanges_writeArbCommit (s : State) (n : Nat) (value : Word) (hps : [.keeper, .arb, .fnp, .outbox] ⊆ ps) :
    s₀.onlyChanges (s.writeArbCommit n value) ps ↔ s₀.onlyChanges s ps :=
  State.onlyChanges_iff (by unfold State.writeArbCommit; simp) hps

@[simp] theorem State.onlyChanges_writeArbCtrl (s : State) (n : Nat) (value : Word) (hps : [.keeper, .arb, .fnp, .outbox] ⊆ ps) :
    s₀.onlyChanges (s.writeArbCtrl n value) ps ↔ s₀.onlyChanges s ps :=
  State.onlyChanges_iff (by unfold State.writeArbCtrl; simp) hps

@[simp] theorem State.onlyChanges_setCarrier (s : State) (c : Nat) (v : Carrier) (hps : [.tier] ⊆ ps) :
    s₀.onlyChanges (s.setCarrier c v) ps ↔ s₀.onlyChanges s ps :=
  State.onlyChanges_iff (by unfold State.setCarrier; simp) hps

@[simp] theorem State.onlyChanges_stopRun (s : State) (why : StopReason) (hps : [.run] ⊆ ps) :
    s₀.onlyChanges (s.stopRun why) ps ↔ s₀.onlyChanges s ps :=
  State.onlyChanges_iff (by unfold State.stopRun; simp) hps

@[simp] theorem State.onlyChanges_declareFailure (s : State) (reader : Src) (a : Nat) (hps : [.tier] ⊆ ps) :
    s₀.onlyChanges (s.declareFailure reader a) ps ↔ s₀.onlyChanges s ps :=
  State.onlyChanges_iff (by unfold State.declareFailure; simp) hps

@[simp] theorem State.onlyChanges_joinRecovery (s : State) (reader : Src) (us : List Nat) (hps : [.tier] ⊆ ps) :
    s₀.onlyChanges (s.joinRecovery reader us) ps ↔ s₀.onlyChanges s ps :=
  State.onlyChanges_iff (by unfold State.joinRecovery; simp) hps

@[simp] theorem State.onlyChanges_readOr (s : State) (src : Src) (tile kind num : Nat) (rs : List (Nat × Nat)) (go : State → State)
    (hps : [.arr, .tgt, .eng, .keeper, .prog, .run, .tier, .fnp, .outbox] ⊆ ps) (hgo : s.onlyChanges (go s) ps) :
    s₀.onlyChanges (s.readOr src tile kind num rs go) ps ↔ s₀.onlyChanges s ps := by
  simp only [List.cons_subset] at hps
  unfold State.readOr
  split
  · exact State.onlyChanges_iff hgo (List.Subset.refl ps)
  · split <;> simp [hps]

@[simp] theorem State.onlyChanges_markFailed (s : State) (rs : List (Nat × Nat)) (hps : [.tier] ⊆ ps) :
    s₀.onlyChanges (s.markFailed rs) ps ↔ s₀.onlyChanges s ps :=
  State.onlyChanges_iff (s.only_markFailed rs) hps

@[simp] theorem State.onlyChanges_clearFailed (s : State) (rs : List (Nat × Nat)) (hps : [.tier] ⊆ ps) :
    s₀.onlyChanges (s.clearFailed rs) ps ↔ s₀.onlyChanges s ps :=
  State.onlyChanges_iff (by unfold State.clearFailed; simp) hps

@[simp] theorem State.onlyChanges_retireUnit (s : State) (a : Nat) (hps : [.tier, .health] ⊆ ps) :
    s₀.onlyChanges (s.retireUnit a) ps ↔ s₀.onlyChanges s ps :=
  State.onlyChanges_iff (by unfold State.retireUnit; simp only []; split <;> (try split) <;> simp) hps

@[simp] theorem State.onlyChanges_retireEvent (s : State) (a cls : Nat) (early had : Bool) (hps : [.keeper, .fnp, .link, .health, .outbox] ⊆ ps) :
    s₀.onlyChanges (s.retireEvent a cls early had) ps ↔ s₀.onlyChanges s ps :=
  State.onlyChanges_iff (by unfold State.retireEvent; simp) hps

@[simp] theorem State.onlyChanges_setAway (s : State) (t g : Nat) (fs : List Nat) (hps : [.sched] ⊆ ps) :
    s₀.onlyChanges (s.setAway t g fs) ps ↔ s₀.onlyChanges s ps :=
  State.onlyChanges_iff (by unfold State.setAway; simp) hps

@[simp] theorem State.onlyChanges_saveWindow (s : State) (t g : Nat) (f : Fn) (hps : [.arr, .sched] ⊆ ps) :
    s₀.onlyChanges (s.saveWindow t g f) ps ↔ s₀.onlyChanges s ps :=
  State.onlyChanges_iff (by unfold State.saveWindow; simp) hps

@[simp] theorem State.onlyChanges_restoreWindow (s : State) (t g : Nat) (f : Fn) (hps : [.arr, .sched] ⊆ ps) :
    s₀.onlyChanges (s.restoreWindow t g f) ps ↔ s₀.onlyChanges s ps :=
  State.onlyChanges_iff (by unfold State.restoreWindow; simp) hps

@[simp] theorem State.onlyChanges_shrinkWindow (s : State) (f : Fn) (n : Nat) (hps : [.arr, .prog, .sched] ⊆ ps) :
    s₀.onlyChanges (s.shrinkWindow f n) ps ↔ s₀.onlyChanges s ps := by
  refine State.onlyChanges_iff ?_ hps
  unfold State.shrinkWindow
  simp only []
  refine (State.onlyChanges_setArr _ _ (by simp)).2 ((State.onlyChanges_setProg _ _ (by simp)).2 (State.onlyChanges_foldl _ (fun s k => ?_) _ _))
  simp

@[simp] theorem State.onlyChanges_moveDrained (s : State) (t g : Nat) (f : Fn) (old new : Nat) (hps : [.arr, .eng] ⊆ ps) :
    s₀.onlyChanges (s.moveDrained t g f old new) ps ↔ s₀.onlyChanges s ps :=
  State.onlyChanges_iff (by unfold State.moveDrained; simp) hps

@[simp] theorem State.onlyChanges_moveWindow (s : State) (t g : Nat) (f : Fn) (old : Window) (hps : [.arr, .eng, .sched] ⊆ ps) :
    s₀.onlyChanges (s.moveWindow t g f old) ps ↔ s₀.onlyChanges s ps :=
  State.onlyChanges_iff (by unfold State.moveWindow; simp) hps

@[simp] theorem State.onlyChanges_settleMove (s : State) (t g : Nat) (f : Fn) (hps : [.arr, .eng, .sched] ⊆ ps) :
    s₀.onlyChanges (s.settleMove t g f) ps ↔ s₀.onlyChanges s ps :=
  State.onlyChanges_iff (by unfold State.settleMove; split <;> simp) hps

@[simp] theorem State.onlyChanges_admitTurn (s : State) (t g : Nat) (f : Fn) (hps : [.arr, .eng, .sched] ⊆ ps) :
    s₀.onlyChanges (s.admitTurn t g f) ps ↔ s₀.onlyChanges s ps :=
  State.onlyChanges_iff (by unfold State.admitTurn; simp) hps

@[simp] theorem State.onlyChanges_release (s : State) (t a first : Nat) (f : Fn) (hps : [.arr] ⊆ ps) :
    s₀.onlyChanges (s.release t a first f) ps ↔ s₀.onlyChanges s ps :=
  State.onlyChanges_iff (by unfold State.release; simp) hps

@[simp] theorem State.onlyChanges_drainEnds (s : State) (t a first : Nat) (src : Src) (also : Option Nat) (owed : List (Nat × List Byte)) (hps : [.mem, .arr, .prog, .run] ⊆ ps) :
    s₀.onlyChanges (s.drainEnds t a first src also owed) ps ↔ s₀.onlyChanges s ps :=
  State.onlyChanges_iff (by unfold State.drainEnds; split <;> simp) hps

@[simp] theorem State.onlyChanges_runProduct (s : State) (t g i : Nat) (src : Src) (w : List Word) (mism : Bool) (stream : List (List FVal)) (hps : [.arr, .fresh] ⊆ ps) :
    s₀.onlyChanges (s.runProduct t g i src w mism stream) ps ↔ s₀.onlyChanges s ps :=
  State.onlyChanges_iff (by unfold State.runProduct; simp) hps

@[simp] theorem State.onlyChanges_countTurn (s : State) (t g : Nat) (st : NumStat) (hps : [.eng] ⊆ ps) :
    s₀.onlyChanges (s.countTurn t g st) ps ↔ s₀.onlyChanges s ps :=
  State.onlyChanges_iff (by unfold State.countTurn; simp) hps

@[simp] theorem State.onlyChanges_feedOne (s : State) (t g : Nat) (hps : [.arr] ⊆ ps) :
    s₀.onlyChanges (s.feedOne t g) ps ↔ s₀.onlyChanges s ps :=
  State.onlyChanges_iff (by unfold State.feedOne; simp only []; split <;> (try split) <;> simp) hps

@[simp] theorem State.onlyChanges_feed (s : State) (t g : Nat) (hps : [.arr] ⊆ ps) :
    s₀.onlyChanges (s.feed t g) ps ↔ s₀.onlyChanges s ps :=
  State.onlyChanges_iff (by unfold State.feed; simp) hps

@[simp] theorem State.onlyChanges_takeShare (s : State) (t g i : Nat) (w : WaitOp) (hps : [.arr] ⊆ ps) :
    s₀.onlyChanges (s.takeShare t g i w).1 ps ↔ s₀.onlyChanges s ps := by
  refine State.onlyChanges_iff ?_ hps
  unfold State.takeShare
  simp only []
  split <;> simp

@[simp] theorem State.onlyChanges_startProduct (s : State) (t g i : Nat) (w : WaitOp)
    (hps : [.arr, .tgt, .eng, .keeper, .prog, .run, .fnp, .outbox, .fresh] ⊆ ps) :
    s₀.onlyChanges (s.startProduct t g i w) ps ↔ s₀.onlyChanges s ps := by
  refine State.onlyChanges_iff (State.onlyChanges_trans (t := (s.takeShare t g i w).1) (by simp) ?_) hps
  unfold State.startProduct
  generalize s.takeShare t g i w = x
  obtain ⟨s, w⟩ := x
  simp only []
  split
  · simp
  · simp
  · simp

@[simp] theorem State.onlyChanges_commitStaged (s : State) (t f : Nat) (hps : [.eng] ⊆ ps) :
    s₀.onlyChanges (s.commitStaged t f) ps ↔ s₀.onlyChanges s ps :=
  State.onlyChanges_iff (by unfold State.commitStaged; simp) hps

@[simp] theorem State.onlyChanges_commitKey (s : State) (f j : Nat) (v : DWord) (hps : [.eng] ⊆ ps) :
    s₀.onlyChanges (s.commitKey f j v) ps ↔ s₀.onlyChanges s ps :=
  State.onlyChanges_iff (by unfold State.commitKey; simp) hps

@[simp] theorem State.onlyChanges_cutSteps (s : State) (whole : GroupSt → Bool) (gone : List Nat) (hps : [.eng, .serve] ⊆ ps) :
    s₀.onlyChanges (s.cutSteps whole gone) ps ↔ s₀.onlyChanges s ps :=
  State.onlyChanges_iff (by unfold State.cutSteps; simp) hps

@[simp] theorem State.onlyChanges_retireProg (s : State) (h : Nat) (hps : [.arr, .tgt, .eng, .prog, .serve, .tier, .sched] ⊆ ps) :
    s₀.onlyChanges (s.retireProg h) ps ↔ s₀.onlyChanges s ps := by
  refine State.onlyChanges_iff ?_ hps
  unfold State.retireProg
  split <;> simp

@[simp] theorem State.onlyChanges_claimGroup (s : State) (h : Nat) (hps : [.serve] ⊆ ps) :
    s₀.onlyChanges (s.claimGroup h) ps ↔ s₀.onlyChanges s ps :=
  State.onlyChanges_iff (by unfold State.claimGroup; split <;> simp) hps

@[simp] theorem State.onlyChanges_applyServeReplace (s : State) (g : Nat) (hps : [.arr, .tgt, .eng, .prog, .serve, .tier, .sched] ⊆ ps) :
    s₀.onlyChanges (s.applyServeReplace g) ps ↔ s₀.onlyChanges s ps :=
  by
    refine State.onlyChanges_iff ?_ hps
    unfold State.applyServeReplace
    simp only []
    repeat' split
    all_goals simp

@[simp] theorem State.onlyChanges_freePageList (s : State) (g : Nat) (c : ServingCfg) (ks : List Nat) (hps : [.serve] ⊆ ps) :
    s₀.onlyChanges (s.freePageList g c ks) ps ↔ s₀.onlyChanges s ps :=
  State.onlyChanges_iff (by unfold State.freePageList; simp) hps

@[simp] theorem State.onlyChanges_trimPages (s : State) (q : Req) (n : Nat) (hps : [.mem, .serve] ⊆ ps) :
    s₀.onlyChanges (s.trimPages q n).1 ps ↔ s₀.onlyChanges s ps := by
  refine State.onlyChanges_iff ?_ hps
  unfold State.trimPages
  split <;> simp

@[simp] theorem State.onlyChanges_leave (s : State) (i : Nat) (q : Req) (hps : [.mem, .serve, .fnp] ⊆ ps) :
    s₀.onlyChanges (s.leave i q) ps ↔ s₀.onlyChanges s ps := by
  refine State.onlyChanges_iff (State.onlyChanges_trans (t := (s.trimPages q 0).1) (by simp) ?_) hps
  unfold State.leave
  generalize s.trimPages q 0 = x
  obtain ⟨s, -⟩ := x
  simp

@[simp] theorem State.onlyChanges_reqDone (s : State) (i : Nat) (q : Req) (hps : [.keeper, .fnp, .outbox] ⊆ ps) :
    s₀.onlyChanges (s.reqDone i q) ps ↔ s₀.onlyChanges s ps :=
  State.onlyChanges_iff (by unfold State.reqDone; simp) hps

@[simp] theorem State.onlyChanges_leaveAll (s : State) (hps : [.mem, .eng, .serve, .fnp] ⊆ ps) :
    s₀.onlyChanges s.leaveAll.1 ps ↔ s₀.onlyChanges s ps :=
  State.onlyChanges_iff (by unfold State.leaveAll; simp) hps

@[simp] theorem State.onlyChanges_growWindow (s : State) (f : Fn) (size : Nat) (hps : [.arr, .eng, .prog, .sched] ⊆ ps) :
    s₀.onlyChanges (s.growWindow f size) ps ↔ s₀.onlyChanges s ps :=
  State.onlyChanges_iff (by unfold State.growWindow; simp) hps

@[simp] theorem State.onlyChanges_charge (s : State) (f : Nat) (g : FnAcct → FnAcct) (hps : [.fnp] ⊆ ps) :
    s₀.onlyChanges (s.charge f g) ps ↔ s₀.onlyChanges s ps :=
  State.onlyChanges_iff (by unfold State.charge; simp) hps

@[simp] theorem State.onlyChanges_chargeTo (s : State) (c : Nat) (g : CustAcct → CustAcct) (hps : [.fnp] ⊆ ps) :
    s₀.onlyChanges (s.chargeTo c g) ps ↔ s₀.onlyChanges s ps :=
  State.onlyChanges_iff (by unfold State.chargeTo; simp) hps

end
end Sys2Proof.Machine
end

section
namespace Sys2Proof.Machine
section
variable {s₀ u : State} {ps : List Part}

@[simp] theorem State.onlyChanges_addTime (s : State) (f cls n : Nat) (hps : [.fnp] ⊆ ps) :
    s₀.onlyChanges (s.addTime f cls n) ps ↔ s₀.onlyChanges s ps :=
  State.onlyChanges_iff (by unfold State.addTime; simp) hps

@[simp] theorem State.onlyChanges_chargeRec (s : State) (k : Nat) (g : FnAcct → FnAcct) (hps : [.fnp] ⊆ ps) :
    s₀.onlyChanges (s.chargeRec k g) ps ↔ s₀.onlyChanges s ps :=
  State.onlyChanges_iff (by unfold State.chargeRec; split <;> simp) hps

@[simp] theorem State.onlyChanges_chargeStep (s : State) (tile f n : Nat) (g : Nat → FnAcct → FnAcct) (hps : [.fnp] ⊆ ps) :
    s₀.onlyChanges (s.chargeStep tile f n g) ps ↔ s₀.onlyChanges s ps :=
  State.onlyChanges_iff (by unfold State.chargeStep; split <;> simp) hps

@[simp] theorem State.onlyChanges_addBytes (s : State) (tile f cls n : Nat) (hps : [.fnp] ⊆ ps) :
    s₀.onlyChanges (s.addBytes tile f cls n) ps ↔ s₀.onlyChanges s ps :=
  State.onlyChanges_iff (by unfold State.addBytes; simp) hps

@[simp] theorem State.onlyChanges_countBytes (s : State) (tile f a n : Nat) (write : Bool) (hps : [.fnp] ⊆ ps) :
    s₀.onlyChanges (s.countBytes tile f a n write) ps ↔ s₀.onlyChanges s ps :=
  State.onlyChanges_iff (by unfold State.countBytes; split <;> simp) hps

@[simp] theorem State.onlyChanges_countOvf (s : State) (t source : Nat) (ovf : Bool) (hps : [.eng, .run] ⊆ ps) :
    s₀.onlyChanges (s.countOvf t source ovf) ps ↔ s₀.onlyChanges s ps :=
  State.onlyChanges_iff (by unfold State.countOvf; simp) hps

@[simp] theorem State.onlyChanges_writeFrame (s : State) (t p : Nat) (f : Fn) (r : PackRec) (ncol row col : Nat) (vals : List FVal) (hps : [.mem, .eng, .fnp] ⊆ ps) :
    s₀.onlyChanges (s.writeFrame t p f r ncol row col vals) ps ↔ s₀.onlyChanges s ps :=
  State.onlyChanges_iff (by unfold State.writeFrame; simp) hps

theorem State.onlyChanges_packOne (s : State) (t p : Nat) (x : PackTile) (hps : [.mem, .eng, .prog, .run, .fnp] ⊆ ps)
    (h : s.packOne t p x = some u) : s₀.onlyChanges u ps ↔ s₀.onlyChanges s ps := by
  refine State.onlyChanges_iff ?_ hps
  unfold State.packOne at h
  simp only [] at h
  split at h
  · cases h
  · cases h; simp

@[simp] theorem State.onlyChanges_packPump (s : State) (t p : Nat) (hps : [.mem, .arr, .eng, .prog, .run, .fnp] ⊆ ps) :
    s₀.onlyChanges (s.packPump t p) ps ↔ s₀.onlyChanges s ps := by
  refine State.onlyChanges_iff ?_ hps
  unfold State.packPump
  refine State.onlyChanges_foldl _ (fun s x => ?_) _ _
  split
  · simp
  · simp [State.onlyChanges_packOne _ _ _ _ _ ‹_›]

@[simp] theorem State.onlyChanges_packArrive (s : State) (t p : Nat) (x : PackTile) (hps : [.mem, .arr, .eng, .prog, .run, .fnp] ⊆ ps) :
    s₀.onlyChanges (s.packArrive t p x) ps ↔ s₀.onlyChanges s ps :=
  State.onlyChanges_iff (by unfold State.packArrive; simp) hps

@[simp] theorem State.onlyChanges_noteSsq (s : State) (src : Src) (r : DrainRec) (a : Nat) (hps : [.run] ⊆ ps) :
    s₀.onlyChanges (s.noteSsq src r a) ps ↔ s₀.onlyChanges s ps :=
  State.onlyChanges_iff (by unfold State.noteSsq; split <;> simp) hps

@[simp] theorem State.onlyChanges_runDrain (s : State) (j : DrainJob) (old : List (X32 × X32)) (norm : X32) (stop : Option Nat)
    (vals : List X32 × List X32) (hps : [.mem, .arr, .eng, .prog, .run, .tier, .fnp, .fresh] ⊆ ps) :
    s₀.onlyChanges (s.runDrain j old norm stop vals) ps ↔ s₀.onlyChanges s ps := by
  refine State.onlyChanges_iff ?_ hps
  unfold State.runDrain
  simp only []
  refine State.onlyChanges_of_if.2 ⟨fun _ => ?_, fun _ => ?_⟩
  · split <;> simp
  · simp

theorem State.onlyChanges_startDrain (s : State) (t a : Nat) (src : Src) (w ext : List Word) (sideFailed : BitVec 64) (stop : Option Nat)
    (hps : [.mem, .arr, .tgt, .eng, .keeper, .prog, .run, .tier, .fnp, .outbox, .fresh] ⊆ ps)
    (h : s.startDrain t a src w ext sideFailed stop = some u) : s₀.onlyChanges u ps ↔ s₀.onlyChanges s ps := by
  refine State.onlyChanges_iff ?_ hps
  unfold State.startDrain at h
  simp only [] at h
  repeat' split at h
  all_goals cases h
  all_goals simp

@[simp] theorem State.onlyChanges_resumeDrain (s : State) (t a : Nat) (l : Lease) (x : DrainPart) (stop : Option Nat) (hps : [.mem, .arr, .eng, .prog, .run, .tier, .sched, .fnp, .fresh] ⊆ ps) :
    s₀.onlyChanges (s.resumeDrain t a l x stop) ps ↔ s₀.onlyChanges s ps :=
  State.onlyChanges_iff (by unfold State.resumeDrain; simp) hps

@[simp] theorem State.onlyChanges_countMismatch (s : State) (t p n : Nat) (hps : [.arr, .health] ⊆ ps) :
    s₀.onlyChanges (s.countMismatch t p n) ps ↔ s₀.onlyChanges s ps :=
  State.onlyChanges_iff (by unfold State.countMismatch; simp) hps

@[simp] theorem State.onlyChanges_commitCust (s : State) (t : Nat) (hps : [.arr] ⊆ ps) :
    s₀.onlyChanges (s.commitCust t) ps ↔ s₀.onlyChanges s ps :=
  State.onlyChanges_iff (by unfold State.commitCust; simp) hps

@[simp] theorem State.onlyChanges_offBus (s : State) (t : Nat) (b : BusTile) (hps : [.arr, .tgt] ⊆ ps) :
    s₀.onlyChanges (s.offBus t b) ps ↔ s₀.onlyChanges s ps :=
  State.onlyChanges_iff (by unfold State.offBus; simp) hps

@[simp] theorem State.onlyChanges_busTake (s : State) (t : Nat) (b : BusTile) (hps : [.mem, .arr, .tgt, .prog, .run, .sched] ⊆ ps) :
    s₀.onlyChanges (s.busTake t b) ps ↔ s₀.onlyChanges s ps :=
  State.onlyChanges_iff (by unfold State.busTake; simp) hps

@[simp] theorem State.onlyChanges_busWait (s : State) (t : Nat) (b : BusTile) (hps : [.arr, .tgt] ⊆ ps) :
    s₀.onlyChanges (s.busWait t b) ps ↔ s₀.onlyChanges s ps :=
  State.onlyChanges_iff (by unfold State.busWait; simp) hps

@[simp] theorem State.onlyChanges_busFail (s : State) (t : Nat) (b : BusTile) (hps : [.arr, .tgt, .eng, .keeper, .prog, .run, .fnp, .outbox] ⊆ ps) :
    s₀.onlyChanges (s.busFail t b) ps ↔ s₀.onlyChanges s ps :=
  State.onlyChanges_iff (by unfold State.busFail; simp) hps

@[simp] theorem State.onlyChanges_writeRecord (s : State) (t p : Nat) (spill : Bool) (pairs : List Word) (w : SlotWord) (hps : [.mem, .tgt] ⊆ ps) :
    s₀.onlyChanges (s.writeRecord t p spill pairs w) ps ↔ s₀.onlyChanges s ps :=
  State.onlyChanges_iff (by unfold State.writeRecord; simp) hps

@[simp] theorem State.onlyChanges_dropRecord (s : State) (t p : Nat) (hps : [.tgt] ⊆ ps) :
    s₀.onlyChanges (s.dropRecord t p) ps ↔ s₀.onlyChanges s ps :=
  State.onlyChanges_iff (by unfold State.dropRecord; simp) hps

@[simp] theorem State.onlyChanges_closePos (s : State) (t p : Nat) (hps : [.mem, .tgt, .run] ⊆ ps) :
    s₀.onlyChanges (s.closePos t p) ps ↔ s₀.onlyChanges s ps :=
  State.onlyChanges_iff (by unfold State.closePos; simp only []; split <;> simp) hps

@[simp] theorem State.onlyChanges_writeRing (s : State) (r : HostRing) (hps : [.hostMem] ⊆ ps) :
    s₀.onlyChanges (s.writeRing r) ps ↔ s₀.onlyChanges s ps :=
  State.onlyChanges_iff (by unfold State.writeRing; simp) hps

@[simp] theorem State.onlyChanges_ringPut (s : State) (x : HostRing) (bs : List Byte) (hps : [.hostMem] ⊆ ps) :
    s₀.onlyChanges (s.ringPut x bs).1 ps ↔ s₀.onlyChanges s ps :=
  State.onlyChanges_iff (by unfold State.ringPut; simp) hps

@[simp] theorem State.onlyChanges_flushReports (n : Nat) (s : State) (hps : [.hostMem, .keeper, .run, .fnp, .outbox] ⊆ ps) :
    s₀.onlyChanges (State.flushReports n s) ps ↔ s₀.onlyChanges s ps := by
  refine State.onlyChanges_iff ?_ hps
  induction n generalizing s with
  | zero => simp [State.flushReports]
  | succ n ih =>
    unfold State.flushReports
    split
    · simp
    · split
      · simp
      · refine State.onlyChanges_trans ?_ (ih _)
        simp

@[simp] theorem State.onlyChanges_putReport (s : State) (bs : List Byte) (event : Bool) (hps : [.hostMem, .keeper, .run, .fnp, .outbox] ⊆ ps) :
    s₀.onlyChanges (s.putReport bs event) ps ↔ s₀.onlyChanges s ps :=
  State.onlyChanges_iff (by unfold State.putReport; simp) hps

@[simp] theorem State.onlyChanges_clearStreams (s : State) (hps : [.arr, .tgt, .eng] ⊆ ps) :
    s₀.onlyChanges (s.clearStreams) ps ↔ s₀.onlyChanges s ps :=
  State.onlyChanges_iff (by unfold State.clearStreams; simp) hps

@[simp] theorem State.onlyChanges_startRollout (s : State) (t : Nat) (hps : [.run, .serve] ⊆ ps) :
    s₀.onlyChanges (s.startRollout t) ps ↔ s₀.onlyChanges s ps :=
  State.onlyChanges_iff (by unfold State.startRollout; simp) hps

@[simp] theorem State.onlyChanges_startRollouts (s : State) (hps : [.run, .serve] ⊆ ps) :
    s₀.onlyChanges (s.startRollouts) ps ↔ s₀.onlyChanges s ps :=
  State.onlyChanges_iff (by unfold State.startRollouts; simp) hps

@[simp] theorem State.onlyChanges_writeSummary (s : State) (hps : [.hostMem, .keeper, .run, .lead, .fnp, .outbox] ⊆ ps) :
    s₀.onlyChanges (s.writeSummary) ps ↔ s₀.onlyChanges s ps :=
  State.onlyChanges_iff (by unfold State.writeSummary; split <;> simp) hps

@[simp] theorem State.onlyChanges_noteStepReport (s : State) (m step : Nat) (words : List Nat) (hps : [.hostMem, .keeper, .run, .lead, .fnp, .outbox] ⊆ ps) :
    s₀.onlyChanges (s.noteStepReport m step words) ps ↔ s₀.onlyChanges s ps :=
  State.onlyChanges_iff (by unfold State.noteStepReport; simp) hps

@[simp] theorem State.onlyChanges_sendPlain (s : State) (p kind dest : Nat) (hps : [.outbox] ⊆ ps) :
    s₀.onlyChanges (s.sendPlain p kind dest) ps ↔ s₀.onlyChanges s ps :=
  State.onlyChanges_iff (by unfold State.sendPlain; simp) hps

@[simp] theorem State.onlyChanges_emit (s : State) (p : Nat) (k : Packet) (hps : [.link, .outbox] ⊆ ps) :
    s₀.onlyChanges (s.emit p k) ps ↔ s₀.onlyChanges s ps :=
  State.onlyChanges_iff (by unfold State.emit; simp) hps

@[simp] theorem State.onlyChanges_pump (n p : Nat) (s : State) (hps : [.link, .outbox] ⊆ ps) :
    s₀.onlyChanges (State.pump n p s) ps ↔ s₀.onlyChanges s ps := by
  refine State.onlyChanges_iff ?_ hps
  induction n generalizing s with
  | zero => simp [State.pump]
  | succ n ih =>
    unfold State.pump
    simp only []
    split
    · simp
    · split
      · refine State.onlyChanges_trans ?_ (ih _)
        simp
      · simp

@[simp] theorem State.onlyChanges_enqueue (s : State) (p : Nat) (k : Packet) (hps : [.link, .outbox] ⊆ ps) :
    s₀.onlyChanges (s.enqueue p k) ps ↔ s₀.onlyChanges s ps :=
  State.onlyChanges_iff (by unfold State.enqueue; simp) hps

@[simp] theorem State.onlyChanges_sendVia (s : State) (came : Option Nat) (k : Packet) (hps : [.link, .outbox] ⊆ ps) :
    s₀.onlyChanges (s.sendVia came k) ps ↔ s₀.onlyChanges s ps :=
  State.onlyChanges_iff (by unfold State.sendVia; split <;> simp) hps

@[simp] theorem State.onlyChanges_sendTo (s : State) (k : Packet) (hps : [.link, .outbox] ⊆ ps) :
    s₀.onlyChanges (s.sendTo k) ps ↔ s₀.onlyChanges s ps :=
  State.onlyChanges_iff (by unfold State.sendTo; simp) hps

@[simp] theorem State.onlyChanges_sendBytes (s : State) (move dest off : Nat) (bs : List Byte) (hps : [.link, .outbox] ⊆ ps) :
    s₀.onlyChanges (s.sendBytes move dest off bs) ps ↔ s₀.onlyChanges s ps :=
  State.onlyChanges_iff (by unfold State.sendBytes; simp) hps

@[simp] theorem State.onlyChanges_openMove (s : State) (move dest bytes : Nat) (hps : [.link] ⊆ ps) :
    s₀.onlyChanges (s.openMove move dest bytes) ps ↔ s₀.onlyChanges s ps :=
  State.onlyChanges_iff (by unfold State.openMove; simp) hps

end
end Sys2Proof.Machine
end

section
namespace Sys2Proof.Machine
section
variable {s₀ u : State} {ps : List Part}

@[simp] theorem State.onlyChanges_runChain (s : State) (t e : Nat) (x : ChainPart) (stop : Option Nat) (hps : [.mem, .eng, .prog, .run, .tier, .fresh] ⊆ ps) :
    s₀.onlyChanges (s.runChain t e x stop) ps ↔ s₀.onlyChanges s ps :=
  State.onlyChanges_iff (by unfold State.runChain; simp) hps

@[simp] theorem State.onlyChanges_noteUpdOvf (s : State) (t : Nat) (ovf : Bool) (hps : [.eng, .run] ⊆ ps) :
    s₀.onlyChanges (s.noteUpdOvf t ovf) ps ↔ s₀.onlyChanges s ps :=
  State.onlyChanges_iff (by unfold State.noteUpdOvf; simp) hps

@[simp] theorem State.onlyChanges_vecNote (s : State) (t e : Nat) (st : NumStat) (hps : [.eng] ⊆ ps) :
    s₀.onlyChanges (s.vecNote t e st) ps ↔ s₀.onlyChanges s ps :=
  State.onlyChanges_iff (by unfold State.vecNote; simp) hps

@[simp] theorem State.onlyChanges_runPrepass (s : State) (t e : Nat) (r : UpdRec) (d : GroupDesc) (hps : [.mem, .eng, .run] ⊆ ps) :
    s₀.onlyChanges (s.runPrepass t e r d) ps ↔ s₀.onlyChanges s ps :=
  State.onlyChanges_iff (by unfold State.runPrepass; simp) hps

@[simp] theorem State.onlyChanges_updateRange (s : State) (t e : Nat) (x : UpdPart) (d : GroupDesc) (n0 n1 : Nat) (hps : [.mem, .eng, .run, .fnp] ⊆ ps) :
    s₀.onlyChanges (s.updateRange t e x d n0 n1) ps ↔ s₀.onlyChanges s ps :=
  State.onlyChanges_iff (by unfold State.updateRange; simp) hps

@[simp] theorem State.onlyChanges_updateEnd (s : State) (t e : Nat) (r : UpdRec) (d : GroupDesc) (hps : [.mem, .eng, .fresh] ⊆ ps) :
    s₀.onlyChanges (s.updateEnd t e r d) ps ↔ s₀.onlyChanges s ps :=
  State.onlyChanges_iff (by unfold State.updateEnd; simp) hps

@[simp] theorem State.onlyChanges_updateDone (s : State) (t e : Nat) (src : Src) (prepass : Bool) (hps : [.run] ⊆ ps) :
    s₀.onlyChanges (s.updateDone t e src prepass) ps ↔ s₀.onlyChanges s ps :=
  State.onlyChanges_iff (by unfold State.updateDone; simp) hps

@[simp] theorem State.onlyChanges_runUpdate (s : State) (t e : Nat) (x : UpdPart) (d : GroupDesc) (stop : Option Nat) (hps : [.mem, .eng, .prog, .run, .fnp, .fresh] ⊆ ps) :
    s₀.onlyChanges (s.runUpdate t e x d stop) ps ↔ s₀.onlyChanges s ps :=
  State.onlyChanges_iff (by unfold State.runUpdate; simp) hps

@[simp] theorem State.onlyChanges_setShard (s : State) (i : Nat) (v : ShardSt) (hps : [.run] ⊆ ps) :
    s₀.onlyChanges (s.setShard i v) ps ↔ s₀.onlyChanges s ps :=
  State.onlyChanges_iff (by unfold State.setShard; simp) hps

@[simp] theorem State.onlyChanges_copyToMirror (s : State) (d : ShardDesc) (g : GroupDesc) (hps : [.mem] ⊆ ps) :
    s₀.onlyChanges (s.copyToMirror d g) ps ↔ s₀.onlyChanges s ps :=
  State.onlyChanges_iff (by unfold State.copyToMirror; split <;> simp) hps

@[simp] theorem State.onlyChanges_closeShard (s : State) (i : Nat) (d : ShardDesc) (hps : [.mem, .run] ⊆ ps) :
    s₀.onlyChanges (s.closeShard i d) ps ↔ s₀.onlyChanges s ps :=
  State.onlyChanges_iff (by unfold State.closeShard; simp only []; split <;> simp) hps

@[simp] theorem State.onlyChanges_tryClose (s : State) (i : Nat) (d : ShardDesc) (hps : [.mem, .run] ⊆ ps) :
    s₀.onlyChanges (s.tryClose i d) ps ↔ s₀.onlyChanges s ps :=
  State.onlyChanges_iff (by unfold State.tryClose; simp) hps

@[simp] theorem State.onlyChanges_fetched (s : State) (a n : Nat) (hps : [.keeper, .run, .fnp, .outbox] ⊆ ps) :
    s₀.onlyChanges (s.fetched a n) ps ↔ s₀.onlyChanges s ps :=
  State.onlyChanges_iff (by unfold State.fetched; simp only []; split <;> simp) hps

@[simp] theorem State.onlyChanges_missedCommit (s : State) (hps : [.run, .outbox] ⊆ ps) :
    s₀.onlyChanges (s.missedCommit) ps ↔ s₀.onlyChanges s ps :=
  State.onlyChanges_iff (by unfold State.missedCommit; simp) hps

@[simp] theorem State.onlyChanges_lateOvf (s : State) (hps : [.run, .lead, .outbox] ⊆ ps) :
    s₀.onlyChanges (s.lateOvf) ps ↔ s₀.onlyChanges s ps :=
  State.onlyChanges_iff (by unfold State.lateOvf; simp) hps

@[simp] theorem State.onlyChanges_forwardMirror (s : State) (i : Nat) (d : ShardDesc) (hps : [.mem, .outbox] ⊆ ps) :
    s₀.onlyChanges (s.forwardMirror i d) ps ↔ s₀.onlyChanges s ps :=
  State.onlyChanges_iff (by unfold State.forwardMirror; split <;> simp) hps

@[simp] theorem State.onlyChanges_contribute (s : State) (i : Nat) (d : ShardDesc) (hps : [.mem, .run, .outbox] ⊆ ps) :
    s₀.onlyChanges (s.contribute i d) ps ↔ s₀.onlyChanges s ps :=
  State.onlyChanges_iff (by unfold State.contribute; simp) hps

@[simp] theorem State.onlyChanges_takeArrivals (s : State) (src move off len : Nat) (hps : [.link, .outbox] ⊆ ps) :
    s₀.onlyChanges (s.takeArrivals src move off len) ps ↔ s₀.onlyChanges s ps :=
  State.onlyChanges_iff (by unfold State.takeArrivals; simp) hps

@[simp] theorem State.onlyChanges_freeSources (s : State) (p : Prog) (d : ReshardDesc) (hps : [.tier] ⊆ ps) :
    s₀.onlyChanges (s.freeSources p d) ps ↔ s₀.onlyChanges s ps :=
  State.onlyChanges_iff (by unfold State.freeSources; simp) hps

@[simp] theorem State.onlyChanges_applyTeacher (s : State) (img : WeightImage) (hps : [.mem, .tgt, .pair] ⊆ ps) :
    s₀.onlyChanges (s.applyTeacher img) ps ↔ s₀.onlyChanges s ps :=
  State.onlyChanges_iff (by unfold State.applyTeacher; simp) hps

@[simp] theorem State.onlyChanges_applyStudent (s : State) (img : WeightImage) (hps : [.mem, .pair] ⊆ ps) :
    s₀.onlyChanges (s.applyStudent img) ps ↔ s₀.onlyChanges s ps :=
  State.onlyChanges_iff (by unfold State.applyStudent; simp) hps

@[simp] theorem State.onlyChanges_refreshOver (s : State) (h : HeldRefresh) (k : OpKind) (code : Nat) (hps : [.keeper, .fnp, .outbox] ⊆ ps) :
    s₀.onlyChanges (s.refreshOver h k code) ps ↔ s₀.onlyChanges s ps :=
  State.onlyChanges_iff (by unfold State.refreshOver; simp) hps

@[simp] theorem State.onlyChanges_applyHeldTeacher (s : State) (hps : [.mem, .tgt, .keeper, .pair, .fnp, .outbox] ⊆ ps) :
    s₀.onlyChanges (s.applyHeldTeacher) ps ↔ s₀.onlyChanges s ps :=
  State.onlyChanges_iff (by unfold State.applyHeldTeacher; split <;> simp) hps

@[simp] theorem State.onlyChanges_applyHeldStudent (s : State) (hps : [.mem, .keeper, .pair, .fnp, .outbox] ⊆ ps) :
    s₀.onlyChanges (s.applyHeldStudent) ps ↔ s₀.onlyChanges s ps :=
  State.onlyChanges_iff (by unfold State.applyHeldStudent; split <;> simp) hps

@[simp] theorem State.onlyChanges_applyHeld (s : State) (hps : [.mem, .tgt, .keeper, .pair, .fnp, .outbox] ⊆ ps) :
    s₀.onlyChanges (s.applyHeld) ps ↔ s₀.onlyChanges s ps :=
  State.onlyChanges_iff (by unfold State.applyHeld; simp) hps

@[simp] theorem State.onlyChanges_snapDonePost (s : State) (seq : Option (Fn × Nat)) (code state step index : Nat) (hps : [.keeper, .fnp, .outbox] ⊆ ps) :
    s₀.onlyChanges (s.snapDonePost seq code state step index) ps ↔ s₀.onlyChanges s ps :=
  State.onlyChanges_iff (by unfold State.snapDonePost; simp) hps

@[simp] theorem State.onlyChanges_startSnap (s : State) (ring : HostRing) (seq : Option (Fn × Nat)) (outside : Bool) (hps : [.hostMem, .keeper, .run, .fnp, .outbox] ⊆ ps) :
    s₀.onlyChanges (s.startSnap ring seq outside) ps ↔ s₀.onlyChanges s ps :=
  State.onlyChanges_iff (by unfold State.startSnap; simp) hps

@[simp] theorem State.onlyChanges_endSnap (s : State) (state : Nat) (hps : [.hostMem, .keeper, .run, .fnp, .outbox] ⊆ ps) :
    s₀.onlyChanges (s.endSnap state) ps ↔ s₀.onlyChanges s ps :=
  State.onlyChanges_iff (by unfold State.endSnap; split <;> simp) hps

@[simp] theorem State.onlyChanges_abandonSnaps (s : State) (hps : [.hostMem, .keeper, .run, .fnp, .outbox] ⊆ ps) :
    s₀.onlyChanges (s.abandonSnaps) ps ↔ s₀.onlyChanges s ps :=
  State.onlyChanges_iff (by unfold State.abandonSnaps; simp) hps

@[simp] theorem State.onlyChanges_tableInForce (s : State) (t : SizeTable) (f : Fn) (seq : Nat) (hps : [.keeper, .run, .fnp, .link, .outbox] ⊆ ps) :
    s₀.onlyChanges (s.tableInForce t f seq) ps ↔ s₀.onlyChanges s ps :=
  State.onlyChanges_iff (by unfold State.tableInForce; simp) hps

@[simp] theorem State.onlyChanges_applyShrink (s : State) (hps : [.keeper, .run, .fnp, .link, .outbox] ⊆ ps) :
    s₀.onlyChanges (s.applyShrink) ps ↔ s₀.onlyChanges s ps :=
  State.onlyChanges_iff (by unfold State.applyShrink; split <;> simp) hps

@[simp] theorem State.onlyChanges_settleTable (s : State) (hps : [.keeper, .run, .fnp, .link, .outbox] ⊆ ps) :
    s₀.onlyChanges (s.settleTable) ps ↔ s₀.onlyChanges s ps :=
  State.onlyChanges_iff (by unfold State.settleTable; split <;> simp) hps

end
end Sys2Proof.Machine
end

section
namespace Sys2Proof.Machine
section
variable {s₀ u : State} {ps : List Part} {k : Nat} {ks ks' : List Nat} {q' : Req}

@[simp] theorem State.onlyChanges_endRun (s : State) (why : StopReason) (hps : [.mem, .arr, .tgt, .eng, .keeper, .prog, .run, .lead, .serve, .fnp, .link, .outbox] ⊆ ps) :
    s₀.onlyChanges (s.endRun why) ps ↔ s₀.onlyChanges s ps :=
  State.onlyChanges_iff (by unfold State.endRun; simp only []; split <;> (try split) <;> simp) hps

@[simp] theorem State.onlyChanges_writeLscale (s : State) (v : Word) (hps : [.tgt] ⊆ ps) :
    s₀.onlyChanges (s.writeLscale v) ps ↔ s₀.onlyChanges s ps :=
  State.onlyChanges_iff (by unfold State.writeLscale; simp) hps

@[simp] theorem State.onlyChanges_noteAbsent (s : State) (hps : [.keeper, .run, .fnp, .link, .health, .outbox] ⊆ ps) :
    s₀.onlyChanges (s.noteAbsent) ps ↔ s₀.onlyChanges s ps :=
  State.onlyChanges_iff (by unfold State.noteAbsent; simp) hps

@[simp] theorem State.onlyChanges_roundOver (s : State) (hps : [.eng, .prog, .tier] ⊆ ps) :
    s₀.onlyChanges (s.roundOver) ps ↔ s₀.onlyChanges s ps :=
  State.onlyChanges_iff (by unfold State.roundOver; split <;> simp) hps

@[simp] theorem State.onlyChanges_nextStep (s : State) (carry : Bool) (hps : [.keeper, .run, .lead, .serve, .fnp, .link, .health, .outbox] ⊆ ps) :
    s₀.onlyChanges (s.nextStep carry) ps ↔ s₀.onlyChanges s ps :=
  State.onlyChanges_iff (by unfold State.nextStep; simp) hps

@[simp] theorem State.onlyChanges_reportStep (s : State) (skip : Bool) (lscale : Word) (clean : Nat) (hps : [.hostMem, .keeper, .run, .lead, .fnp, .outbox] ⊆ ps) :
    s₀.onlyChanges (s.reportStep skip lscale clean) ps ↔ s₀.onlyChanges s ps :=
  State.onlyChanges_iff (by unfold State.reportStep; simp) hps

@[simp] theorem State.onlyChanges_applyReplace (s : State) (hps : [.arr, .tgt, .eng, .prog, .run, .serve, .tier, .sched] ⊆ ps) :
    s₀.onlyChanges (s.applyReplace) ps ↔ s₀.onlyChanges s ps :=
  State.onlyChanges_iff (by unfold State.applyReplace; simp only []; split <;> (try split) <;> simp) hps

@[simp] theorem State.onlyChanges_atBoundary (s : State) (skip : Bool) (lscale : Word) (clean : Nat) (hps : [.mem, .hostMem, .arr, .tgt, .eng, .keeper, .pair, .prog, .run, .lead, .serve, .tier, .sched, .fnp, .link, .health, .outbox] ⊆ ps) :
    s₀.onlyChanges (s.atBoundary skip lscale clean) ps ↔ s₀.onlyChanges s ps :=
  State.onlyChanges_iff (by unfold State.atBoundary; simp only []; split <;> simp) hps

@[simp] theorem State.onlyChanges_decideSkip (s : State) (hps : [.lead, .outbox] ⊆ ps) :
    s₀.onlyChanges (s.decideSkip) ps ↔ s₀.onlyChanges s ps :=
  State.onlyChanges_iff (by unfold State.decideSkip; simp) hps

@[simp] theorem State.onlyChanges_decideGo (s : State) (ws : List Word) (hps : [.lead, .outbox] ⊆ ps) :
    s₀.onlyChanges (s.decideGo ws) ps ↔ s₀.onlyChanges s ps :=
  State.onlyChanges_iff (by unfold State.decideGo; simp) hps

@[simp] theorem State.onlyChanges_leadDecide (s : State) (hps : [.lead, .outbox] ⊆ ps) :
    s₀.onlyChanges s.leadDecide ps ↔ s₀.onlyChanges s ps := by
  refine State.onlyChanges_iff ?_ hps
  unfold State.leadDecide
  simp only []
  split <;> simp

@[simp] theorem State.onlyChanges_leadCommit (s : State) (hps : [.lead, .outbox] ⊆ ps) :
    s₀.onlyChanges (s.leadCommit) ps ↔ s₀.onlyChanges s ps :=
  State.onlyChanges_iff (by unfold State.leadCommit; simp) hps

@[simp] theorem State.onlyChanges_failModule (s : State) (m : Nat) (hps : [.lead, .outbox] ⊆ ps) :
    s₀.onlyChanges (s.failModule m) ps ↔ s₀.onlyChanges s ps :=
  State.onlyChanges_iff (by unfold State.failModule; simp only []; split <;> (try split) <;> simp) hps

@[simp] theorem State.onlyChanges_failFogged (s : State) (hps : [.lead, .outbox] ⊆ ps) :
    s₀.onlyChanges (s.failFogged) ps ↔ s₀.onlyChanges s ps :=
  State.onlyChanges_iff (by unfold State.failFogged; simp) hps

@[simp] theorem State.onlyChanges_rejoin (s : State) (step : Nat) (lscale : Word) (clean : Nat) (hps : [.tgt, .keeper, .prog, .run, .fnp, .outbox] ⊆ ps) :
    s₀.onlyChanges (s.rejoin step lscale clean) ps ↔ s₀.onlyChanges s ps :=
  State.onlyChanges_iff (by unfold State.rejoin; simp only []; split <;> simp) hps

@[simp] theorem State.onlyChanges_catchStep (s : State) (step : Nat) (lscale : Word) (clean : Nat) (hps : [.tgt, .keeper, .prog, .run, .fnp, .outbox] ⊆ ps) :
    s₀.onlyChanges (s.catchStep step lscale clean) ps ↔ s₀.onlyChanges s ps :=
  State.onlyChanges_iff (by unfold State.catchStep; simp) hps

@[simp] theorem State.onlyChanges_missAgain (s : State) (step : Nat) (lscale : Word) (clean : Nat) (hps : [.tgt, .keeper, .prog, .run, .fnp, .outbox] ⊆ ps) :
    s₀.onlyChanges (s.missAgain step lscale clean) ps ↔ s₀.onlyChanges s ps :=
  State.onlyChanges_iff (by unfold State.missAgain; simp) hps

@[simp] theorem State.onlyChanges_writeUcb (s : State) (k : Word) (hps : [.mem] ⊆ ps) :
    s₀.onlyChanges (s.writeUcb k) ps ↔ s₀.onlyChanges s ps :=
  State.onlyChanges_iff (by unfold State.writeUcb; simp) hps

@[simp] theorem State.onlyChanges_takeReady (s : State) (m : Nat) (r : LeadReady) (hps : [.lead] ⊆ ps) :
    s₀.onlyChanges (s.takeReady m r) ps ↔ s₀.onlyChanges s ps :=
  State.onlyChanges_iff (by unfold State.takeReady; simp) hps

@[simp] theorem State.onlyChanges_floorStop (s : State) (hps : [.keeper, .run, .fnp, .outbox] ⊆ ps) :
    s₀.onlyChanges (s.floorStop) ps ↔ s₀.onlyChanges s ps :=
  State.onlyChanges_iff (by unfold State.floorStop; simp) hps

@[simp] theorem State.onlyChanges_copyShard (s : State) (d : ShardDesc) (g m : GroupDesc) (hps : [.mem] ⊆ ps) :
    s₀.onlyChanges (s.copyShard d g m) ps ↔ s₀.onlyChanges s ps :=
  State.onlyChanges_iff (by unfold State.copyShard; simp) hps

@[simp] theorem State.onlyChanges_refetchMirror (s : State) (i : Nat) (hps : [.mem, .keeper, .fnp, .link, .health, .outbox] ⊆ ps) :
    s₀.onlyChanges (s.refetchMirror i) ps ↔ s₀.onlyChanges s ps := by
  refine State.onlyChanges_iff ?_ hps
  unfold State.refetchMirror
  split
  · simp
  · split
    · simp
    · split <;> simp

@[simp] theorem State.onlyChanges_flipBank (s : State) (hps : [.run] ⊆ ps) :
    s₀.onlyChanges (s.flipBank) ps ↔ s₀.onlyChanges s ps :=
  State.onlyChanges_iff (by unfold State.flipBank; simp) hps

@[simp] theorem State.onlyChanges_dropUpdates (s : State) (hps : [.eng, .prog] ⊆ ps) :
    s₀.onlyChanges (s.dropUpdates) ps ↔ s₀.onlyChanges s ps :=
  State.onlyChanges_iff (by unfold State.dropUpdates; simp only []; split <;> simp) hps

@[simp] theorem State.onlyChanges_leadLost (s : State) (hps : [.mem, .arr, .tgt, .eng, .keeper, .prog, .run, .lead, .serve, .fnp, .link, .health, .outbox] ⊆ ps) :
    s₀.onlyChanges (s.leadLost) ps ↔ s₀.onlyChanges s ps :=
  State.onlyChanges_iff (by unfold State.leadLost; simp) hps

@[simp] theorem State.onlyChanges_putAt (s : State) (p : Place) (off : Nat) (bs : List Byte) (hps : [.mem, .link, .outbox] ⊆ ps) :
    s₀.onlyChanges (s.putAt p off bs) ps ↔ s₀.onlyChanges s ps :=
  State.onlyChanges_iff (by unfold State.putAt; split <;> simp) hps

@[simp] theorem State.onlyChanges_closeMove (s : State) (p : Place) (hps : [.link] ⊆ ps) :
    s₀.onlyChanges (s.closeMove p) ps ↔ s₀.onlyChanges s ps :=
  State.onlyChanges_iff (by unfold State.closeMove; split <;> simp) hps

@[simp] theorem State.onlyChanges_putLive (s : State) (p : Place) (a off : Nat) (bs : List Byte) (hps : [.mem, .link, .outbox] ⊆ ps) :
    s₀.onlyChanges (s.putLive p a off bs) ps ↔ s₀.onlyChanges s ps := by
  refine State.onlyChanges_iff ?_ hps
  induction bs generalizing s a off with
  | nil => simp [State.putLive]
  | cons b bs ih =>
    unfold State.putLive
    refine State.onlyChanges_trans ?_ (ih _ _ _)
    simp

@[simp] theorem State.onlyChanges_countPlace (s : State) (t : Nat) (f : Fn) (p : Place) (n : Nat) (write : Bool) (hps : [.fnp] ⊆ ps) :
    s₀.onlyChanges (s.countPlace t f p n write) ps ↔ s₀.onlyChanges s ps :=
  State.onlyChanges_iff (by unfold State.countPlace; split <;> simp) hps

@[simp] theorem State.onlyChanges_setLaser (s : State) (i : Nat) (v : Laser) (hps : [.link] ⊆ ps) :
    s₀.onlyChanges (s.setLaser i v) ps ↔ s₀.onlyChanges s ps :=
  State.onlyChanges_iff (by unfold State.setLaser; simp) hps

@[simp] theorem State.onlyChanges_portDown (s : State) (p : Nat) (hps : [.link, .outbox] ⊆ ps) :
    s₀.onlyChanges (s.portDown p) ps ↔ s₀.onlyChanges s ps :=
  State.onlyChanges_iff (by unfold State.portDown; simp) hps

@[simp] theorem State.onlyChanges_checkLight (s : State) (hps : [.link, .outbox] ⊆ ps) :
    s₀.onlyChanges (s.checkLight) ps ↔ s₀.onlyChanges s ps :=
  State.onlyChanges_iff (by unfold State.checkLight; simp) hps

@[simp] theorem State.onlyChanges_portEvent (s : State) (code p subject : Nat) (hps : [.keeper, .fnp, .link, .health, .outbox] ⊆ ps) :
    s₀.onlyChanges (s.portEvent code p subject) ps ↔ s₀.onlyChanges s ps :=
  State.onlyChanges_iff (by unfold State.portEvent; simp) hps

@[simp] theorem State.onlyChanges_trainFails (s : State) (p : Nat) (miscabled : Bool) (o : TrainObs) (hps : [.keeper, .fnp, .link, .health, .outbox] ⊆ ps) :
    s₀.onlyChanges (s.trainFails p miscabled o) ps ↔ s₀.onlyChanges s ps :=
  State.onlyChanges_iff (by unfold State.trainFails; simp) hps

@[simp] theorem State.onlyChanges_train (s : State) (p : Nat) (o : TrainObs) (hps : [.keeper, .fnp, .link, .health, .outbox] ⊆ ps) :
    s₀.onlyChanges (s.train p o) ps ↔ s₀.onlyChanges s ps :=
  State.onlyChanges_iff (by unfold State.train; split <;> simp) hps

@[simp] theorem State.onlyChanges_acked (s : State) (p ackseq : Nat) (hps : [.link, .outbox] ⊆ ps) :
    s₀.onlyChanges (s.acked p ackseq) ps ↔ s₀.onlyChanges s ps :=
  State.onlyChanges_iff (by unfold State.acked; simp only []; split <;> simp) hps

@[simp] theorem State.onlyChanges_keepData (s : State) (k : Packet) (hps : [.link] ⊆ ps) :
    s₀.onlyChanges (s.keepData k) ps ↔ s₀.onlyChanges s ps :=
  State.onlyChanges_iff (by unfold State.keepData; simp) hps

@[simp] theorem State.onlyChanges_accepted (s : State) (p : Nat) (k : Packet) (hps : [.link, .outbox] ⊆ ps) :
    s₀.onlyChanges (s.accepted p k) ps ↔ s₀.onlyChanges s ps :=
  State.onlyChanges_iff (by unfold State.accepted; simp) hps

theorem State.onlyChanges_addRegion (s : State) (x : Region) (hps : [.tier] ⊆ ps) (h : s.addRegion x = some (u, k)) :
    s₀.onlyChanges u ps ↔ s₀.onlyChanges s ps := by
  obtain ⟨i, -, hi⟩ := Option.bind_eq_some_iff.1 h
  split at hi
  · cases hi; exact State.onlyChanges_iff (by simp) hps
  · cases hi

@[simp] theorem State.onlyChanges_moveOut (f : Fn) (fuel : Nat) (s : State) (es : List Extent) (a n : Nat) (hps : [.mem, .hostMem, .fnp] ⊆ ps) :
    s₀.onlyChanges (State.moveOut f fuel s es a n) ps ↔ s₀.onlyChanges s ps := by
  refine State.onlyChanges_iff ?_ hps
  induction fuel generalizing s es a n with
  | zero => simp [State.moveOut]
  | succ fuel ih =>
    unfold State.moveOut
    split
    · simp
    · refine State.onlyChanges_trans ?_ (ih _ _ _ _)
      simp

@[simp] theorem State.onlyChanges_countTransient (s : State) (a : Nat) (hps : [.tier, .health] ⊆ ps) :
    s₀.onlyChanges (s.countTransient a) ps ↔ s₀.onlyChanges s ps :=
  State.onlyChanges_iff (by unfold State.countTransient; simp only []; split <;> simp) hps

@[simp] theorem State.onlyChanges_recoverA (s : State) (f : FailedUnit) (h : Nat) (p : Prog) (cmds : List (Nat × Nat)) (hps : [.keeper, .prog, .tier, .fnp, .link, .health, .outbox] ⊆ ps) :
    s₀.onlyChanges (s.recoverA f h p cmds) ps ↔ s₀.onlyChanges s ps :=
  State.onlyChanges_iff (by unfold State.recoverA; simp) hps

@[simp] theorem State.onlyChanges_recoverOut (s : State) (a : Nat) (data : List Byte) (hps : [.mem, .tier] ⊆ ps) :
    s₀.onlyChanges (s.recoverOut a data) ps ↔ s₀.onlyChanges s ps :=
  State.onlyChanges_iff (by unfold State.recoverOut; simp) hps

@[simp] theorem State.onlyChanges_tableRebuilt (s : State) (x : HubTable × Nat) (hps : [.keeper, .fnp, .link, .health, .outbox] ⊆ ps) :
    s₀.onlyChanges (s.tableRebuilt x) ps ↔ s₀.onlyChanges s ps :=
  State.onlyChanges_iff (by unfold State.tableRebuilt; simp) hps

@[simp] theorem State.onlyChanges_aim (s : State) (t v : Nat) (hps : [.pwr] ⊆ ps) :
    s₀.onlyChanges (s.aim t v) ps ↔ s₀.onlyChanges s ps :=
  State.onlyChanges_iff (by unfold State.aim; simp) hps

@[simp] theorem State.onlyChanges_postHold (s : State) (t : Nat) (hps : [.keeper, .fnp, .link, .health, .outbox] ⊆ ps) :
    s₀.onlyChanges (s.postHold t) ps ↔ s₀.onlyChanges s ps :=
  State.onlyChanges_iff (by unfold State.postHold; simp) hps

@[simp] theorem State.onlyChanges_shedPhase (s : State) (rail phase : Nat) (hps : [.pwr] ⊆ ps) :
    s₀.onlyChanges (s.shedPhase rail phase) ps ↔ s₀.onlyChanges s ps :=
  State.onlyChanges_iff (by unfold State.shedPhase; simp) hps

@[simp] theorem State.onlyChanges_gateUpper (s : State) (t : Nat) (hps : [.arr] ⊆ ps) :
    s₀.onlyChanges (s.gateUpper t) ps ↔ s₀.onlyChanges s ps :=
  State.onlyChanges_iff (by unfold State.gateUpper; simp) hps

@[simp] theorem State.onlyChanges_limitRail (s : State) (rail : Nat) (hps : [.arr, .keeper, .run, .fnp, .link, .pwr, .health, .outbox] ⊆ ps) :
    s₀.onlyChanges (s.limitRail rail) ps ↔ s₀.onlyChanges s ps :=
  State.onlyChanges_iff (by unfold State.limitRail; simp) hps

@[simp] theorem State.onlyChanges_setInput (s : State) (i : Nat) (v : Input) (hps : [.pwr] ⊆ ps) :
    s₀.onlyChanges (s.setInput i v) ps ↔ s₀.onlyChanges s ps :=
  State.onlyChanges_iff (by unfold State.setInput; simp) hps

@[simp] theorem State.onlyChanges_inputOut (s : State) (i : Nat) (st : InState) (dv : Nat) (hps : [.keeper, .fnp, .link, .pwr, .health, .outbox] ⊆ ps) :
    s₀.onlyChanges (s.inputOut i st dv) ps ↔ s₀.onlyChanges s ps :=
  State.onlyChanges_iff (by unfold State.inputOut; simp) hps

@[simp] theorem State.onlyChanges_inputBack (s : State) (i dv : Nat) (hps : [.keeper, .fnp, .link, .pwr, .health, .outbox] ⊆ ps) :
    s₀.onlyChanges (s.inputBack i dv) ps ↔ s₀.onlyChanges s ps :=
  State.onlyChanges_iff (by unfold State.inputBack; simp) hps

@[simp] theorem State.onlyChanges_clearEngines (s : State) (hps : [.mem, .arr, .tgt, .eng, .serve, .arb] ⊆ ps) :
    s₀.onlyChanges (s.clearEngines) ps ↔ s₀.onlyChanges s ps :=
  State.onlyChanges_iff (by unfold State.clearEngines; simp) hps

@[simp] theorem State.onlyChanges_clearKeeper (s : State) (hps : [.keeper, .pair, .prog, .run, .lead, .serve, .tier, .sched, .fnp, .sec] ⊆ ps) :
    s₀.onlyChanges (s.clearKeeper) ps ↔ s₀.onlyChanges s ps :=
  State.onlyChanges_iff (by unfold State.clearKeeper; simp) hps

@[simp] theorem State.onlyChanges_clearConfig (s : State) (hps : [.fnp] ⊆ ps) :
    s₀.onlyChanges (s.clearConfig) ps ↔ s₀.onlyChanges s ps :=
  State.onlyChanges_iff (by unfold State.clearConfig; simp) hps

@[simp] theorem State.onlyChanges_clearLinks (s : State) (hps : [.link] ⊆ ps) :
    s₀.onlyChanges (s.clearLinks) ps ↔ s₀.onlyChanges s ps :=
  State.onlyChanges_iff (by unfold State.clearLinks; simp) hps

@[simp] theorem State.onlyChanges_startTable (s : State) (hps : [.link] ⊆ ps) :
    s₀.onlyChanges (s.startTable) ps ↔ s₀.onlyChanges s ps :=
  State.onlyChanges_iff (by unfold State.startTable; simp) hps

@[simp] theorem State.onlyChanges_powerDown (s : State) (hps : [.mem, .arr, .tgt, .eng, .keeper, .pair, .prog, .run, .lead, .serve, .tier, .arb, .sched, .fnp, .link, .pwr, .sec] ⊆ ps) :
    s₀.onlyChanges (s.powerDown) ps ↔ s₀.onlyChanges s ps :=
  State.onlyChanges_iff (by unfold State.powerDown; simp) hps

@[simp] theorem State.onlyChanges_setFwSlot (s : State) (i : Bool) (v : FwSlot) (hps : [.sec] ⊆ ps) :
    s₀.onlyChanges (s.setFwSlot i v) ps ↔ s₀.onlyChanges s ps :=
  State.onlyChanges_iff (by unfold State.setFwSlot; simp) hps

@[simp] theorem State.onlyChanges_bootKeeper (s : State) (b : BootCheck) (hps : [.keeper, .fnp, .link, .sec, .health, .outbox] ⊆ ps) :
    s₀.onlyChanges (s.bootKeeper b) ps ↔ s₀.onlyChanges s ps :=
  State.onlyChanges_iff (by unfold State.bootKeeper; simp) hps

@[simp] theorem State.onlyChanges_ramp (s : State) (hps : [.pwr] ⊆ ps) :
    s₀.onlyChanges (s.ramp) ps ↔ s₀.onlyChanges s ps :=
  State.onlyChanges_iff (by unfold State.ramp; simp) hps

@[simp] theorem State.onlyChanges_sampleStraps (s : State) (mv : List Nat) (hps : [.keeper, .fnp, .link, .pwr, .health, .outbox] ⊆ ps) :
    s₀.onlyChanges (s.sampleStraps mv) ps ↔ s₀.onlyChanges s ps :=
  State.onlyChanges_iff (by unfold State.sampleStraps; simp) hps

@[simp] theorem State.onlyChanges_releaseReset (s : State) (hps : [.mem, .arr, .tgt, .eng, .serve, .arb, .link, .pwr] ⊆ ps) :
    s₀.onlyChanges (s.releaseReset) ps ↔ s₀.onlyChanges s ps :=
  State.onlyChanges_iff (by unfold State.releaseReset; simp) hps

@[simp] theorem State.onlyChanges_raiseCounter (s : State) (hps : [.keeper, .fnp, .link, .sec, .health, .outbox] ⊆ ps) :
    s₀.onlyChanges (s.raiseCounter) ps ↔ s₀.onlyChanges s ps :=
  State.onlyChanges_iff (by unfold State.raiseCounter; simp) hps

@[simp] theorem State.onlyChanges_flagPin (s : State) (pin : Nat) (hps : [.keeper, .fnp, .link, .pwr, .health, .outbox] ⊆ ps) :
    s₀.onlyChanges (s.flagPin pin) ps ↔ s₀.onlyChanges s ps :=
  State.onlyChanges_iff (by unfold State.flagPin; simp) hps

@[simp] theorem State.onlyChanges_warmReset (s : State) (boot : BootCheck) (hps : [.mem, .arr, .tgt, .eng, .keeper, .pair, .prog, .run, .lead, .serve, .tier, .arb, .sched, .fnp, .link, .pwr, .sec, .health, .outbox] ⊆ ps) :
    s₀.onlyChanges (s.warmReset boot) ps ↔ s₀.onlyChanges s ps :=
  State.onlyChanges_iff (by unfold State.warmReset; simp only []; split <;> (try split) <;> simp) hps

end
end Sys2Proof.Machine
end

section
namespace Sys2Proof.Machine
section
variable {s₀ u : State} {ps : List Part} {k : Nat} {ks ks' : List Nat} {q' : Req}

@[simp] theorem State.onlyChanges_copyOut (s : State) (m : MCmd) (ds : List Desc) (bs : List Byte) (hps : [.mem, .hostMem, .keeper, .fnp, .outbox] ⊆ ps) :
    s₀.onlyChanges (s.copyOut m ds bs) ps ↔ s₀.onlyChanges s ps :=
  State.onlyChanges_iff (by unfold State.copyOut; simp) hps

@[simp] theorem State.onlyChanges_retireAll (s : State) (hps : [.arr, .tgt, .eng, .prog, .serve, .tier, .sched] ⊆ ps) :
    s₀.onlyChanges (s.retireAll) ps ↔ s₀.onlyChanges s ps :=
  State.onlyChanges_iff (by unfold State.retireAll; simp) hps

@[simp] theorem State.onlyChanges_holdRefresh (s : State) (h : HeldRefresh) (student : Bool) (hps : [.keeper, .pair, .fnp, .outbox] ⊆ ps) :
    s₀.onlyChanges (s.holdRefresh h student) ps ↔ s₀.onlyChanges s ps :=
  State.onlyChanges_iff (by unfold State.holdRefresh; simp only []; split <;> (try split) <;> simp) hps

@[simp] theorem State.onlyChanges_tableOver (s : State) (f : Fn) (seq code : Nat) (hps : [.keeper, .fnp, .outbox] ⊆ ps) :
    s₀.onlyChanges (s.tableOver f seq code) ps ↔ s₀.onlyChanges s ps :=
  State.onlyChanges_iff (by unfold State.tableOver; simp) hps

@[simp] theorem State.onlyChanges_releaseHeld (n f : Nat) (s : State) (hps : [.keeper, .fnp, .outbox] ⊆ ps) :
    s₀.onlyChanges (State.releaseHeld n f s) ps ↔ s₀.onlyChanges s ps := by
  refine State.onlyChanges_iff ?_ hps
  induction n generalizing s with
  | zero => simp [State.releaseHeld]
  | succ n ih =>
    unfold State.releaseHeld
    simp only []
    split
    · simp
    · split
      · simp
      · refine State.onlyChanges_trans ?_ (ih _)
        simp

@[simp] theorem State.onlyChanges_writeCons (s : State) (f value : Nat) (hps : [.keeper, .fnp, .outbox] ⊆ ps) :
    s₀.onlyChanges (s.writeCons f value) ps ↔ s₀.onlyChanges s ps :=
  State.onlyChanges_iff (by unfold State.writeCons; simp) hps

@[simp] theorem State.onlyChanges_writeDrnStat (s : State) (t p : Nat) (v : Word) (hps : [.arr] ⊆ ps) :
    s₀.onlyChanges (s.writeDrnStat t p v) ps ↔ s₀.onlyChanges s ps :=
  State.onlyChanges_iff (by unfold State.writeDrnStat; simp) hps

@[simp] theorem State.onlyChanges_writeVxeStat (s : State) (t e : Nat) (v : Word) (hps : [.eng] ⊆ ps) :
    s₀.onlyChanges (s.writeVxeStat t e v) ps ↔ s₀.onlyChanges s ps :=
  State.onlyChanges_iff (by unfold State.writeVxeStat; simp) hps

@[simp] theorem State.onlyChanges_debugWrite (s : State) (f : State → State) (hps : [.keeper, .fnp, .outbox] ⊆ ps) (hf : s.onlyChanges (f s) ps) :
    s₀.onlyChanges (s.debugWrite f) ps ↔ s₀.onlyChanges s ps := by
  refine State.onlyChanges_iff ?_ (List.Subset.refl ps)
  simp only [List.cons_subset] at hps
  unfold State.debugWrite
  simp [hf, hps]

@[simp] theorem State.onlyChanges_writeCustCommit (s : State) (t : Nat) (v : Word) (hps : [.arr, .keeper, .fnp, .outbox] ⊆ ps) :
    s₀.onlyChanges (s.writeCustCommit t v) ps ↔ s₀.onlyChanges s ps :=
  State.onlyChanges_iff (by unfold State.writeCustCommit; simp) hps

@[simp] theorem State.onlyChanges_writeTgtCommit (s : State) (t : Nat) (v : Word) (hps : [.tgt, .keeper, .fnp, .outbox] ⊆ ps) :
    s₀.onlyChanges (s.writeTgtCommit t v) ps ↔ s₀.onlyChanges s ps :=
  State.onlyChanges_iff (by unfold State.writeTgtCommit; simp) hps

@[simp] theorem State.onlyChanges_writeKeyCommit (s : State) (t f : Nat) (v : Word) (hps : [.eng, .keeper, .fnp, .outbox] ⊆ ps) :
    s₀.onlyChanges (s.writeKeyCommit t f v) ps ↔ s₀.onlyChanges s ps :=
  State.onlyChanges_iff (by unfold State.writeKeyCommit; simp) hps

@[simp] theorem State.onlyChanges_stageBnd (s : State) (t i : Nat) (v : Word) (hps : [.arr] ⊆ ps) :
    s₀.onlyChanges (s.stageBnd t i v) ps ↔ s₀.onlyChanges s ps :=
  State.onlyChanges_iff (by unfold State.stageBnd; simp) hps

@[simp] theorem State.onlyChanges_stageCoef (s : State) (t i : Nat) (v : Word) (hps : [.arr] ⊆ ps) :
    s₀.onlyChanges (s.stageCoef t i v) ps ↔ s₀.onlyChanges s ps :=
  State.onlyChanges_iff (by unfold State.stageCoef; simp) hps

@[simp] theorem State.onlyChanges_stageKey (s : State) (t f j : Nat) (hi : Bool) (v : Word) (hps : [.eng] ⊆ ps) :
    s₀.onlyChanges (s.stageKey t f j hi v) ps ↔ s₀.onlyChanges s ps :=
  State.onlyChanges_iff (by unfold State.stageKey; simp) hps

@[simp] theorem State.onlyChanges_stageFn (s : State) (f : Nat) (v : SchedFn) (hps : [.sched] ⊆ ps) :
    s₀.onlyChanges (s.stageFn f v) ps ↔ s₀.onlyChanges s ps :=
  State.onlyChanges_iff (by unfold State.stageFn; simp) hps

@[simp] theorem State.onlyChanges_writeSchedCommit (s : State) (v : Word) (hps : [.sched] ⊆ ps) :
    s₀.onlyChanges (s.writeSchedCommit v) ps ↔ s₀.onlyChanges s ps :=
  State.onlyChanges_iff (by unfold State.writeSchedCommit; simp) hps

@[simp] theorem State.onlyChanges_unmask (s : State) (f v : Nat) (hps : [.fnp, .outbox] ⊆ ps) :
    s₀.onlyChanges (s.unmask f v) ps ↔ s₀.onlyChanges s ps :=
  State.onlyChanges_iff (by unfold State.unmask; simp) hps

@[simp] theorem State.onlyChanges_writeFmask (s : State) (f : Nat) (b : Bool) (hps : [.fnp, .outbox] ⊆ ps) :
    s₀.onlyChanges (s.writeFmask f b) ps ↔ s₀.onlyChanges s ps :=
  State.onlyChanges_iff (by unfold State.writeFmask; simp) hps

@[simp] theorem State.onlyChanges_writeMsix (s : State) (f offset : Nat) (v : Word) (hps : [.fnp, .outbox] ⊆ ps) :
    s₀.onlyChanges (s.writeMsix f offset v) ps ↔ s₀.onlyChanges s ps :=
  State.onlyChanges_iff (by unfold State.writeMsix; split <;> simp) hps

@[simp] theorem State.onlyChanges_writeBar0 (s : State) (f offset : Nat) (v : Word) (hps : [.keeper, .fnp, .pwr, .outbox] ⊆ ps) :
    s₀.onlyChanges (s.writeBar0 f offset v) ps ↔ s₀.onlyChanges s ps :=
  State.onlyChanges_iff (by unfold State.writeBar0; simp) hps

@[simp] theorem State.onlyChanges_writeDrn (s : State) (t o : Nat) (v : Word) (hps : [.arr, .keeper, .fnp, .outbox] ⊆ ps) :
    s₀.onlyChanges (s.writeDrn t o v) ps ↔ s₀.onlyChanges s ps :=
  State.onlyChanges_iff (by unfold State.writeDrn; simp) hps

@[simp] theorem State.onlyChanges_writeTgt (s : State) (t o : Nat) (v : Word) (hps : [.tgt, .keeper, .fnp, .outbox] ⊆ ps) :
    s₀.onlyChanges (s.writeTgt t o v) ps ↔ s₀.onlyChanges s ps :=
  State.onlyChanges_iff (by unfold State.writeTgt; simp) hps

@[simp] theorem State.onlyChanges_writeVxe (s : State) (t o : Nat) (v : Word) (hps : [.eng, .keeper, .fnp, .outbox] ⊆ ps) :
    s₀.onlyChanges (s.writeVxe t o v) ps ↔ s₀.onlyChanges s ps :=
  State.onlyChanges_iff (by unfold State.writeVxe; simp) hps

@[simp] theorem State.onlyChanges_writeArb (s : State) (n o : Nat) (v : Word) (hps : [.keeper, .arb, .fnp, .outbox] ⊆ ps) :
    s₀.onlyChanges (s.writeArb n o v) ps ↔ s₀.onlyChanges s ps :=
  State.onlyChanges_iff (by unfold State.writeArb; simp) hps

@[simp] theorem State.onlyChanges_writeSched (s : State) (o : Nat) (v : Word) (hps : [.sched] ⊆ ps) :
    s₀.onlyChanges (s.writeSched o v) ps ↔ s₀.onlyChanges s ps :=
  State.onlyChanges_iff (by unfold State.writeSched; simp only []; split <;> (try split) <;> simp) hps

@[simp] theorem State.onlyChanges_writeBar2 (s : State) (x : Nat) (v : Word) (hps : [.arr, .tgt, .eng, .keeper, .arb, .sched, .fnp, .outbox] ⊆ ps) :
    s₀.onlyChanges (s.writeBar2 x v) ps ↔ s₀.onlyChanges s ps :=
  State.onlyChanges_iff (by unfold State.writeBar2; split <;> simp) hps

@[simp] theorem State.onlyChanges_fence (s : State) (f : Fn) (hps : [.arr, .tgt, .eng, .keeper, .prog, .run, .arb, .fnp] ⊆ ps) :
    s₀.onlyChanges (s.fence f) ps ↔ s₀.onlyChanges s ps :=
  State.onlyChanges_iff (by unfold State.fence; simp) hps

@[simp] theorem State.onlyChanges_closeAccount (s : State) (f : Nat) (hps : [.fnp] ⊆ ps) :
    s₀.onlyChanges (s.closeAccount f) ps ↔ s₀.onlyChanges s ps :=
  State.onlyChanges_iff (by unfold State.closeAccount; simp) hps

@[simp] theorem State.onlyChanges_resetProg (s : State) (h : Nat) (hps : [.arr, .tgt, .eng, .prog, .serve, .tier, .sched] ⊆ ps) :
    s₀.onlyChanges (s.resetProg h) ps ↔ s₀.onlyChanges s ps :=
  State.onlyChanges_iff (by unfold State.resetProg; split <;> simp) hps

@[simp] theorem State.onlyChanges_clearFunction (s : State) (f : Fn) (hps : [.arr, .tgt, .eng, .keeper, .prog, .serve, .tier, .sched, .fnp] ⊆ ps) :
    s₀.onlyChanges (s.clearFunction f) ps ↔ s₀.onlyChanges s ps :=
  State.onlyChanges_iff (by unfold State.clearFunction; simp) hps

@[simp] theorem State.onlyChanges_markRequests (s : State) (f : Fn) (hps : [.serve] ⊆ ps) :
    s₀.onlyChanges (s.markRequests f) ps ↔ s₀.onlyChanges s ps :=
  State.onlyChanges_iff (by unfold State.markRequests; simp) hps

@[simp] theorem State.onlyChanges_setSampler (s : State) (t : Nat) (v : SampSt) (hps : [.serve] ⊆ ps) :
    s₀.onlyChanges (s.setSampler t v) ps ↔ s₀.onlyChanges s ps :=
  State.onlyChanges_iff (by unfold State.setSampler; simp) hps

@[simp] theorem State.onlyChanges_sampleLine (s : State) (t : Nat) (b : BusTile) (j : Nat) (hps : [.keeper, .serve, .fnp, .link, .health, .outbox] ⊆ ps) :
    s₀.onlyChanges (s.sampleLine t b j) ps ↔ s₀.onlyChanges s ps :=
  by
    refine State.onlyChanges_iff ?_ hps
    unfold State.sampleLine
    simp only []
    repeat' split
    all_goals simp

@[simp] theorem State.onlyChanges_noteReqOp (s : State) (m : MCmd) (isPause : Bool) (hps : [.keeper, .serve, .fnp, .outbox] ⊆ ps) :
    s₀.onlyChanges (s.noteReqOp m isPause) ps ↔ s₀.onlyChanges s ps :=
  by
    refine State.onlyChanges_iff ?_ hps
    unfold State.noteReqOp
    simp only []
    repeat' split
    all_goals simp

@[simp] theorem State.onlyChanges_setCustomer (s : State) (c : Nat) (v : Cust) (hps : [.serve] ⊆ ps) :
    s₀.onlyChanges (s.setCustomer c v) ps ↔ s₀.onlyChanges s ps :=
  State.onlyChanges_iff (by unfold State.setCustomer; simp) hps

theorem State.onlyChanges_givePage (s : State) (i : Nat) (q : Req) (c : ServingCfg) (hps : [.mem, .serve] ⊆ ps)
    (h : s.givePage i q c = some (u, q')) : s₀.onlyChanges u ps ↔ s₀.onlyChanges s ps := by
  refine State.onlyChanges_iff ?_ hps
  unfold State.givePage at h
  simp only [] at h
  split at h
  · cases h
  · cases h; simp

@[simp] theorem State.onlyChanges_givePages (fuel : Nat) (s : State) (i : Nat) (q : Req) (c : ServingCfg) (n : Nat) (hps : [.mem, .serve] ⊆ ps) :
    s₀.onlyChanges (State.givePages fuel s i q c n).1 ps ↔ s₀.onlyChanges s ps := by
  refine State.onlyChanges_iff ?_ hps
  induction fuel generalizing s q with
  | zero => simp [State.givePages]
  | succ fuel ih =>
    unfold State.givePages
    split
    · simp
    · split
      · simp
      · exact State.onlyChanges_trans ((State.onlyChanges_givePage s i q c (List.Subset.refl _) ‹_›).2 (s.onlyChanges_self _)) (ih _ _)

@[simp] theorem State.onlyChanges_writeRecords (s : State) (q : Req) (bs : List Byte) (hps : [.mem, .hostMem] ⊆ ps) :
    s₀.onlyChanges (s.writeRecords q bs) ps ↔ s₀.onlyChanges s ps :=
  State.onlyChanges_iff (by unfold State.writeRecords; simp) hps

@[simp] theorem State.onlyChanges_movePath (s : State) (q : Req) (path : List Nat) (hps : [.mem] ⊆ ps) :
    s₀.onlyChanges (s.movePath q path) ps ↔ s₀.onlyChanges s ps :=
  State.onlyChanges_iff (by unfold State.movePath; split <;> simp) hps

@[simp] theorem State.onlyChanges_commitOut (s : State) (i : Nat) (q q' : Req) (bs : List Byte) (len : Nat) (hps : [.mem, .hostMem, .serve] ⊆ ps) :
    s₀.onlyChanges (s.commitOut i q q' bs len) ps ↔ s₀.onlyChanges s ps :=
  State.onlyChanges_iff (by unfold State.commitOut; simp) hps

@[simp] theorem State.onlyChanges_commitPart (s : State) (x : StepPart) (ds : List Drawn) (hps : [.mem, .hostMem, .serve] ⊆ ps) :
    s₀.onlyChanges (s.commitPart x ds) ps ↔ s₀.onlyChanges s ps :=
  State.onlyChanges_iff (by unfold State.commitPart; split <;> simp) hps

@[simp] theorem State.onlyChanges_reqOpDone (s : State) (o : ReqOp) (code : Nat) (hps : [.keeper, .fnp, .outbox] ⊆ ps) :
    s₀.onlyChanges (s.reqOpDone o code) ps ↔ s₀.onlyChanges s ps :=
  State.onlyChanges_iff (by unfold State.reqOpDone; simp) hps

@[simp] theorem State.onlyChanges_applyOps (s : State) (i : Nat) (os : List ReqOp) (hps : [.keeper, .serve, .fnp, .outbox] ⊆ ps) :
    s₀.onlyChanges (s.applyOps i os) ps ↔ s₀.onlyChanges s ps := by
  refine State.onlyChanges_iff ?_ hps
  induction os generalizing s with
  | nil => simp [State.applyOps]
  | cons o os ih =>
    unfold State.applyOps
    refine State.onlyChanges_trans ?_ (ih _)
    split <;> simp

@[simp] theorem State.onlyChanges_mapLive (s : State) (g : Nat) (f : Nat → Req → Req) (hps : [.serve] ⊆ ps) :
    s₀.onlyChanges (s.mapLive g f) ps ↔ s₀.onlyChanges s ps :=
  State.onlyChanges_iff (by unfold State.mapLive; simp) hps

@[simp] theorem State.onlyChanges_endRollout (s : State) (hps : [.run, .serve] ⊆ ps) :
    s₀.onlyChanges (s.endRollout) ps ↔ s₀.onlyChanges s ps :=
  State.onlyChanges_iff (by unfold State.endRollout; simp only []; split <;> simp) hps

@[simp] theorem State.onlyChanges_chargeCust (s : State) (parts : List StepPart) (c : Nat) (hps : [.keeper, .serve, .fnp, .outbox] ⊆ ps) :
    s₀.onlyChanges (s.chargeCust parts c) ps ↔ s₀.onlyChanges s ps := by
  refine State.onlyChanges_iff ?_ hps
  unfold State.chargeCust
  simp only []
  split
  all_goals
    simp
    refine State.onlyChanges_trans ?_ (State.onlyChanges_foldl _ (fun s x => ?_) _ _)
    · simp
    · split <;> simp

@[simp] theorem State.onlyChanges_trims (s : State) (g : Nat) (parts : List StepPart) (hps : [.mem, .serve] ⊆ ps) :
    s₀.onlyChanges (s.trims g parts) ps ↔ s₀.onlyChanges s ps :=
  State.onlyChanges_iff (by unfold State.trims; split <;> simp) hps

@[simp] theorem State.onlyChanges_growth (s : State) (g : Nat) (c : ServingCfg) (hps : [.mem, .serve] ⊆ ps) :
    s₀.onlyChanges (s.growth g c) ps ↔ s₀.onlyChanges s ps := by
  refine State.onlyChanges_iff (State.onlyChanges_foldl _ (fun s x => ?_) _ _) hps
  simp only []
  split
  · simp
  · split <;> simp

@[simp] theorem State.onlyChanges_joins (s : State) (g : Nat) (c : ServingCfg) (is : List Nat) (hps : [.mem, .serve] ⊆ ps) :
    s₀.onlyChanges (s.joins g c is) ps ↔ s₀.onlyChanges s ps := by
  refine State.onlyChanges_iff ?_ hps
  induction is generalizing s with
  | nil => simp [State.joins]
  | cons i is ih =>
    unfold State.joins
    split
    · exact ih s
    · split
      · exact ih s
      · simp only []
        split
        · simp
        · refine State.onlyChanges_trans ?_ (ih _)
          simp

@[simp] theorem State.onlyChanges_pageFault (s : State) (i : Nat) (hps : [.keeper, .fnp, .link, .health, .outbox] ⊆ ps) :
    s₀.onlyChanges (s.pageFault i) ps ↔ s₀.onlyChanges s ps :=
  State.onlyChanges_iff (by unfold State.pageFault; simp) hps

@[simp] theorem State.onlyChanges_kvFault (s : State) (g i : Nat) (hps : [.serve] ⊆ ps) :
    s₀.onlyChanges (s.kvFault g i) ps ↔ s₀.onlyChanges s ps :=
  State.onlyChanges_iff (by unfold State.kvFault; split <;> simp) hps

@[simp] theorem State.onlyChanges_commitParts (s : State) (parts : List StepPart) (ds : List Drawn) (skip : List Nat) (hps : [.mem, .hostMem, .serve] ⊆ ps) :
    s₀.onlyChanges (s.commitParts parts ds skip) ps ↔ s₀.onlyChanges s ps :=
  State.onlyChanges_iff (by unfold State.commitParts; simp) hps

@[simp] theorem State.onlyChanges_dropDrawn (s : State) (used : List Nat) (hps : [.serve] ⊆ ps) :
    s₀.onlyChanges (s.dropDrawn used) ps ↔ s₀.onlyChanges s ps :=
  State.onlyChanges_iff (by unfold State.dropDrawn; simp) hps

@[simp] theorem State.onlyChanges_sendCopies (s : State) (g : Nat) (hps : [.outbox] ⊆ ps) :
    s₀.onlyChanges (s.sendCopies g) ps ↔ s₀.onlyChanges s ps :=
  State.onlyChanges_iff (by unfold State.sendCopies; simp) hps

@[simp] theorem State.onlyChanges_growAndJoin (s : State) (g : Nat) (hps : [.mem, .serve] ⊆ ps) :
    s₀.onlyChanges (s.growAndJoin g) ps ↔ s₀.onlyChanges s ps :=
  State.onlyChanges_iff (by unfold State.growAndJoin; split <;> simp) hps

@[simp] theorem State.onlyChanges_cancelsAndPauses (s : State) (g : Nat) (hps : [.keeper, .serve, .fnp, .outbox] ⊆ ps) :
    s₀.onlyChanges (s.cancelsAndPauses g) ps ↔ s₀.onlyChanges s ps :=
  State.onlyChanges_iff (by unfold State.cancelsAndPauses; simp) hps

theorem State.onlyChanges_adoptOne (s : State) (n : Nat) (a : Adopted) (hps : [.mem, .serve] ⊆ ps)
    (h : s.adoptOne n a = some u) : s₀.onlyChanges u ps ↔ s₀.onlyChanges s ps := by
  refine State.onlyChanges_iff ?_ hps
  unfold State.adoptOne at h
  split at h
  · simp only [] at h
    split at h
    · cases h
    · obtain ⟨x, -, hx⟩ := Option.map_eq_some_iff.1 h
      rw [← hx]
      exact (State.onlyChanges_setServe _ _ (by simp)).2 ((State.onlyChanges_setMem _ _ (by simp)).2 (s.onlyChanges_self _))
  · cases h

@[simp] theorem State.onlyChanges_adopt (s : State) (hps : [.mem, .serve] ⊆ ps) :
    s₀.onlyChanges s.adopt ps ↔ s₀.onlyChanges s ps := by
  refine State.onlyChanges_iff ?_ hps
  unfold State.adopt
  simp only []
  split
  · simp
  · refine State.onlyChanges_trans ?_ (State.onlyChanges_foldl _ (fun s x => ?_) _ _)
    · simp
    · cases h : s.adoptOne x.2 x.1 with
      | none => simp
      | some t => exact (State.onlyChanges_adoptOne _ _ _ (List.Subset.refl _) h).2 (s.onlyChanges_self _)

theorem State.onlyChanges_placePlan (f : Fn) (h : Nat) (rs : List PlanRegion) (hps : [.tier] ⊆ ps) : ∀ (s : State) (ks : List Nat),
    s.placePlan f h rs ks = some (u, ks') → (s₀.onlyChanges u ps ↔ s₀.onlyChanges s ps) := by
  induction rs with
  | nil => intro s ks hx; cases hx; rfl
  | cons x rs ih =>
    intro s ks hx
    unfold State.placePlan at hx
    split at hx
    · cases hx
    · simp only [] at hx
      split at hx
      · cases hx
      · rw [ih _ _ hx, State.onlyChanges_addRegion _ _ hps ‹_›]

theorem State.onlyChanges_takeMemory (s : State) (f : Fn) (h : Nat) (m : ProgImage) (hps : [.prog, .tier] ⊆ ps)
    (hx : s.takeMemory f h m = some (u, ks)) : s₀.onlyChanges u ps ↔ s₀.onlyChanges s ps := by
  simp only [List.cons_subset] at hps
  unfold State.takeMemory at hx
  simp only [] at hx
  split at hx
  · cases hx
  · split at hx
    · cases hx
    · rw [State.onlyChanges_placePlan f h m.plan (by simp [hps]) _ _ hx]
      simp [hps]

@[simp] theorem State.onlyChanges_completeCheck (s : State) (m : MCmd) (n : Nat) (c : CheckAt) (hps : [.keeper, .fnp, .outbox] ⊆ ps) :
    s₀.onlyChanges (s.completeCheck m n c) ps ↔ s₀.onlyChanges s ps :=
  State.onlyChanges_iff (by unfold State.completeCheck; simp) hps

@[simp] theorem State.onlyChanges_commitGroups (s : State) (m : ProgImage) (hps : [.arr, .tgt, .arb] ⊆ ps) :
    s₀.onlyChanges (s.commitGroups m) ps ↔ s₀.onlyChanges s ps :=
  State.onlyChanges_iff (by unfold State.commitGroups; split <;> simp) hps

@[simp] theorem State.onlyChanges_commitKeys (s : State) (f : Fn) (ks : List DWord) (hps : [.eng, .prog] ⊆ ps) :
    s₀.onlyChanges (s.commitKeys f ks) ps ↔ s₀.onlyChanges s ps :=
  State.onlyChanges_iff (by unfold State.commitKeys; simp) hps

@[simp] theorem State.onlyChanges_replaceProg (s : State) (old new : Nat) (hps : [.arr, .tgt, .eng, .prog, .serve, .tier, .sched] ⊆ ps) :
    s₀.onlyChanges (s.replaceProg old new) ps ↔ s₀.onlyChanges s ps :=
  by
    refine State.onlyChanges_iff ?_ hps
    unfold State.replaceProg
    simp only []
    repeat' split
    all_goals simp

@[simp] theorem State.onlyChanges_settleLast (s : State) (lasts : List LastStep) (shards : List ShardDesc) (hps : [.run] ⊆ ps) :
    s₀.onlyChanges (s.settleLast lasts shards) ps ↔ s₀.onlyChanges s ps :=
  State.onlyChanges_iff (by unfold State.settleLast; simp) hps

@[simp] theorem State.onlyChanges_rejoinAt (s : State) (top : Option Nat) (hps : [.keeper, .run, .fnp, .outbox] ⊆ ps) :
    s₀.onlyChanges (s.rejoinAt top) ps ↔ s₀.onlyChanges s ps :=
  State.onlyChanges_iff (by unfold State.rejoinAt; split <;> simp) hps

@[simp] theorem State.onlyChanges_prepareLaser (s : State) (m : MCmd) (i : Nat) (hps : [.keeper, .fnp, .link, .outbox] ⊆ ps) :
    s₀.onlyChanges (s.prepareLaser m i) ps ↔ s₀.onlyChanges s ps :=
  State.onlyChanges_iff (by unfold State.prepareLaser; simp) hps

@[simp] theorem State.onlyChanges_preparePhase (s : State) (m : MCmd) (k : Nat) (hps : [.keeper, .fnp, .pwr, .outbox] ⊆ ps) :
    s₀.onlyChanges (s.preparePhase m k) ps ↔ s₀.onlyChanges s ps :=
  State.onlyChanges_iff (by unfold State.preparePhase; simp) hps

@[simp] theorem State.onlyChanges_prepareFibre (s : State) (m : MCmd) (p : Nat) (answered : Bool) (hps : [.keeper, .fnp, .link, .outbox] ⊆ ps) :
    s₀.onlyChanges (s.prepareFibre m p answered) ps ↔ s₀.onlyChanges s ps :=
  State.onlyChanges_iff (by unfold State.prepareFibre; simp) hps

@[simp] theorem State.onlyChanges_servicePrepare (s : State) (i : Instr) (m : MCmd) (answered : Bool) (hps : [.keeper, .fnp, .link, .pwr, .outbox] ⊆ ps) :
    s₀.onlyChanges (s.servicePrepare i m answered) ps ↔ s₀.onlyChanges s ps :=
  State.onlyChanges_iff (by unfold State.servicePrepare; simp only []; split <;> (try split) <;> simp) hps

@[simp] theorem State.onlyChanges_recommit (s : State) (hps : [.arr, .tgt, .eng, .arb] ⊆ ps) :
    s₀.onlyChanges s.recommit ps ↔ s₀.onlyChanges s ps := by
  refine State.onlyChanges_iff ?_ hps
  unfold State.recommit
  simp only []
  refine State.onlyChanges_trans ?_ (State.onlyChanges_foldl _ (fun s x => ?_) _ _)
  · simp
  · simp

@[simp] theorem State.onlyChanges_accPut (s : State) (a : AccArgs) (ws : List Nat) (i : Nat) (hps : [.arr] ⊆ ps) :
    s₀.onlyChanges (s.accPut a ws i) ps ↔ s₀.onlyChanges s ps :=
  State.onlyChanges_iff (by unfold State.accPut; simp) hps

@[simp] theorem State.onlyChanges_loseJournal (s : State) (hps : [.mem, .arr, .tgt, .eng, .keeper, .pair, .prog, .run, .lead, .serve, .fnp, .link, .outbox] ⊆ ps) :
    s₀.onlyChanges (s.loseJournal) ps ↔ s₀.onlyChanges s ps :=
  State.onlyChanges_iff (by unfold State.loseJournal; simp) hps

@[simp] theorem State.onlyChanges_stopHeld (s : State) (hps : [.arr, .tgt, .eng, .prog, .run] ⊆ ps) :
    s₀.onlyChanges (s.stopHeld) ps ↔ s₀.onlyChanges s ps :=
  State.onlyChanges_iff (by unfold State.stopHeld; simp) hps

@[simp] theorem State.onlyChanges_rowDone (s : State) (t p : Nat) (a : RowArgs) (bwd : Bool) (r : Mem × NumStat) (hps : [.mem, .eng, .run, .tier, .fresh] ⊆ ps) :
    s₀.onlyChanges (s.rowDone t p a bwd r) ps ↔ s₀.onlyChanges s ps :=
  State.onlyChanges_iff (by unfold State.rowDone; simp) hps

@[simp] theorem State.onlyChanges_answer (s : State) (r : SpdmResp) (hps : [.sec, .outbox] ⊆ ps) :
    s₀.onlyChanges (s.answer r) ps ↔ s₀.onlyChanges s ps :=
  State.onlyChanges_iff (by unfold State.answer; simp) hps

@[simp] theorem State.onlyChanges_spdm (s : State) (x : SpdmReq) (body : State → State) (hps : [.sec, .outbox] ⊆ ps) (hb : s.onlyChanges (body s) ps) :
    s₀.onlyChanges (s.spdm x body) ps ↔ s₀.onlyChanges s ps := by
  refine State.onlyChanges_iff ?_ (List.Subset.refl ps)
  simp only [List.cons_subset] at hps
  unfold State.spdm
  simp [hb, hps]

@[simp] theorem State.onlyChanges_flitsLost (s : State) (o : LongOp) (hps : [.keeper, .pair, .fnp, .outbox] ⊆ ps) :
    s₀.onlyChanges (s.flitsLost o) ps ↔ s₀.onlyChanges s ps :=
  State.onlyChanges_iff (by unfold State.flitsLost; split <;> simp) hps

@[simp] theorem State.onlyChanges_chargeTime (s : State) (e : EngRef) (f n : Nat) (hps : [.fnp] ⊆ ps) :
    s₀.onlyChanges (s.chargeTime e f n) ps ↔ s₀.onlyChanges s ps :=
  State.onlyChanges_iff (by unfold State.chargeTime; simp only []; split <;> simp) hps

@[simp] theorem State.onlyChanges_passTurn (s : State) (e : EngRef) (ready : List Nat) (switchTime : Nat) (hps : [.arr, .eng, .sched, .fnp] ⊆ ps) :
    s₀.onlyChanges (s.passTurn e ready switchTime) ps ↔ s₀.onlyChanges s ps :=
  by
    refine State.onlyChanges_iff ?_ hps
    unfold State.passTurn
    simp only []
    repeat' split
    all_goals simp

@[simp] theorem State.onlyChanges_dropPanels (s : State) (t g : Nat) (hps : [.arr] ⊆ ps) :
    s₀.onlyChanges (s.dropPanels t g) ps ↔ s₀.onlyChanges s ps :=
  State.onlyChanges_iff (by unfold State.dropPanels; simp) hps

@[simp] theorem State.onlyChanges_chargeEnergy (s : State) (f n : Nat) (hps : [.fnp] ⊆ ps) :
    s₀.onlyChanges (s.chargeEnergy f n) ps ↔ s₀.onlyChanges s ps :=
  State.onlyChanges_iff (by unfold State.chargeEnergy; simp) hps

end
end Sys2Proof.Machine
end

/-! # O59 and O60: what each command leaves alone -/

section
namespace Sys2Proof.Machine
section
variable {s₀ s t u : State} {ps qs : List Part} {o p : Host.Outcome State Fault Refusal}

/-- What a command leaves differs from the state before it in the listed parts alone. -/
def State.endsWithin (s : State) (o : Host.Outcome State Fault Refusal) (ps : List Part) : Prop := ∀ t, o = .next t → s.onlyChanges t ps

@[simp] theorem State.endsWithin_next : s.endsWithin (.next t) ps ↔ s.onlyChanges t ps :=
  ⟨fun h => h t rfl, fun h _ ht => Host.Outcome.next.inj ht ▸ h⟩

@[simp] theorem State.endsWithin_fault (f : Fault) : s.endsWithin (.fault f) ps := fun _ h => nomatch h

@[simp] theorem State.endsWithin_of_if {c : Prop} [Decidable c] :
    s.endsWithin (if c then o else p) ps ↔ (c → s.endsWithin o ps) ∧ (¬c → s.endsWithin p ps) := by
  split <;> simp [*]

theorem State.onlyChanges_after (s : State) (h : s.endsWithin o qs) (hps : qs ⊆ ps) :
    s₀.onlyChanges (s.after o) ps ↔ s₀.onlyChanges s ps := by
  unfold State.after
  split
  · exact State.onlyChanges_iff (h _ rfl) hps
  · rfl
end
end Sys2Proof.Machine
end

section
namespace Sys2Proof.Machine
section
variable {s₀ u : State} {ps : List Part}

@[simp] theorem execArbRound_within (n : Fin 43) (dropped : Bool) (reqs : List (Nat × Nat)) (masked : List Nat) (s : State) :
    s.endsWithin (execArbRound n dropped reqs masked s) [.keeper, .arb, .fnp, .outbox] := by
  unfold execArbRound
  simp

@[simp] theorem execArbBreakPoint_within (n : Fin 43) (masked preempted : Bool) (s : State) :
    s.endsWithin (execArbBreakPoint n masked preempted s) [.keeper, .arb, .fnp, .outbox] := by
  unfold execArbBreakPoint
  simp

@[simp] theorem execArbCommit_within (fn : Fn) (n : Fin 43) (value : Word) (s : State) :
    s.endsWithin (execArbCommit fn n value s) [.keeper, .arb, .fnp, .outbox] := by
  unfold execArbCommit
  simp

@[simp] theorem execArbFreeze_within (fn : Fn) (n : Fin 43) (value : Word) (s : State) :
    s.endsWithin (execArbFreeze fn n value s) [.keeper, .arb, .fnp, .outbox] := by
  unfold execArbFreeze
  simp

@[simp] theorem execProduct_within (t : TileIx) (g : Fin 10) (src : Src) (ws : List Word) (mism : BitVec 8) (s : State) :
    s.endsWithin (execProduct t g src ws mism s) [.arr, .tgt, .eng, .keeper, .prog, .run, .tier, .sched, .fnp, .outbox, .fresh] := by
  unfold execProduct
  simp only []
  refine State.endsWithin_of_if.2 ⟨fun _ => by simp, fun _ => State.endsWithin_of_if.2 ⟨fun _ => by simp, fun _ => ?_⟩⟩
  split
  · simp
  · refine State.endsWithin_next.2 ((State.onlyChanges_readOr _ _ _ _ _ _ _ (by simp) ?_).2 (s.onlyChanges_self _))
    refine State.onlyChanges_trans ?_ (State.onlyChanges_foldl _ (fun s x => ?_) _ _)
    · simp
    · split <;> simp

@[simp] theorem execSaveDrain_within (t : TileIx) (p : Fin 2) (src : Src) (ws : List Word) (s : State) :
    s.endsWithin (execSaveDrain t p src ws s) [.mem, .arr, .tgt, .eng, .keeper, .prog, .run, .sched, .fnp, .outbox] := by
  unfold execSaveDrain
  simp

@[simp] theorem execSaveSpad_within (t : TileIx) (p : Fin 2) (src : Src) (ws : List Word) (s : State) :
    s.endsWithin (execSaveSpad t p src ws s) [.mem, .arr, .tgt, .eng, .keeper, .prog, .run, .tier, .sched, .fnp, .outbox] := by
  unfold execSaveSpad
  simp only []
  refine State.endsWithin_of_if.2 ⟨fun _ => by simp, fun _ => State.endsWithin_of_if.2 ⟨fun _ => by simp, fun _ => ?_⟩⟩
  refine State.endsWithin_next.2 ((State.onlyChanges_readOr _ _ _ _ _ _ _ (by simp) ?_).2 (s.onlyChanges_self _))
  refine (State.onlyChanges_finish _ _ _ _ _ (by simp)).2 (State.onlyChanges_foldl _ (fun s i => ?_) _ _)
  simp

@[simp] theorem execExpand_within (t : TileIx) (p : Fin 2) (src : Src) (ws : List Word) (s : State) :
    s.endsWithin (execExpand t p src ws s) [.mem, .arr, .tgt, .eng, .keeper, .prog, .run, .tier, .sched, .fnp, .outbox] := by
  unfold execExpand
  simp only []
  refine State.endsWithin_of_if.2 ⟨fun _ => by simp, fun _ => State.endsWithin_of_if.2 ⟨fun _ => by simp, fun _ => ?_⟩⟩
  refine State.endsWithin_next.2 ((State.onlyChanges_readOr _ _ _ _ _ _ _ (by simp) ?_).2 (s.onlyChanges_self _))
  refine (State.onlyChanges_finish _ _ _ _ _ (by simp)).2 (State.onlyChanges_foldl _ (fun s i => ?_) _ _)
  refine State.onlyChanges_foldl _ (fun s j => ?_) _ _
  split <;> simp

@[simp] theorem execDrain_within (t : TileIx) (g : Fin 10) (src : Src) (ws ext : List Word) (sideFailed : Course (BitVec 64)) (s : State) :
    s.endsWithin (execDrain t g src ws ext sideFailed s) [.mem, .arr, .tgt, .eng, .keeper, .prog, .run, .tier, .sched, .fnp, .outbox, .fresh] := by
  unfold execDrain
  simp only []
  generalize (if s.galleryOpen t g src then _ else none) = held
  cases held with
  | some x => simp
  | none =>
    refine State.endsWithin_of_if.2 ⟨fun _ => by simp, fun _ => State.endsWithin_of_if.2 ⟨fun _ => by simp, fun _ => ?_⟩⟩
    rw [State.endsWithin_next]
    generalize hx : (s.took src t 0 g).startDrain _ _ _ _ _ _ _ = x
    cases x with
    | none => simp
    | some u => exact (State.onlyChanges_startDrain _ _ _ _ _ _ _ _ (by simp) hx).2 (by simp)

@[simp] theorem execLeaseWaitRelease_within (t : TileIx) (a : Fin 80) (mism : Bool) (s : State) :
    s.endsWithin (execLeaseWaitRelease t a mism s) [.mem, .arr, .tgt, .eng, .keeper, .prog, .run, .tier, .fnp, .outbox, .fresh] := by
  unfold execLeaseWaitRelease
  simp only []
  split
  · simp
  · split
    · rw [State.endsWithin_next]
      generalize hx : State.startDrain _ _ _ _ _ _ _ _ = x
      cases x with
      | none => simp
      | some u => exact (State.onlyChanges_startDrain _ _ _ _ _ _ _ _ (by simp) hx).2 (by simp)
    · simp

@[simp] theorem execTileReplay_within (t : TileIx) (a : Fin 80) (slot : Nat) (twinMism origMism : Bool) (s : State) :
    s.endsWithin (execTileReplay t a slot twinMism origMism s) [.mem, .arr, .eng, .keeper, .prog, .run, .tier, .fnp, .link, .health, .outbox, .fresh] := by
  unfold execTileReplay
  simp only []
  split <;> (try split) <;> simp

@[simp] theorem execArrayRetire_within (t : TileIx) (a : Fin 80) (s : State) :
    s.endsWithin (execArrayRetire t a s) [.arr, .keeper, .run, .fnp, .link, .health, .outbox] := by
  unfold execArrayRetire
  simp only []
  repeat' split
  all_goals simp

@[simp] theorem execTeacherTile_within (t : TileIx) (a : Fin 80) (s : State) :
    s.endsWithin (execTeacherTile t a s) [.mem, .arr, .tgt, .eng, .keeper, .prog, .run, .sched, .fnp, .outbox] := by
  unfold execTeacherTile
  split
  · simp
  · simp only []
    refine State.endsWithin_of_if.2 ⟨fun _ => by simp, fun _ => State.endsWithin_of_if.2 ⟨fun _ => by simp, fun _ => ?_⟩⟩
    refine State.endsWithin_of_if.2 ⟨fun _ => by simp, fun _ => ?_⟩
    split
    · simp
    · refine State.endsWithin_of_if.2 ⟨fun _ => by simp, fun _ => State.endsWithin_next.2 ?_⟩
      refine State.onlyChanges_trans ?_ (State.onlyChanges_foldl _ (fun s p => ?_) _ _)
      · simp
      · split <;> simp

@[simp] theorem execRecordForward_within (pos : Nat) (src dst : RecEnd) (pairs : List Word) (slotWord : DWord) (s : State) :
    s.endsWithin (execRecordForward pos src dst pairs slotWord s) [.mem, .tgt, .outbox] := by
  unfold execRecordForward
  simp only []
  repeat' split
  all_goals simp

@[simp] theorem execStudentNormTile_within (t : TileIx) (a : Fin 80) (s : State) :
    s.endsWithin (execStudentNormTile t a s) [.mem, .arr, .tgt, .eng, .keeper, .prog, .run, .sched, .fnp, .outbox] := by
  unfold execStudentNormTile
  split <;> simp

@[simp] theorem execStudentGradTile_within (t : TileIx) (a : Fin 80) (s : State) :
    s.endsWithin (execStudentGradTile t a s) [.mem, .arr, .tgt, .eng, .keeper, .prog, .run, .sched, .fnp, .outbox] := by
  unfold execStudentGradTile
  split <;> simp

@[simp] theorem execTcfgApply_within (t : TileIx) (s : State) :
    s.endsWithin (execTcfgApply t s) [.tgt] := by
  unfold execTcfgApply
  simp

@[simp] theorem execStepReportRx_within (module step : Nat) (words : List Nat) (s : State) :
    s.endsWithin (execStepReportRx module step words s) [.hostMem, .keeper, .run, .lead, .fnp, .outbox] := by
  unfold execStepReportRx
  simp

@[simp] theorem execChain_within (t : TileIx) (e : Fin 8) (src : Src) (ws : List Word) (failed : Course Bool) (s : State) :
    s.endsWithin (execChain t e src ws failed s) [.mem, .arr, .tgt, .eng, .keeper, .prog, .run, .tier, .sched, .fnp, .outbox, .fresh] := by
  unfold execChain
  simp only []
  split <;> simp

@[simp] theorem execSetlen_within (t : TileIx) (e : Fin 8) (src : Src) (w : Word) (rest : List Word) (s : State) :
    s.endsWithin (execSetlen t e src w rest s) [.arr, .tgt, .eng, .keeper, .prog, .run, .sched, .fnp, .outbox] := by
  unfold execSetlen
  simp

@[simp] theorem execUpdate_within (t : TileIx) (e : Fin 8) (src : Src) (ws : Course (List Word)) (s : State) :
    s.endsWithin (execUpdate t e src ws s) [.mem, .arr, .tgt, .eng, .keeper, .prog, .run, .sched, .fnp, .outbox, .fresh] := by
  unfold execUpdate
  simp only []
  repeat' split
  all_goals simp

@[simp] theorem execContributionArrival_within (shard module step : Nat) (vals : ShardVals) (ovf : Bool) (s : State) :
    s.endsWithin (execContributionArrival shard module step vals ovf s) [.mem, .run, .lead, .outbox] := by
  unfold execContributionArrival
  simp only []
  split <;> (try split) <;> simp

@[simp] theorem execLateLimitExpiry_within (shard : Nat) (s : State) :
    s.endsWithin (execLateLimitExpiry shard s) [.mem, .run] := by
  unfold execLateLimitExpiry
  split <;> simp

@[simp] theorem execCollectiveStep_within (src : Src) (op : CollOp) (s : State) :
    s.endsWithin (execCollectiveStep src op s) [.mem, .arr, .tgt, .eng, .keeper, .prog, .run, .serve, .sched, .fnp, .link, .outbox] := by
  unfold execCollectiveStep
  simp only []
  repeat' split
  all_goals simp

@[simp] theorem execReshardComplete_within (index : Nat) (t : TileIx) (duration : Nat) (s : State) :
    s.endsWithin (execReshardComplete index t duration s) [.keeper, .prog, .run, .serve, .tier] := by
  unfold execReshardComplete
  simp only []
  repeat' split
  all_goals simp

@[simp] theorem execSnapshotComplete_within (readFailed : Bool) (s : State) :
    s.endsWithin (execSnapshotComplete readFailed s) [.hostMem, .keeper, .run, .fnp, .outbox] := by
  unfold execSnapshotComplete
  simp

@[simp] theorem execOverflowReport_within (module step : Nat) (ovf : Bool) (partial_ : Word) (fallback second : Bool) (s : State) :
    s.endsWithin (execOverflowReport module step ovf partial_ fallback second s) [.keeper, .run, .lead, .outbox] := by
  unfold execOverflowReport
  simp

@[simp] theorem execPrepassRx_within (step : Nat) (s : State) :
    s.endsWithin (execPrepassRx step s) [.keeper, .run, .lead, .outbox] := by
  unfold execPrepassRx
  simp

@[simp] theorem execGoRx_within (step : Nat) (k lscale : Word) (clean : Nat) (s : State) :
    s.endsWithin (execGoRx step k lscale clean s) [.mem, .tgt, .keeper, .prog, .run, .fnp, .outbox] := by
  unfold execGoRx
  simp

@[simp] theorem execReadyRx_within (module step : Nat) (ovf : Bool) (owned mirrored : List (Nat × Word)) (s : State) :
    s.endsWithin (execReadyRx module step ovf owned mirrored s) [.keeper, .run, .lead, .outbox] := by
  unfold execReadyRx
  simp

@[simp] theorem execLscaleFloor_within (s : State) :
    s.endsWithin (execLscaleFloor s) [.keeper, .run, .fnp, .outbox] := by
  unfold execLscaleFloor
  simp

@[simp] theorem execSkipRx_within (step : Nat) (lscale : Word) (clean : Nat) (s : State) :
    s.endsWithin (execSkipRx step lscale clean s) [.mem, .hostMem, .arr, .tgt, .eng, .keeper, .pair, .prog, .run, .lead, .serve, .tier, .sched, .fnp, .link, .health, .outbox] := by
  unfold execSkipRx
  simp

@[simp] theorem execCommitMarkRx_within (step : Nat) (lscale : Word) (clean : Nat) (s : State) :
    s.endsWithin (execCommitMarkRx step lscale clean s) [.mem, .hostMem, .arr, .tgt, .eng, .keeper, .pair, .prog, .run, .lead, .serve, .tier, .sched, .fnp, .link, .health, .outbox] := by
  unfold execCommitMarkRx
  simp

@[simp] theorem execAbortRx_within (step failed : Nat) (s : State) :
    s.endsWithin (execAbortRx step failed s) [.mem, .eng, .keeper, .prog, .run, .serve, .fnp, .link, .health, .outbox] := by
  unfold execAbortRx
  refine State.endsWithin_of_if.2 ⟨fun _ => by simp, fun _ => State.endsWithin_of_if.2 ⟨fun _ => by simp, fun _ => ?_⟩⟩
  refine State.endsWithin_of_if.2 ⟨fun _ => by simp, fun _ => State.endsWithin_next.2 ?_⟩
  refine State.onlyChanges_trans ?_ (State.onlyChanges_foldl _ (fun s d => ?_) _ _)
  · simp
  · split
    · simp
    · split <;> simp

@[simp] theorem execCommitWaitExpiry_within (module : Nat) (s : State) :
    s.endsWithin (execCommitWaitExpiry module s) [.mem, .arr, .tgt, .eng, .keeper, .prog, .run, .lead, .serve, .fnp, .link, .health, .outbox] := by
  unfold execCommitWaitExpiry
  simp

@[simp] theorem execCommitPulse_within (widthNs : Nat) (copies : BitVec 2) (s : State) :
    s.endsWithin (execCommitPulse widthNs copies s) [.run, .pwr, .outbox] := by
  unfold execCommitPulse
  simp

@[simp] theorem execCopy_within (t : TileIx) (e : Fin 4) (src : Src) (ws : List Word) (remote : List Byte) (s : State) :
    s.endsWithin (execCopy t e src ws remote s) [.mem, .arr, .tgt, .eng, .keeper, .prog, .run, .tier, .sched, .fnp, .link, .outbox] := by
  unfold execCopy
  refine State.endsWithin_of_if.2 ⟨fun _ => by simp, fun _ => State.endsWithin_of_if.2 ⟨fun _ => by simp, fun _ => ?_⟩⟩
  split
  · refine State.endsWithin_of_if.2 ⟨fun _ => by simp, fun _ => ?_⟩
    exact State.endsWithin_next.2 ((State.onlyChanges_readOr _ _ _ _ _ _ _ (by simp) (by simp)).2 (s.onlyChanges_self _))
  · exact State.endsWithin_next.2 ((State.onlyChanges_readOr _ _ _ _ _ _ _ (by simp) (by simp)).2 (s.onlyChanges_self _))

@[simp] theorem execFill_within (t : TileIx) (e : Fin 4) (src : Src) (ws : List Word) (s : State) :
    s.endsWithin (execFill t e src ws s) [.mem, .arr, .tgt, .eng, .keeper, .prog, .run, .tier, .sched, .fnp, .link, .outbox] := by
  unfold execFill
  simp only []
  refine State.endsWithin_of_if.2 ⟨fun _ => by simp, fun _ => State.endsWithin_of_if.2 ⟨fun _ => by simp, fun _ => ?_⟩⟩
  exact State.endsWithin_next.2 ((State.onlyChanges_readOr _ _ _ _ _ _ _ (by simp) (by simp)).2 (s.onlyChanges_self _))

end
end Sys2Proof.Machine
end

section
namespace Sys2Proof.Machine
section
variable {s₀ u : State} {ps : List Part}

@[simp] theorem execLinkTrain_within (p : PortIx) (o : TrainObs) (s : State) :
    s.endsWithin (execLinkTrain p o s) [.keeper, .fnp, .link, .health, .outbox] := by
  unfold execLinkTrain
  simp

@[simp] theorem execLinkTrainRetry_within (p : PortIx) (o : TrainObs) (s : State) :
    s.endsWithin (execLinkTrainRetry p o s) [.keeper, .fnp, .link, .health, .outbox] := by
  unfold execLinkTrainRetry
  simp

@[simp] theorem execLinkPacketRx_within (p : PortIx) (pkt : Packet) (s : State) :
    s.endsWithin (execLinkPacketRx p pkt s) [.link, .outbox] := by
  unfold execLinkPacketRx
  simp

@[simp] theorem execNakRx_within (p : PortIx) (ackseq : Nat) (s : State) :
    s.endsWithin (execNakRx p ackseq s) [.link, .outbox] := by
  unfold execNakRx
  simp

@[simp] theorem execAckRx_within (p : PortIx) (ackseq : Nat) (s : State) :
    s.endsWithin (execAckRx p ackseq s) [.link, .outbox] := by
  unfold execAckRx
  simp

@[simp] theorem execIdleTimer_within (p : PortIx) (s : State) :
    s.endsWithin (execIdleTimer p s) [.outbox] := by
  unfold execIdleTimer
  simp

@[simp] theorem execLaneSpared_within (p : PortIx) (lane : Fin 18) (s : State) :
    s.endsWithin (execLaneSpared p lane s) [.keeper, .fnp, .link, .health, .outbox] := by
  unfold execLaneSpared
  simp

@[simp] theorem execPeerSilent_within (p : PortIx) (s : State) :
    s.endsWithin (execPeerSilent p s) [.keeper, .lead, .fnp, .link, .health, .outbox] := by
  unfold execPeerSilent
  simp

@[simp] theorem execMoveTimeout_within (move : Nat) (s : State) :
    s.endsWithin (execMoveTimeout move s) [.keeper, .fnp, .link, .health, .outbox] := by
  unfold execMoveTimeout
  split <;> simp

@[simp] theorem execLaserLow_within (source : Fin 2) (percent : Nat) (s : State) :
    s.endsWithin (execLaserLow source percent s) [.keeper, .fnp, .link, .health, .outbox] := by
  unfold execLaserLow
  simp

@[simp] theorem execLaserFailover_within (source : Fin 2) (s : State) :
    s.endsWithin (execLaserFailover source s) [.keeper, .fnp, .link, .health, .outbox] := by
  unfold execLaserFailover
  simp

@[simp] theorem execLaserSourceFitted_within (source : Fin 2) (s : State) :
    s.endsWithin (execLaserSourceFitted source s) [.keeper, .fnp, .link, .health, .outbox] := by
  unfold execLaserSourceFitted
  simp

@[simp] theorem execServiceNoticeRx_within (p : PortIx) (s : State) :
    s.endsWithin (execServiceNoticeRx p s) [.link, .outbox] := by
  unfold execServiceNoticeRx
  simp

@[simp] theorem execServiceNoticeTimeout_within (p : PortIx) (s : State) :
    s.endsWithin (execServiceNoticeTimeout p s) [.keeper, .fnp, .outbox] := by
  unfold execServiceNoticeTimeout
  split <;> simp

@[simp] theorem execFogReport_within (code subject : Nat) (witnesses : List Nat) (count : Nat) (s : State) :
    s.endsWithin (execFogReport code subject witnesses count s) [.keeper, .lead, .link, .outbox] := by
  unfold execFogReport
  simp

@[simp] theorem execFogHoldExpiry_within (code subject : Nat) (s : State) :
    s.endsWithin (execFogHoldExpiry code subject s) [.link, .outbox] := by
  unfold execFogHoldExpiry
  split <;> simp

@[simp] theorem execFogWindowExpiry_within (code subject : Nat) (s : State) :
    s.endsWithin (execFogWindowExpiry code subject s) [.lead, .link, .outbox] := by
  unfold execFogWindowExpiry
  split <;> simp

@[simp] theorem execRegionAlloc_within (m : MCmd) (s : State) :
    s.endsWithin (execRegionAlloc m s) [.keeper, .tier, .fnp, .outbox] := by
  unfold execRegionAlloc
  refine State.endsWithin_next.2 (State.onlyChanges_intake _ _ _ _ _ _ _ (by simp) ?_)
  simp only []
  refine State.onlyChanges_of_if.2 ⟨fun _ => by simp, fun _ => State.onlyChanges_of_if.2 ⟨fun _ => by simp, fun _ => ?_⟩⟩
  split
  · simp
  · split
    · simp
    · rename_i hx
      exact (State.onlyChanges_complete _ _ _ _ (by simp)).2 ((State.onlyChanges_addRegion _ _ (by simp) hx).2 (s.onlyChanges_self _))

@[simp] theorem execRegionFree_within (m : MCmd) (s : State) :
    s.endsWithin (execRegionFree m s) [.keeper, .tier, .fnp, .outbox] := by
  unfold execRegionFree
  refine State.endsWithin_next.2 (State.onlyChanges_intake _ _ _ _ _ _ _ (by simp) ?_)
  simp only []
  refine State.onlyChanges_of_if.2 ⟨fun _ => by simp, fun _ => ?_⟩
  split <;> simp

@[simp] theorem execMemTransfer_within (m : MCmd) (s : State) :
    s.endsWithin (execMemTransfer m s) [.keeper, .fnp, .outbox] := by
  unfold execMemTransfer
  refine State.endsWithin_next.2 (State.onlyChanges_intake _ _ _ _ _ _ _ (by simp) ?_)
  simp only []
  refine State.onlyChanges_of_if.2 ⟨fun _ => by simp, fun _ => State.onlyChanges_of_if.2 ⟨fun _ => by simp, fun _ => ?_⟩⟩
  split <;> simp

@[simp] theorem execMemTransferDone_within (fn : Fn) (seq : Nat) (data : List Byte) (refused : Bool) (s : State) :
    s.endsWithin (execMemTransferDone fn seq data refused s) [.mem, .hostMem, .keeper, .fnp, .outbox] := by
  unfold execMemTransferDone
  simp only []
  split <;> (try split) <;> simp

@[simp] theorem execCarrierEvacuate_within (m : MCmd) (s : State) :
    s.endsWithin (execCarrierEvacuate m s) [.keeper, .tier, .fnp, .outbox] := by
  unfold execCarrierEvacuate
  simp

@[simp] theorem execExtentSwitch_within (carrier : Fin 4) (extent : Nat) (s : State) :
    s.endsWithin (execExtentSwitch carrier extent s) [.keeper, .tier] := by
  unfold execExtentSwitch
  simp only []
  repeat' split
  all_goals simp

@[simp] theorem execCarrierReleased_within (carrier : Fin 4) (s : State) :
    s.endsWithin (execCarrierReleased carrier s) [.keeper, .tier, .arb, .fnp, .link, .health, .outbox] := by
  unfold execCarrierReleased
  simp only []
  repeat' split
  all_goals simp

@[simp] theorem execCarrierFitted_within (carrier : Fin 4) (retired : List Nat) (s : State) :
    s.endsWithin (execCarrierFitted carrier retired s) [.keeper, .tier, .arb, .fnp, .link, .health, .outbox] := by
  unfold execCarrierFitted
  simp

@[simp] theorem execCarrierLost_within (carrier : Fin 4) (s : State) :
    s.endsWithin (execCarrierLost carrier s) [.keeper, .tier, .fnp, .link, .health, .outbox] := by
  unfold execCarrierLost
  split <;> simp

@[simp] theorem execCxlmemWindow_within (m : MCmd) (s : State) :
    s.endsWithin (execCxlmemWindow m s) [.keeper, .tier, .fnp, .outbox] := by
  unfold execCxlmemWindow
  simp

@[simp] theorem execCxlmemAccess_within (write : Bool) (offset : Nat) (data : List Byte) (s : State) :
    s.endsWithin (execCxlmemAccess write offset data s) [.mem, .outbox, .fresh] := by
  unfold execCxlmemAccess
  simp

@[simp] theorem execReread_within (reader : Src) (e : EngRef) (addr : Nat) (failures : Nat) (s : State) :
    s.endsWithin (execReread reader e addr failures s) [.arr, .tgt, .eng, .keeper, .prog, .run, .tier, .fnp, .health, .outbox] := by
  unfold execReread
  simp

@[simp] theorem execPersistentFailureRecovery_within (addr : Nat) (data : List Byte) (sourceFailed : Bool) (s : State) :
    s.endsWithin (execPersistentFailureRecovery addr data sourceFailed s) [.mem, .keeper, .prog, .run, .serve, .tier, .fnp, .link, .health, .outbox, .fresh] := by
  unfold execPersistentFailureRecovery
  refine State.endsWithin_of_if.2 ⟨fun _ => by simp, fun _ => ?_⟩
  simp only [State.endsWithin_next]
  split
  · simp
  · split
    · simp
    · refine (State.onlyChanges_retireEvent _ _ _ _ _ (by simp)).2 (State.onlyChanges_of_if.2 ⟨fun _ => by simp, fun _ => ?_⟩)
      split
      · simp
      · simp
      · refine State.onlyChanges_trans ?_ (State.onlyChanges_foldl _ (fun s i => ?_) _ _)
        · simp
        · split <;> simp
      · simp

@[simp] theorem execTransientRetire_within (addr : Nat) (s : State) :
    s.endsWithin (execTransientRetire addr s) [.keeper, .tier, .fnp, .link, .health, .outbox] := by
  unfold execTransientRetire
  simp

@[simp] theorem execBridgeFlitCrcFail_within (t : TileIx) (resends : Nat) (fault : BridgeFault) (s : State) :
    s.endsWithin (execBridgeFlitCrcFail t resends fault s) [.keeper, .run, .fnp, .link, .health, .outbox] := by
  unfold execBridgeFlitCrcFail
  simp

@[simp] theorem execJunctionTemperatureChange_within (t : TileIx) (temp setting : Nat) (s : State) :
    s.endsWithin (execJunctionTemperatureChange t temp setting s) [.pwr] := by
  unfold execJunctionTemperatureChange
  simp

@[simp] theorem execVoltageStep_within (t : TileIx) (s : State) :
    s.endsWithin (execVoltageStep t s) [.pwr] := by
  unfold execVoltageStep
  simp

@[simp] theorem execPowerCap_within (watts : Nat) (settings : List Nat) (s : State) :
    s.endsWithin (execPowerCap watts settings s) [.keeper, .fnp, .link, .pwr, .health, .outbox] := by
  unfold execPowerCap
  simp

@[simp] theorem execThermalSpread_within (temps : List Nat) (s : State) :
    s.endsWithin (execThermalSpread temps s) [.keeper, .run, .fnp, .link, .pwr, .health, .outbox] := by
  unfold execThermalSpread
  simp

@[simp] theorem execThermalHold_within (t : TileIx) (temp : Nat) (s : State) :
    s.endsWithin (execThermalHold t temp s) [.pwr] := by
  unfold execThermalHold
  simp

@[simp] theorem execThermalHoldRelease_within (t : TileIx) (temp : Nat) (s : State) :
    s.endsWithin (execThermalHoldRelease t temp s) [.keeper, .fnp, .link, .pwr, .health, .outbox] := by
  unfold execThermalHoldRelease
  simp

@[simp] theorem execPhaseFailed_within (rail phase : Nat) (s : State) :
    s.endsWithin (execPhaseFailed rail phase s) [.arr, .keeper, .run, .fnp, .link, .pwr, .health, .outbox] := by
  unfold execPhaseFailed
  simp

@[simp] theorem execPhaseFitted_within (rail phase : Nat) (s : State) :
    s.endsWithin (execPhaseFitted rail phase s) [.keeper, .fnp, .link, .pwr, .health, .outbox] := by
  unfold execPhaseFitted
  simp

@[simp] theorem execInputFault_within (input : Fin 2) (code deciVolts : Nat) (s : State) :
    s.endsWithin (execInputFault input code deciVolts s) [.keeper, .fnp, .link, .pwr, .health, .outbox] := by
  unfold execInputFault
  simp

@[simp] theorem execInputRestored_within (input : Fin 2) (deciVolts : Nat) (s : State) :
    s.endsWithin (execInputRestored input deciVolts s) [.keeper, .fnp, .link, .pwr, .health, .outbox] := by
  unfold execInputRestored
  simp

@[simp] theorem execShortRetry_within (input : Fin 2) (ok : Bool) (s : State) :
    s.endsWithin (execShortRetry input ok s) [.keeper, .fnp, .link, .pwr, .health, .outbox] := by
  unfold execShortRetry
  simp

@[simp] theorem execInputSenseOpen_within (input : Fin 2) (s : State) :
    s.endsWithin (execInputSenseOpen input s) [.keeper, .fnp, .link, .pwr, .health, .outbox] := by
  unfold execInputSenseOpen
  simp

@[simp] theorem execPowerLoss_within (s : State) :
    s.endsWithin (execPowerLoss s) [.mem, .arr, .tgt, .eng, .keeper, .pair, .prog, .run, .lead, .serve, .tier, .arb, .sched, .fnp, .link, .pwr, .sec] := by
  unfold execPowerLoss
  simp

@[simp] theorem execHubOvertemp_within (s : State) :
    s.endsWithin (execHubOvertemp s) [.mem, .arr, .tgt, .eng, .keeper, .pair, .prog, .run, .lead, .serve, .tier, .arb, .sched, .fnp, .link, .pwr, .sec, .health, .outbox] := by
  unfold execHubOvertemp
  simp

@[simp] theorem execModulePowerOn_within (hubTemp : Nat) (boot : BootCheck) (s : State) :
    s.endsWithin (execModulePowerOn hubTemp boot s) [.keeper, .fnp, .link, .pwr, .sec, .health, .outbox] := by
  unfold execModulePowerOn
  simp

@[simp] theorem execStartToken_within (s : State) :
    s.endsWithin (execStartToken s) [.pwr] := by
  unfold execStartToken
  simp

@[simp] theorem execTokenFallback_within (s : State) :
    s.endsWithin (execTokenFallback s) [.keeper, .fnp, .link, .pwr, .health, .outbox] := by
  unfold execTokenFallback
  simp

@[simp] theorem execFallbackDelayExpiry_within (s : State) :
    s.endsWithin (execFallbackDelayExpiry s) [.pwr] := by
  unfold execFallbackDelayExpiry
  simp

@[simp] theorem execStrapSample_within (millivolts : List Nat) (s : State) :
    s.endsWithin (execStrapSample millivolts s) [.keeper, .fnp, .link, .pwr, .health, .outbox] := by
  unfold execStrapSample
  simp

@[simp] theorem execModuleResetRelease_within (s : State) :
    s.endsWithin (execModuleResetRelease s) [.mem, .arr, .tgt, .eng, .serve, .arb, .link, .pwr] := by
  unfold execModuleResetRelease
  simp

@[simp] theorem execGalleryWake_within (t : TileIx) (g : Fin 10) (fn : Fn) (wakeTime : Nat) (s : State) :
    s.endsWithin (execGalleryWake t g fn wakeTime s) [.arr, .fnp] := by
  unfold execGalleryWake
  simp

@[simp] theorem execGalleryGate_within (t : TileIx) (g : Fin 10) (s : State) :
    s.endsWithin (execGalleryGate t g s) [.arr] := by
  unfold execGalleryGate
  simp

@[simp] theorem execBuiltInTest_within (r : List BistTile) (s : State) :
    s.endsWithin (execBuiltInTest r s) [.arr, .keeper, .fnp, .link, .pwr, .health, .outbox] := by
  unfold execBuiltInTest
  refine State.endsWithin_next.2 (State.onlyChanges_of_if.2 ⟨fun _ => ?_, fun _ => by simp⟩)
  refine (State.onlyChanges_setPwr _ _ (by simp)).2 (State.onlyChanges_foldl _ (fun s x => ?_) _ _)
  simp

@[simp] theorem execMailboxesOpen_within (s : State) :
    s.endsWithin (execMailboxesOpen s) [.keeper, .fnp, .link, .pwr, .sec, .health, .outbox] := by
  unfold execMailboxesOpen
  simp

@[simp] theorem execBeaconPinFault_within (pin : Fin 8) (swapped : Bool) (s : State) :
    s.endsWithin (execBeaconPinFault pin swapped s) [.keeper, .fnp, .link, .pwr, .health, .outbox] := by
  unfold execBeaconPinFault
  simp

@[simp] theorem execHostReset_within (millivolts : List Nat) (boot : BootCheck) (s : State) :
    s.endsWithin (execHostReset millivolts boot s) [.mem, .arr, .tgt, .eng, .keeper, .pair, .prog, .run, .lead, .serve, .tier, .arb, .sched, .fnp, .link, .pwr, .sec, .health, .outbox] := by
  unfold execHostReset
  simp only []
  split <;> (try split) <;> simp

@[simp] theorem execPwrHotreset_within (fn : Fn) (value : Word) (boot : BootCheck) (s : State) :
    s.endsWithin (execPwrHotreset fn value boot s) [.mem, .arr, .tgt, .eng, .keeper, .pair, .prog, .run, .lead, .serve, .tier, .arb, .sched, .fnp, .link, .pwr, .sec, .health, .outbox] := by
  unfold execPwrHotreset
  simp

@[simp] theorem execTileReset_within (t : TileIx) (s : State) :
    s.endsWithin (execTileReset t s) [.mem, .arr, .tgt, .eng, .serve] := by
  unfold execTileReset
  simp

@[simp] theorem execNop_within (m : MCmd) (opcode : Nat) (s : State) :
    s.endsWithin (execNop m opcode s) [.keeper, .fnp, .outbox] := by
  unfold execNop
  simp

@[simp] theorem execIdentify_within (m : MCmd) (s : State) :
    s.endsWithin (execIdentify m s) [.keeper, .fnp, .outbox] := by
  unfold execIdentify
  simp

@[simp] theorem execHealthRead_within (m : MCmd) (s : State) :
    s.endsWithin (execHealthRead m s) [.mem, .hostMem, .keeper, .fnp, .outbox] := by
  unfold execHealthRead
  simp

@[simp] theorem execAccountRead_within (m : MCmd) (s : State) :
    s.endsWithin (execAccountRead m s) [.mem, .hostMem, .keeper, .fnp, .outbox] := by
  unfold execAccountRead
  simp

@[simp] theorem execPairLoad_within (m : MCmd) (signed : Bool) (s : State) :
    s.endsWithin (execPairLoad m signed s) [.keeper, .pair, .fnp, .outbox] := by
  unfold execPairLoad
  simp

@[simp] theorem execPairLoadDone_within (r : LoadResult) (s : State) :
    s.endsWithin (execPairLoadDone r s) [.mem, .keeper, .pair, .fnp, .outbox] := by
  unfold execPairLoadDone
  split <;> simp

@[simp] theorem execPairUnload_within (m : MCmd) (s : State) :
    s.endsWithin (execPairUnload m s) [.arr, .tgt, .eng, .keeper, .pair, .prog, .serve, .tier, .sched, .fnp, .outbox] := by
  have dropped : ∀ (t : State) (x y : Option HeldRefresh) (p : Pairing), s.onlyChanges t [.arr, .tgt, .eng, .keeper, .pair, .prog, .serve, .tier, .sched, .fnp, .outbox] →
      s.onlyChanges (((match y with
        | none => (match x with | none => t | some h => t.refreshOver h .refreshTeacher codeSuperseded)
        | some h => (match x with | none => t | some h => t.refreshOver h .refreshTeacher codeSuperseded).refreshOver h .refreshStudent codeSuperseded).setPair p).accept
          m .pairUnload 0x101) [.arr, .tgt, .eng, .keeper, .pair, .prog, .serve, .tier, .sched, .fnp, .outbox] :=
    fun t x y p h => by cases x <;> cases y <;> simp [h]
  unfold execPairUnload
  refine State.endsWithin_next.2 (State.onlyChanges_intake _ _ _ _ _ _ _ (by simp) ?_)
  refine State.onlyChanges_of_if.2 ⟨fun _ => by simp, fun _ => State.onlyChanges_of_if.2 ⟨fun _ => by simp, fun _ => ?_⟩⟩
  exact dropped _ _ _ _ (by simp)

@[simp] theorem execPairUnloadDone_within (s : State) :
    s.endsWithin (execPairUnloadDone s) [.keeper, .pair, .fnp, .outbox] := by
  unfold execPairUnloadDone
  split <;> simp

@[simp] theorem execRefresh_within (m : MCmd) (img : WeightImage) (s : State) :
    s.endsWithin (execRefresh m img s) [.keeper, .pair, .fnp, .outbox] := by
  unfold execRefresh
  simp

@[simp] theorem execRefreshDone_within (model : Nat) (readable : Bool) (s : State) :
    s.endsWithin (execRefreshDone model readable s) [.mem, .tgt, .keeper, .pair, .fnp, .outbox] := by
  unfold execRefreshDone
  simp only []
  repeat' split
  all_goals simp

@[simp] theorem execPairStatus_within (m : MCmd) (s : State) :
    s.endsWithin (execPairStatus m s) [.keeper, .fnp, .outbox] := by
  unfold execPairStatus
  simp

@[simp] theorem execSizeTableSet_within (m : MCmd) (s : State) :
    s.endsWithin (execSizeTableSet m s) [.keeper, .fnp, .link, .outbox] := by
  unfold execSizeTableSet
  refine State.endsWithin_next.2 (State.onlyChanges_intake _ _ _ _ _ _ _ (by simp) ?_)
  refine State.onlyChanges_of_if.2 ⟨fun _ => by simp, fun _ => State.onlyChanges_of_if.2 ⟨fun _ => by simp, fun _ => ?_⟩⟩
  refine State.onlyChanges_of_if.2 ⟨fun _ => by simp, fun _ => ?_⟩
  cases s.link.pendingTable with
  | none => simp
  | some x => simp

@[simp] theorem execSizeTableInForce_within (leadCrc : Nat) (census : List CensusEntry) (s : State) :
    s.endsWithin (execSizeTableInForce leadCrc census s) [.keeper, .run, .fnp, .link, .health, .outbox] := by
  unfold execSizeTableInForce
  simp only []
  repeat' split
  all_goals simp

@[simp] theorem execSizeTableRead_within (m : MCmd) (s : State) :
    s.endsWithin (execSizeTableRead m s) [.mem, .hostMem, .keeper, .fnp, .outbox] := by
  unfold execSizeTableRead
  refine State.endsWithin_next.2 (State.onlyChanges_intake _ _ _ _ _ _ _ (by simp) ?_)
  simp only []
  refine State.onlyChanges_of_if.2 ⟨fun _ => by simp, fun _ => ?_⟩
  split <;> simp

@[simp] theorem execLinkStatus_within (m : MCmd) (s : State) :
    s.endsWithin (execLinkStatus m s) [.keeper, .fnp, .outbox] := by
  unfold execLinkStatus
  simp

@[simp] theorem execFogRead_within (m : MCmd) (s : State) :
    s.endsWithin (execFogRead m s) [.mem, .hostMem, .keeper, .fnp, .link, .outbox] := by
  unfold execFogRead
  simp

@[simp] theorem execMbxEvtConsWrite_within (fn : Fn) (value : Nat) (s : State) :
    s.endsWithin (execMbxEvtConsWrite fn value s) [.keeper, .fnp, .outbox] := by
  unfold execMbxEvtConsWrite
  simp

@[simp] theorem execKeeperHeartbeat_within (s : State) :
    s.endsWithin (execKeeperHeartbeat s) [.keeper] := by
  unfold execKeeperHeartbeat
  simp

@[simp] theorem execKprSwatchRead_within (unit : Fin 5) (s : State) :
    s.endsWithin (execKprSwatchRead unit s) [.keeper, .outbox] := by
  unfold execKprSwatchRead
  simp

@[simp] theorem execDrnCntClr_within (t : TileIx) (p : Fin 84) (value : Word) (s : State) :
    s.endsWithin (execDrnCntClr t p value s) [.arr] := by
  unfold execDrnCntClr
  simp

@[simp] theorem execTgtCntClr_within (t : TileIx) (value : Word) (s : State) :
    s.endsWithin (execTgtCntClr t value s) [.tgt] := by
  unfold execTgtCntClr
  simp

@[simp] theorem execVxeCntClr_within (t : TileIx) (e : Fin 8) (value : Word) (s : State) :
    s.endsWithin (execVxeCntClr t e value s) [.eng] := by
  unfold execVxeCntClr
  simp

@[simp] theorem execDrnCustCommit_within (fn : Fn) (t : TileIx) (value : Word) (s : State) :
    s.endsWithin (execDrnCustCommit fn t value s) [.arr, .keeper, .fnp, .outbox] := by
  unfold execDrnCustCommit
  simp

@[simp] theorem execTgtCommit_within (fn : Fn) (t : TileIx) (value : Word) (s : State) :
    s.endsWithin (execTgtCommit fn t value s) [.tgt, .keeper, .fnp, .outbox] := by
  unfold execTgtCommit
  simp

@[simp] theorem execVxeKeyCommit_within (fn : Fn) (t : TileIx) (f : Fn) (value : Word) (s : State) :
    s.endsWithin (execVxeKeyCommit fn t f value s) [.eng, .keeper, .fnp, .outbox] := by
  unfold execVxeKeyCommit
  simp

@[simp] theorem execKprSchedCommit_within (fn : Fn) (value : Word) (s : State) :
    s.endsWithin (execKprSchedCommit fn value s) [.sched] := by
  unfold execKprSchedCommit
  simp

@[simp] theorem execRegisterWrite_within (fn : Fn) (bar offset size : Nat) (value : Word) (s : State) :
    s.endsWithin (execRegisterWrite fn bar offset size value s) [.arr, .tgt, .eng, .keeper, .arb, .sched, .fnp, .pwr, .outbox] := by
  unfold execRegisterWrite
  simp only []
  repeat' split
  all_goals simp

@[simp] theorem execFunctionLevelReset_within (fn : Fn) (s : State) :
    s.endsWithin (execFunctionLevelReset fn s) [.arr, .tgt, .eng, .keeper, .prog, .run, .arb, .fnp] := by
  unfold execFunctionLevelReset
  simp

@[simp] theorem execVfEnableClear_within (s : State) :
    s.endsWithin (execVfEnableClear s) [.arr, .tgt, .eng, .keeper, .prog, .run, .arb, .fnp] := by
  unfold execVfEnableClear
  simp

@[simp] theorem execFlrKeeperClear_within (fn : Fn) (s : State) :
    s.endsWithin (execFlrKeeperClear fn s) [.arr, .tgt, .eng, .keeper, .prog, .serve, .tier, .sched, .fnp] := by
  unfold execFlrKeeperClear
  simp

@[simp] theorem execFunctionPowerState_within (fn : Fn) (d3hot : Bool) (s : State) :
    s.endsWithin (execFunctionPowerState fn d3hot s) [.fnp, .outbox] := by
  unfold execFunctionPowerState
  simp

@[simp] theorem execMsixVectorUnmask_within (fn : Fn) (vector : Fin 64) (s : State) :
    s.endsWithin (execMsixVectorUnmask fn vector s) [.fnp, .outbox] := by
  unfold execMsixVectorUnmask
  simp

end
end Sys2Proof.Machine
end

section
namespace Sys2Proof.Machine
section
variable {s₀ u : State} {ps : List Part}

@[simp] theorem execSampleTile_within (t : TileIx) (a : Fin 80) (s : State) :
    s.endsWithin (execSampleTile t a s) [.mem, .arr, .tgt, .eng, .keeper, .prog, .run, .serve, .sched, .fnp, .link, .health, .outbox] := by
  unfold execSampleTile
  split <;> simp

theorem State.onlyChanges_of_places {s t : State} {ps : List Part} {f : Nat → Nat → State} (o : Option (Nat × Nat))
    (ht : s.onlyChanges t ps) (hf : ∀ x y, s.onlyChanges (f x y) ps) :
    s.onlyChanges (match o with | none => t | some (x, y) => f x y) ps := by
  cases o with
  | none => exact ht
  | some x => exact hf x.1 x.2

theorem State.onlyChanges_of_choice {s t : State} {ps : List Part} {f : Nat → State} (o : Option Nat)
    (ht : s.onlyChanges t ps) (hf : ∀ x, s.onlyChanges (f x) ps) :
    s.onlyChanges (match o with | none => t | some x => f x) ps := by
  cases o with
  | none => exact ht
  | some x => exact hf x

@[simp] theorem execJoin_within (m : MCmd) (s : State) :
    s.endsWithin (execJoin m s) [.mem, .keeper, .serve, .fnp, .outbox] := by
  unfold execJoin
  refine State.endsWithin_next.2 (State.onlyChanges_intake _ _ _ _ _ _ _ (by simp) ?_)
  have entered : ∀ (v : Mem) (w : ServePart) (bs : List Byte),
      s.onlyChanges (((s.setMem v).setServe w).complete m codeOk bs) [.mem, .keeper, .serve, .fnp, .outbox] := fun _ _ _ => by simp
  have refused : ∀ code bs, s.onlyChanges (s.complete m code bs) [.mem, .keeper, .serve, .fnp, .outbox] := fun _ _ => by simp
  obtain ⟨places, hplaces⟩ : ∃ f, s.placeTables = f := ⟨_, rfl⟩
  rw [hplaces]
  refine State.onlyChanges_of_if.2 ⟨fun _ => refused _ _, fun _ => State.onlyChanges_of_if.2 ⟨fun _ => refused _ _, fun _ => ?_⟩⟩
  refine State.onlyChanges_of_if.2 ⟨fun _ => refused _ _, fun _ => State.onlyChanges_of_if.2 ⟨fun _ => refused _ _, fun _ => ?_⟩⟩
  refine State.onlyChanges_of_if.2 ⟨fun _ => refused _ _, fun _ => ?_⟩
  refine State.onlyChanges_of_choice _ (refused _ _) fun i => ?_
  refine State.onlyChanges_of_if.2 ⟨fun _ => refused _ _, fun _ => State.onlyChanges_of_if.2 ⟨fun _ => refused _ _, fun _ => ?_⟩⟩
  refine State.onlyChanges_of_choice _ (refused _ _) fun g => ?_
  exact State.onlyChanges_of_places _ (refused _ _) fun _ _ => entered _ _ _

@[simp] theorem execCancel_within (m : MCmd) (s : State) :
    s.endsWithin (execCancel m s) [.keeper, .serve, .fnp, .outbox] := by
  unfold execCancel
  simp

@[simp] theorem execPause_within (m : MCmd) (s : State) :
    s.endsWithin (execPause m s) [.keeper, .serve, .fnp, .outbox] := by
  unfold execPause
  simp

@[simp] theorem execReqStatus_within (m : MCmd) (s : State) :
    s.endsWithin (execReqStatus m s) [.keeper, .fnp, .outbox] := by
  unfold execReqStatus
  refine State.endsWithin_next.2 (State.onlyChanges_intake _ _ _ _ _ _ _ (by simp) ?_)
  refine State.onlyChanges_of_if.2 ⟨fun _ => by simp, fun _ => State.onlyChanges_of_if.2 ⟨fun _ => by simp, fun _ => ?_⟩⟩
  split <;> simp

@[simp] theorem execBatchClose_within (m : MCmd) (s : State) :
    s.endsWithin (execBatchClose m s) [.keeper, .serve, .fnp, .outbox] := by
  unfold execBatchClose
  simp

@[simp] theorem execCustBind_within (m : MCmd) (s : State) :
    s.endsWithin (execCustBind m s) [.keeper, .serve, .fnp, .outbox] := by
  unfold execCustBind
  simp only []
  split <;> (try split) <;> simp

@[simp] theorem execBudgetRefill_within (m : MCmd) (s : State) :
    s.endsWithin (execBudgetRefill m s) [.keeper, .serve, .fnp, .outbox] := by
  unfold execBudgetRefill
  simp

@[simp] theorem execBudgetRead_within (m : MCmd) (s : State) :
    s.endsWithin (execBudgetRead m s) [.keeper, .fnp, .outbox] := by
  unfold execBudgetRead
  simp

@[simp] theorem execServingStepBoundary_within (g : Fin 4) (pageFaults kvFailed treeReqs : List Nat) (trees : List (List Nat)) (s : State) :
    s.endsWithin (execServingStepBoundary g pageFaults kvFailed treeReqs trees s) [.mem, .hostMem, .arr, .tgt, .eng, .keeper, .prog, .run, .serve, .tier, .sched, .fnp, .link, .health, .outbox, .fresh] := by
  unfold execServingStepBoundary
  simp

@[simp] theorem execRequestDeadlineExpiry_within (index : Nat) (s : State) :
    s.endsWithin (execRequestDeadlineExpiry index s) [.serve] := by
  unfold execRequestDeadlineExpiry
  split <;> simp

@[simp] theorem execNoPages_within (index : Nat) (s : State) :
    s.endsWithin (execNoPages index s) [.keeper, .serve] := by
  unfold execNoPages
  simp only []
  split <;> (try split) <;> simp

@[simp] theorem execProgSubmit_within (m : MCmd) (img : ProgImage) (s : State) :
    s.endsWithin (execProgSubmit m img s) [.arr, .tgt, .eng, .keeper, .prog, .serve, .tier, .arb, .sched, .fnp, .outbox] := by
  unfold execProgSubmit
  refine State.endsWithin_next.2 (State.onlyChanges_intake _ _ _ _ _ _ _ (by simp) ?_)
  simp only []
  refine State.onlyChanges_of_if.2 ⟨fun _ => by simp, fun _ => State.onlyChanges_of_if.2 ⟨fun _ => by simp, fun _ => ?_⟩⟩
  refine State.onlyChanges_of_if.2 ⟨fun _ => by simp, fun _ => State.onlyChanges_of_if.2 ⟨fun _ => by simp, fun _ => ?_⟩⟩
  refine State.onlyChanges_of_if.2 ⟨fun _ => by simp, fun _ => State.onlyChanges_of_if.2 ⟨fun _ => by simp, fun _ => ?_⟩⟩
  refine State.onlyChanges_of_if.2 ⟨fun _ => by simp, fun _ => State.onlyChanges_of_if.2 ⟨fun _ => by simp, fun _ => ?_⟩⟩
  refine State.onlyChanges_of_if.2 ⟨fun _ => by simp, fun _ => ?_⟩
  split
  · simp
  · simp
  · rename_i hx
    simp [State.onlyChanges_takeMemory s _ _ _ _ hx]

@[simp] theorem execProgRetire_within (m : MCmd) (s : State) :
    s.endsWithin (execProgRetire m s) [.arr, .tgt, .eng, .keeper, .prog, .serve, .tier, .sched, .fnp, .outbox] := by
  unfold execProgRetire
  refine State.endsWithin_next.2 (State.onlyChanges_intake _ _ _ _ _ _ _ (by simp) ?_)
  simp only []
  refine State.onlyChanges_of_if.2 ⟨fun _ => by simp, fun _ => ?_⟩
  split <;> simp

@[simp] theorem execProgRestart_within (m : MCmd) (s : State) :
    s.endsWithin (execProgRestart m s) [.keeper, .prog, .fnp, .outbox] := by
  unfold execProgRestart
  refine State.endsWithin_next.2 (State.onlyChanges_intake _ _ _ _ _ _ _ (by simp) ?_)
  simp only []
  refine State.onlyChanges_of_if.2 ⟨fun _ => by simp, fun _ => ?_⟩
  split <;> simp

@[simp] theorem execRunStart_within (m : MCmd) (lasts : List LastStep) (s : State) :
    s.endsWithin (execRunStart m lasts s) [.hostMem, .tgt, .eng, .keeper, .prog, .run, .lead, .serve, .fnp, .outbox] := by
  unfold execRunStart
  refine State.endsWithin_next.2 (State.onlyChanges_intake _ _ _ _ _ _ _ (by simp) ?_)
  refine State.onlyChanges_of_if.2 ⟨fun _ => by simp, fun _ => State.onlyChanges_of_if.2 ⟨fun _ => by simp, fun _ => ?_⟩⟩
  refine State.onlyChanges_of_if.2 ⟨fun _ => by simp, fun _ => ?_⟩
  split
  · simp
  · refine State.onlyChanges_of_if.2 ⟨fun _ => by simp, fun _ => State.onlyChanges_of_if.2 ⟨fun _ => by simp, fun _ => ?_⟩⟩
    refine (State.onlyChanges_complete _ _ _ _ (by simp)).2 (State.onlyChanges_of_if.2 ⟨fun _ => ?_, fun _ => ?_⟩)
    · refine (State.onlyChanges_phaseStart _ _ (by simp)).2 ((State.onlyChanges_rejoinAt _ _ (by simp)).2 ?_)
      split <;> simp
    · refine (State.onlyChanges_rejoinAt _ _ (by simp)).2 ?_
      split <;> simp

@[simp] theorem execRunStop_within (m : MCmd) (s : State) :
    s.endsWithin (execRunStop m s) [.keeper, .run, .fnp, .outbox] := by
  unfold execRunStop
  simp

@[simp] theorem execSnapRequest_within (m : MCmd) (s : State) :
    s.endsWithin (execSnapRequest m s) [.hostMem, .keeper, .run, .fnp, .outbox] := by
  unfold execSnapRequest
  simp

@[simp] theorem execDaymarkRead_within (m : MCmd) (s : State) :
    s.endsWithin (execDaymarkRead m s) [.mem, .hostMem, .keeper, .fnp, .outbox] := by
  unfold execDaymarkRead
  simp

@[simp] theorem execFwLoad_within (m : MCmd) (v : FwVerdict) (s : State) :
    s.endsWithin (execFwLoad m v s) [.keeper, .fnp, .sec, .outbox] := by
  unfold execFwLoad
  simp

@[simp] theorem execFwLoadDone_within (readBackOk : Bool) (s : State) :
    s.endsWithin (execFwLoadDone readBackOk s) [.keeper, .fnp, .sec, .outbox] := by
  unfold execFwLoadDone
  split <;> simp

@[simp] theorem execFwActivate_within (m : MCmd) (v : FwVerdict) (s : State) :
    s.endsWithin (execFwActivate m v s) [.mem, .arr, .tgt, .eng, .keeper, .pair, .prog, .run, .lead, .serve, .tier, .arb, .sched, .fnp, .link, .pwr, .sec, .health, .outbox] := by
  unfold execFwActivate
  simp

@[simp] theorem execServicePrepareLaser_within (m : MCmd) (s : State) :
    s.endsWithin (execServicePrepareLaser m s) [.keeper, .fnp, .link, .pwr, .outbox] := by
  unfold execServicePrepareLaser
  simp

@[simp] theorem execServicePreparePhase_within (m : MCmd) (s : State) :
    s.endsWithin (execServicePreparePhase m s) [.keeper, .fnp, .link, .pwr, .outbox] := by
  unfold execServicePreparePhase
  simp

@[simp] theorem execServicePrepareFibre_within (m : MCmd) (answered : Bool) (s : State) :
    s.endsWithin (execServicePrepareFibre m answered s) [.keeper, .fnp, .link, .pwr, .outbox] := by
  unfold execServicePrepareFibre
  simp

@[simp] theorem execDebugEnter_within (m : MCmd) (s : State) :
    s.endsWithin (execDebugEnter m s) [.keeper, .fnp, .outbox] := by
  unfold execDebugEnter
  simp

@[simp] theorem execDebugExit_within (m : MCmd) (s : State) :
    s.endsWithin (execDebugExit m s) [.arr, .tgt, .eng, .keeper, .arb, .fnp, .outbox] := by
  unfold execDebugExit
  simp

@[simp] theorem execAccRead_within (m : MCmd) (s : State) :
    s.endsWithin (execAccRead m s) [.mem, .hostMem, .keeper, .fnp, .outbox, .fresh] := by
  unfold execAccRead
  simp

@[simp] theorem execAccWrite_within (m : MCmd) (s : State) :
    s.endsWithin (execAccWrite m s) [.arr, .keeper, .fnp, .outbox] := by
  unfold execAccWrite
  refine State.endsWithin_next.2 (State.onlyChanges_intake _ _ _ _ _ _ _ (by simp) ?_)
  simp only []
  refine State.onlyChanges_of_if.2 ⟨fun _ => by simp, fun _ => State.onlyChanges_of_if.2 ⟨fun _ => by simp, fun _ => ?_⟩⟩
  refine State.onlyChanges_of_if.2 ⟨fun _ => by simp, fun _ => State.onlyChanges_of_if.2 ⟨fun _ => by simp, fun _ => ?_⟩⟩
  simp

@[simp] theorem execHostRingPoll_within (snapshotRing : Bool) (cons : Nat) (s : State) :
    s.endsWithin (execHostRingPoll snapshotRing cons s) [.hostMem, .keeper, .run, .fnp, .outbox] := by
  unfold execHostRingPoll
  simp

@[simp] theorem execKeeperMemError_within (s : State) :
    s.endsWithin (execKeeperMemError s) [.keeper] := by
  unfold execKeeperMemError
  simp

@[simp] theorem execKeeperRestart_within (s : State) :
    s.endsWithin (execKeeperRestart s) [.keeper, .sec] := by
  unfold execKeeperRestart
  simp only []
  split <;> simp

@[simp] theorem execActivateFailed_within (s : State) :
    s.endsWithin (execActivateFailed s) [.keeper] := by
  unfold execActivateFailed
  simp

@[simp] theorem execTurnStore_within (t : TileIx) (p : Fin 2) (src : Src) (a : TurnArgs) (s : State) :
    s.endsWithin (execTurnStore t p src a s) [.mem, .arr, .tgt, .eng, .keeper, .prog, .run, .tier, .sched, .fnp, .outbox] := by
  unfold execTurnStore
  simp

theorem State.rowRun_within (s : State) (t : TileIx) (p : Fin 2) (src : Src) (a : RowArgs) (ok : Bool) {body : State}
    (h : s.onlyChanges body [.mem, .eng, .run, .tier, .fresh]) :
    s.endsWithin (s.rowRun t p src a ok body) [.mem, .arr, .tgt, .eng, .keeper, .prog, .run, .tier, .sched, .fnp, .outbox, .fresh] := by
  have hb := State.onlyChanges_mono (qs := [.mem, .arr, .tgt, .eng, .keeper, .prog, .run, .tier, .sched, .fnp, .outbox, .fresh]) h (by simp)
  unfold State.rowRun
  simp [hb]

@[simp] theorem execRms_within (t : TileIx) (p : Fin 2) (src : Src) (a : RowArgs) (s : State) :
    s.endsWithin (execRms t p src a s) [.mem, .arr, .tgt, .eng, .keeper, .prog, .run, .tier, .sched, .fnp, .outbox, .fresh] :=
  s.rowRun_within t p src a _ (by simp)

@[simp] theorem execLayer_within (t : TileIx) (p : Fin 2) (src : Src) (a : RowArgs) (s : State) :
    s.endsWithin (execLayer t p src a s) [.mem, .arr, .tgt, .eng, .keeper, .prog, .run, .tier, .sched, .fnp, .outbox, .fresh] :=
  s.rowRun_within t p src a _ (by simp)

@[simp] theorem execRmsBwd_within (t : TileIx) (p : Fin 2) (src : Src) (a : RowArgs) (s : State) :
    s.endsWithin (execRmsBwd t p src a s) [.mem, .arr, .tgt, .eng, .keeper, .prog, .run, .tier, .sched, .fnp, .outbox, .fresh] :=
  s.rowRun_within t p src a _ (by simp)

@[simp] theorem execLayerBwd_within (t : TileIx) (p : Fin 2) (src : Src) (a : RowArgs) (s : State) :
    s.endsWithin (execLayerBwd t p src a s) [.mem, .arr, .tgt, .eng, .keeper, .prog, .run, .tier, .sched, .fnp, .outbox, .fresh] :=
  s.rowRun_within t p src a _ (by simp)

@[simp] theorem execSmaxStat_within (t : TileIx) (p : Fin 2) (src : Src) (a : RowArgs) (s : State) :
    s.endsWithin (execSmaxStat t p src a s) [.mem, .arr, .tgt, .eng, .keeper, .prog, .run, .tier, .sched, .fnp, .outbox, .fresh] :=
  s.rowRun_within t p src a _ (by simp)

@[simp] theorem execSmax_within (t : TileIx) (p : Fin 2) (src : Src) (a : RowArgs) (s : State) :
    s.endsWithin (execSmax t p src a s) [.mem, .arr, .tgt, .eng, .keeper, .prog, .run, .tier, .sched, .fnp, .outbox, .fresh] :=
  s.rowRun_within t p src a _ (by simp)

@[simp] theorem execSmaxBwd_within (t : TileIx) (p : Fin 2) (src : Src) (a : RowArgs) (s : State) :
    s.endsWithin (execSmaxBwd t p src a s) [.mem, .arr, .tgt, .eng, .keeper, .prog, .run, .tier, .sched, .fnp, .outbox, .fresh] :=
  s.rowRun_within t p src a _ (by simp)

@[simp] theorem execDot_within (t : TileIx) (p : Fin 2) (src : Src) (a : RowArgs) (s : State) :
    s.endsWithin (execDot t p src a s) [.mem, .arr, .tgt, .eng, .keeper, .prog, .run, .tier, .sched, .fnp, .outbox, .fresh] :=
  s.rowRun_within t p src a _ (by simp)

@[simp] theorem execMerge_within (t : TileIx) (p : Fin 2) (src : Src) (a : RowArgs) (s : State) :
    s.endsWithin (execMerge t p src a s) [.mem, .arr, .tgt, .eng, .keeper, .prog, .run, .tier, .sched, .fnp, .outbox, .fresh] :=
  s.rowRun_within t p src a _ (by simp)

@[simp] theorem execGetVersion_within (r : SpdmReq) (s : State) :
    s.endsWithin (execGetVersion r s) [.sec, .outbox] := by
  unfold execGetVersion
  simp

@[simp] theorem execGetCapabilities_within (r : SpdmReq) (s : State) :
    s.endsWithin (execGetCapabilities r s) [.sec, .outbox] := by
  unfold execGetCapabilities
  simp

@[simp] theorem execNegotiateAlgorithms_within (r : SpdmReq) (s : State) :
    s.endsWithin (execNegotiateAlgorithms r s) [.sec, .outbox] := by
  unfold execNegotiateAlgorithms
  simp

@[simp] theorem execGetDigests_within (r : SpdmReq) (s : State) :
    s.endsWithin (execGetDigests r s) [.sec, .outbox] := by
  unfold execGetDigests
  simp

@[simp] theorem execGetCertificate_within (r : SpdmReq) (slot offset length : Nat) (s : State) :
    s.endsWithin (execGetCertificate r slot offset length s) [.sec, .outbox] := by
  unfold execGetCertificate
  simp

@[simp] theorem execChallenge_within (r : SpdmReq) (slot : Nat) (s : State) :
    s.endsWithin (execChallenge r slot s) [.sec, .outbox, .fresh] := by
  unfold execChallenge
  simp

@[simp] theorem execGetMeasurements_within (r : SpdmReq) (s : State) :
    s.endsWithin (execGetMeasurements r s) [.sec, .outbox, .fresh] := by
  unfold execGetMeasurements
  simp

@[simp] theorem execKeyExchange_within (r : SpdmReq) (s : State) :
    s.endsWithin (execKeyExchange r s) [.sec, .outbox, .fresh] := by
  unfold execKeyExchange
  simp

@[simp] theorem execFinish_within (r : SpdmReq) (s : State) :
    s.endsWithin (execFinish r s) [.sec, .outbox] := by
  unfold execFinish
  simp

@[simp] theorem execEndSession_within (r : SpdmReq) (s : State) : s.endsWithin (execEndSession r s) [.sec, .outbox] := by
  unfold execEndSession
  refine State.endsWithin_next.2 ((State.onlyChanges_spdm _ _ _ (by simp) ?_).2 (s.onlyChanges_self _))
  split <;> simp

@[simp] theorem execHeartbeat_within (r : SpdmReq) (s : State) :
    s.endsWithin (execHeartbeat r s) [.sec, .outbox] := by
  unfold execHeartbeat
  simp

@[simp] theorem execKeyUpdate_within (r : SpdmReq) (s : State) : s.endsWithin (execKeyUpdate r s) [.sec, .outbox] := by
  unfold execKeyUpdate
  refine State.endsWithin_next.2 ((State.onlyChanges_spdm _ _ _ (by simp) ?_).2 (s.onlyChanges_self _))
  split <;> simp

@[simp] theorem execSpdmUnsupportedRequest_within (code : Nat) (s : State) :
    s.endsWithin (execSpdmUnsupportedRequest code s) [.sec, .outbox] := by
  unfold execSpdmUnsupportedRequest
  simp

@[simp] theorem execIdeKm_within (r : SpdmReq) (cachemem : Bool) (key : List Byte) (s : State) :
    s.endsWithin (execIdeKm r cachemem key s) [.sec, .outbox] := by
  unfold execIdeKm
  simp

@[simp] theorem execIdeFault_within (cachemem : Bool) (flits : Nat) (hit : List (Nat × Nat)) (s : State) :
    s.endsWithin (execIdeFault cachemem flits hit s) [.keeper, .pair, .fnp, .link, .sec, .health, .outbox] := by
  unfold execIdeFault
  simp

@[simp] theorem execTurnEnd_within (e : EngRef) (elapsed : Nat) (ready : List Nat) (overrun switchTime : Nat) (s : State) :
    s.endsWithin (execTurnEnd e elapsed ready overrun switchTime s) [.arr, .eng, .sched, .fnp] := by
  unfold execTurnEnd
  simp only []
  split <;> (try split) <;> simp

@[simp] theorem execPreempt_within (e : EngRef) (engineTime : Nat) (flr : Bool) (s : State) :
    s.endsWithin (execPreempt e engineTime flr s) [.arr, .fnp] := by
  unfold execPreempt
  split <;> simp

@[simp] theorem execEnergyTick_within (rails inputs idle : List Nat) (shares : List EnergyShare) (s : State) :
    s.endsWithin (execEnergyTick rails inputs idle shares s) [.fnp] := by
  unfold execEnergyTick
  simp

end
end Sys2Proof.Machine
end

section
namespace Sys2Proof.Machine
open Sys2Proof

/-- The command that completes a restart of the Keeper: it takes up owed work and latched commands. -/
def Instr.reopens : Instr → Bool
  | .keeperRestartComplete _ _ => true
  | _ => false

/-- A command that takes up no other command changes no part of the state that its entry in Instr.touches leaves out. -/
theorem exec_within (i : Instr) (s : State) (h : Instr.reopens i = false) : s.endsWithin (exec i s) i.touches :=
  match i with
  | .keeperRestartComplete _ _ => nomatch h
  | .nop m opcode => execNop_within m opcode s
  | .identify m => execIdentify_within m s
  | .healthRead m => execHealthRead_within m s
  | .accountRead m => execAccountRead_within m s
  | .pairLoad m signed => execPairLoad_within m signed s
  | .pairLoadDone r => execPairLoadDone_within r s
  | .pairUnload m => execPairUnload_within m s
  | .refresh m img => execRefresh_within m img s
  | .pairStatus m => execPairStatus_within m s
  | .progSubmit m img => execProgSubmit_within m img s
  | .progRetire m => execProgRetire_within m s
  | .progRestart m => execProgRestart_within m s
  | .runStart m lasts => execRunStart_within m lasts s
  | .runStop m => execRunStop_within m s
  | .snapRequest m => execSnapRequest_within m s
  | .snapshotComplete readFailed => execSnapshotComplete_within readFailed s
  | .join m => execJoin_within m s
  | .cancel m => execCancel_within m s
  | .pause m => execPause_within m s
  | .batchClose m => execBatchClose_within m s
  | .reqStatus m => execReqStatus_within m s
  | .custBind m => execCustBind_within m s
  | .budgetRefill m => execBudgetRefill_within m s
  | .budgetRead m => execBudgetRead_within m s
  | .regionAlloc m => execRegionAlloc_within m s
  | .regionFree m => execRegionFree_within m s
  | .memTransfer m => execMemTransfer_within m s
  | .memTransferDone fn seq data refused => execMemTransferDone_within fn seq data refused s
  | .carrierEvacuate m => execCarrierEvacuate_within m s
  | .extentSwitch carrier extent => execExtentSwitch_within carrier extent s
  | .carrierReleased carrier => execCarrierReleased_within carrier s
  | .cxlmemWindow m => execCxlmemWindow_within m s
  | .sizeTableSet m => execSizeTableSet_within m s
  | .sizeTableInForce leadCrc census => execSizeTableInForce_within leadCrc census s
  | .sizeTableRead m => execSizeTableRead_within m s
  | .linkStatus m => execLinkStatus_within m s
  | .fogRead m => execFogRead_within m s
  | .daymarkRead m => execDaymarkRead_within m s
  | .fwLoad m v => execFwLoad_within m v s
  | .fwActivate m v => execFwActivate_within m v s
  | .servicePrepareLaser m => execServicePrepareLaser_within m s
  | .servicePreparePhase m => execServicePreparePhase_within m s
  | .servicePrepareFibre m answered => execServicePrepareFibre_within m answered s
  | .debugEnter m => execDebugEnter_within m s
  | .debugExit m => execDebugExit_within m s
  | .accRead m => execAccRead_within m s
  | .accWrite m => execAccWrite_within m s
  | .mbxEvtConsWrite fn value => execMbxEvtConsWrite_within fn value s
  | .keeperHeartbeat => execKeeperHeartbeat_within s
  | .kprSwatchRead unit => execKprSwatchRead_within unit s
  | .drnCustCommit fn t value => execDrnCustCommit_within fn t value s
  | .drnCntClr t p value => execDrnCntClr_within t p value s
  | .tgtCommit fn t value => execTgtCommit_within fn t value s
  | .tcfgApply t => execTcfgApply_within t s
  | .tgtCntClr t value => execTgtCntClr_within t value s
  | .vxeCntClr t e value => execVxeCntClr_within t e value s
  | .vxeKeyCommit fn t f value => execVxeKeyCommit_within fn t f value s
  | .arbCommit fn n value => execArbCommit_within fn n value s
  | .arbFreeze fn n value => execArbFreeze_within fn n value s
  | .kprSchedCommit fn value => execKprSchedCommit_within fn value s
  | .pwrHotreset fn value boot => execPwrHotreset_within fn value boot s
  | .registerWrite fn bar offset size value => execRegisterWrite_within fn bar offset size value s
  | .product t g src ws mism => execProduct_within t g src ws mism s
  | .leaseWaitRelease t a mism => execLeaseWaitRelease_within t a mism s
  | .tileReplay t a slot twinMism origMism => execTileReplay_within t a slot twinMism origMism s
  | .arrayRetire t a => execArrayRetire_within t a s
  | .drain t g src ws ext sideFailed => execDrain_within t g src ws ext sideFailed s
  | .teacherTile t a => execTeacherTile_within t a s
  | .recordForward pos src dst pairs slotWord => execRecordForward_within pos src dst pairs slotWord s
  | .studentNormTile t a => execStudentNormTile_within t a s
  | .studentGradTile t a => execStudentGradTile_within t a s
  | .sampleTile t a => execSampleTile_within t a s
  | .chain t e src ws failed => execChain_within t e src ws failed s
  | .setlen t e src w rest => execSetlen_within t e src w rest s
  | .update t e src ws => execUpdate_within t e src ws s
  | .saveDrain t p src ws => execSaveDrain_within t p src ws s
  | .saveSpad t p src ws => execSaveSpad_within t p src ws s
  | .expand t p src ws => execExpand_within t p src ws s
  | .turnStore t p src a => execTurnStore_within t p src a s
  | .rms t p src a => execRms_within t p src a s
  | .layer t p src a => execLayer_within t p src a s
  | .rmsBwd t p src a => execRmsBwd_within t p src a s
  | .layerBwd t p src a => execLayerBwd_within t p src a s
  | .smaxStat t p src a => execSmaxStat_within t p src a s
  | .smax t p src a => execSmax_within t p src a s
  | .smaxBwd t p src a => execSmaxBwd_within t p src a s
  | .dot t p src a => execDot_within t p src a s
  | .merge t p src a => execMerge_within t p src a s
  | .copy t e src ws remote => execCopy_within t e src ws remote s
  | .fill t e src ws => execFill_within t e src ws s
  | .collectiveStep src op => execCollectiveStep_within src op s
  | .reshardComplete index t duration => execReshardComplete_within index t duration s
  | .contributionArrival shard module step vals ovf => execContributionArrival_within shard module step vals ovf s
  | .lateLimitExpiry shard => execLateLimitExpiry_within shard s
  | .overflowReport module step ovf partial_ fallback second => execOverflowReport_within module step ovf partial_ fallback second s
  | .prepassRx step => execPrepassRx_within step s
  | .goRx step k lscale clean => execGoRx_within step k lscale clean s
  | .skipRx step lscale clean => execSkipRx_within step lscale clean s
  | .readyRx module step ovf owned mirrored => execReadyRx_within module step ovf owned mirrored s
  | .commitMarkRx step lscale clean => execCommitMarkRx_within step lscale clean s
  | .lscaleFloor => execLscaleFloor_within s
  | .abortRx step failed => execAbortRx_within step failed s
  | .commitWaitExpiry module => execCommitWaitExpiry_within module s
  | .commitPulse widthNs copies => execCommitPulse_within widthNs copies s
  | .servingStepBoundary g pageFaults kvFailed treeReqs trees => execServingStepBoundary_within g pageFaults kvFailed treeReqs trees s
  | .requestDeadlineExpiry index => execRequestDeadlineExpiry_within index s
  | .noPages index => execNoPages_within index s
  | .arbRound n dropped reqs masked => execArbRound_within n dropped reqs masked s
  | .arbBreakPoint n masked preempted => execArbBreakPoint_within n masked preempted s
  | .reread reader e addr failures => execReread_within reader e addr failures s
  | .persistentFailureRecovery addr data sourceFailed => execPersistentFailureRecovery_within addr data sourceFailed s
  | .transientRetire addr => execTransientRetire_within addr s
  | .bridgeFlitCrcFail t resends fault => execBridgeFlitCrcFail_within t resends fault s
  | .linkTrain p o => execLinkTrain_within p o s
  | .linkTrainRetry p o => execLinkTrainRetry_within p o s
  | .linkPacketRx p pkt => execLinkPacketRx_within p pkt s
  | .nakRx p ackseq => execNakRx_within p ackseq s
  | .ackRx p ackseq => execAckRx_within p ackseq s
  | .idleTimer p => execIdleTimer_within p s
  | .laneSpared p lane => execLaneSpared_within p lane s
  | .peerSilent p => execPeerSilent_within p s
  | .moveTimeout move => execMoveTimeout_within move s
  | .laserLow source percent => execLaserLow_within source percent s
  | .laserFailover source => execLaserFailover_within source s
  | .laserSourceFitted source => execLaserSourceFitted_within source s
  | .fogReport code subject witnesses count => execFogReport_within code subject witnesses count s
  | .fogHoldExpiry code subject => execFogHoldExpiry_within code subject s
  | .fogWindowExpiry code subject => execFogWindowExpiry_within code subject s
  | .inputFault input code deciVolts => execInputFault_within input code deciVolts s
  | .inputRestored input deciVolts => execInputRestored_within input deciVolts s
  | .shortRetry input ok => execShortRetry_within input ok s
  | .inputSenseOpen input => execInputSenseOpen_within input s
  | .powerLoss => execPowerLoss_within s
  | .phaseFailed rail phase => execPhaseFailed_within rail phase s
  | .phaseFitted rail phase => execPhaseFitted_within rail phase s
  | .voltageStep t => execVoltageStep_within t s
  | .powerCap watts settings => execPowerCap_within watts settings s
  | .thermalSpread temps => execThermalSpread_within temps s
  | .thermalHold t temp => execThermalHold_within t temp s
  | .thermalHoldRelease t temp => execThermalHoldRelease_within t temp s
  | .hubOvertemp => execHubOvertemp_within s
  | .modulePowerOn hubTemp boot => execModulePowerOn_within hubTemp boot s
  | .startToken => execStartToken_within s
  | .tokenFallback => execTokenFallback_within s
  | .fallbackDelayExpiry => execFallbackDelayExpiry_within s
  | .strapSample millivolts => execStrapSample_within millivolts s
  | .moduleResetRelease => execModuleResetRelease_within s
  | .galleryWake t g fn wakeTime => execGalleryWake_within t g fn wakeTime s
  | .galleryGate t g => execGalleryGate_within t g s
  | .builtInTest r => execBuiltInTest_within r s
  | .mailboxesOpen => execMailboxesOpen_within s
  | .beaconPinFault pin swapped => execBeaconPinFault_within pin swapped s
  | .hostReset millivolts boot => execHostReset_within millivolts boot s
  | .tileReset t => execTileReset_within t s
  | .functionLevelReset fn => execFunctionLevelReset_within fn s
  | .flrKeeperClear fn => execFlrKeeperClear_within fn s
  | .vfEnableClear => execVfEnableClear_within s
  | .functionPowerState fn d3hot => execFunctionPowerState_within fn d3hot s
  | .keeperRestart => execKeeperRestart_within s
  | .keeperMemError => execKeeperMemError_within s
  | .activateFailed => execActivateFailed_within s
  | .turnEnd e elapsed ready overrun switchTime => execTurnEnd_within e elapsed ready overrun switchTime s
  | .preempt e engineTime flr => execPreempt_within e engineTime flr s
  | .energyTick rails inputs idle shares => execEnergyTick_within rails inputs idle shares s
  | .hostRingPoll snapshotRing cons => execHostRingPoll_within snapshotRing cons s
  | .cxlmemAccess write offset data => execCxlmemAccess_within write offset data s
  | .carrierFitted carrier retired => execCarrierFitted_within carrier retired s
  | .carrierLost carrier => execCarrierLost_within carrier s
  | .getVersion r => execGetVersion_within r s
  | .getCapabilities r => execGetCapabilities_within r s
  | .negotiateAlgorithms r => execNegotiateAlgorithms_within r s
  | .getDigests r => execGetDigests_within r s
  | .getCertificate r slot offset length => execGetCertificate_within r slot offset length s
  | .challenge r slot => execChallenge_within r slot s
  | .getMeasurements r => execGetMeasurements_within r s
  | .keyExchange r => execKeyExchange_within r s
  | .finish r => execFinish_within r s
  | .endSession r => execEndSession_within r s
  | .heartbeat r => execHeartbeat_within r s
  | .keyUpdate r => execKeyUpdate_within r s
  | .spdmUnsupportedRequest code => execSpdmUnsupportedRequest_within code s
  | .ideKm r cachemem key => execIdeKm_within r cachemem key s
  | .ideFault cachemem flits hit => execIdeFault_within cachemem flits hit s
  | .pairUnloadDone => execPairUnloadDone_within s
  | .fwLoadDone readBackOk => execFwLoadDone_within readBackOk s
  | .refreshDone model readable => execRefreshDone_within model readable s
  | .stepReportRx module step words => execStepReportRx_within module step words s
  | .serviceNoticeRx p => execServiceNoticeRx_within p s
  | .serviceNoticeTimeout p => execServiceNoticeTimeout_within p s
  | .msixVectorUnmask fn vector => execMsixVectorUnmask_within fn vector s
  | .junctionTemperatureChange t temp setting => execJunctionTemperatureChange_within t temp setting s

theorem State.keeperWork_eq (s : State) (i : Instr) :
    s.keeperWork i = s ∨ Instr.reopens i = false ∧ s.keeperWork i = s.after (exec i s) := by
  unfold State.keeperWork
  split
  case h_25 => exact .inl rfl
  all_goals exact .inr ⟨rfl, rfl⟩

theorem State.takeLatched_eq (s : State) (i : Instr) :
    s.takeLatched i = s ∨ Instr.reopens i = false ∧ s.takeLatched i = s.after (exec i s) := by
  unfold State.takeLatched
  split
  case h_42 => exact .inl rfl
  all_goals exact .inr ⟨rfl, rfl⟩

/-- The parts of the state that some command changes: all but the queue. -/
def Part.changing : List Part :=
  [.mem, .hostMem, .arr, .tgt, .eng, .keeper, .pair, .prog, .run, .lead, .serve, .tier, .arb, .sched, .fnp, .link, .pwr, .sec, .health,
    .outbox, .fresh]

@[simp] theorem Part.mem_changing (p : Part) : p ∈ Part.changing ↔ p ≠ .pending := by cases p <;> decide

theorem Instr.pending_notMem_touches (i : Instr) : Part.pending ∉ i.touches := by
  cases i <;> exact of_decide_eq_true rfl

theorem Instr.touches_subset (i : Instr) : i.touches ⊆ Part.changing :=
  fun p hp => (Part.mem_changing p).2 fun h => Instr.pending_notMem_touches i (h ▸ hp)

section
variable {s₀ s : State} {ps : List Part}

@[simp] theorem State.onlyChanges_keeperWork (i : Instr) (hps : Part.changing ⊆ ps) :
    s₀.onlyChanges (s.keeperWork i) ps ↔ s₀.onlyChanges s ps := by
  obtain h | ⟨hi, h⟩ := s.keeperWork_eq i <;> rw [h]
  exact State.onlyChanges_after s (exec_within i s hi) (List.Subset.trans (Instr.touches_subset i) hps)

@[simp] theorem State.onlyChanges_takeLatched (i : Instr) (hps : Part.changing ⊆ ps) :
    s₀.onlyChanges (s.takeLatched i) ps ↔ s₀.onlyChanges s ps := by
  obtain h | ⟨hi, h⟩ := s.takeLatched_eq i <;> rw [h]
  exact State.onlyChanges_after s (exec_within i s hi) (List.Subset.trans (Instr.touches_subset i) hps)

@[simp] theorem State.onlyChanges_openLatched (f : Nat) (hps : Part.changing ⊆ ps) :
    s₀.onlyChanges (s.openLatched f) ps ↔ s₀.onlyChanges s ps := by
  refine State.onlyChanges_iff (qs := Part.changing) ?_ hps
  unfold State.openLatched
  refine State.onlyChanges_of_if.2 ⟨fun _ => s.onlyChanges_self _, fun _ => ?_⟩
  split
  · exact s.onlyChanges_self _
  · rw [State.onlyChanges_takeLatched _ (List.Subset.refl _)]
    simp

@[simp] theorem State.onlyChanges_readJournal (hps : Part.changing ⊆ ps) :
    s₀.onlyChanges s.readJournal ps ↔ s₀.onlyChanges s ps := by
  refine State.onlyChanges_iff (qs := Part.changing) ?_ hps
  unfold State.readJournal
  simp

@[simp] theorem State.onlyChanges_reopen (why : Restart) (failed : Bool) (hps : Part.changing ⊆ ps) :
    s₀.onlyChanges (s.reopen why failed) ps ↔ s₀.onlyChanges s ps := by
  refine State.onlyChanges_iff (qs := Part.changing) ?_ hps
  unfold State.reopen
  simp
end

theorem execKeeperRestartComplete_within (copy0 copy1 : Bool) (s : State) :
    s.endsWithin (execKeeperRestartComplete copy0 copy1 s) Part.changing := by
  unfold execKeeperRestartComplete
  refine State.endsWithin_next.2 ?_
  split
  · exact s.onlyChanges_self _
  · simp

/-- Every command changes only the parts of the state its entry in Instr.touches lists. -/
theorem State.onlyChanges_of_exec (i : Instr) {s t : State} (h : exec i s = .next t) : s.onlyChanges t i.touches := by
  cases hi : Instr.reopens i with
  | false => exact exec_within i s hi t h
  | true =>
    cases i with
    | keeperRestartComplete c0 c1 => exact execKeeperRestartComplete_within c0 c1 s t h
    | _ => cases hi

/-- Settles O59, by the frame lemma of each command. -/
theorem hostCommandsKeepTheRest : Obligations.HostCommandsKeepTheRest := by
  unfold Obligations.HostCommandsKeepTheRest
  exact fun i _ _ _ h => State.onlyChanges_of_exec i h

/-- Settles O60, by the frame lemma of each command. -/
theorem moduleCommandsKeepTheRest : Obligations.ModuleCommandsKeepTheRest := by
  unfold Obligations.ModuleCommandsKeepTheRest
  exact fun i _ _ _ h => State.onlyChanges_of_exec i h

end Sys2Proof.Machine
end

/-! # One part kept, and mailbox commands that keep a predicate -/

section
namespace Sys2Proof.Machine
open Sys2Proof

/-! ### One part kept -/

/-- Every part of the state but one. -/
def Part.but (p : Part) : List Part := (Part.pending :: Part.changing).filter (· ≠ p)

@[simp] theorem Part.mem_but (p q : Part) : q ∈ Part.but p ↔ q ≠ p := by
  simp [Part.but, Part.changing]
  cases q <;> simp

theorem State.same_of_but {s t : State} {p : Part} (h : s.onlyChanges t (Part.but p)) : s.same t p := h p (by simp)

/-- A predicate on states that reads none of the listed parts. -/
def State.ignores (P : State → Prop) (ps : List Part) : Prop := ∀ s t : State, s.onlyChanges t ps → P s → P t

/-- A mailbox command whose body keeps a predicate keeps it, where the mailbox itself does not matter to it. -/
theorem State.intake_keeps {P : State → Prop} (hP : State.ignores P [.keeper, .fnp, .outbox]) {s : State} (hs : P s) (i : Instr) (m : MCmd)
    (n : Nat) (pf ok : Bool) {body : State → State} (hb : P (body s)) : P (s.intake i m n pf ok body) := by
  have kept : ∀ t, s.onlyChanges t [.keeper, .fnp, .outbox] → P t := fun t h => hP s t h hs
  unfold State.intake
  simp only []
  split
  · exact hs
  split
  · exact kept _ (by simp)
  split
  · exact kept _ (by simp)
  split
  · exact kept _ (by simp)
  split
  · exact kept _ (by simp)
  split
  · exact kept _ (by simp)
  split
  · exact kept _ (by simp)
  · exact hb

end Sys2Proof.Machine
end

/-! # O5: the fused anti-rollback counter

Within its 64 fuses the counter rises in every step and stays within them (`step_counterRises`). The statement of O5 asks that it rise
from any value: past 64 an image with a still higher SVN takes it back to 64 (`not_rollbackCounterNeverFalls`). -/

section
namespace Sys2Proof.Machine
open Sys2Proof

/-- A fused counter within its 64 fuses does not fall, and stays within them. -/
def State.counterRises (s t : State) : Prop := s.sec.counter ≤ 64 → s.sec.counter ≤ t.sec.counter ∧ t.sec.counter ≤ 64

section
variable {s t u : State}

theorem State.counterRises_of_eq (h : t.sec.counter = s.sec.counter) : s.counterRises t := fun k => ⟨h.ge, h.trans_le k⟩

theorem State.counterRises_of_only {ps : List Part} (h : s.onlyChanges t ps) (hp : .sec ∉ ps) : s.counterRises t :=
  State.counterRises_of_eq (congrArg SecPart.counter (h .sec hp))

@[simp] theorem State.counterRises_refl (s : State) : s.counterRises s := State.counterRises_of_eq rfl

theorem State.counterRises_trans (h : s.counterRises t) (k : t.counterRises u) : s.counterRises u :=
  fun hs =>
  ⟨(h hs).1.trans (k (h hs).2).1, (k (h hs).2).2⟩

theorem State.counterRises_foldl {α : Type} (f : State → α → State) (h : ∀ s x, State.counterRises s (f s x)) (l : List α) :
    ∀ s : State, s.counterRises (l.foldl f s) := by
  induction l with
  | nil => exact State.counterRises_refl
  | cons x l ih => exact fun s => State.counterRises_trans (h s x) (ih (f s x))

/-! ### Functions that change the security part and keep its counter -/

theorem State.sec_eq_of_only (h : s.onlyChanges t (Part.but .sec)) : t.sec = s.sec := State.same_of_but h

@[simp] theorem State.counter_of_if {c : Prop} [Decidable c] {n : Nat} :
    (if c then t else u).sec.counter = n ↔ (c → t.sec.counter = n) ∧ (¬c → u.sec.counter = n) := by
  split <;> simp [*]

@[simp] theorem State.counter_answer (s : State) (r : SpdmResp) : (s.answer r).sec.counter = s.sec.counter := rfl

@[simp] theorem State.sec_useFree (s : State) : s.useFree.sec = s.sec := State.sec_eq_of_only (by simp)

@[simp] theorem State.sec_healthEvent (s : State) (c u i v d : Nat) : (s.healthEvent c u i v d).sec = s.sec :=
  State.sec_eq_of_only (by simp)

@[simp] theorem State.sec_complete (s : State) (m : MCmd) (c : Nat) (bs : List Byte) : (s.complete m c bs).sec = s.sec :=
  State.sec_eq_of_only (by simp)

@[simp] theorem State.sec_opDone (s : State) (o : LongOp) (c : Nat) : (s.opDone o c).sec = s.sec :=
  State.sec_eq_of_only (by simp)

@[simp] theorem State.sec_accept (s : State) (m : MCmd) (k : OpKind) (n : Nat) : (s.accept m k n).sec = s.sec :=
  State.sec_eq_of_only (by simp)

@[simp] theorem State.counter_setFwSlot (s : State) (i : Bool) (v : FwSlot) : (s.setFwSlot i v).sec.counter = s.sec.counter := rfl

@[simp] theorem State.counter_powerDown (s : State) : s.powerDown.sec.counter = s.sec.counter := rfl

@[simp] theorem State.counter_bootKeeper (s : State) (b : BootCheck) : (s.bootKeeper b).sec.counter = s.sec.counter := by
  unfold State.bootKeeper
  simp

@[simp] theorem State.counter_warmReset (s : State) (b : BootCheck) : (s.warmReset b).sec.counter = s.sec.counter := by
  have cleared : (s.clearEngines.clearKeeper.clearLinks.bootKeeper b).sec.counter = s.sec.counter :=
    (State.counter_bootKeeper _ b).trans rfl
  have released : ∀ t : State, t.releaseReset.sec = t.sec := fun _ => rfl
  unfold State.warmReset
  simp only []
  split <;> simp only [State.counter_of_if, released, State.setPwr_sec, cleared, implies_true, and_self]

/-- The counter goes to the running image's SVN, or to the last fuse. -/
theorem State.counter_raiseCounter (s : State) :
    s.raiseCounter.sec.counter = if s.sec.counter < (s.fwSlot s.keeper.slot).svn then min 64 (s.fwSlot s.keeper.slot).svn else s.sec.counter := by
  unfold State.raiseCounter
  simp only []
  split
  · split <;> simp
  · rfl

theorem State.counterRises_raiseCounter (s : State) : s.counterRises s.raiseCounter := by
  intro h
  rw [State.counter_raiseCounter]
  split <;> omega

/-! ### Commands -/

theorem State.spdm_keeps_counter (r : SpdmReq) {body : State → State} (hb : (body s).sec.counter = s.sec.counter) :
    (s.spdm r body).sec.counter = s.sec.counter := by
  unfold State.spdm
  simp [hb]

/-- A mailbox command whose body keeps the counter in order does so. -/
theorem State.intake_counterRises (i : Instr) (m : MCmd) (n : Nat) (pf ok : Bool) {body : State → State} (hb : s.counterRises (body s)) :
    s.counterRises (s.intake i m n pf ok body) :=
  State.intake_keeps (fun _ _ h k => State.counterRises_trans k (State.counterRises_of_only h (by decide))) s.counterRises_refl i m n pf ok hb

theorem execFwLoad_counterRises (m : MCmd) (v : FwVerdict) (h : execFwLoad m v s = .next t) : s.counterRises t := by
  cases h
  refine State.intake_counterRises _ _ _ _ _ (State.counterRises_of_eq ?_)
  simp

theorem execFwLoadDone_counterRises (ok : Bool) (h : execFwLoadDone ok s = .next t) : s.counterRises t := by
  cases h
  refine State.counterRises_of_eq ?_
  have owed : (s.owe (.fwLoadDone ok)).sec = s.sec := State.sec_eq_of_only (by simp)
  split
  · rfl
  · simp [owed]

theorem execFwActivate_counterRises (m : MCmd) (v : FwVerdict) (h : execFwActivate m v s = .next t) : s.counterRises t := by
  cases h
  refine State.intake_counterRises _ _ _ _ _ (State.counterRises_of_eq ?_)
  have cleared : ∀ u : State, u.clearConfig.sec = u.sec := fun _ => rfl
  simp [cleared]

theorem execPwrHotreset_counterRises (f : Fn) (v : Word) (b : BootCheck) (h : execPwrHotreset f v b s = .next t) : s.counterRises t := by
  cases h
  exact State.counterRises_of_eq (by simp)

theorem execHubOvertemp_counterRises (h : execHubOvertemp s = .next t) : s.counterRises t := by
  cases h
  refine State.counterRises_of_eq ?_
  have isolated : ∀ (u : State) i v, (u.setInput i v).sec = u.sec := fun _ _ _ => rfl
  have posted : ∀ l : List Nat, (l.foldl (fun s t => s.postHold t) s).sec = s.sec := fun l => State.sec_eq_of_only (by simp)
  simp [isolated, posted]

theorem execHostReset_counterRises (mv : List Nat) (b : BootCheck) (h : execHostReset mv b s = .next t) : s.counterRises t := by
  cases h
  refine State.counterRises_of_eq ?_
  have cleared : s.clearConfig.sec = s.sec := rfl
  have sampled : ∀ u : State, (u.sampleStraps mv).sec = u.sec := fun u => State.sec_eq_of_only (by simp)
  have tabled : ∀ u : State, u.startTable.sec = u.sec := fun _ => rfl
  simp only []
  split
  · rfl
  split <;> simp [cleared, sampled, tabled]

theorem execPowerLoss_counterRises (h : execPowerLoss s = .next t) : s.counterRises t := by
  cases h
  exact State.counterRises_of_eq (by simp)

theorem execModulePowerOn_counterRises (n : Nat) (b : BootCheck) (h : execModulePowerOn n b s = .next t) : s.counterRises t := by
  cases h
  exact State.counterRises_of_eq (by simp)

theorem execMailboxesOpen_counterRises (h : execMailboxesOpen s = .next t) : s.counterRises t := by
  cases h
  simp only []
  split
  · refine State.counterRises_trans (State.counterRises_of_eq ?_) (State.counterRises_raiseCounter _)
    have delivered : ∀ (u : State) (l : List Event), (l.foldl (fun s e => s.deliver e.fn e) u).sec = u.sec :=
      fun u l => State.sec_eq_of_only (by simp)
    rw [delivered]
    rfl
  · exact s.counterRises_refl

theorem execKeeperRestart_counterRises (h : execKeeperRestart s = .next t) : s.counterRises t := by
  cases h
  refine State.counterRises_of_eq ?_
  split
  · rfl
  · simp

theorem execIdeFault_counterRises (c : Bool) (n : Nat) (hit : List (Nat × Nat)) (h : execIdeFault c n hit s = .next t) : s.counterRises t := by
  cases h
  refine State.counterRises_of_eq ?_
  have ended : ∀ (u : State) (l : List LongOp), (l.foldl State.flitsLost u).sec = u.sec := fun u l => State.sec_eq_of_only (by simp)
  cases c <;> simp [ended]

/-- What the responder does with a request leaves the counter as it is. -/
theorem State.counterRises_spdm (r : SpdmReq) {body : State → State} (hb : (body s).sec.counter = s.sec.counter)
    (h : (.next (s.spdm r body) : Host.Outcome State Fault Refusal) = .next t) : s.counterRises t := by
  cases h
  exact State.counterRises_of_eq (State.spdm_keeps_counter r hb)

theorem State.counter_ofSession (r : SpdmReq) {f : Session → State} (hf : ∀ x, (f x).sec.counter = s.sec.counter) :
    (match s.inSession r with | none => s.answer .errorInvalid | some x => f x).sec.counter = s.sec.counter := by
  split
  · rfl
  · exact hf _

theorem exec_counterRises (i : Instr) (hi : Instr.reopens i = false) (h : exec i s = .next t) : s.counterRises t := by
  by_cases hsec : .sec ∈ i.touches
  · cases i with
    | keeperRestartComplete _ _ => cases hi
    | fwLoad m v => exact execFwLoad_counterRises m v h
    | fwLoadDone ok => exact execFwLoadDone_counterRises ok h
    | fwActivate m v => exact execFwActivate_counterRises m v h
    | pwrHotreset f v b => exact execPwrHotreset_counterRises f v b h
    | hubOvertemp => exact execHubOvertemp_counterRises h
    | hostReset mv b => exact execHostReset_counterRises mv b h
    | powerLoss => exact execPowerLoss_counterRises h
    | modulePowerOn n b => exact execModulePowerOn_counterRises n b h
    | mailboxesOpen => exact execMailboxesOpen_counterRises h
    | keeperRestart => exact execKeeperRestart_counterRises h
    | ideFault c n hit => exact execIdeFault_counterRises c n hit h
    | getVersion r => exact State.counterRises_spdm _ (by simp) h
    | getCapabilities r => exact State.counterRises_spdm _ (by simp) h
    | negotiateAlgorithms r => exact State.counterRises_spdm _ (by simp) h
    | getDigests r => exact State.counterRises_spdm _ (by simp) h
    | getCertificate r slot off len => exact State.counterRises_spdm _ (by simp) h
    | challenge r slot => exact State.counterRises_spdm _ (by simp) h
    | getMeasurements r => exact State.counterRises_spdm _ (by simp) h
    | keyExchange r => exact State.counterRises_spdm _ (by simp) h
    | finish r => exact State.counterRises_spdm _ (by simp) h
    | endSession r => exact State.counterRises_spdm _ (State.counter_ofSession _ fun _ => by simp) h
    | heartbeat r => exact State.counterRises_spdm _ (by simp) h
    | keyUpdate r => exact State.counterRises_spdm _ (State.counter_ofSession _ fun _ => by simp) h
    | spdmUnsupportedRequest c => exact State.counterRises_spdm _ (by simp) h
    | ideKm r c key => exact State.counterRises_spdm _ (by cases c <;> simp) h
    | _ => exact absurd hsec (of_decide_eq_true rfl)
  · exact State.counterRises_of_only (State.onlyChanges_of_exec i h) hsec

/-! ### The restart of the Keeper completes -/

theorem State.after_counterRises (i : Instr) (hi : Instr.reopens i = false) : s.counterRises (s.after (exec i s)) := by
  unfold State.after
  split
  · exact exec_counterRises i hi ‹_›
  · exact s.counterRises_refl

theorem State.keeperWork_counterRises (i : Instr) : s.counterRises (s.keeperWork i) := by
  obtain h | ⟨hi, h⟩ := s.keeperWork_eq i <;> rw [h]
  · exact s.counterRises_refl
  · exact State.after_counterRises i hi

theorem State.takeLatched_counterRises (i : Instr) : s.counterRises (s.takeLatched i) := by
  obtain h | ⟨hi, h⟩ := s.takeLatched_eq i <;> rw [h]
  · exact s.counterRises_refl
  · exact State.after_counterRises i hi

theorem State.openLatched_counterRises (f : Nat) : s.counterRises (s.openLatched f) := by
  unfold State.openLatched
  simp only []
  split
  · exact s.counterRises_refl
  split
  · exact s.counterRises_refl
  · have opened : ∀ b, s.counterRises (s.setMbox f b) := fun _ => State.counterRises_of_eq rfl
    exact State.counterRises_trans (opened _) (State.takeLatched_counterRises _)

theorem State.readJournal_counterRises (s : State) : s.counterRises s.readJournal := by
  unfold State.readJournal
  refine State.counterRises_trans (State.counterRises_of_eq ?_) (State.counterRises_foldl _ (fun _ i => State.keeperWork_counterRises i) _ _)
  exact congrArg SecPart.counter (State.sec_eq_of_only (by simp))

theorem State.reopen_counterRises (s : State) (why : Restart) (failed : Bool) : s.counterRises (s.reopen why failed) := by
  have kept : ∀ {u v : State}, u.onlyChanges v (Part.but .sec) → u.counterRises v :=
    fun h => State.counterRises_of_eq (congrArg _ (State.sec_eq_of_only h))
  have released : ∀ (u : State) (l : List Nat), u.counterRises (l.foldl (fun s f => (State.releaseHeld 256 f s).setCause f 3 2) u) :=
    fun u l => kept (by simp)
  have noted : ∀ (u : State) (n : Nat), u.counterRises
      (if failed then (if why = .memError then u.setKprCause 3 else u).healthEvent 0x131 0xFF n 0 0
        else if why = .memError then u.setKprCause 3 else u) := fun u n => kept (by simp)
  have stopped : ∀ u : State, u.counterRises u.stopHeld := fun u => kept (by simp)
  have posted : ∀ (u : State) (l : List Nat) (g : Nat → Nat) (d : List Byte),
      u.counterRises (l.foldl (fun s f => s.post f 9 (g f) d) u) := fun u l g d => kept (by simp)
  unfold State.reopen
  refine State.counterRises_trans ?_ (stopped _)
  refine State.counterRises_trans ?_ (State.counterRises_raiseCounter _)
  refine State.counterRises_trans ?_ (posted _ _ _ _)
  refine State.counterRises_trans ?_ (noted _ _)
  refine State.counterRises_trans ?_ (State.counterRises_foldl _ (fun _ f => State.openLatched_counterRises f) _ _)
  refine State.counterRises_trans ?_ (released _ _)
  exact State.counterRises_of_eq rfl

theorem execKeeperRestartComplete_counterRises (c0 c1 : Bool) (h : execKeeperRestartComplete c0 c1 s = .next t) : s.counterRises t := by
  have lost : ∀ u : State, u.counterRises u.loseJournal :=
    fun u => State.counterRises_of_eq (congrArg _ (State.sec_eq_of_only (by simp)))
  have reopened : ∀ (u : State) w b, s.counterRises u → s.counterRises (u.reopen w b) :=
    fun u w b hu => State.counterRises_trans hu (State.reopen_counterRises u w b)
  cases h
  split
  · exact s.counterRises_refl
  simp only []
  split
  · exact s.counterRises_refl
  refine reopened _ _ _ ?_
  split
  · refine State.counterRises_trans ?_ (State.readJournal_counterRises _)
    exact State.counterRises_of_eq rfl
  · refine State.counterRises_trans ?_ (lost _)
    exact State.counterRises_of_eq rfl

/-- A fused counter within its 64 fuses does not fall in a step, and stays within them. -/
theorem step_counterRises (h : step s = .next t) : s.counterRises t := by
  have ran : ∀ (i : Instr) (u : State), exec i u = .next t → u.counterRises t := fun i u hu => by
    cases hi : Instr.reopens i with
    | false => exact exec_counterRises i hi hu
    | true =>
      cases i with
      | keeperRestartComplete c0 c1 => exact execKeeperRestartComplete_counterRises c0 c1 hu
      | _ => cases hi
  unfold step at h
  split at h
  · cases h
    exact State.counterRises_of_only (ps := Part.but .sec) (by simp) (by simp)
  · refine State.counterRises_trans ?_ (ran _ _ h)
    exact State.counterRises_of_eq rfl

end

/-! ### A counter past its fuses -/

/-- The module about to open its mailboxes, with a counter past its 64 fuses and an image whose SVN is above both. -/
def State.overfused : State :=
  { State.reset with
    keeper := { State.reset.keeper with up := true }, pwr := { State.reset.pwr with start := .released, bistDone := true },
    sec := { State.reset.sec with counter := 65, slots := [(0, { svn := 66 })] } }

/-- Refutes O5: the statement ranges over counters past the 64 fuses too, and one of those falls to 64 when an image with a higher SVN
starts. -/
theorem not_rollbackCounterNeverFalls : ¬ Obligations.RollbackCounterNeverFalls := by
  unfold Obligations.RollbackCounterNeverFalls
  intro h
  obtain ⟨hrise, -⟩ := h { State.overfused with pending := [.mailboxesOpen] } _ rfl
  rw [if_pos (by decide), State.counter_raiseCounter] at hrise
  exact absurd hrise (by decide)

end Sys2Proof.Machine
end

/-! # O4: both memories stay in canonical form -/

section
namespace Sys2Proof.Machine
open Sys2Proof

/-- The parts of the state that are no memory. -/
def Part.noMem : List Part := (Part.pending :: Part.changing).filter (fun p => p ≠ .mem ∧ p ≠ .hostMem)

@[simp] theorem Part.mem_noMem (p : Part) : p ∈ Part.noMem ↔ p ≠ .mem ∧ p ≠ .hostMem := by
  cases p <;> decide

section
variable {s t u : State}

theorem State.memOk_iff : s.memOk = true ↔ Mem.wf s.mem = true ∧ Mem.wf s.hostMem = true := by
  simp [State.memOk]

/-- Nothing but parts that are no memory has changed. -/
theorem State.memOk_eq (h : s.onlyChanges t Part.noMem) : t.memOk = s.memOk := by
  have hmem : t.mem = s.mem := h .mem (by simp)
  have hhost : t.hostMem = s.hostMem := h .hostMem (by simp)
  simp [State.memOk, hmem, hhost]

@[simp] theorem State.wf_mem (h : s.memOk = true) : Mem.wf s.mem = true := (State.memOk_iff.1 h).1

@[simp] theorem State.wf_hostMem (h : s.memOk = true) : Mem.wf s.hostMem = true := (State.memOk_iff.1 h).2

@[simp] theorem State.memOk_setMem (s : State) (m : Mem) : (s.setMem m).memOk = true ↔ Mem.wf m = true ∧ Mem.wf s.hostMem = true :=
  State.memOk_iff

@[simp] theorem State.memOk_setHostMem (s : State) (m : Mem) :
    (s.setHostMem m).memOk = true ↔ Mem.wf s.mem = true ∧ Mem.wf m = true :=
  State.memOk_iff

@[simp] theorem State.memOk_of_if {c : Prop} [Decidable c] :
    (if c then t else u).memOk = true ↔ (c → t.memOk = true) ∧ (¬c → u.memOk = true) := by
  split <;> simp [*]

@[simp] theorem State.memOk_foldl {α : Type} {f : State → α → State} (l : List α) (h : ∀ s x, s.memOk = true → (f s x).memOk = true)
    (hs : s.memOk = true) : (l.foldl f s).memOk = true := by
  induction l generalizing s with
  | nil => exact hs
  | cons x l ih => exact ih (h s x hs)

@[simp] theorem Mem.wf_foldl {α : Type} {f : Mem → α → Mem} (l : List α) (h : ∀ m x, Mem.wf m = true → Mem.wf (f m x) = true) {m : Mem}
    (hm : Mem.wf m = true) : Mem.wf (l.foldl f m) = true := by
  induction l generalizing m with
  | nil => exact hm
  | cons x l ih => exact ih (h m x hm)

@[simp] theorem Mem.wf_of_if {c : Prop} [Decidable c] {m n : Mem} :
    Mem.wf (if c then m else n) = true ↔ (c → Mem.wf m = true) ∧ (¬c → Mem.wf n = true) := by
  split <;> simp [*]

@[simp] theorem Mem.wf_writeN_of {m : Mem} (a : Nat) (bs : List Byte) (h : Mem.wf m = true) : Mem.wf (Mem.writeN m a bs) = true :=
  Mem.wf_writeN bs m a h

@[simp] theorem Mem.wf_place_of {m : Mem} (p : Placed) (h : Mem.wf m = true) : Mem.wf (Mem.place m p) = true := Mem.wf_place p m h

@[simp] theorem Mem.wf_writeLines_of {m : Mem} (a n : Nat) (ls : List (List Byte)) (h : Mem.wf m = true) :
    Mem.wf (Mem.writeLines m a n ls) = true := Mem.wf_writeLines ls m a n h

theorem Mem.wfAbove_of_lt {m : Mem} {k : Nat} {lo : Option Nat} (hlo : ∀ l ∈ lo, l < k) (h : Mem.wfAbove (some k) m = true) :
    Mem.wfAbove lo m = true := by
  cases m with
  | nil => rfl
  | cons e r =>
    simp only [Mem.wfAbove, Bool.and_eq_true, decide_eq_true_eq] at h ⊢
    refine ⟨⟨?_, h.1.2⟩, h.2⟩
    cases lo with
    | none => rfl
    | some l => exact decide_eq_true ((hlo l rfl).trans h.1.1)

theorem Mem.wfAbove_filter (p : Host.Cell → Bool) : ∀ (m : Mem) (lo : Option Nat), Mem.wfAbove lo m = true →
    Mem.wfAbove lo (List.filter p m) = true := by
  intro m
  induction m with
  | nil => exact fun _ h => h
  | cons e r ih =>
    intro lo h
    simp only [Mem.wfAbove, Bool.and_eq_true] at h
    obtain ⟨⟨hlo, hv⟩, hr⟩ := h
    rw [List.filter_cons]
    split
    · simp only [Mem.wfAbove, Bool.and_eq_true]
      exact ⟨⟨hlo, hv⟩, ih _ hr⟩
    · refine Mem.wfAbove_of_lt (k := e.1) (fun l hl => ?_) (ih _ hr)
      cases hl
      simpa using hlo

@[simp] theorem Mem.wf_without {m : Mem} (lo hi : Nat) (h : Mem.wf m = true) : Mem.wf (Mem.without m lo hi) = true :=
  Mem.wfAbove_filter _ m none h

/-! ### What a command ends in -/

/-- What a command leaves has both memories in canonical form. -/
def endsMemOk (o : Host.Outcome State Fault Refusal) : Prop := ∀ t, o = .next t → t.memOk = true

variable {o p : Host.Outcome State Fault Refusal}

@[simp] theorem endsMemOk_next : endsMemOk (.next t) ↔ t.memOk = true := ⟨fun h => h t rfl, fun h _ ht => Host.Outcome.next.inj ht ▸ h⟩

@[simp] theorem endsMemOk_fault (f : Fault) : endsMemOk (.fault f) := fun _ h => nomatch h

@[simp] theorem endsMemOk_of_if {c : Prop} [Decidable c] :
    endsMemOk (if c then o else p) ↔ (c → endsMemOk o) ∧ (¬c → endsMemOk p) := by
  split <;> simp [*]

@[simp] theorem State.memOk_after (hs : s.memOk = true) (ho : endsMemOk o) : (s.after o).memOk = true := by
  unfold State.after
  split
  · exact ho _ rfl
  · exact hs

/-- A mailbox command keeps both memories canonical if its body does. -/
theorem State.memOk_intake (i : Instr) (m : MCmd) (n : Nat) (pf ok : Bool) {body : State → State} (hs : s.memOk = true)
    (hb : (body s).memOk = true) : (s.intake i m n pf ok body).memOk = true :=
  State.intake_keeps (P := fun t => t.memOk = true)
    (fun _ _ h k => (State.memOk_eq (State.onlyChanges_mono h (by simp))).trans k) hs i m n pf ok hb
end
end Sys2Proof.Machine
end

section
namespace Sys2Proof.Machine
open Sys2Proof

/-! ### Functions that leave both memories alone -/

@[simp] theorem State.memOk_setArr (s : State) (v : ArrPart) : (s.setArr v).memOk = s.memOk := rfl

@[simp] theorem State.memOk_setTgt (s : State) (v : Tab TargetSt) : (s.setTgt v).memOk = s.memOk := rfl

@[simp] theorem State.memOk_setEng (s : State) (v : EngPart) : (s.setEng v).memOk = s.memOk := rfl

@[simp] theorem State.memOk_setKeeper (s : State) (v : Keeper) : (s.setKeeper v).memOk = s.memOk := rfl

@[simp] theorem State.memOk_setPair (s : State) (v : Pairing) : (s.setPair v).memOk = s.memOk := rfl

@[simp] theorem State.memOk_setProg (s : State) (v : ProgPart) : (s.setProg v).memOk = s.memOk := rfl

@[simp] theorem State.memOk_setRun (s : State) (v : Run) : (s.setRun v).memOk = s.memOk := rfl

@[simp] theorem State.memOk_setLead (s : State) (v : Lead) : (s.setLead v).memOk = s.memOk := rfl

@[simp] theorem State.memOk_setServe (s : State) (v : ServePart) : (s.setServe v).memOk = s.memOk := rfl

@[simp] theorem State.memOk_setTier (s : State) (v : TierPart) : (s.setTier v).memOk = s.memOk := rfl

@[simp] theorem State.memOk_setArb (s : State) (v : Tab Arb) : (s.setArb v).memOk = s.memOk := rfl

@[simp] theorem State.memOk_setFnp (s : State) (v : FnPart) : (s.setFnp v).memOk = s.memOk := rfl

@[simp] theorem State.memOk_setLink (s : State) (v : LinkPart) : (s.setLink v).memOk = s.memOk := rfl

@[simp] theorem State.memOk_setPwr (s : State) (v : PwrPart) : (s.setPwr v).memOk = s.memOk := rfl

@[simp] theorem State.memOk_setSec (s : State) (v : SecPart) : (s.setSec v).memOk = s.memOk := rfl

@[simp] theorem State.memOk_setFresh (s : State) (v : Nat) : (s.setFresh v).memOk = s.memOk := rfl

@[simp] theorem State.memOk_setPending (s : State) (v : List Instr) : (s.setPending v).memOk = s.memOk := rfl

@[simp] theorem State.memOk_send (s : State) (o : Out) : (s.send o).memOk = s.memOk := State.memOk_eq (by simp)

@[simp] theorem State.memOk_useFree (s : State) : (s.useFree).memOk = s.memOk := State.memOk_eq (by simp)

@[simp] theorem State.memOk_setMbox (s : State) (f : Nat) (v : Mailbox) : (s.setMbox f v).memOk = s.memOk := State.memOk_eq (by simp)

@[simp] theorem State.memOk_setArray (s : State) (t p : Nat) (v : ArraySt) :
    (s.setArray t p v).memOk = s.memOk := State.memOk_eq (by simp)

@[simp] theorem State.memOk_setGallery (s : State) (t g : Nat) (v : GallerySt) :
    (s.setGallery t g v).memOk = s.memOk := State.memOk_eq (by simp)

@[simp] theorem State.memOk_setTarget (s : State) (t : Nat) (v : TargetSt) : (s.setTarget t v).memOk = s.memOk := State.memOk_eq (by simp)

@[simp] theorem State.memOk_setVecEng (s : State) (t e : Nat) (v : VecSt) :
    (s.setVecEng t e v).memOk = s.memOk := State.memOk_eq (by simp)

@[simp] theorem State.memOk_setReq (s : State) (i : Nat) (r : Req) : (s.setReq i r).memOk = s.memOk := State.memOk_eq (by simp)

@[simp] theorem State.memOk_setGroup (s : State) (g : Nat) (v : GroupSt) : (s.setGroup g v).memOk = s.memOk := State.memOk_eq (by simp)

@[simp] theorem State.memOk_tick (s : State) : (s.tick).memOk = s.memOk := State.memOk_eq (by simp)

@[simp] theorem State.memOk_setCause (s : State) (f bit v : Nat) : (s.setCause f bit v).memOk = s.memOk := State.memOk_eq (by simp)

@[simp] theorem State.memOk_setKprCause (s : State) (bit : Nat) : (s.setKprCause bit).memOk = s.memOk := State.memOk_eq (by simp)

@[simp] theorem State.memOk_deliver (s : State) (f : Nat) (e : Event) : (s.deliver f e).memOk = s.memOk := State.memOk_eq (by simp)

@[simp] theorem State.memOk_post (s : State) (f : Nat) (code seq : Nat) (data : List Byte) :
    (s.post f code seq data).memOk = s.memOk := State.memOk_eq (by simp)

@[simp] theorem State.memOk_owe (s : State) (i : Instr) : (s.owe i).memOk = s.memOk := State.memOk_eq (by simp)

@[simp] theorem State.memOk_opDone (s : State) (o : LongOp) (code : Nat) : (s.opDone o code).memOk = s.memOk := State.memOk_eq (by simp)

@[simp] theorem State.memOk_healthEvent (s : State) (code tile unit addr count : Nat) :
    (s.healthEvent code tile unit addr count).memOk = s.memOk := State.memOk_eq (by simp)

@[simp] theorem State.memOk_complete (s : State) (m : MCmd) (code : Nat) (resp : List Byte) :
    (s.complete m code resp).memOk = s.memOk := State.memOk_eq (by simp)

@[simp] theorem State.memOk_accept (s : State) (m : MCmd) (k : OpKind) (opcode : Nat) :
    (s.accept m k opcode).memOk = s.memOk := State.memOk_eq (by simp)

@[simp] theorem State.memOk_setDrnStat (s : State) (t p : Nat) (v : NumStat) :
    (s.setDrnStat t p v).memOk = s.memOk := State.memOk_eq (by simp)

@[simp] theorem State.memOk_custSettle (s : State) (t : Nat) : (s.custSettle t).memOk = s.memOk := State.memOk_eq (by simp)

@[simp] theorem State.memOk_keysSettle (s : State) (t : Nat) : (s.keysSettle t).memOk = s.memOk := State.memOk_eq (by simp)

@[simp] theorem State.memOk_dropWork (s : State) (h : Nat) : (s.dropWork h).memOk = s.memOk := State.memOk_eq (by simp)

@[simp] theorem State.memOk_serveTurn (s : State) (c : Src) (tile kind num : Nat) :
    (s.serveTurn c tile kind num).memOk = s.memOk := State.memOk_eq (by simp)

@[simp] theorem State.memOk_phaseStart (s : State) (p : Phase) : (s.phaseStart p).memOk = s.memOk := State.memOk_eq (by simp)

@[simp] theorem State.memOk_phaseStop (s : State) (p : Phase) : (s.phaseStop p).memOk = s.memOk := State.memOk_eq (by simp)

@[simp] theorem State.memOk_took (s : State) (c : Src) (tile kind num : Nat) :
    (s.took c tile kind num).memOk = s.memOk := State.memOk_eq (by simp)

@[simp] theorem State.memOk_cmdDone (s : State) (c : Src) (tile kind num : Nat) :
    (s.cmdDone c tile kind num).memOk = s.memOk := State.memOk_eq (by simp)

@[simp] theorem State.memOk_finish (s : State) (c : Src) (tile kind num : Nat) :
    (s.finish c tile kind num).memOk = s.memOk := State.memOk_eq (by simp)

@[simp] theorem State.memOk_poison (s : State) (c : Src) (tile kind num : Nat) :
    (s.poison c tile kind num).memOk = s.memOk := State.memOk_eq (by simp)

@[simp] theorem State.memOk_programFault (s : State) (c : Src) (code tile kind num : Nat) :
    (s.programFault c code tile kind num).memOk = s.memOk := State.memOk_eq (by simp)

@[simp] theorem State.memOk_stopRun (s : State) (why : StopReason) : (s.stopRun why).memOk = s.memOk := State.memOk_eq (by simp)

@[simp] theorem State.memOk_declareFailure (s : State) (reader : Src) (a : Nat) :
    (s.declareFailure reader a).memOk = s.memOk := State.memOk_eq (by simp)

@[simp] theorem State.memOk_joinRecovery (s : State) (reader : Src) (us : List Nat) :
    (s.joinRecovery reader us).memOk = s.memOk := State.memOk_eq (by simp)

@[simp] theorem State.memOk_markFailed (s : State) (rs : List (Nat × Nat)) : (s.markFailed rs).memOk = s.memOk := State.memOk_eq (by simp)

@[simp] theorem State.memOk_clearFailed (s : State) (rs : List (Nat × Nat)) :
    (s.clearFailed rs).memOk = s.memOk := State.memOk_eq (by simp)

@[simp] theorem State.memOk_retireUnit (s : State) (a : Nat) : (s.retireUnit a).memOk = s.memOk := State.memOk_eq (by simp)

@[simp] theorem State.memOk_retireEvent (s : State) (a cls : Nat) (early had : Bool) :
    (s.retireEvent a cls early had).memOk = s.memOk := State.memOk_eq (by simp)

@[simp] theorem State.memOk_release (s : State) (t a first : Nat) (f : Fn) :
    (s.release t a first f).memOk = s.memOk := State.memOk_eq (by simp)

@[simp] theorem State.memOk_feed (s : State) (t g : Nat) : (s.feed t g).memOk = s.memOk := State.memOk_eq (by simp)

@[simp] theorem State.memOk_startProduct (s : State) (t g i : Nat) (w : WaitOp) :
    (s.startProduct t g i w).memOk = s.memOk := State.memOk_eq (by simp)

@[simp] theorem State.memOk_commitKey (s : State) (f j : Nat) (v : DWord) :
    (s.commitKey f j v).memOk = s.memOk := State.memOk_eq (by simp)

@[simp] theorem State.memOk_cutSteps (s : State) (whole : GroupSt → Bool) (gone : List Nat) :
    (s.cutSteps whole gone).memOk = s.memOk := State.memOk_eq (by simp)

@[simp] theorem State.memOk_applyServeReplace (s : State) (g : Nat) : (s.applyServeReplace g).memOk = s.memOk := State.memOk_eq (by simp)

@[simp] theorem State.memOk_freePageList (s : State) (g : Nat) (c : ServingCfg) (ks : List Nat) :
    (s.freePageList g c ks).memOk = s.memOk := State.memOk_eq (by simp)

@[simp] theorem State.memOk_reqDone (s : State) (i : Nat) (q : Req) : (s.reqDone i q).memOk = s.memOk := State.memOk_eq (by simp)

@[simp] theorem State.memOk_addBytes (s : State) (tile f cls n : Nat) :
    (s.addBytes tile f cls n).memOk = s.memOk := State.memOk_eq (by simp)

@[simp] theorem State.memOk_countBytes (s : State) (tile f a n : Nat) (write : Bool) :
    (s.countBytes tile f a n write).memOk = s.memOk := State.memOk_eq (by simp)

@[simp] theorem State.memOk_countOvf (s : State) (t source : Nat) (ovf : Bool) :
    (s.countOvf t source ovf).memOk = s.memOk := State.memOk_eq (by simp)

@[simp] theorem State.memOk_noteSsq (s : State) (src : Src) (r : DrainRec) (a : Nat) :
    (s.noteSsq src r a).memOk = s.memOk := State.memOk_eq (by simp)

@[simp] theorem State.memOk_countMismatch (s : State) (t p n : Nat) : (s.countMismatch t p n).memOk = s.memOk := State.memOk_eq (by simp)

@[simp] theorem State.memOk_offBus (s : State) (t : Nat) (b : BusTile) : (s.offBus t b).memOk = s.memOk := State.memOk_eq (by simp)

@[simp] theorem State.memOk_busWait (s : State) (t : Nat) (b : BusTile) : (s.busWait t b).memOk = s.memOk := State.memOk_eq (by simp)

@[simp] theorem State.memOk_busFail (s : State) (t : Nat) (b : BusTile) : (s.busFail t b).memOk = s.memOk := State.memOk_eq (by simp)

@[simp] theorem State.memOk_dropRecord (s : State) (t p : Nat) : (s.dropRecord t p).memOk = s.memOk := State.memOk_eq (by simp)

@[simp] theorem State.memOk_clearStreams (s : State) : (s.clearStreams).memOk = s.memOk := State.memOk_eq (by simp)

@[simp] theorem State.memOk_startRollouts (s : State) : (s.startRollouts).memOk = s.memOk := State.memOk_eq (by simp)

@[simp] theorem State.memOk_sendBytes (s : State) (move dest off : Nat) (bs : List Byte) :
    (s.sendBytes move dest off bs).memOk = s.memOk := State.memOk_eq (by simp)

@[simp] theorem State.memOk_openMove (s : State) (move dest bytes : Nat) :
    (s.openMove move dest bytes).memOk = s.memOk := State.memOk_eq (by simp)

@[simp] theorem State.memOk_noteUpdOvf (s : State) (t : Nat) (ovf : Bool) :
    (s.noteUpdOvf t ovf).memOk = s.memOk := State.memOk_eq (by simp)

@[simp] theorem State.memOk_vecNote (s : State) (t e : Nat) (st : NumStat) :
    (s.vecNote t e st).memOk = s.memOk := State.memOk_eq (by simp)

@[simp] theorem State.memOk_updateDone (s : State) (t e : Nat) (src : Src) (prepass : Bool) :
    (s.updateDone t e src prepass).memOk = s.memOk := State.memOk_eq (by simp)

@[simp] theorem State.memOk_setShard (s : State) (i : Nat) (v : ShardSt) : (s.setShard i v).memOk = s.memOk := State.memOk_eq (by simp)

@[simp] theorem State.memOk_fetched (s : State) (a n : Nat) : (s.fetched a n).memOk = s.memOk := State.memOk_eq (by simp)

@[simp] theorem State.memOk_missedCommit (s : State) : (s.missedCommit).memOk = s.memOk := State.memOk_eq (by simp)

@[simp] theorem State.memOk_lateOvf (s : State) : (s.lateOvf).memOk = s.memOk := State.memOk_eq (by simp)

@[simp] theorem State.memOk_takeArrivals (s : State) (src move off len : Nat) :
    (s.takeArrivals src move off len).memOk = s.memOk := State.memOk_eq (by simp)

@[simp] theorem State.memOk_refreshOver (s : State) (h : HeldRefresh) (k : OpKind) (code : Nat) :
    (s.refreshOver h k code).memOk = s.memOk := State.memOk_eq (by simp)

@[simp] theorem State.memOk_snapDonePost (s : State) (seq : Option (Fn × Nat)) (code state step index : Nat) :
    (s.snapDonePost seq code state step index).memOk = s.memOk := State.memOk_eq (by simp)

@[simp] theorem State.memOk_applyShrink (s : State) : (s.applyShrink).memOk = s.memOk := State.memOk_eq (by simp)

@[simp] theorem State.memOk_settleTable (s : State) : (s.settleTable).memOk = s.memOk := State.memOk_eq (by simp)

@[simp] theorem State.memOk_writeLscale (s : State) (v : Word) : (s.writeLscale v).memOk = s.memOk := State.memOk_eq (by simp)

@[simp] theorem State.memOk_roundOver (s : State) : (s.roundOver).memOk = s.memOk := State.memOk_eq (by simp)

@[simp] theorem State.memOk_nextStep (s : State) (carry : Bool) : (s.nextStep carry).memOk = s.memOk := State.memOk_eq (by simp)

@[simp] theorem State.memOk_applyReplace (s : State) : (s.applyReplace).memOk = s.memOk := State.memOk_eq (by simp)

@[simp] theorem State.memOk_failModule (s : State) (m : Nat) : (s.failModule m).memOk = s.memOk := State.memOk_eq (by simp)

@[simp] theorem State.memOk_catchStep (s : State) (step : Nat) (lscale : Word) (clean : Nat) :
    (s.catchStep step lscale clean).memOk = s.memOk := State.memOk_eq (by simp)

@[simp] theorem State.memOk_missAgain (s : State) (step : Nat) (lscale : Word) (clean : Nat) :
    (s.missAgain step lscale clean).memOk = s.memOk := State.memOk_eq (by simp)

@[simp] theorem State.memOk_floorStop (s : State) : (s.floorStop).memOk = s.memOk := State.memOk_eq (by simp)

@[simp] theorem State.memOk_flipBank (s : State) : (s.flipBank).memOk = s.memOk := State.memOk_eq (by simp)

@[simp] theorem State.memOk_dropUpdates (s : State) : (s.dropUpdates).memOk = s.memOk := State.memOk_eq (by simp)

@[simp] theorem State.memOk_closeMove (s : State) (p : Place) : (s.closeMove p).memOk = s.memOk := State.memOk_eq (by simp)

@[simp] theorem State.memOk_countPlace (s : State) (t : Nat) (f : Fn) (p : Place) (n : Nat) (write : Bool) :
    (s.countPlace t f p n write).memOk = s.memOk := State.memOk_eq (by simp)

@[simp] theorem State.memOk_recoverA (s : State) (f : FailedUnit) (h : Nat) (p : Prog) (cmds : List (Nat × Nat)) :
    (s.recoverA f h p cmds).memOk = s.memOk := State.memOk_eq (by simp)

@[simp] theorem State.memOk_postHold (s : State) (t : Nat) : (s.postHold t).memOk = s.memOk := State.memOk_eq (by simp)

@[simp] theorem State.memOk_setInput (s : State) (i : Nat) (v : Input) : (s.setInput i v).memOk = s.memOk := State.memOk_eq (by simp)

@[simp] theorem State.memOk_clearKeeper (s : State) : (s.clearKeeper).memOk = s.memOk := State.memOk_eq (by simp)

@[simp] theorem State.memOk_clearConfig (s : State) : (s.clearConfig).memOk = s.memOk := State.memOk_eq (by simp)

@[simp] theorem State.memOk_clearLinks (s : State) : (s.clearLinks).memOk = s.memOk := State.memOk_eq (by simp)

@[simp] theorem State.memOk_startTable (s : State) : (s.startTable).memOk = s.memOk := State.memOk_eq (by simp)

@[simp] theorem State.memOk_setFwSlot (s : State) (i : Bool) (v : FwSlot) : (s.setFwSlot i v).memOk = s.memOk := State.memOk_eq (by simp)

@[simp] theorem State.memOk_bootKeeper (s : State) (b : BootCheck) : (s.bootKeeper b).memOk = s.memOk := State.memOk_eq (by simp)

@[simp] theorem State.memOk_sampleStraps (s : State) (mv : List Nat) : (s.sampleStraps mv).memOk = s.memOk := State.memOk_eq (by simp)

@[simp] theorem State.memOk_raiseCounter (s : State) : (s.raiseCounter).memOk = s.memOk := State.memOk_eq (by simp)

@[simp] theorem State.memOk_sampleLine (s : State) (t : Nat) (b : BusTile) (j : Nat) :
    (s.sampleLine t b j).memOk = s.memOk := State.memOk_eq (by simp)

@[simp] theorem State.memOk_mapLive (s : State) (g : Nat) (f : Nat → Req → Req) :
    (s.mapLive g f).memOk = s.memOk := State.memOk_eq (by simp)

@[simp] theorem State.memOk_endRollout (s : State) : (s.endRollout).memOk = s.memOk := State.memOk_eq (by simp)

@[simp] theorem State.memOk_chargeCust (s : State) (parts : List StepPart) (c : Nat) :
    (s.chargeCust parts c).memOk = s.memOk := State.memOk_eq (by simp)

@[simp] theorem State.memOk_pageFault (s : State) (i : Nat) : (s.pageFault i).memOk = s.memOk := State.memOk_eq (by simp)

@[simp] theorem State.memOk_kvFault (s : State) (g i : Nat) : (s.kvFault g i).memOk = s.memOk := State.memOk_eq (by simp)

@[simp] theorem State.memOk_dropDrawn (s : State) (used : List Nat) : (s.dropDrawn used).memOk = s.memOk := State.memOk_eq (by simp)

@[simp] theorem State.memOk_sendCopies (s : State) (g : Nat) : (s.sendCopies g).memOk = s.memOk := State.memOk_eq (by simp)

@[simp] theorem State.memOk_cancelsAndPauses (s : State) (g : Nat) : (s.cancelsAndPauses g).memOk = s.memOk := State.memOk_eq (by simp)

@[simp] theorem State.memOk_completeCheck (s : State) (m : MCmd) (n : Nat) (c : CheckAt) :
    (s.completeCheck m n c).memOk = s.memOk := State.memOk_eq (by simp)

@[simp] theorem State.memOk_settleLast (s : State) (lasts : List LastStep) (shards : List ShardDesc) :
    (s.settleLast lasts shards).memOk = s.memOk := State.memOk_eq (by simp)

@[simp] theorem State.memOk_rejoinAt (s : State) (top : Option Nat) : (s.rejoinAt top).memOk = s.memOk := State.memOk_eq (by simp)

@[simp] theorem State.memOk_stopHeld (s : State) : (s.stopHeld).memOk = s.memOk := State.memOk_eq (by simp)

end Sys2Proof.Machine
end

section
namespace Sys2Proof.Machine
open Sys2Proof

@[simp] theorem State.memOk_writeOut {s : State} (es : List Extent) (bs : List Byte) (h : s.memOk = true) : (s.writeOut es bs).memOk = true := by
  induction es generalizing s bs with
  | nil => exact h
  | cons e es ih =>
    have one : ∀ a b, (if e.1 = 0 then s.setHostMem (Mem.writeN s.hostMem e.2.1 a) else s.setMem (Mem.writeN s.mem b a)).memOk = true :=
      fun a b => by simp [h]
    rw [State.writeOut]
    split
    · exact one _ _
    · exact ih _ (one _ _)

@[simp] theorem State.memOk_drainEnds {s : State} (t a first : Nat) (src : Src) (also : Option Nat) (owed : List (Nat × List Byte)) (h : s.memOk = true) :
    (s.drainEnds t a first src also owed).memOk = true := by
  unfold State.drainEnds
  cases also <;> simp [h]

@[simp] theorem State.memOk_trimPages {s : State} (q : Req) (n : Nat) (h : s.memOk = true) : (s.trimPages q n).1.memOk = true := by
  unfold State.trimPages
  split
  · exact h
  · simp +contextual [h]

@[simp] theorem State.memOk_leave {s : State} (i : Nat) (q : Req) (h : s.memOk = true) : (s.leave i q).memOk = true := by
  unfold State.leave
  simp [h]

@[simp] theorem State.memOk_leaveAll {s : State} (h : s.memOk = true) : (s.leaveAll).1.memOk = true := by
  unfold State.leaveAll
  simp +contextual [h]

@[simp] theorem State.memOk_writeFrame {s : State} (t p : Nat) (f : Fn) (r : PackRec) (ncol row col : Nat) (vals : List FVal) (h : s.memOk = true) :
    (s.writeFrame t p f r ncol row col vals).memOk = true := by
  unfold State.writeFrame
  simp [h]

theorem State.memOk_packOne {s u : State} (t p : Nat) (x : PackTile) (h : s.memOk = true) (hu : s.packOne t p x = some u) :
    u.memOk = true := by
  obtain ⟨write, hwrite, hok⟩ : ∃ w, s.writeFrame = w ∧ ∀ t p f r n i j v, (w t p f r n i j v).memOk = true :=
    ⟨_, rfl, fun _ _ _ _ _ _ _ _ => State.memOk_writeFrame _ _ _ _ _ _ _ _ h⟩
  unfold State.packOne at hu
  rw [hwrite] at hu
  simp only [] at hu
  split at hu
  · cases hu
  · cases hu
    simp [hok]

@[simp] theorem State.memOk_packPump {s : State} (t p : Nat) (h : s.memOk = true) : (s.packPump t p).memOk = true := by
  unfold State.packPump
  refine State.memOk_foldl _ (fun s x hs => ?_) h
  split
  · exact hs
  · simp [State.memOk_packOne t p x hs ‹_›]

@[simp] theorem State.memOk_readOr {s : State} (src : Src) (tile kind num : Nat) (rs : List (Nat × Nat)) {go : State → State}
    (h : s.memOk = true) (hgo : (go s).memOk = true) : (s.readOr src tile kind num rs go).memOk = true := by
  unfold State.readOr
  split
  · exact hgo
  · simp [h]

@[simp] theorem State.memOk_packArrive {s : State} (t p : Nat) (x : PackTile) (h : s.memOk = true) : (s.packArrive t p x).memOk = true := by
  unfold State.packArrive
  exact State.memOk_packPump _ _ (by simp [h])

@[simp] theorem execSaveDrain_memOk (t : TileIx) (p : Fin 2) (src : Src) (ws : List Word) {s : State} (h : s.memOk = true) :
    endsMemOk (execSaveDrain t p src ws s) := by
  unfold execSaveDrain
  simp [h]

@[simp] theorem execSaveSpad_memOk {s : State} (t : TileIx) (p : Fin 2) (src : Src) (ws : List Word) (h : s.memOk = true) :
    endsMemOk (execSaveSpad t p src ws s) := by
  unfold execSaveSpad
  simp only []
  refine endsMemOk_of_if.2 ⟨fun _ => by simp [h], fun _ => endsMemOk_of_if.2 ⟨fun _ => by simp [h], fun _ => ?_⟩⟩
  refine endsMemOk_next.2 (State.memOk_readOr _ _ _ _ _ h ?_)
  refine (State.memOk_finish _ _ _ _ _).trans (State.memOk_foldl _ (fun s i hs => ?_) h)
  exact State.memOk_foldl _ (fun s j hs => State.memOk_writeFrame _ _ _ _ _ _ _ _ hs) hs

theorem Mem.wf_foldl_fst {α β : Type} {f : Mem × β → α → Mem × β} (l : List α) (hf : ∀ x b, Mem.wf x.1 = true → Mem.wf (f x b).1 = true)
    {x : Mem × β} (hx : Mem.wf x.1 = true) : Mem.wf (l.foldl f x).1 = true := by
  induction l generalizing x with
  | nil => exact hx
  | cons b l ih => exact ih (hf x b hx)

theorem wf_expandBlock {m : Mem} (t : Nat) (r : PackRec) (row blk : Nat) (b : PBlock) (h : Mem.wf m = true) :
    Mem.wf (expandBlock m t r row blk b).1 = true := by
  unfold expandBlock
  simp only []
  split <;> simp [h]

theorem wf_expandFrame {m : Mem} (t : Nat) (r : PackRec) (tr tc : Nat) (bs : List PBlock) (h : Mem.wf m = true) :
    Mem.wf (expandFrame m t r tr tc bs).1 = true := by
  refine Mem.wf_foldl_fst _ (fun x b hx => ?_) h
  simp only []
  split
  · exact wf_expandBlock _ _ _ _ _ hx
  · exact hx

@[simp] theorem execExpand_memOk {s : State} (t : TileIx) (p : Fin 2) (src : Src) (ws : List Word) (h : s.memOk = true) :
    endsMemOk (execExpand t p src ws s) := by
  obtain ⟨expand, hexpand, hwf⟩ : ∃ e, expandFrame = e ∧ ∀ m t r i j bs, Mem.wf m = true → Mem.wf (e m t r i j bs).1 = true :=
    ⟨_, rfl, fun _ _ _ _ _ _ hm => wf_expandFrame _ _ _ _ _ hm⟩
  obtain ⟨decode, hdecode⟩ : ∃ d, decodeFrame = d := ⟨_, rfl⟩
  unfold execExpand
  rw [hexpand, hdecode]
  simp only []
  refine endsMemOk_of_if.2 ⟨fun _ => by simp [h], fun _ => endsMemOk_of_if.2 ⟨fun _ => by simp [h], fun _ => ?_⟩⟩
  refine endsMemOk_next.2 (State.memOk_readOr _ _ _ _ _ h ?_)
  refine (State.memOk_finish _ _ _ _ _).trans (State.memOk_foldl _ (fun s i hs => ?_) h)
  refine State.memOk_foldl _ (fun s j hs => ?_) hs
  split
  · simp [hs]
  · refine (State.memOk_clearFailed _ _).trans ((State.memOk_setEng _ _).trans ((State.memOk_countBytes _ _ _ _ _ _).trans ?_))
    exact (State.memOk_setMem _ _).2 ⟨hwf _ _ _ _ _ _ (State.wf_mem hs), State.wf_hostMem hs⟩

@[simp] theorem State.memOk_runDrain {s : State} (j : DrainJob) (old : List (X32 × X32)) (norm : X32) (stop : Option Nat) (vals : List X32 × List X32)
    (h : s.memOk = true) : (s.runDrain j old norm stop vals).memOk = true := by
  have lines : ∀ a n ls b k ls', Mem.wf (Mem.writeLines (Mem.writeLines s.mem a n ls) b k ls') = true :=
    fun _ _ _ _ _ _ => Mem.wf_writeLines _ _ _ _ (by simp [h])
  unfold State.runDrain
  simp only []
  refine State.memOk_of_if.2 ⟨fun _ => ?_, fun _ => ?_⟩
  · split <;> simp [h, lines]
  · simp [h, lines]

theorem State.memOk_startDrain {s u : State} (t a : Nat) (src : Src) (w ext : List Word) (sideFailed : BitVec 64) (stop : Option Nat)
    (h : s.memOk = true) (hu : s.startDrain t a src w ext sideFailed stop = some u) : u.memOk = true := by
  unfold State.startDrain at hu
  simp only [] at hu
  repeat' split at hu
  all_goals cases hu
  all_goals simp [h]

@[simp] theorem State.memOk_resumeDrain {s : State} (t a : Nat) (l : Lease) (x : DrainPart) (stop : Option Nat) (h : s.memOk = true) :
    (s.resumeDrain t a l x stop).memOk = true := by
  unfold State.resumeDrain
  simp [h]

@[simp] theorem execDrain_memOk {s : State} (t : TileIx) (g : Fin 10) (src : Src) (ws ext : List Word) (sideFailed : Course (BitVec 64))
    (h : s.memOk = true) : endsMemOk (execDrain t g src ws ext sideFailed s) := by
  unfold execDrain
  simp only []
  generalize (if s.galleryOpen t g src then _ else none) = held
  cases held with
  | some x => simp [h]
  | none =>
    refine endsMemOk_of_if.2 ⟨fun _ => by simp [h], fun _ => endsMemOk_of_if.2 ⟨fun _ => by simp [h], fun _ => ?_⟩⟩
    rw [endsMemOk_next]
    generalize hx : (s.took src t 0 g).startDrain _ _ _ _ _ _ _ = x
    cases x with
    | none => simp [h]
    | some u => exact State.memOk_startDrain _ _ _ _ _ _ _ (by simp [h]) hx

@[simp] theorem execLeaseWaitRelease_memOk {s : State} (t : TileIx) (a : Fin 80) (mism : Bool) (h : s.memOk = true) :
    endsMemOk (execLeaseWaitRelease t a mism s) := by
  unfold execLeaseWaitRelease
  simp only []
  split
  · simp [h]
  · split
    · rw [endsMemOk_next]
      generalize hx : State.startDrain _ _ _ _ _ _ _ _ = x
      cases x with
      | none => simp [h]
      | some u => exact State.memOk_startDrain _ _ _ _ _ _ _ (by simp [h]) hx
    · simp [h]

@[simp] theorem execTileReplay_memOk (t : TileIx) (a : Fin 80) (slot : Nat) (twinMism origMism : Bool) {s : State} (h : s.memOk = true) :
    endsMemOk (execTileReplay t a slot twinMism origMism s) := by
  unfold execTileReplay
  simp only []
  split <;> (try split) <;> simp [h]

@[simp] theorem State.memOk_busTake {s : State} (t : Nat) (b : BusTile) (h : s.memOk = true) : (s.busTake t b).memOk = true := by
  unfold State.busTake
  simp [h]

@[simp] theorem State.memOk_writeRecord {s : State} (t p : Nat) (spill : Bool) (pairs : List Word) (w : SlotWord) (h : s.memOk = true) :
    (s.writeRecord t p spill pairs w).memOk = true := by
  unfold State.writeRecord
  simp [h]

end Sys2Proof.Machine
end

section
namespace Sys2Proof.Machine
open Sys2Proof

@[simp] theorem execTeacherTile_memOk {s : State} (t : TileIx) (a : Fin 80) (h : s.memOk = true) : endsMemOk (execTeacherTile t a s) := by
  unfold execTeacherTile
  split
  · simp [h]
  · simp only []
    refine endsMemOk_of_if.2 ⟨fun _ => by simp [h], fun _ => endsMemOk_of_if.2 ⟨fun _ => by simp [h], fun _ => ?_⟩⟩
    refine endsMemOk_of_if.2 ⟨fun _ => by simp [h], fun _ => ?_⟩
    split
    · simp [h]
    · refine endsMemOk_of_if.2 ⟨fun _ => by simp [h], fun _ => endsMemOk_next.2 ?_⟩
      refine State.memOk_foldl _ (fun s p hs => ?_) (by simp [h])
      split <;> simp [hs]

@[simp] theorem execRecordForward_memOk (pos : Nat) (src dst : RecEnd) (pairs : List Word) (slotWord : DWord) {s : State} (h : s.memOk = true) :
    endsMemOk (execRecordForward pos src dst pairs slotWord s) := by
  unfold execRecordForward
  simp only []
  repeat' split
  all_goals simp [h]

@[simp] theorem execStudentNormTile_memOk (t : TileIx) (a : Fin 80) {s : State} (h : s.memOk = true) :
    endsMemOk (execStudentNormTile t a s) := by
  unfold execStudentNormTile
  split <;> simp [h]

@[simp] theorem State.memOk_closePos {s : State} (t p : Nat) (h : s.memOk = true) : (s.closePos t p).memOk = true := by
  unfold State.closePos
  simp only []
  split <;> simp [h]

@[simp] theorem execStudentGradTile_memOk (t : TileIx) (a : Fin 80) {s : State} (h : s.memOk = true) :
    endsMemOk (execStudentGradTile t a s) := by
  unfold execStudentGradTile
  simp only []
  split <;> simp +contextual [h]

@[simp] theorem State.memOk_writeRing {s : State} (r : HostRing) (h : s.memOk = true) : (s.writeRing r).memOk = true :=
  (State.memOk_setHostMem _ _).2 ⟨State.wf_mem h, Mem.wf_writeN _ _ _ (Mem.wf_writeN _ _ _ (State.wf_hostMem h))⟩

@[simp] theorem State.memOk_ringPut {s : State} (r : HostRing) (bs : List Byte) (h : s.memOk = true) : (s.ringPut r bs).1.memOk = true :=
  State.memOk_writeRing _ (by simp [h])

@[simp] theorem State.memOk_flushReports {s : State} (n : Nat) (h : s.memOk = true) : (State.flushReports n s).memOk = true := by
  induction n generalizing s with
  | zero => exact h
  | succ n ih =>
    unfold State.flushReports
    split
    · exact h
    split
    · exact h
    · exact ih (by simp [State.memOk_iff.1 h])

@[simp] theorem State.memOk_putReport {s : State} (bs : List Byte) (event : Bool) (h : s.memOk = true) : (s.putReport bs event).memOk = true := by
  unfold State.putReport
  simp only []
  split
  · exact State.memOk_writeRing _ (by simp [h])
  · exact State.memOk_flushReports _ (by simp [h])

@[simp] theorem State.memOk_writeSummary {s : State} (h : s.memOk = true) : (s.writeSummary).memOk = true := by
  unfold State.writeSummary
  split <;> simp [h]

@[simp] theorem State.memOk_noteStepReport {s : State} (m step : Nat) (words : List Nat) (h : s.memOk = true) :
    (s.noteStepReport m step words).memOk = true := by
  unfold State.noteStepReport
  simp [h]

@[simp] theorem execStepReportRx_memOk (module step : Nat) (words : List Nat) {s : State} (h : s.memOk = true) :
    endsMemOk (execStepReportRx module step words s) := by
  unfold execStepReportRx
  simp [h]

theorem wf_writePieces {m : Mem} (t : Nat) (d : Draws) (r : ChainRec) (ps : List OutPiece) (h : Mem.wf m = true) :
    Mem.wf (writePieces m t d r ps).1 = true := by
  unfold writePieces
  refine Mem.wf_foldl_fst _ (fun x p hx => ?_) h
  simp [hx]

@[simp] theorem State.memOk_runChain {s : State} (t e : Nat) (x : ChainPart) (stop : Option Nat) (h : s.memOk = true) :
    (s.runChain t e x stop).memOk = true := by
  have hw := State.memOk_iff.1 h
  have pieces : ∀ r ps, Mem.wf (writePieces s.mem t x.draws r ps).1 = true := fun _ _ => wf_writePieces _ _ _ _ hw.1
  unfold State.runChain
  simp [h, pieces]

@[simp] theorem execChain_memOk (t : TileIx) (e : Fin 8) (src : Src) (ws : List Word) (failed : Course Bool) {s : State} (h : s.memOk = true) :
    endsMemOk (execChain t e src ws failed s) := by
  unfold execChain
  simp only []
  split <;> simp [h]

end Sys2Proof.Machine
end

section
namespace Sys2Proof.Machine
open Sys2Proof

@[simp] theorem State.memOk_runPrepass {s : State} (t e : Nat) (r : UpdRec) (d : GroupDesc) (h : s.memOk = true) :
    (s.runPrepass t e r d).memOk = true := by
  unfold State.runPrepass
  simp [h]

theorem wf_writeBlock (d : GroupDesc) (q : Planes) {m : Mem} (x : NewBlock) (h : Mem.wf m = true) : Mem.wf (writeBlock d q m x) = true := by
  unfold writeBlock
  simp only []
  split <;> repeat refine Mem.wf_writeN _ _ _ ?_
  all_goals exact h

@[simp] theorem State.memOk_updateRange {s : State} (t e : Nat) (x : UpdPart) (d : GroupDesc) (n0 n1 : Nat) (h : s.memOk = true) :
    (s.updateRange t e x d n0 n1).memOk = true := by
  have hw := State.memOk_iff.1 h
  have blocks : ∀ q l, Mem.wf (List.foldl (writeBlock d q) s.mem l) = true := fun q l => Mem.wf_foldl l (fun _ x hm => wf_writeBlock d q x hm) hw.1
  unfold State.updateRange
  simp [hw, blocks]

theorem wf_writeTurned (d : GroupDesc) (p : Option Planes) (q : Planes) {x : Mem × NumStat} (band : Nat) (h : Mem.wf x.1 = true) :
    Mem.wf (writeTurned d p q x band).1 = true := by
  unfold writeTurned
  refine Mem.wf_foldl_fst _ (fun y col hy => ?_) h
  exact Mem.wf_writeN _ _ _ (Mem.wf_writeN _ _ _ hy)

@[simp] theorem State.memOk_updateEnd {s : State} (t e : Nat) (r : UpdRec) (d : GroupDesc) (h : s.memOk = true) :
    (s.updateEnd t e r d).memOk = true := by
  have hw := State.memOk_iff.1 h
  have turned : ∀ p q l ps st, Mem.wf (List.foldl (writeTurned d p q) (Mem.place s.mem ps, st) l).1 = true := fun p q l ps st =>
    Mem.wf_foldl_fst l (fun _ b hx => wf_writeTurned d p q b hx) (Mem.wf_place _ _ hw.1)
  have ended : ∀ (c : Bool) p q l ps st, Mem.wf (if c then List.foldl (writeTurned d p q) (Mem.place s.mem ps, st) l else (Mem.place s.mem ps, st)).1 = true := by
    intro c p q l ps st
    cases c
    · exact Mem.wf_place _ _ hw.1
    · exact turned p q l ps st
  unfold State.updateEnd
  simp only []
  rw [State.memOk_vecNote]
  split
  · rw [State.memOk_useFree]
    exact (State.memOk_setMem _ _).2 ⟨Mem.wf_writeN _ _ _ (ended _ _ _ _ _ _), hw.2⟩
  · exact (State.memOk_setMem _ _).2 ⟨Mem.wf_writeN _ _ _ (ended _ _ _ _ _ _), hw.2⟩

@[simp] theorem State.memOk_runUpdate {s : State} (t e : Nat) (x : UpdPart) (d : GroupDesc) (stop : Option Nat) (h : s.memOk = true) :
    (s.runUpdate t e x d stop).memOk = true := by
  unfold State.runUpdate
  simp [h]

@[simp] theorem execUpdate_memOk (t : TileIx) (e : Fin 8) (src : Src) (ws : Course (List Word)) {s : State} (h : s.memOk = true) :
    endsMemOk (execUpdate t e src ws s) := by
  unfold execUpdate
  simp only []
  repeat' split
  all_goals simp [h]

@[simp] theorem State.memOk_copyToMirror {s : State} (d : ShardDesc) (g : GroupDesc) (h : s.memOk = true) : (s.copyToMirror d g).memOk = true := by
  have hw := State.memOk_iff.1 h
  unfold State.copyToMirror
  split
  · exact h
  · refine (State.memOk_setMem _ _).2 ⟨?_, hw.2⟩
    exact Mem.wf_writeN _ _ _ (Mem.wf_writeN _ _ _ (Mem.wf_writeN _ _ _ hw.1))

theorem wf_writeShard {m : Mem} (x : TStream) (cols : Nat) (vals : List X32) (h : Mem.wf m = true) : Mem.wf (writeShard m x cols vals) = true := by
  unfold writeShard
  simp [h]

theorem wf_writeNorms {m : Mem} (d : ShardDesc) (g : GroupDesc) (h : Mem.wf m = true) : Mem.wf (writeNorms m d g) = true :=
  Mem.wf_foldl _ (fun _ _ hm => Mem.wf_writeN _ _ _ hm) h

theorem wf_placeNorms {m : Mem} (d : ShardDesc) (g : GroupDesc) (ns : List Word) (h : Mem.wf m = true) : Mem.wf (placeNorms m d g ns) = true :=
  Mem.wf_foldl _ (fun _ _ hm => Mem.wf_writeN _ _ _ hm) h

/-- The norm entries of a closed shard, whichever way they come. -/
theorem wf_closedNorms {m : Mem} (d : ShardDesc) (g : GroupDesc) (xs ys : List Contribution) (h : Mem.wf m = true) :
    Mem.wf (match xs, ys with
      | [c], [] => if c.norms.isEmpty then writeNorms m d g else placeNorms m d g c.norms
      | _, _ => writeNorms m d g) = true := by
  split
  · split
    · exact wf_writeNorms d g h
    · exact wf_placeNorms d g _ h
  · exact wf_writeNorms d g h

@[simp] theorem State.memOk_closeShard {s : State} (i : Nat) (d : ShardDesc) (h : s.memOk = true) : (s.closeShard i d).memOk = true := by
  have hw := State.memOk_iff.1 h
  have mirrored : ∀ u : State, u.memOk = true → (match u.prog.groups.find? d.group with
      | some g => if d.owner != u.moduleId then u.copyToMirror d g else u
      | none => u).memOk = true := by
    intro u hu
    split
    · simp [hu]
    · exact hu
  unfold State.closeShard
  simp only []
  rw [State.memOk_setRun, State.memOk_setShard]
  refine mirrored _ ((State.memOk_setMem _ _).2 ⟨?_, hw.2⟩)
  cases s.prog.groups.find? d.group with
  | none => exact wf_writeShard _ _ _ hw.1
  | some g => exact wf_closedNorms d g _ _ (wf_writeShard _ _ _ hw.1)

@[simp] theorem State.memOk_tryClose {s : State} (i : Nat) (d : ShardDesc) (h : s.memOk = true) : (s.tryClose i d).memOk = true := by
  unfold State.tryClose
  simp [h]

end Sys2Proof.Machine
end

section
namespace Sys2Proof.Machine
open Sys2Proof

@[simp] theorem execContributionArrival_memOk (shard module step : Nat) (vals : ShardVals) (ovf : Bool) {s : State} (h : s.memOk = true) :
    endsMemOk (execContributionArrival shard module step vals ovf s) := by
  unfold execContributionArrival
  simp only []
  split <;> (try split) <;> simp [h]

@[simp] theorem execLateLimitExpiry_memOk (shard : Nat) {s : State} (h : s.memOk = true) : endsMemOk (execLateLimitExpiry shard s) := by
  unfold execLateLimitExpiry
  split <;> simp [h]

@[simp] theorem State.memOk_forwardMirror {s : State} (i : Nat) (d : ShardDesc) (h : s.memOk = true) :
    (s.forwardMirror i d).memOk = true := by
  unfold State.forwardMirror
  split <;> simp [h]

@[simp] theorem State.memOk_contribute {s : State} (i : Nat) (d : ShardDesc) (h : s.memOk = true) :
    (s.contribute i d).memOk = true := by
  unfold State.contribute
  simp [h]

@[simp] theorem execCollectiveStep_memOk (src : Src) (op : CollOp) {s : State} (h : s.memOk = true) :
    endsMemOk (execCollectiveStep src op s) := by
  unfold execCollectiveStep
  simp only []
  repeat' split
  all_goals simp [h]

@[simp] theorem State.memOk_applyTeacher {s : State} (img : WeightImage) (h : s.memOk = true) : (s.applyTeacher img).memOk = true := by
  unfold State.applyTeacher
  refine State.memOk_foldl _ (fun u t hu => by simp [hu]) ?_
  simp [State.memOk_iff.1 h]

theorem wf_writeState (d : GroupDesc) (q : Planes) {m : Mem} (st : Option GroupState) (h : Mem.wf m = true) :
    Mem.wf (writeState d q m st) = true := by
  have factored : ∀ n a bs, Mem.wf n = true → Mem.wf (if d.rule = 0 then Mem.writeN n a bs else n) = true := fun n a bs hn => by simp [hn]
  have second : ∀ n a bs b cs, Mem.wf n = true → Mem.wf (if d.rule = 1 then Mem.writeN (Mem.writeN n a bs) b cs else n) = true :=
    fun n a bs b cs hn => by simp [hn]
  unfold writeState
  refine factored _ _ _ (second _ _ _ _ _ ?_)
  exact Mem.wf_writeN _ _ _ (Mem.wf_writeN _ _ _ (Mem.wf_writeN _ _ _ h))

theorem wf_writeMasters (d : GroupDesc) (q : Planes) {m : Mem} (bs : List Byte) (h : Mem.wf m = true) :
    Mem.wf (writeMasters d q m bs) = true := by
  have turned : ∀ l, ∀ x : Mem × NumStat, Mem.wf x.1 = true → Mem.wf (List.foldl (writeTurned d none q) x l).1 = true :=
    fun l _ hx => Mem.wf_foldl_fst l (fun _ b hy => wf_writeTurned d none q b hy) hx
  have blocks : ∀ l, Mem.wf (List.foldl (fun mem b =>
      let n := min 32 (d.cols - 32 * (b % groupNb d))
      let (x, _) := scaledBlock ((List.range n).map (fun j => ofBF16 (masterCode mem q b j)))
      (mem.writeN (q.work + 32 * b) x.1).writeN (q.workS + b) x.2) (m.writeN q.master (bs.take (64 * groupBlocks d))) l) = true :=
    fun l => Mem.wf_foldl l (fun _ _ hn => Mem.wf_writeN _ _ _ (Mem.wf_writeN _ _ _ hn)) (Mem.wf_writeN _ _ _ h)
  unfold writeMasters
  simp only []
  split
  · exact turned _ _ (blocks _)
  · exact blocks _

@[simp] theorem State.memOk_applyStudent {s : State} (img : WeightImage) (h : s.memOk = true) : (s.applyStudent img).memOk = true := by
  have hw := State.memOk_iff.1 h
  unfold State.applyStudent
  rw [State.memOk_setPair]
  refine (State.memOk_setMem _ _).2 ⟨Mem.wf_place _ _ (Mem.wf_foldl _ (fun m x hm => ?_) hw.1), hw.2⟩
  simp only []
  split
  · exact hm
  · exact wf_writeState _ _ _ (wf_writeMasters _ _ _ (wf_writeState _ _ _ (wf_writeMasters _ _ _ hm)))

@[simp] theorem State.memOk_applyHeldTeacher {s : State} (h : s.memOk = true) : (s.applyHeldTeacher).memOk = true := by
  unfold State.applyHeldTeacher
  split <;> simp [h]

@[simp] theorem State.memOk_applyHeldStudent {s : State} (h : s.memOk = true) : (s.applyHeldStudent).memOk = true := by
  unfold State.applyHeldStudent
  split <;> simp [h]

@[simp] theorem State.memOk_applyHeld {s : State} (h : s.memOk = true) : (s.applyHeld).memOk = true := by
  unfold State.applyHeld
  simp [h]

@[simp] theorem State.memOk_startSnap {s : State} (ring : HostRing) (seq : Option (Fn × Nat)) (outside : Bool) (h : s.memOk = true) :
    (s.startSnap ring seq outside).memOk = true := by
  unfold State.startSnap
  simp [h]

@[simp] theorem State.memOk_endSnap {s : State} (state : Nat) (h : s.memOk = true) : (s.endSnap state).memOk = true := by
  have hw := State.memOk_iff.1 h
  have ringed : ∀ a bs r, ((s.setHostMem (Mem.writeN s.hostMem a bs)).writeRing r).memOk = true :=
    fun a bs r => State.memOk_writeRing r (by simp [hw])
  unfold State.endSnap
  split <;> simp [h, ringed]

@[simp] theorem State.memOk_abandonSnaps {s : State} (h : s.memOk = true) : (s.abandonSnaps).memOk = true := by
  unfold State.abandonSnaps
  simp +contextual [h]

@[simp] theorem execSnapshotComplete_memOk (readFailed : Bool) {s : State} (h : s.memOk = true) :
    endsMemOk (execSnapshotComplete readFailed s) := by
  unfold execSnapshotComplete
  simp [h]

@[simp] theorem State.memOk_endRun {s : State} (why : StopReason) (h : s.memOk = true) : (s.endRun why).memOk = true := by
  unfold State.endRun
  simp only []
  repeat' split
  all_goals simp [h]

@[simp] theorem State.memOk_reportStep {s : State} (skip : Bool) (lscale : Word) (clean : Nat) (h : s.memOk = true) :
    (s.reportStep skip lscale clean).memOk = true := by
  have put : ∀ bs, (s.putReport bs true).memOk = true := fun bs => State.memOk_putReport bs true h
  unfold State.reportStep
  simp only []
  split
  · refine State.memOk_foldl _ (fun u x hu => State.memOk_noteStepReport _ _ _ hu) ?_
    simp [put]
  · simp [put]

@[simp] theorem State.memOk_atBoundary {s : State} (skip : Bool) (lscale : Word) (clean : Nat) (h : s.memOk = true) :
    (s.atBoundary skip lscale clean).memOk = true := by
  have started : ∀ (u : State) (l : List (Option (Fn × Nat))), u.memOk = true → (l.foldl (fun s q => s.startSnap s.run.snaps q false) u).memOk = true :=
    fun u l hu => State.memOk_foldl l (fun v q hv => State.memOk_startSnap _ _ _ hv) hu
  have abandoned : ∀ (c : Bool) (u : State), u.memOk = true → (if c then u.abandonSnaps else u).memOk = true := by
    intro c u hu
    cases c
    · exact hu
    · exact State.memOk_abandonSnaps hu
  have settled : ∀ u : State, u.memOk = true → u.clearStreams.applyShrink.roundOver.applyReplace.memOk = true := fun u hu => by simp [hu]
  unfold State.atBoundary
  simp only []
  split
  · refine State.memOk_endRun _ (settled _ (State.memOk_reportStep _ _ _ (State.memOk_applyHeld (started _ _ ?_))))
    rw [State.memOk_setRun, State.memOk_writeLscale]
    exact abandoned _ _ (by simp [h])
  · rw [State.memOk_nextStep]
    refine settled _ (State.memOk_reportStep _ _ _ (State.memOk_applyHeld (started _ _ ?_)))
    rw [State.memOk_setRun, State.memOk_writeLscale]
    exact abandoned _ _ (by simp [h])

@[simp] theorem State.memOk_writeUcb {s : State} (k : Word) (h : s.memOk = true) : (s.writeUcb k).memOk = true := by
  unfold State.writeUcb
  simp +contextual [h]

@[simp] theorem execGoRx_memOk (step : Nat) (k lscale : Word) (clean : Nat) {s : State} (h : s.memOk = true) :
    endsMemOk (execGoRx step k lscale clean s) := by
  unfold execGoRx
  simp [h]

@[simp] theorem execSkipRx_memOk (step : Nat) (lscale : Word) (clean : Nat) {s : State} (h : s.memOk = true) :
    endsMemOk (execSkipRx step lscale clean s) := by
  unfold execSkipRx
  simp [h]

@[simp] theorem State.memOk_copyShard {s : State} (d : ShardDesc) (g m : GroupDesc) (h : s.memOk = true) :
    (s.copyShard d g m).memOk = true := by
  unfold State.copyShard
  simp +contextual [h]

@[simp] theorem State.memOk_refetchMirror {s : State} (i : Nat) (h : s.memOk = true) : (s.refetchMirror i).memOk = true := by
  unfold State.refetchMirror
  split
  · exact h
  split
  · exact h
  split <;> simp [h]

@[simp] theorem execCommitMarkRx_memOk {s : State} (step : Nat) (lscale : Word) (clean : Nat) (h : s.memOk = true) :
    endsMemOk (execCommitMarkRx step lscale clean s) := by
  unfold execCommitMarkRx
  refine endsMemOk_of_if.2 ⟨fun _ => by simp [h], fun _ => ?_⟩
  generalize hu : (if s.run.markApplied = true then _ else s) = u
  have hok : u.memOk = true := by
    rw [← hu]
    simp [h]
  refine endsMemOk_of_if.2 ⟨fun _ => by simp [hok], fun _ => endsMemOk_of_if.2 ⟨fun _ => by simp [hok], fun _ => ?_⟩⟩
  refine endsMemOk_of_if.2 ⟨fun _ => by simp [hok], fun _ => endsMemOk_next.2 (State.memOk_atBoundary _ _ _ ?_)⟩
  rw [State.memOk_setRun]
  exact State.memOk_foldl _ (fun v i hv => State.memOk_refetchMirror i hv) (by simp [hok])

@[simp] theorem execAbortRx_memOk {s : State} (step failed : Nat) (h : s.memOk = true) : endsMemOk (execAbortRx step failed s) := by
  unfold execAbortRx
  refine endsMemOk_of_if.2 ⟨fun _ => by simp [h], fun _ => endsMemOk_of_if.2 ⟨fun _ => by simp [h], fun _ => ?_⟩⟩
  refine endsMemOk_of_if.2 ⟨fun _ => by simp [h], fun _ => endsMemOk_next.2 ?_⟩
  refine State.memOk_foldl _ (fun u d hu => ?_) (by simp [h])
  split
  · simp [hu]
  split <;> simp [hu]

@[simp] theorem State.memOk_leadLost {s : State} (h : s.memOk = true) : (s.leadLost).memOk = true := by
  unfold State.leadLost
  simp [h]

@[simp] theorem execCommitWaitExpiry_memOk (module : Nat) {s : State} (h : s.memOk = true) :
    endsMemOk (execCommitWaitExpiry module s) := by
  unfold execCommitWaitExpiry
  simp [h]

@[simp] theorem State.memOk_putAt {s : State} (p : Place) (off : Nat) (bs : List Byte) (h : s.memOk = true) : (s.putAt p off bs).memOk = true := by
  unfold State.putAt
  split <;> simp [h]

@[simp] theorem State.memOk_putLive {s : State} (p : Place) (src off : Nat) (bs : List Byte) (h : s.memOk = true) :
    (State.putLive s p src off bs).memOk = true := by
  induction bs generalizing s src off with
  | nil => exact h
  | cons b bs ih =>
    refine ih _ _ ?_
    split
    · exact h
    · exact State.memOk_putAt _ _ _ h

@[simp] theorem execCopy_memOk {s : State} (t : TileIx) (e : Fin 4) (src : Src) (ws : List Word) (remote : List Byte) (h : s.memOk = true) :
    endsMemOk (execCopy t e src ws remote s) := by
  have moved : ∀ (c : Bool) (p : Place) (a k d n : Nat) (l : List Nat) (u : State), u.memOk = true → (l.foldl (fun s i =>
      if c then s.putAt p (i * d) (Mem.readN s.mem (a + i * k) n)
      else State.putLive s p (a + i * k) (i * d) (Mem.readN s.mem (a + i * k) n)) u).memOk = true :=
    fun c p a k d n l u hu => State.memOk_foldl l (fun v i hv => by simp [hv]) hu
  unfold execCopy
  refine endsMemOk_of_if.2 ⟨fun _ => by simp [h], fun _ => endsMemOk_of_if.2 ⟨fun _ => by simp [h], fun _ => ?_⟩⟩
  split
  · refine endsMemOk_of_if.2 ⟨fun _ => by simp [h], fun _ => endsMemOk_next.2 (State.memOk_readOr _ _ _ _ _ h ?_)⟩
    refine State.memOk_of_if.2 ⟨fun _ => ?_, fun _ => ?_⟩
    · rw [State.memOk_finish, State.memOk_countPlace, State.memOk_countPlace, State.memOk_closeMove]
      exact moved _ _ _ _ _ _ _ _ h
    · rw [State.memOk_programFault, State.memOk_countPlace, State.memOk_countPlace, State.memOk_closeMove]
      exact moved _ _ _ _ _ _ _ _ h
  · exact endsMemOk_next.2 (State.memOk_readOr _ _ _ _ _ h (by simp +contextual [h]))

@[simp] theorem execFill_memOk {s : State} (t : TileIx) (e : Fin 4) (src : Src) (ws : List Word) (h : s.memOk = true) :
    endsMemOk (execFill t e src ws s) := by
  unfold execFill
  simp only []
  refine endsMemOk_of_if.2 ⟨fun _ => by simp [h], fun _ => endsMemOk_of_if.2 ⟨fun _ => by simp [h], fun _ => ?_⟩⟩
  exact endsMemOk_next.2 (State.memOk_readOr _ _ _ _ _ h (by simp +contextual [h]))

end Sys2Proof.Machine
end

section
namespace Sys2Proof.Machine
open Sys2Proof

@[simp] theorem State.memOk_moveOut {s : State} (f : Fn) (fuel : Nat) (es : List Extent) (a n : Nat) (h : s.memOk = true) :
    (State.moveOut f fuel s es a n).memOk = true := by
  induction fuel generalizing s es a n with
  | zero => exact h
  | succ fuel ih =>
    unfold State.moveOut
    split
    · exact h
    · exact ih _ _ _ (by simp [h])

@[simp] theorem execMemTransferDone_memOk {s : State} (fn : Fn) (seq : Nat) (data : List Byte) (refused : Bool) (h : s.memOk = true) :
    endsMemOk (execMemTransferDone fn seq data refused s) := by
  unfold execMemTransferDone
  simp only []
  split
  · simp [h]
  · split <;> simp [State.memOk_iff.1 h, h]

@[simp] theorem execCxlmemAccess_memOk (write : Bool) (offset : Nat) (data : List Byte) {s : State} (h : s.memOk = true) :
    endsMemOk (execCxlmemAccess write offset data s) := by
  unfold execCxlmemAccess
  simp [h]

@[simp] theorem State.memOk_recoverOut {s : State} (a : Nat) (data : List Byte) (h : s.memOk = true) :
    (s.recoverOut a data).memOk = true := by
  unfold State.recoverOut
  simp [h]

theorem wf_writeAccesses {m : Mem} (as : List Nat) (bs : List Byte) (h : Mem.wf m = true) : Mem.wf (writeAccesses m as bs) = true := by
  induction as generalizing m bs with
  | nil => exact h
  | cons a as ih => exact ih _ (Mem.wf_writeN _ _ _ h)

@[simp] theorem execPersistentFailureRecovery_memOk {s : State} (addr : Nat) (data : List Byte) (sourceFailed : Bool) (h : s.memOk = true) :
    endsMemOk (execPersistentFailureRecovery addr data sourceFailed s) := by
  have stored : ∀ u as bs, ((s.retireUnit u).setMem (writeAccesses (s.retireUnit u).mem as bs)).memOk = true := by
    intro u as bs
    have hw := State.memOk_iff.1 ((State.memOk_retireUnit s u).trans h)
    exact (State.memOk_setMem _ _).2 ⟨wf_writeAccesses as bs hw.1, hw.2⟩
  unfold execPersistentFailureRecovery
  refine endsMemOk_of_if.2 ⟨fun _ => by simp [h], fun _ => endsMemOk_next.2 ?_⟩
  split
  · simp [h]
  split
  · simp [h]
  refine (State.memOk_retireEvent _ _ _ _ _).trans ?_
  generalize hv : State.setTier _ _ = v
  have hok : v.memOk = true := by
    rw [← hv, State.memOk_setTier]
    exact State.memOk_of_if.2 ⟨fun _ => (State.memOk_useFree _).trans (stored _ _ _), fun _ => stored _ _ _⟩
  refine State.memOk_of_if.2 ⟨fun _ => hok, fun _ => ?_⟩
  split
  · simp [hok]
  · simp [hok]
  · refine State.memOk_foldl _ (fun w i hw => ?_) hok
    split <;> simp [hw]
  · exact hok

@[simp] theorem State.memOk_clearEngines {s : State} (h : s.memOk = true) : (s.clearEngines).memOk = true := by
  unfold State.clearEngines
  simp [h]

@[simp] theorem State.memOk_powerDown {s : State} (h : s.memOk = true) : s.powerDown.memOk = true := by
  have cleared : s.clearEngines.clearKeeper.clearConfig.clearLinks.memOk = true := by simp [h]
  unfold State.powerDown
  simp only []
  rw [State.memOk_setPwr, State.memOk_setTier]
  exact (State.memOk_setMem _ _).2 ⟨rfl, State.wf_hostMem cleared⟩

@[simp] theorem execPowerLoss_memOk {s : State} (h : s.memOk = true) : endsMemOk (execPowerLoss s) := by
  unfold execPowerLoss
  simp [h]

@[simp] theorem execHubOvertemp_memOk {s : State} (h : s.memOk = true) : endsMemOk (execHubOvertemp s) := by
  unfold execHubOvertemp
  simp [h]

@[simp] theorem State.memOk_releaseReset {s : State} (h : s.memOk = true) : (s.releaseReset).memOk = true := by
  unfold State.releaseReset
  simp [h]

@[simp] theorem execModuleResetRelease_memOk {s : State} (h : s.memOk = true) : endsMemOk (execModuleResetRelease s) := by
  unfold execModuleResetRelease
  simp [h]

@[simp] theorem State.memOk_warmReset {s : State} (boot : BootCheck) (h : s.memOk = true) : (s.warmReset boot).memOk = true := by
  unfold State.warmReset
  simp only []
  split <;> (try split) <;> simp [h]

@[simp] theorem execHostReset_memOk (millivolts : List Nat) (boot : BootCheck) {s : State} (h : s.memOk = true) :
    endsMemOk (execHostReset millivolts boot s) := by
  unfold execHostReset
  simp only []
  split <;> (try split) <;> simp [h]

@[simp] theorem execPwrHotreset_memOk (fn : Fn) (value : Word) (boot : BootCheck) {s : State} (h : s.memOk = true) :
    endsMemOk (execPwrHotreset fn value boot s) := by
  unfold execPwrHotreset
  simp [h]

@[simp] theorem execTileReset_memOk (t : TileIx) {s : State} (h : s.memOk = true) : endsMemOk (execTileReset t s) := by
  unfold execTileReset
  simp [h]

@[simp] theorem State.memOk_copyOut {s : State} (m : MCmd) (ds : List Desc) (bs : List Byte) (h : s.memOk = true) :
    (s.copyOut m ds bs).memOk = true := by
  unfold State.copyOut
  simp [h]

@[simp] theorem execHealthRead_memOk {s : State} (m : MCmd) (h : s.memOk = true) : endsMemOk (execHealthRead m s) := by
  unfold execHealthRead
  exact endsMemOk_next.2 (State.memOk_intake _ _ _ _ _ h (by simp [h]))

@[simp] theorem execAccountRead_memOk {s : State} (m : MCmd) (h : s.memOk = true) : endsMemOk (execAccountRead m s) := by
  unfold execAccountRead
  exact endsMemOk_next.2 (State.memOk_intake _ _ _ _ _ h (by simp [h]))

@[simp] theorem execPairLoadDone_memOk (r : LoadResult) {s : State} (h : s.memOk = true) : endsMemOk (execPairLoadDone r s) := by
  unfold execPairLoadDone
  split <;> simp [h]

@[simp] theorem execRefreshDone_memOk (model : Nat) (readable : Bool) {s : State} (h : s.memOk = true) :
    endsMemOk (execRefreshDone model readable s) := by
  unfold execRefreshDone
  simp only []
  repeat' split
  all_goals simp [h]

@[simp] theorem execSizeTableRead_memOk {s : State} (m : MCmd) (h : s.memOk = true) : endsMemOk (execSizeTableRead m s) := by
  unfold execSizeTableRead
  refine endsMemOk_next.2 (State.memOk_intake _ _ _ _ _ h (State.memOk_of_if.2 ⟨fun _ => by simp [h], fun _ => ?_⟩))
  split <;> simp [h]

@[simp] theorem execFogRead_memOk {s : State} (m : MCmd) (h : s.memOk = true) : endsMemOk (execFogRead m s) := by
  unfold execFogRead
  exact endsMemOk_next.2 (State.memOk_intake _ _ _ _ _ h (by simp [h]))

end Sys2Proof.Machine
end

section
namespace Sys2Proof.Machine
open Sys2Proof

@[simp] theorem execSampleTile_memOk (t : TileIx) (a : Fin 80) {s : State} (h : s.memOk = true) : endsMemOk (execSampleTile t a s) := by
  unfold execSampleTile
  split <;> simp [h]

@[simp] theorem execJoin_memOk {s : State} (m : MCmd) (h : s.memOk = true) : endsMemOk (execJoin m s) := by
  have hw := State.memOk_iff.1 h
  have refused : ∀ code bs, (s.complete m code bs).memOk = true := fun _ _ => by simp [h]
  have entered : ∀ (a b : Nat) (zs cs : List Byte) (v : State → ServePart) (bs : List Byte),
      (((s.setMem (Mem.writeN (Mem.writeN s.mem a zs) b cs)).setServe (v (s.setMem (Mem.writeN (Mem.writeN s.mem a zs) b cs)))).complete
        m codeOk bs).memOk = true := fun _ _ _ _ _ _ => by simp [hw]
  have placed : ∀ (o : Option (Nat × Nat)) (f : Nat → Nat → State), (∀ x y, (f x y).memOk = true) →
      (match o with | none => s.complete m codeCapacity [] | some (x, y) => f x y).memOk = true := by
    intro o f hf
    cases o with
    | none => exact refused _ _
    | some x => exact hf x.1 x.2
  have chosen : ∀ (o : Option Nat) (code : Nat) (f : Nat → State), (∀ x, (f x).memOk = true) →
      (match o with | none => s.complete m code [] | some x => f x).memOk = true := by
    intro o code f hf
    cases o with
    | none => exact refused _ _
    | some x => exact hf x
  unfold execJoin
  refine endsMemOk_next.2 (State.memOk_intake _ _ _ _ _ h ?_)
  obtain ⟨places, hplaces⟩ : ∃ f, s.placeTables = f := ⟨_, rfl⟩
  obtain ⟨blank, hblank⟩ : ∃ z, List.replicate 4096 (0 : Byte) = z := ⟨_, rfl⟩
  rw [hplaces, hblank]
  refine State.memOk_of_if.2 ⟨fun _ => refused _ _, fun _ => State.memOk_of_if.2 ⟨fun _ => refused _ _, fun _ => ?_⟩⟩
  refine State.memOk_of_if.2 ⟨fun _ => refused _ _, fun _ => State.memOk_of_if.2 ⟨fun _ => refused _ _, fun _ => ?_⟩⟩
  refine State.memOk_of_if.2 ⟨fun _ => refused _ _, fun _ => chosen _ _ _ fun i => ?_⟩
  refine State.memOk_of_if.2 ⟨fun _ => refused _ _, fun _ => State.memOk_of_if.2 ⟨fun _ => refused _ _, fun _ => ?_⟩⟩
  refine chosen _ _ _ fun g => placed _ _ fun _ _ => ?_
  exact entered _ _ _ _ (fun s => { s.serve with reqs := s.serve.reqs.set i _, order := s.serve.order + 1 }) _

theorem State.memOk_givePage {s u : State} {q q' : Req} (i : Nat) (c : ServingCfg) (h : s.memOk = true)
    (hu : s.givePage i q c = some (u, q')) : u.memOk = true := by
  unfold State.givePage at hu
  simp only [] at hu
  split at hu
  · cases hu
  · cases hu
    simp [h]

@[simp] theorem State.memOk_givePages {s : State} (fuel i : Nat) (q : Req) (c : ServingCfg) (n : Nat) (h : s.memOk = true) :
    (State.givePages fuel s i q c n).1.memOk = true := by
  induction fuel generalizing s q with
  | zero => exact h
  | succ fuel ih =>
    unfold State.givePages
    split
    · exact h
    split
    · exact h
    · exact ih _ (State.memOk_givePage i c h ‹_›)

@[simp] theorem State.memOk_writeRecords {s : State} (q : Req) (bs : List Byte) (h : s.memOk = true) :
    (s.writeRecords q bs).memOk = true := by
  unfold State.writeRecords
  simp [h]

@[simp] theorem State.memOk_movePath {s : State} (q : Req) (path : List Nat) (h : s.memOk = true) : (s.movePath q path).memOk = true := by
  unfold State.movePath
  split
  · refine (State.memOk_setMem _ _).2 ⟨Mem.wf_foldl _ (fun m x hm => ?_) (State.wf_mem h), State.wf_hostMem h⟩
    simp only []
    split
    · simp [hm]
    · exact hm
  · exact h

@[simp] theorem State.memOk_commitOut {s : State} (i : Nat) (q q' : Req) (bs : List Byte) (len : Nat) (h : s.memOk = true) :
    (s.commitOut i q q' bs len).memOk = true := by
  unfold State.commitOut
  simp [h]

@[simp] theorem State.memOk_commitPart {s : State} (x : StepPart) (ds : List Drawn) (h : s.memOk = true) :
    (s.commitPart x ds).memOk = true := by
  unfold State.commitPart
  split <;> simp [h]

@[simp] theorem State.memOk_trims {s : State} (g : Nat) (parts : List StepPart) (h : s.memOk = true) :
    (s.trims g parts).memOk = true := by
  unfold State.trims
  simp only []
  split <;> simp +contextual [h]

@[simp] theorem State.memOk_growth {s : State} (g : Nat) (c : ServingCfg) (h : s.memOk = true) : (s.growth g c).memOk = true := by
  refine State.memOk_foldl _ (fun u x hu => ?_) h
  simp only []
  split
  · exact hu
  split
  · exact hu
  · rw [State.memOk_setReq]
    exact State.memOk_givePages _ _ _ _ _ hu

@[simp] theorem State.memOk_joins {s : State} (g : Nat) (c : ServingCfg) (is : List Nat) (h : s.memOk = true) : (s.joins g c is).memOk = true := by
  induction is generalizing s with
  | nil => exact h
  | cons i is ih =>
    unfold State.joins
    split
    · exact ih h
    split
    · exact ih h
    simp only []
    split
    · exact h
    · exact ih (by simp [h])

@[simp] theorem State.memOk_commitParts {s : State} (parts : List StepPart) (ds : List Drawn) (skip : List Nat) (h : s.memOk = true) :
    (s.commitParts parts ds skip).memOk = true := by
  unfold State.commitParts
  simp +contextual [h]

@[simp] theorem State.memOk_growAndJoin {s : State} (g : Nat) (h : s.memOk = true) : (s.growAndJoin g).memOk = true := by
  unfold State.growAndJoin
  split <;> simp [h]

theorem State.memOk_adoptOne {s u : State} (n : Nat) (a : Adopted) (h : s.memOk = true) (hu : s.adoptOne n a = some u) : u.memOk = true := by
  have hw := State.memOk_iff.1 h
  unfold State.adoptOne at hu
  split at hu
  · simp only [] at hu
    split at hu
    · cases hu
    · obtain ⟨x, -, hx⟩ := Option.map_eq_some_iff.1 hu
      rw [← hx, State.memOk_setServe]
      exact (State.memOk_setMem _ _).2 ⟨Mem.wf_writeN _ _ _ (Mem.wf_writeN _ _ _ hw.1), hw.2⟩
  · cases hu

@[simp] theorem State.memOk_adopt {s : State} (h : s.memOk = true) : s.adopt.memOk = true := by
  unfold State.adopt
  simp only []
  split
  · exact h
  · refine State.memOk_foldl _ (fun u x hu => ?_) (by simp [h])
    cases hx : u.adoptOne x.2 x.1 with
    | none => simp [hu]
    | some t => exact State.memOk_adoptOne _ _ hu hx

@[simp] theorem execServingStepBoundary_memOk {s : State} (g : Fin 4) (pageFaults kvFailed treeReqs : List Nat) (trees : List (List Nat))
    (h : s.memOk = true) : endsMemOk (execServingStepBoundary g pageFaults kvFailed treeReqs trees s) := by
  have ended : ∀ (c : Bool) (u : State), u.memOk = true → (if c then u.endRollout else u).memOk = true := fun c u hu => by simp [hu]
  unfold execServingStepBoundary
  simp only []
  refine endsMemOk_of_if.2 ⟨fun _ => by simp [h], fun _ => endsMemOk_of_if.2 ⟨fun _ => by simp [h], fun _ => endsMemOk_next.2 ?_⟩⟩
  rw [State.memOk_setGroup, State.memOk_applyServeReplace]
  refine State.memOk_foldl _ (fun u x hu => by simp [hu]) ?_
  rw [State.memOk_dropDrawn]
  refine State.memOk_growAndJoin _ (State.memOk_adopt (State.memOk_trims _ _ (State.memOk_leaveAll ?_)))
  rw [State.memOk_sendCopies, State.memOk_mapLive]
  refine State.memOk_foldl _ (fun u x hu => by simp [hu]) ?_
  rw [State.memOk_mapLive]
  refine ended _ _ ?_
  rw [State.memOk_cancelsAndPauses, State.memOk_mapLive]
  have faulted : ∀ ps ks : List Nat, (ks.foldl (fun s i => s.kvFault g i) (ps.foldl State.pageFault s)).memOk = true := fun ps ks =>
    State.memOk_foldl _ (fun u x hu => by simp [hu]) (State.memOk_foldl _ (fun u x hu => by simp [hu]) h)
  exact State.memOk_of_if.2 ⟨fun _ => State.memOk_commitParts _ _ _ (faulted _ _), fun _ => faulted _ _⟩

end Sys2Proof.Machine
end

section
namespace Sys2Proof.Machine
open Sys2Proof

@[simp] theorem execRunStart_memOk {s : State} (m : MCmd) (lasts : List LastStep) (h : s.memOk = true) : endsMemOk (execRunStart m lasts s) := by
  unfold execRunStart
  refine endsMemOk_next.2 (State.memOk_intake _ _ _ _ _ h ?_)
  refine State.memOk_of_if.2 ⟨fun _ => by simp [h], fun _ => State.memOk_of_if.2 ⟨fun _ => by simp [h], fun _ => ?_⟩⟩
  refine State.memOk_of_if.2 ⟨fun _ => by simp [h], fun _ => ?_⟩
  split
  · simp [h]
  · refine State.memOk_of_if.2 ⟨fun _ => by simp [h], fun _ => State.memOk_of_if.2 ⟨fun _ => by simp [h], fun _ => ?_⟩⟩
    rw [State.memOk_complete]
    refine State.memOk_of_if.2 ⟨fun _ => ?_, fun _ => ?_⟩
    · rw [State.memOk_phaseStart, State.memOk_rejoinAt]
      split <;> simp [h]
    · rw [State.memOk_rejoinAt]
      split <;> simp [h]

@[simp] theorem execSnapRequest_memOk {s : State} (m : MCmd) (h : s.memOk = true) : endsMemOk (execSnapRequest m s) := by
  unfold execSnapRequest
  exact endsMemOk_next.2 (State.memOk_intake _ _ _ _ _ h (by simp [h]))

@[simp] theorem execDaymarkRead_memOk {s : State} (m : MCmd) (h : s.memOk = true) : endsMemOk (execDaymarkRead m s) := by
  unfold execDaymarkRead
  exact endsMemOk_next.2 (State.memOk_intake _ _ _ _ _ h (by simp [h]))

@[simp] theorem execFwActivate_memOk {s : State} (m : MCmd) (v : FwVerdict) (h : s.memOk = true) : endsMemOk (execFwActivate m v s) := by
  unfold execFwActivate
  exact endsMemOk_next.2 (State.memOk_intake _ _ _ _ _ h (by simp [h]))

@[simp] theorem execAccRead_memOk {s : State} (m : MCmd) (h : s.memOk = true) : endsMemOk (execAccRead m s) := by
  unfold execAccRead
  exact endsMemOk_next.2 (State.memOk_intake _ _ _ _ _ h (by simp [h]))

@[simp] theorem execHostRingPoll_memOk (snapshotRing : Bool) (cons : Nat) {s : State} (h : s.memOk = true) :
    endsMemOk (execHostRingPoll snapshotRing cons s) := by
  unfold execHostRingPoll
  simp [h]

@[simp] theorem State.memOk_loseJournal {s : State} (h : s.memOk = true) : s.loseJournal.memOk = true := by
  unfold State.loseJournal
  simp only []
  generalize hu : List.foldl (fun s f => State.post s f 0x0A 0 []) _ _ = u
  have hok : u.memOk = true := by
    rw [← hu]
    refine State.memOk_foldl _ (fun v f hv => by simp [hv]) (State.memOk_foldl _ (fun v x hv => by simp [hv]) (State.memOk_leaveAll ?_))
    simp [h]
  simp [hok]

@[simp] theorem execTurnStore_memOk {s : State} (t : TileIx) (p : Fin 2) (src : Src) (a : TurnArgs) (h : s.memOk = true) :
    endsMemOk (execTurnStore t p src a s) := by
  have stored : ∀ (x : TStream) ls, Mem.wf (x.store s.mem t ls) = true := fun x ls => by simp [TStream.store, State.memOk_iff.1 h]
  unfold execTurnStore
  simp only []
  refine endsMemOk_of_if.2 ⟨fun _ => by simp [h], fun _ => endsMemOk_of_if.2 ⟨fun _ => by simp [h], fun _ => ?_⟩⟩
  refine endsMemOk_of_if.2 ⟨fun _ => by simp [h], fun _ => endsMemOk_next.2 (State.memOk_readOr _ _ _ _ _ h ?_)⟩
  simp [h, stored]

theorem wf_storeRow {m : Mem} (t i : Nat) (ftz : Bool) (cs : List Chunk) (vs : List FVal) (h : Mem.wf m = true) :
    Mem.wf (storeRow m t i ftz cs vs).1 = true := by
  induction cs generalizing m vs with
  | nil => exact h
  | cons c cs ih => exact ih _ (Mem.wf_writeN _ _ _ (Mem.wf_writeN _ _ _ h))

theorem wf_storeRows {m : Mem} (t : Nat) (ftz : Bool) (cs : List Chunk) (rows : List (List FVal)) (h : Mem.wf m = true) :
    Mem.wf (storeRows m t ftz cs rows).1 = true := by
  unfold storeRows
  refine Mem.wf_foldl_fst _ (fun x r hx => ?_) h
  exact wf_storeRow _ _ _ _ _ hx

theorem wf_storeFP32 {m : Mem} (t a : Nat) (ftz : Bool) (vs : List FVal) (h : Mem.wf m = true) : Mem.wf (storeFP32 m t a ftz vs).1 = true :=
  Mem.wf_writeN _ _ _ h

theorem wf_storeGain {m : Mem} (t a norm : Nat) (ftz : Bool) (vs : List FVal) (h : Mem.wf m = true) :
    Mem.wf (storeGain m t a norm ftz vs).1 = true :=
  wf_storeFP32 _ _ _ _ (wf_storeFP32 _ _ _ _ h)

theorem State.memOk_rowDone {s : State} (t p : Nat) (a : RowArgs) (bwd : Bool) {r : Mem × NumStat} (h : s.memOk = true) (hr : Mem.wf r.1 = true) :
    (s.rowDone t p a bwd r).memOk = true := by
  unfold State.rowDone
  simp [h, hr]

theorem State.rowRun_memOk {s : State} (t : TileIx) (p : Fin 2) (src : Src) (a : RowArgs) (ok : Bool) {body : State} (h : s.memOk = true)
    (hb : body.memOk = true) : endsMemOk (s.rowRun t p src a ok body) := by
  unfold State.rowRun
  simp [h, hb]

@[simp] theorem execRms_memOk {s : State} (t : TileIx) (p : Fin 2) (src : Src) (a : RowArgs) (h : s.memOk = true) : endsMemOk (execRms t p src a s) :=
  State.rowRun_memOk _ _ _ _ _ h (State.memOk_rowDone _ _ _ _ h (wf_storeRows _ _ _ _ (State.wf_mem h)))

@[simp] theorem execLayer_memOk {s : State} (t : TileIx) (p : Fin 2) (src : Src) (a : RowArgs) (h : s.memOk = true) :
    endsMemOk (execLayer t p src a s) :=
  State.rowRun_memOk _ _ _ _ _ h (State.memOk_rowDone _ _ _ _ h (wf_storeRows _ _ _ _ (State.wf_mem h)))

@[simp] theorem execRmsBwd_memOk {s : State} (t : TileIx) (p : Fin 2) (src : Src) (a : RowArgs) (h : s.memOk = true) :
    endsMemOk (execRmsBwd t p src a s) :=
  State.rowRun_memOk _ _ _ _ _ h (State.memOk_rowDone _ _ _ _ h (wf_storeGain _ _ _ _ _ (wf_storeRows _ _ _ _ (State.wf_mem h))))

@[simp] theorem execLayerBwd_memOk {s : State} (t : TileIx) (p : Fin 2) (src : Src) (a : RowArgs) (h : s.memOk = true) :
    endsMemOk (execLayerBwd t p src a s) :=
  State.rowRun_memOk _ _ _ _ _ h
    (State.memOk_rowDone _ _ _ _ h (wf_storeGain _ _ _ _ _ (wf_storeGain _ _ _ _ _ (wf_storeRows _ _ _ _ (State.wf_mem h)))))

@[simp] theorem execSmaxStat_memOk {s : State} (t : TileIx) (p : Fin 2) (src : Src) (a : RowArgs) (h : s.memOk = true) :
    endsMemOk (execSmaxStat t p src a s) :=
  State.rowRun_memOk _ _ _ _ _ h (State.memOk_rowDone _ _ _ _ h (wf_storeFP32 _ _ _ _ (State.wf_mem h)))

@[simp] theorem execSmax_memOk {s : State} (t : TileIx) (p : Fin 2) (src : Src) (a : RowArgs) (h : s.memOk = true) : endsMemOk (execSmax t p src a s) :=
  State.rowRun_memOk _ _ _ _ _ h (State.memOk_rowDone _ _ _ _ h (wf_storeRows _ _ _ _ (State.wf_mem h)))

@[simp] theorem execSmaxBwd_memOk {s : State} (t : TileIx) (p : Fin 2) (src : Src) (a : RowArgs) (h : s.memOk = true) :
    endsMemOk (execSmaxBwd t p src a s) :=
  State.rowRun_memOk _ _ _ _ _ h (State.memOk_rowDone _ _ _ _ h (wf_storeRows _ _ _ _ (State.wf_mem h)))

@[simp] theorem execDot_memOk {s : State} (t : TileIx) (p : Fin 2) (src : Src) (a : RowArgs) (h : s.memOk = true) : endsMemOk (execDot t p src a s) :=
  State.rowRun_memOk _ _ _ _ _ h (State.memOk_rowDone _ _ _ _ h (wf_storeFP32 _ _ _ _ (State.wf_mem h)))

@[simp] theorem execMerge_memOk {s : State} (t : TileIx) (p : Fin 2) (src : Src) (a : RowArgs) (h : s.memOk = true) :
    endsMemOk (execMerge t p src a s) :=
  State.rowRun_memOk _ _ _ _ _ h (State.memOk_rowDone _ _ _ _ h (wf_storeFP32 _ _ _ _ (State.wf_mem h)))

end Sys2Proof.Machine
end

section
namespace Sys2Proof.Machine
open Sys2Proof

theorem exec_memOk {s : State} (i : Instr) (hi : Instr.reopens i = false) (hs : s.memOk = true) : endsMemOk (exec i s) := by
  by_cases hm : .mem ∈ i.touches ∨ .hostMem ∈ i.touches
  · cases i with
    | keeperRestartComplete _ _ => cases hi
    | healthRead m => exact execHealthRead_memOk m hs
    | accountRead m => exact execAccountRead_memOk m hs
    | pairLoadDone r => exact execPairLoadDone_memOk r hs
    | runStart m lasts => exact execRunStart_memOk m lasts hs
    | snapRequest m => exact execSnapRequest_memOk m hs
    | snapshotComplete readFailed => exact execSnapshotComplete_memOk readFailed hs
    | join m => exact execJoin_memOk m hs
    | memTransferDone fn seq data refused => exact execMemTransferDone_memOk fn seq data refused hs
    | sizeTableRead m => exact execSizeTableRead_memOk m hs
    | fogRead m => exact execFogRead_memOk m hs
    | daymarkRead m => exact execDaymarkRead_memOk m hs
    | fwActivate m v => exact execFwActivate_memOk m v hs
    | accRead m => exact execAccRead_memOk m hs
    | pwrHotreset fn value boot => exact execPwrHotreset_memOk fn value boot hs
    | leaseWaitRelease t a mism => exact execLeaseWaitRelease_memOk t a mism hs
    | tileReplay t a slot twinMism origMism => exact execTileReplay_memOk t a slot twinMism origMism hs
    | drain t g src ws ext sideFailed => exact execDrain_memOk t g src ws ext sideFailed hs
    | teacherTile t a => exact execTeacherTile_memOk t a hs
    | recordForward pos src dst pairs slotWord => exact execRecordForward_memOk pos src dst pairs slotWord hs
    | studentNormTile t a => exact execStudentNormTile_memOk t a hs
    | studentGradTile t a => exact execStudentGradTile_memOk t a hs
    | sampleTile t a => exact execSampleTile_memOk t a hs
    | chain t e src ws failed => exact execChain_memOk t e src ws failed hs
    | update t e src ws => exact execUpdate_memOk t e src ws hs
    | saveDrain t p src ws => exact execSaveDrain_memOk t p src ws hs
    | saveSpad t p src ws => exact execSaveSpad_memOk t p src ws hs
    | expand t p src ws => exact execExpand_memOk t p src ws hs
    | turnStore t p src a => exact execTurnStore_memOk t p src a hs
    | rms t p src a => exact execRms_memOk t p src a hs
    | layer t p src a => exact execLayer_memOk t p src a hs
    | rmsBwd t p src a => exact execRmsBwd_memOk t p src a hs
    | layerBwd t p src a => exact execLayerBwd_memOk t p src a hs
    | smaxStat t p src a => exact execSmaxStat_memOk t p src a hs
    | smax t p src a => exact execSmax_memOk t p src a hs
    | smaxBwd t p src a => exact execSmaxBwd_memOk t p src a hs
    | dot t p src a => exact execDot_memOk t p src a hs
    | merge t p src a => exact execMerge_memOk t p src a hs
    | copy t e src ws remote => exact execCopy_memOk t e src ws remote hs
    | fill t e src ws => exact execFill_memOk t e src ws hs
    | collectiveStep src op => exact execCollectiveStep_memOk src op hs
    | contributionArrival shard module step vals ovf => exact execContributionArrival_memOk shard module step vals ovf hs
    | lateLimitExpiry shard => exact execLateLimitExpiry_memOk shard hs
    | goRx step k lscale clean => exact execGoRx_memOk step k lscale clean hs
    | skipRx step lscale clean => exact execSkipRx_memOk step lscale clean hs
    | commitMarkRx step lscale clean => exact execCommitMarkRx_memOk step lscale clean hs
    | abortRx step failed => exact execAbortRx_memOk step failed hs
    | commitWaitExpiry module => exact execCommitWaitExpiry_memOk module hs
    | servingStepBoundary g pageFaults kvFailed treeReqs trees => exact execServingStepBoundary_memOk g pageFaults kvFailed treeReqs trees hs
    | persistentFailureRecovery addr data sourceFailed => exact execPersistentFailureRecovery_memOk addr data sourceFailed hs
    | powerLoss => exact execPowerLoss_memOk hs
    | hubOvertemp => exact execHubOvertemp_memOk hs
    | moduleResetRelease => exact execModuleResetRelease_memOk hs
    | hostReset millivolts boot => exact execHostReset_memOk millivolts boot hs
    | tileReset t => exact execTileReset_memOk t hs
    | hostRingPoll snapshotRing cons => exact execHostRingPoll_memOk snapshotRing cons hs
    | cxlmemAccess write offset data => exact execCxlmemAccess_memOk write offset data hs
    | refreshDone model readable => exact execRefreshDone_memOk model readable hs
    | stepReportRx module step words => exact execStepReportRx_memOk module step words hs
    | _ => exact absurd hm (of_decide_eq_true rfl)
  · obtain ⟨hmem, hhost⟩ := not_or.1 hm
    intro t ht
    have kept := State.onlyChanges_of_exec i ht
    rw [State.memOk, kept .mem hmem, kept .hostMem hhost]
    exact hs

/-! ### The restart of the Keeper completes -/

@[simp] theorem State.memOk_keeperWork {s : State} (i : Instr) (hs : s.memOk = true) : (s.keeperWork i).memOk = true := by
  obtain h | ⟨hi, h⟩ := s.keeperWork_eq i <;> rw [h]
  · exact hs
  · exact State.memOk_after hs (exec_memOk i hi hs)

@[simp] theorem State.memOk_takeLatched {s : State} (i : Instr) (hs : s.memOk = true) : (s.takeLatched i).memOk = true := by
  obtain h | ⟨hi, h⟩ := s.takeLatched_eq i <;> rw [h]
  · exact hs
  · exact State.memOk_after hs (exec_memOk i hi hs)

@[simp] theorem State.memOk_openLatched {s : State} (f : Nat) (hs : s.memOk = true) : (s.openLatched f).memOk = true := by
  unfold State.openLatched
  simp only []
  split
  · exact hs
  split
  · exact hs
  · exact State.memOk_takeLatched _ (by simp [hs])

@[simp] theorem State.memOk_readJournal {s : State} (hs : s.memOk = true) : s.readJournal.memOk = true := by
  unfold State.readJournal
  refine State.memOk_foldl _ (fun _ i hu => State.memOk_keeperWork i hu) (State.memOk_foldl _ (fun u e hu => ?_) ?_)
  · simp [hu]
  · simp [hs]

@[simp] theorem State.memOk_releaseHeld (n f : Nat) (s : State) : (State.releaseHeld n f s).memOk = s.memOk := State.memOk_eq (by simp)

@[simp] theorem State.memOk_reopen {s : State} (why : Restart) (failed : Bool) (hs : s.memOk = true) : (s.reopen why failed).memOk = true := by
  have noted : ∀ (u : State) (n : Nat), u.memOk = true →
      (if failed then (if why = .memError then u.setKprCause 3 else u).healthEvent 0x131 0xFF n 0 0
        else if why = .memError then u.setKprCause 3 else u).memOk = true := fun u n hu => by simp [hu]
  unfold State.reopen
  simp only []
  rw [State.memOk_stopHeld, State.memOk_raiseCounter]
  refine State.memOk_foldl _ (fun u f hu => by simp [hu]) (noted _ _ ?_)
  refine State.memOk_foldl _ (fun u f hu => State.memOk_openLatched f hu) (State.memOk_foldl _ (fun u f hu => ?_) ?_)
  · simp [hu]
  · simp [hs]

theorem execKeeperRestartComplete_memOk {s : State} (c0 c1 : Bool) (hs : s.memOk = true) : endsMemOk (execKeeperRestartComplete c0 c1 s) := by
  unfold execKeeperRestartComplete
  refine endsMemOk_next.2 ?_
  split
  · exact hs
  simp only []
  split
  · exact hs
  refine State.memOk_reopen _ _ ?_
  split
  · exact State.memOk_readJournal (by simp [hs])
  · exact State.memOk_loseJournal (by simp [hs])

/-- Settles O4: every operation of the model stores through Mem.writeN, Mem.place or Mem.writeLines, or takes a range out, and each of
these keeps the canonical form. -/
theorem stepsKeepMemoryCanonical : Obligations.StepsKeepMemoryCanonical := by
  unfold Obligations.StepsKeepMemoryCanonical
  intro s t hs h
  unfold step at h
  split at h
  · cases h
    exact (State.memOk_tick s).trans hs
  · rename_i i rest _
    have hrest : (s.setPending rest).memOk = true := hs
    cases hi : Instr.reopens i with
    | false => exact exec_memOk i hi hrest t h
    | true =>
      cases i with
      | keeperRestartComplete c0 c1 => exact execKeeperRestartComplete_memOk c0 c1 hrest t h
      | _ => cases hi

end Sys2Proof.Machine
end

/-! # O1 to O3: a step, the idle step, and the state after reset -/

section
namespace Sys2Proof.Machine
open Sys2Proof

/-- Settles O1. -/
theorem stepRunsTheFrontCommand : Obligations.StepRunsTheFrontCommand := by
  unfold Obligations.StepRunsTheFrontCommand
  intro c s rest h
  rw [step, h]

/-! ### Stopwatches -/

@[simp] theorem State.watch_advance_same (s : State) (u n : Nat) : (s.advance u n).watch u = s.watch u + n :=
  Tab.get_set_same _ _ _ _

theorem State.watch_advance_other (s : State) {u v : Nat} (n : Nat) (h : v ≠ u) : (s.advance u n).watch v = s.watch v :=
  Tab.get_set_other _ _ _ h

@[simp] theorem State.watch_second (s : State) (u : Nat) : s.second.watch u = s.watch u := by
  unfold State.second State.watch
  split <;> rfl

/-- Each stopwatch of a list without repeats advances once. -/
theorem State.watch_advances (l : List Nat) (hl : l.Nodup) (u : Nat) : ∀ s : State,
    (l.foldl (fun s t => s.advance t 1) s).watch u = s.watch u + b2n (decide (u ∈ l)) := by
  induction l with
  | nil => intro s; simp [b2n]
  | cons v l ih =>
    intro s
    obtain ⟨hv, hl⟩ := List.nodup_cons.1 hl
    rw [List.foldl_cons, ih hl]
    by_cases h : u = v
    · subst h
      simp [hv, b2n]
    · rw [State.watch_advance_other _ _ h]
      simp [h]

theorem State.watch_tick (s : State) (u : Nat) : s.tick.watch u = s.watch u + b2n (decide (u = 4) && s.pwr.hubLit) +
    b2n (decide (u ∈ (List.range 4).filter (fun t => (s.tilePwr t).lit))) := by
  have hub : (if s.pwr.hubLit then (s.advance 4 1).second else s).watch u = s.watch u + b2n (decide (u = 4) && s.pwr.hubLit) := by
    by_cases hu : u = 4
    · subst hu
      cases s.pwr.hubLit <;> simp [b2n]
    · cases s.pwr.hubLit <;> simp [hu, b2n, State.watch_advance_other _ _ hu]
  unfold State.tick
  rw [State.watch_advances _ (List.nodup_range.filter _), hub]

/-- Settles O2. -/
theorem idleStepAdvancesStopwatches : Obligations.IdleStepAdvancesStopwatches := by
  unfold Obligations.IdleStepAdvancesStopwatches
  intro s h
  refine ⟨s.tick, by rw [step, h], fun u hu => ?_, ?_, by simp⟩
  · rw [State.watch_tick]
    have h4 : u ≠ 4 := by omega
    simp [hu, h4, b2n]
  · rw [State.watch_tick]
    simp [b2n]

end Sys2Proof.Machine
end

section
namespace Sys2Proof.Machine
open Sys2Proof

/-! ### Registers right after reset, each group evaluated at its addresses -/

theorem readBar0_reset_mailbox : ∀ f : Fn, ∀ o < 7, State.reset.readBar0 f (0x100000 + f * 0x4000 + 4 * o) = 0 := by decide +kernel

theorem readBar2_reset_drain : ∀ t : TileIx, ∀ i < 84 * 4, State.reset.readBar2 (0x400000 + t * 0x10000 + 4 * i) = 0 := by decide +kernel

theorem readBar2_reset_target : ∀ t : TileIx, State.reset.readBar2 (0x400A00 + t * 0x10000) = 0 ∧
    State.reset.readBar2 (0x500000 + t * 0x10000) = 0x3F800000 ∧ State.reset.readBar2 (0x500010 + t * 0x10000) = 0x500 ∧
    State.reset.readBar2 (0x50001C + t * 0x10000) = 0x40 ∧ State.reset.readBar2 (0x500040 + t * 0x10000) = 0x47800000 ∧
    State.reset.readBar2 (0x500080 + t * 0x10000) = 0 ∧ State.reset.readBar2 (0x500084 + t * 0x10000) = 0x200000 := by decide +kernel

theorem readBar2_reset_vector : ∀ t : TileIx, ∀ i < 128, State.reset.readBar2 (0x600000 + t * 0x10000 + 4 * i) = 0 := by decide +kernel

theorem readBar2_reset_arbiter : ∀ n : Fin 43, State.reset.readBar2 (0x700000 + n * 0x1000) = 0x40 ∧
    ∀ i < 48, State.reset.readBar2 (0x700100 + n * 0x1000 + 4 * i) = 0 := by decide +kernel

theorem readBar2_reset_sched : ∀ f : Fn, State.reset.readBar2 (0x800000 + f * 0x10) = 0x7D0 ∧
    State.reset.readBar2 (0x800004 + f * 0x10) = 0 ∧ State.reset.readBar2 (0x800008 + f * 0x10) = 0 := by decide +kernel

theorem readBar2_reset_power : ∀ t : TileIx, State.reset.readBar2 (0x900010 + 4 * t) = 0x0F000000 := by decide +kernel

theorem phys_reset : ∀ (t : TileIx) (a : Fin 80), State.reset.phys t a = a := by decide +kernel

/-- Settles O3. -/
theorem theStateAfterReset : Obligations.TheStateAfterReset := by
  unfold Obligations.TheStateAfterReset
  refine ⟨rfl, rfl, rfl, rfl, rfl, rfl, rfl, rfl, fun _ => ⟨rfl, rfl⟩, fun _ => ⟨rfl, rfl⟩, fun _ => ⟨rfl, rfl⟩,
    fun _ => ⟨rfl, rfl, rfl, rfl⟩, phys_reset, by decide +kernel, by decide +kernel, by decide +kernel, by decide +kernel,
    readBar0_reset_mailbox, fun t => ?_, readBar2_reset_arbiter, readBar2_reset_sched⟩
  obtain ⟨hcust, htau, hmode, hring, hscale, hstat, hcount⟩ := readBar2_reset_target t
  exact ⟨readBar2_reset_power t, readBar2_reset_drain t, hcust, htau, hmode, hring, hscale, hstat, hcount, readBar2_reset_vector t⟩

end Sys2Proof.Machine
end

/-! # O45: requests leave at the serving step boundary -/

section
namespace Sys2Proof.Machine
open Sys2Proof

/-- The request at index i, if there is one, has property P. -/
def State.reqSat (s : State) (i : Nat) (P : Req → Prop) : Prop := ∀ x, s.req? i = some x → P x

theorem Tab.find?_map {α β : Type} (t : Tab α) (f : Nat → α → β) (k : Nat) :
    Tab.find? (List.map (fun e : Nat × α => (e.1, f e.1 e.2)) t) k = (t.find? k).map (f k) := by
  induction t with
  | nil => rfl
  | cons e t ih =>
    rw [List.map_cons, Tab.find?, Tab.find?]
    by_cases h : k = e.1
    · simp [h]
    · simp [h, ih]

theorem Tab.mem_of_find? {α : Type} {t : Tab α} {k : Nat} {v : α} (h : t.find? k = some v) : (k, v) ∈ t := by
  induction t with
  | nil => cases h
  | cons e t ih =>
    rw [Tab.find?] at h
    by_cases hk : k = e.1
    · rw [if_pos hk] at h
      cases h
      exact List.mem_cons.2 (.inl (by rw [hk]))
    · rw [if_neg hk] at h
      exact List.mem_cons_of_mem _ (ih h)

theorem Tab.find?_of_mem {α : Type} {t : Tab α} {e : Nat × α} (h : e ∈ t) : t.find? e.1 ≠ none := by
  induction t with
  | nil => cases h
  | cons d t ih =>
    rw [Tab.find?]
    by_cases hk : e.1 = d.1
    · simp [hk]
    · rw [if_neg hk]
      obtain hd | hd := List.mem_cons.1 h
      · exact absurd (congrArg Prod.fst hd) hk
      · exact ih hd

section
variable {s t : State} {i k : Nat} {P Q : Req → Prop}

theorem State.req?_of_only (h : s.onlyChanges t (Part.but .serve)) (i : Nat) : t.req? i = s.req? i := by
  have hserve : t.serve = s.serve := State.same_of_but h
  rw [State.req?, hserve, State.req?]

theorem State.reqSat_of_eq (h : t.req? i = s.req? i) (hs : s.reqSat i P) : t.reqSat i P := fun x hx => hs x (h ▸ hx)

theorem State.reqSat_of_only (h : s.onlyChanges t (Part.but .serve)) (hs : s.reqSat i P) : t.reqSat i P :=
  State.reqSat_of_eq (State.req?_of_only h i) hs

theorem State.reqSat_mono (h : ∀ q, P q → Q q) (hs : s.reqSat i P) : s.reqSat i Q := fun x hx => h x (hs x hx)

@[simp] theorem State.req?_setReq_same (s : State) (i : Nat) (q : Req) : (s.setReq i q).req? i = some q := Tab.find?_set_same _ _ _

theorem State.req?_setReq_other (s : State) {i j : Nat} (q : Req) (h : i ≠ j) : (s.setReq j q).req? i = s.req? i :=
  Tab.find?_set_other _ _ h

theorem State.reqSat_setReq (j : Nat) (q : Req) (hs : s.reqSat i P) (hq : j = i → P q) : (s.setReq j q).reqSat i P := by
  intro x hx
  by_cases h : i = j
  · subst h
    rw [State.req?_setReq_same] at hx
    cases hx
    exact hq rfl
  · rw [State.req?_setReq_other _ _ h] at hx
    exact hs x hx

/-- Every request changed by a function of its index and itself. -/
theorem State.reqSat_map {f : Nat → Req → Req} (ht : t.serve.reqs = List.map (fun e : Nat × Req => (e.1, f e.1 e.2)) s.serve.reqs)
    (hs : s.reqSat i P) (hf : ∀ q, P q → Q (f i q)) : t.reqSat i Q := by
  intro x hx
  rw [State.req?, ht, Tab.find?_map] at hx
  obtain ⟨q, hq, rfl⟩ := Option.map_eq_some_iff.1 hx
  exact hf q (hs q hq)

theorem State.reqSat_foldl {α : Type} {f : State → α → State} (l : List α) (h : ∀ s, ∀ x ∈ l, s.reqSat i P → (f s x).reqSat i P)
    (hs : s.reqSat i P) : (l.foldl f s).reqSat i P := by
  induction l generalizing s with
  | nil => exact hs
  | cons x l ih =>
    exact ih (fun s y hy => h s y (List.mem_cons_of_mem x hy)) (h s x List.mem_cons_self hs)

theorem State.reqSat_of_if {c : Prop} [Decidable c] (hs : c → s.reqSat i P) (ht : ¬c → t.reqSat i P) :
    (if c then s else t).reqSat i P := by
  split
  · exact hs ‹_›
  · exact ht ‹_›

/-! ### What each part of the boundary does to a request -/

/-- A request of group g that the boundary is to end. -/
def Req.ending (g : Nat) (q : Req) : Prop := q.group = g ∧ (q.status.terminal = true ∨ q.flr = true ∨ q.doomed = true)

/-- A request of group g that the boundary is to end, or whose deadline has passed. -/
def Req.due (g : Nat) (q : Req) : Prop := q.group = g ∧ (q.status.terminal = true ∨ q.expired = true ∨ q.flr = true ∨ q.doomed = true)

theorem State.reqSat_kvFault (g j : Nat) (hP : ∀ q : Req, P q → P { q with held := true, rebuild := q.len, done := 0 }) (hs : s.reqSat i P) :
    (s.kvFault g j).reqSat i P := by
  unfold State.kvFault
  split
  · refine State.reqSat_of_if (fun _ => State.reqSat_setReq _ _ hs fun h => ?_) (fun _ => hs)
    subst h
    exact hP _ (hs _ ‹_›)
  · exact hs

theorem State.reqSat_mapLive (g : Nat) (f : Nat → Req → Req) (hs : s.reqSat i P)
    (hlive : ∀ q, P q → q.group = g → q.status.terminal = false → Q (f i q))
    (hrest : ∀ q, P q → (q.group = g → q.status.terminal = true) → Q q) : (s.mapLive g f).reqSat i Q := by
  refine State.reqSat_map (f := fun i q => if q.group == g && !q.status.terminal then f i q else q) rfl hs fun q hq => ?_
  split
  · rename_i h
    simp only [Bool.and_eq_true, beq_iff_eq, Bool.not_eq_true'] at h
    exact hlive q hq h.1 h.2
  · rename_i h
    exact hrest q hq fun hg => by simpa [hg] using h

theorem State.reqSat_applyOps (j : Nat) (os : List ReqOp) (hP : ∀ q : Req, P q → ∀ c, P { q with cancel := c })
    (hpaused : ∀ q : Req, P q → P { q with status := .paused }) (hcancelled : ∀ q : Req, P q → ∀ c, P { q with status := .cancelled, cancel := c })
    (hs : s.reqSat i P) : (s.applyOps j os).reqSat i P := by
  induction os generalizing s with
  | nil => exact hs
  | cons o os ih =>
    have done : ∀ (u : State) code, u.reqSat i P → (u.reqOpDone o code).reqSat i P := fun u code hu =>
      State.reqSat_of_only (by simp) hu
    refine ih ?_
    split
    · exact hs
    rename_i q hq
    have hPq : j = i → P q := fun h => hs q (h ▸ hq)
    refine State.reqSat_of_if (fun _ => State.reqSat_of_if (fun _ => done _ _ hs) fun _ => done _ _ ?_) fun _ => done _ _ ?_
    · exact State.reqSat_setReq _ _ hs fun h => hpaused q (hPq h)
    · refine State.reqSat_setReq _ _ hs fun h => ?_
      split
      · split
        · exact hP q (hPq h) _
        · exact hPq h
      · exact hcancelled q (hPq h) _

theorem State.reqSat_cancelsAndPauses (g : Nat) (hs : s.reqSat i (Req.ending k)) : (s.cancelsAndPauses g).reqSat i (Req.ending k) := by
  have ops : ((s.reqsOf g).foldl (fun s e => s.applyOps e.1 e.2.ops) s).reqSat i (Req.ending k) := by
    refine State.reqSat_foldl _ (fun u e _ hu => State.reqSat_applyOps _ _ ?_ ?_ ?_ hu) hs
    · exact fun q hq _ => hq
    · exact fun q hq => ⟨hq.1, .inl rfl⟩
    · exact fun q hq _ => ⟨hq.1, .inl rfl⟩
  refine State.reqSat_map (f := fun _ q => if q.group == g then { q with ops := [] } else q) rfl ops fun q hq => ?_
  split <;> exact hq

@[simp] theorem State.serve_phaseStop (s : State) (p : Phase) : (s.phaseStop p).serve = s.serve := State.same_of_but (p := .serve) (by simp)

@[simp] theorem State.serve_phaseStart (s : State) (p : Phase) : (s.phaseStart p).serve = s.serve := State.same_of_but (p := .serve) (by simp)

theorem State.foldl_keeps {α β : Type} (φ : State → β) {f : State → α → State} (h : ∀ s x, φ (f s x) = φ s) (l : List α) :
    ∀ s, φ (l.foldl f s) = φ s := by
  induction l with
  | nil => exact fun _ => rfl
  | cons x l ih => exact fun s => (ih (f s x)).trans (h s x)

@[simp] theorem State.reqs_startRollouts (s : State) : s.startRollouts.serve.reqs = s.serve.reqs :=
  State.foldl_keeps (fun s => s.serve.reqs) (fun s t => by simp [State.startRollout]) _ s

/-- What the end of a rollout phase does to each request. -/
def Req.rolledOver (q : Req) : Req :=
  if q.learn then { q with beforeClose := true } else if q.status.terminal then q else { q with status := ReqStatus.paused }

theorem State.reqs_endRollout (s : State) : s.endRollout.serve.reqs = List.map (fun e => (e.1, e.2.rolledOver)) s.serve.reqs := by
  unfold State.endRollout
  simp only []
  split
  · split <;> simp [Req.rolledOver]
  · simp [Req.rolledOver]

theorem State.reqSat_endRollout (hs : s.reqSat i (Req.ending k)) : s.endRollout.reqSat i (Req.ending k) := by
  refine State.reqSat_map (f := fun _ q => q.rolledOver) s.reqs_endRollout hs fun q hq => ?_
  unfold Req.rolledOver
  split
  · exact hq
  split
  · exact hq
  · exact ⟨hq.1, .inl rfl⟩

/-- A request that has ended. -/
def Req.ended (q : Req) : Prop := q.status.terminal = true

theorem State.reqSat_chargeCust (parts : List StepPart) (c : Nat) (hs : s.reqSat i Req.ended) : (s.chargeCust parts c).reqSat i Req.ended := by
  have charged : ∀ (u : State) (l : List StepPart), u.reqSat i Req.ended → (l.foldl (fun s x => match s.req? x.req with
      | some q => s.setReq x.req { q with charged := q.charged + x.positions }
      | none => s) u).reqSat i Req.ended := by
    refine fun u l hu => State.reqSat_foldl _ (fun v x _ hv => ?_) hu
    split
    · rename_i q hq
      exact State.reqSat_setReq _ _ hv fun h => (hv q (h ▸ hq) : q.status.terminal = true)
    · exact hv
  have posted : ∀ (u : State) (b : Bool) (d : List Byte) (v : Option Fn), u.reqSat i Req.ended → (match b, v with
      | true, some f => u.post f.val 0x0B 0 d
      | _, _ => u).reqSat i Req.ended := by
    intro u b d v hu
    split
    · exact State.reqSat_of_only (by simp) hu
    · exact hu
  unfold State.chargeCust
  refine posted _ _ _ _ ?_
  refine State.reqSat_map (f := fun _ q => if q.cust == c && !q.status.terminal then deferReq _ q else q) rfl (charged _ _ hs) fun q hq => ?_
  simpa [show q.status.terminal = true from hq] using hq

end
end Sys2Proof.Machine
end

section
namespace Sys2Proof.Machine
open Sys2Proof
section
variable {s t : State} {i k : Nat} {P Q : Req → Prop}

/-! ### Requests leave -/

@[simp] theorem State.reqs_trimPages (s : State) (q : Req) (n : Nat) : (s.trimPages q n).1.serve.reqs = s.serve.reqs := by
  unfold State.trimPages
  split <;> rfl

theorem State.reqs_leave (s : State) (j : Nat) (q : Req) : (s.leave j q).serve.reqs = s.serve.reqs.del j := by
  unfold State.leave
  simp only []
  split <;> simp

@[simp] theorem State.reqs_cutSteps (s : State) (w : GroupSt → Bool) (gone : List Nat) : (s.cutSteps w gone).serve.reqs = s.serve.reqs := by
  unfold State.cutSteps
  rw [State.foldl_keeps (fun s => s.serve.reqs) (f := State.keysSettle)
    (fun s t => congrArg ServePart.reqs (State.same_of_but (p := .serve) (by simp)))]
  rw [State.setServe_serve]

theorem State.req?_leaves (l : List (Nat × Req)) : ∀ s : State, i ∈ l.map (·.1) ∨ s.req? i = none →
    (l.foldl (fun s e => s.leave e.1 e.2) s).req? i = none := by
  induction l with
  | nil => intro s h; simpa using h
  | cons e l ih =>
    intro s h
    refine ih _ ?_
    rw [State.req?, State.reqs_leave]
    by_cases hi : i = e.1
    · exact .inr (hi ▸ Tab.find?_del_same _ _)
    · rw [Tab.find?_del_other _ hi]
      simpa [hi, State.req?] using h

/-- A request that has ended leaves its table. -/
theorem State.req?_leaveAll (hs : s.reqSat i Req.ended) : s.leaveAll.1.req? i = none := by
  unfold State.leaveAll
  simp only []
  rw [State.req?, State.reqs_cutSteps]
  refine State.req?_leaves _ s ?_
  cases h : s.req? i with
  | none => exact .inr rfl
  | some q => exact .inl (List.mem_map.2 ⟨(i, q), List.mem_filter.2 ⟨Tab.mem_of_find? h, hs q h⟩, rfl⟩)

/-- Index i holds no request, or one adopted while there was something to adopt. -/
def State.onlyAdopted (s : State) (i : Nat) (c : Prop) : Prop := s.reqSat i (fun q => c ∧ q.tree = true)

theorem State.onlyAdopted_of_none (c : Prop) (h : s.req? i = none) : s.onlyAdopted i c := fun x hx => by rw [h] at hx; cases hx

theorem State.req?_trims (g : Nat) (parts : List StepPart) (h : s.req? i = none) : (s.trims g parts).req? i = none := by
  have trimmed : ∀ (u : State) (q q' : Req) (j n : Nat), i ≠ j → ((u.trimPages q n).1.setReq j q').req? i = u.req? i := by
    intro u q q' j n hij
    rw [State.req?_setReq_other _ _ hij, State.req?, State.reqs_trimPages, State.req?]
  unfold State.trims
  split
  · exact h
  · have other : ∀ e ∈ s.reqsOf g, i ≠ e.1 := fun e he hi => Tab.find?_of_mem (List.mem_filter.1 he).1 (hi ▸ h)
    refine List.foldlRecOn (motive := fun u : State => u.req? i = none) _ _ h fun u hu e he => ?_
    simp only []
    split
    · exact (trimmed _ _ _ _ _ (other e he)).trans hu
    split
    · exact (trimmed _ _ _ _ _ (other e he)).trans hu
    · exact hu

/-! ### Requests are adopted, grow and join -/

theorem State.onlyAdopted_adoptOne {u : State} {c : Prop} (n : Nat) (a : Adopted) (hc : c) (hs : s.onlyAdopted i c)
    (hu : s.adoptOne n a = some u) : u.onlyAdopted i c := by
  unfold State.adoptOne at hu
  split at hu
  · simp only [] at hu
    split at hu
    · cases hu
    · obtain ⟨x, -, hx⟩ := Option.map_eq_some_iff.1 hu
      rw [← hx]
      exact State.reqSat_setReq (s := s.setMem _) _ _ hs fun _ => ⟨hc, rfl⟩
  · cases hu

theorem State.onlyAdopted_adopt (h : s.req? i = none) : s.adopt.onlyAdopted i (s.toAdopt ≠ []) := by
  unfold State.adopt
  simp only []
  split
  · exact State.onlyAdopted_of_none _ h
  · rename_i hne
    have hc : s.toAdopt ≠ [] := by simpa using hne
    refine State.reqSat_foldl _ (fun u x _ hu => ?_) ?_
    · cases hx : u.adoptOne x.2 x.1 with
      | none => exact State.reqSat_of_eq rfl hu
      | some v => exact State.onlyAdopted_adoptOne _ _ hc hu hx
    · refine State.reqSat_map (f := fun _ q => { q with order := q.order + s.toAdopt.length }) rfl
        (State.onlyAdopted_of_none (s.toAdopt ≠ []) h) fun q hq => ?_
      exact hq

theorem State.givePage_keeps {u : State} {q q' : Req} (j : Nat) (c : ServingCfg) (h : s.givePage j q c = some (u, q')) :
    u.serve.reqs = s.serve.reqs ∧ q'.tree = q.tree := by
  unfold State.givePage at h
  simp only [] at h
  split at h
  · cases h
  · cases h
    exact ⟨rfl, rfl⟩

theorem State.givePages_keeps (fuel j : Nat) (c : ServingCfg) (n : Nat) : ∀ (s : State) (q : Req),
    (State.givePages fuel s j q c n).1.serve.reqs = s.serve.reqs ∧ (State.givePages fuel s j q c n).2.1.tree = q.tree := by
  induction fuel with
  | zero => exact fun _ _ => ⟨rfl, rfl⟩
  | succ fuel ih =>
    intro s q
    unfold State.givePages
    split
    · exact ⟨rfl, rfl⟩
    split
    · exact ⟨rfl, rfl⟩
    · rename_i u q' h
      obtain ⟨hu, hq⟩ := State.givePage_keeps j c h
      exact ⟨(ih u q').1.trans hu, (ih u q').2.trans hq⟩

/-- A request is given pages and put back with its tree flag. -/
theorem State.onlyAdopted_given {c : Prop} {j : Nat} {q q' : Req} (fuel n : Nat) (cfg : ServingCfg) (hs : s.onlyAdopted i c)
    (hq : s.req? j = some q) (hq' : q'.tree = (State.givePages fuel s j q cfg n).2.1.tree) :
    ((State.givePages fuel s j q cfg n).1.setReq j q').onlyAdopted i c := by
  obtain ⟨hreqs, htree⟩ := State.givePages_keeps fuel j cfg n s q
  refine State.reqSat_setReq _ _ (State.reqSat_of_eq (by rw [State.req?, hreqs, State.req?]) hs) fun h => ?_
  obtain ⟨hc, ht⟩ := hs q (h ▸ hq)
  exact ⟨hc, by rw [hq', htree, ht]⟩

theorem State.onlyAdopted_growth {c : Prop} (g : Nat) (cfg : ServingCfg) (hs : s.onlyAdopted i c) : (s.growth g cfg).onlyAdopted i c := by
  refine State.reqSat_foldl _ (fun u x _ hu => ?_) hs
  simp only []
  split
  · exact hu
  rename_i q hq
  refine State.reqSat_of_if (fun _ => hu) (fun _ => State.onlyAdopted_given _ _ _ hu hq ?_)
  split <;> rfl

theorem State.onlyAdopted_joins {c : Prop} (g : Nat) (cfg : ServingCfg) (l : List Nat) (hs : s.onlyAdopted i c) :
    (s.joins g cfg l).onlyAdopted i c := by
  induction l generalizing s with
  | nil => exact hs
  | cons j l ih =>
    unfold State.joins
    split
    · exact ih hs
    rename_i q hq
    split
    · exact ih hs
    simp only []
    split
    · exact hs
    · refine ih (State.reqSat_of_eq (s := (State.givePages 1024 s j q cfg (q.reservation cfg.grow)).1.setReq j _) rfl ?_)
      exact State.onlyAdopted_given _ _ _ hs hq rfl

theorem State.onlyAdopted_growAndJoin {c : Prop} (g : Nat) (hs : s.onlyAdopted i c) : (s.growAndJoin g).onlyAdopted i c := by
  unfold State.growAndJoin
  split
  · exact hs
  · have grown := State.onlyAdopted_growth g ‹_› hs
    exact State.reqSat_of_if (fun _ => grown) (fun _ => State.onlyAdopted_joins _ _ _ grown)

/-! ### What is left to adopt -/

/-- What is there to adopt reads the run, the Lead, the copies, the table and the position alone. -/
theorem State.toAdopt_eq (hactive : t.run.active = s.run.active) (habsent : t.run.absent = s.run.absent) (hlead : t.lead = s.lead)
    (hcopies : t.serve.copies = s.serve.copies) (htable : t.link.table = s.link.table) (hpwr : t.pwr = s.pwr) : t.toAdopt = s.toAdopt := by
  have hmirrors : t.mirrors = s.mirrors := by
    funext m
    simp [State.mirrors, State.moduleId, htable, hpwr]
  simp [State.toAdopt, hactive, habsent, hlead, hcopies, hmirrors]

theorem State.toAdopt_of_only (h : s.onlyChanges t [.mem, .arr, .tgt, .eng, .keeper, .fnp, .outbox, .health]) : t.toAdopt = s.toAdopt := by
  have hrun : t.run = s.run := h .run (by simp)
  have hlead : t.lead = s.lead := h .lead (by simp)
  have hserve : t.serve = s.serve := h .serve (by simp)
  have hlink : t.link = s.link := h .link (by simp)
  have hpwr : t.pwr = s.pwr := h .pwr (by simp)
  exact State.toAdopt_eq (by rw [hrun]) (by rw [hrun]) hlead (by rw [hserve]) (by rw [hlink]) hpwr

/-- A change of the serving part that keeps the copies. -/
theorem State.toAdopt_setServe (v : ServePart) (h : v.copies = s.serve.copies) : (s.setServe v).toAdopt = s.toAdopt :=
  State.toAdopt_eq rfl rfl rfl h rfl rfl

theorem State.toAdopt_setRun (v : Run) (ha : v.active = s.run.active) (hb : v.absent = s.run.absent) : (s.setRun v).toAdopt = s.toAdopt :=
  State.toAdopt_eq ha hb rfl rfl rfl rfl

theorem State.toAdopt_phaseStop (s : State) (p : Phase) : (s.phaseStop p).toAdopt = s.toAdopt := by
  unfold State.phaseStop
  split
  · rfl
  · exact State.toAdopt_setRun _ rfl rfl

end
end Sys2Proof.Machine
end

section
namespace Sys2Proof.Machine
open Sys2Proof
section
variable {s t : State} {i k : Nat} {P Q : Req → Prop}

/-- The parts that hold nothing of what there is to adopt but the copies. -/
def Part.aside : List Part := [.serve, .mem, .arr, .tgt, .eng, .keeper, .fnp, .outbox, .health]

theorem State.toAdopt_of_copies (h : s.onlyChanges t Part.aside) (hcopies : t.serve.copies = s.serve.copies) : t.toAdopt = s.toAdopt := by
  have hrun : t.run = s.run := h .run (by simp [Part.aside])
  have hlead : t.lead = s.lead := h .lead (by simp [Part.aside])
  have hlink : t.link = s.link := h .link (by simp [Part.aside])
  have hpwr : t.pwr = s.pwr := h .pwr (by simp [Part.aside])
  exact State.toAdopt_eq (by rw [hrun]) (by rw [hrun]) hlead hcopies (by rw [hlink]) hpwr

/-! ### The copies of requests are kept up to the adoption -/

@[simp] theorem State.copies_setReq (s : State) (j : Nat) (q : Req) : (s.setReq j q).serve.copies = s.serve.copies := rfl

@[simp] theorem State.copies_kvFault (s : State) (g j : Nat) : (s.kvFault g j).serve.copies = s.serve.copies := by
  unfold State.kvFault
  split
  · split <;> simp
  · rfl

@[simp] theorem State.copies_mapLive (s : State) (g : Nat) (f : Nat → Req → Req) : (s.mapLive g f).serve.copies = s.serve.copies := rfl

theorem State.copies_applyOps (j : Nat) (os : List ReqOp) : ∀ s : State, (s.applyOps j os).serve.copies = s.serve.copies := by
  induction os with
  | nil => exact fun _ => rfl
  | cons o os ih =>
    intro s
    refine (ih _).trans ?_
    have done : ∀ (u : State) code, (u.reqOpDone o code).serve.copies = u.serve.copies := fun u code =>
      congrArg ServePart.copies (State.same_of_but (p := .serve) (by simp))
    split
    · rfl
    split
    · split <;> simp [done]
    · simp [done]

@[simp] theorem State.copies_cancelsAndPauses (s : State) (g : Nat) : (s.cancelsAndPauses g).serve.copies = s.serve.copies :=
  State.foldl_keeps (fun s => s.serve.copies) (f := fun s (e : Nat × Req) => s.applyOps e.1 e.2.ops)
    (fun s e => State.copies_applyOps e.1 e.2.ops s) _ s

@[simp] theorem State.copies_chargeCust (s : State) (parts : List StepPart) (c : Nat) : (s.chargeCust parts c).serve.copies = s.serve.copies := by
  have charged : ∀ (u : State) (l : List StepPart), (l.foldl (fun s x => match s.req? x.req with
      | some q => s.setReq x.req { q with charged := q.charged + x.positions }
      | none => s) u).serve.copies = u.serve.copies := by
    refine fun u l => State.foldl_keeps (fun s => s.serve.copies) (fun s x => ?_) l u
    split <;> simp
  have posted : ∀ (u : State) (b : Bool) (d : List Byte) (v : Option Fn), (match b, v with
      | true, some f => u.post f.val 0x0B 0 d
      | _, _ => u).serve.copies = u.serve.copies := by
    intro u b d v
    split
    · exact congrArg ServePart.copies (State.same_of_but (p := .serve) (by simp))
    · rfl
  unfold State.chargeCust
  refine (posted _ _ _ _).trans ?_
  exact (charged _ _).trans rfl

@[simp] theorem State.copies_trimPages (s : State) (q : Req) (n : Nat) : (s.trimPages q n).1.serve.copies = s.serve.copies := by
  unfold State.trimPages
  split <;> rfl

@[simp] theorem State.copies_leave (s : State) (j : Nat) (q : Req) : (s.leave j q).serve.copies = s.serve.copies := by
  unfold State.leave
  simp only []
  split <;> simp

@[simp] theorem State.copies_cutSteps (s : State) (w : GroupSt → Bool) (gone : List Nat) : (s.cutSteps w gone).serve.copies = s.serve.copies := by
  unfold State.cutSteps
  rw [State.foldl_keeps (fun s => s.serve.copies) (f := State.keysSettle)
    (fun s t => congrArg ServePart.copies (State.same_of_but (p := .serve) (by simp)))]
  rw [State.setServe_serve]

@[simp] theorem State.copies_leaveAll (s : State) : s.leaveAll.1.serve.copies = s.serve.copies := by
  unfold State.leaveAll
  simp only [State.copies_cutSteps]
  exact State.foldl_keeps (fun s => s.serve.copies) (fun s e => by simp) _ s

@[simp] theorem State.copies_trims (s : State) (g : Nat) (parts : List StepPart) : (s.trims g parts).serve.copies = s.serve.copies := by
  unfold State.trims
  split
  · rfl
  · refine State.foldl_keeps (fun s => s.serve.copies) (fun s e => ?_) _ s
    simp only []
    split
    · simp
    split <;> simp

theorem State.toAdopt_phaseStart (s : State) (p : Phase) : (s.phaseStart p).toAdopt = s.toAdopt := by
  unfold State.phaseStart
  split
  · rfl
  · exact State.toAdopt_setRun _ rfl rfl

theorem State.toAdopt_endRollout (s : State) : s.endRollout.toAdopt = s.toAdopt := by
  have started : ∀ s : State, s.startRollouts.toAdopt = s.toAdopt := State.foldl_keeps State.toAdopt (f := State.startRollout)
    (fun s _ => by rw [State.startRollout, State.toAdopt_phaseStart]; exact State.toAdopt_setServe _ rfl) _
  have stopped : ∀ (v : ServePart), v.copies = s.serve.copies → ((s.setServe v).phaseStop .rollout).toAdopt = s.toAdopt := fun v hv =>
    (State.toAdopt_phaseStop _ _).trans (State.toAdopt_setServe _ hv)
  have counted : ∀ (u : State) n, (u.setRun { u.run with rolls := n }).toAdopt = u.toAdopt := fun u n => State.toAdopt_setRun _ rfl rfl
  unfold State.endRollout
  simp only []
  split
  · split
    · rw [started, counted]
      exact stopped _ rfl
    · rw [counted]
      exact stopped _ rfl
  · rw [counted]
    exact stopped _ rfl

end
end Sys2Proof.Machine
end

section
namespace Sys2Proof.Machine
open Sys2Proof
section
variable {s t : State} {i k : Nat} {P Q : Req → Prop}

@[simp] theorem State.table_fogMerge (s : State) (code subject : Nat) (wit : List Nat) (n : Nat) :
    (s.fogMerge code subject wit n).link.table = s.link.table := by
  unfold State.fogMerge
  simp only []
  split
  · split <;> rfl
  · rfl

@[simp] theorem State.table_fogNote (s : State) (code subject : Nat) : (s.fogNote code subject).link.table = s.link.table := by
  unfold State.fogNote
  split
  · rfl
  · simp

theorem State.toAdopt_healthEvent (s : State) (code tile unit addr n : Nat) : (s.healthEvent code tile unit addr n).toAdopt = s.toAdopt := by
  have run : (s.healthEvent code tile unit addr n).run = s.run := State.same_of_but (p := .run) (by simp)
  have pulsed : ∀ (e : Event) d, (if (((s.logHealth e).post 0 code 0 d).setKprCause 1).pwr.meaning = .operation then
      (((s.logHealth e).post 0 code 0 d).setKprCause 1).send .faultPulse
      else ((s.logHealth e).post 0 code 0 d).setKprCause 1).link = s.link := fun e d => State.same_of_but (p := .link) (by simp)
  have link : (s.healthEvent code tile unit addr n).link.table = s.link.table := by
    unfold State.healthEvent
    simp only []
    split
    · exact (State.table_fogNote _ _ _).trans (congrArg LinkPart.table (pulsed _ _))
    · exact congrArg LinkPart.table (pulsed _ _)
  have lead : (s.healthEvent code tile unit addr n).lead = s.lead := State.same_of_but (p := .lead) (by simp)
  have serve : (s.healthEvent code tile unit addr n).serve = s.serve := State.same_of_but (p := .serve) (by simp)
  have pwr : (s.healthEvent code tile unit addr n).pwr = s.pwr := State.same_of_but (p := .pwr) (by simp)
  exact State.toAdopt_eq (by rw [run]) (by rw [run]) lead (by rw [serve]) link pwr

@[simp] theorem State.toAdopt_pageFaults (s : State) (l : List Nat) : (l.foldl State.pageFault s).toAdopt = s.toAdopt :=
  State.foldl_keeps State.toAdopt (f := State.pageFault)
    (fun _ _ => (State.toAdopt_healthEvent _ _ _ _ _ _).trans (State.toAdopt_eq rfl rfl rfl rfl rfl rfl)) l s

@[simp] theorem State.toAdopt_kvFaults (s : State) (g : Nat) (l : List Nat) :
    (l.foldl (fun s i => s.kvFault g i) s).toAdopt = s.toAdopt :=
  State.foldl_keeps State.toAdopt (f := fun s i => s.kvFault g i)
    (fun _ _ => State.toAdopt_of_copies (by simp [Part.aside]) (State.copies_kvFault _ _ _)) l s

@[simp] theorem State.toAdopt_mapLive (s : State) (g : Nat) (f : Nat → Req → Req) : (s.mapLive g f).toAdopt = s.toAdopt :=
  State.toAdopt_setServe _ rfl

@[simp] theorem State.toAdopt_cancelsAndPauses (s : State) (g : Nat) : (s.cancelsAndPauses g).toAdopt = s.toAdopt :=
  State.toAdopt_of_copies (by simp [Part.aside]) (by simp)

@[simp] theorem State.toAdopt_chargeCusts (s : State) (l : List Nat) (parts : List StepPart) :
    (l.foldl (fun s c => s.chargeCust parts c) s).toAdopt = s.toAdopt :=
  State.foldl_keeps State.toAdopt (f := fun s c => s.chargeCust parts c)
    (fun _ _ => State.toAdopt_of_copies (by simp [Part.aside]) (by simp)) l s

@[simp] theorem State.toAdopt_sendCopies (s : State) (g : Nat) : (s.sendCopies g).toAdopt = s.toAdopt := State.toAdopt_of_only (by simp)

@[simp] theorem State.toAdopt_leaveAll (s : State) : s.leaveAll.1.toAdopt = s.toAdopt :=
  State.toAdopt_of_copies (by simp [Part.aside]) (by simp)

@[simp] theorem State.toAdopt_trims (s : State) (g : Nat) (parts : List StepPart) : (s.trims g parts).toAdopt = s.toAdopt :=
  State.toAdopt_of_copies (by simp [Part.aside]) (by simp)

/-! ### The boundary -/

/-- The boundary's page faults and lost pages. -/
def State.faulted (s : State) (g : Nat) (pf kv : List Nat) : State := kv.foldl (fun s i => s.kvFault g i) (pf.foldl State.pageFault s)

theorem State.reqSat_faulted (g : Nat) (pf kv : List Nat) (hs : s.reqSat i (Req.due k)) : (s.faulted g pf kv).reqSat i (Req.due k) := by
  have faults : (pf.foldl State.pageFault s).reqSat i (Req.due k) :=
    State.reqSat_foldl _ (fun u x _ hu => State.reqSat_of_only (by simp [State.pageFault]) hu) hs
  exact State.reqSat_foldl _ (fun u x _ hu => State.reqSat_kvFault _ _ (fun q hq => hq) hu) faults

@[simp] theorem State.toAdopt_faulted (s : State) (g : Nat) (pf kv : List Nat) : (s.faulted g pf kv).toAdopt = s.toAdopt := by
  simp [State.faulted]

/-- The boundary from its faults up to the statuses it gives: deadlines, cancels, the end of a rollout, and aborts. -/
def State.settled (s : State) (g : Nat) (bad : List Nat) : State :=
  let s := (s.mapLive g (fun _ q => if q.expired then { q with status := .deadline } else q)).cancelsAndPauses g
  let s := if s.rolloutOver g bad then s.endRollout else s
  s.mapLive g (fun i q => if bad.contains i || q.flr || q.doomed then { q with status := .aborted } else q)

theorem State.reqSat_settled (g : Nat) (bad : List Nat) (hs : s.reqSat i (Req.due g)) : (s.settled g bad).reqSat i Req.ended := by
  have late := State.reqSat_mapLive (Q := Req.ending g) g (fun _ q => if q.expired then { q with status := .deadline } else q) hs
    (fun q hq hg hlive => ?_) (fun q hq hrest => ⟨hq.1, .inl (hrest hq.1)⟩)
  · have stopped := State.reqSat_cancelsAndPauses g late
    refine State.reqSat_mapLive (P := Req.ending g) g _
      (State.reqSat_of_if (fun _ => State.reqSat_endRollout stopped) (fun _ => stopped)) (fun q hq _ hlive => ?_) (fun q hq hrest => hrest hq.1)
    have he : q.flr = true ∨ q.doomed = true := by simpa [hlive] using hq.2
    have hb : (bad.contains i || q.flr || q.doomed) = true := by rcases he with h | h <;> simp [h]
    rw [if_pos hb]
    rfl
  · split
    · exact ⟨hg, .inl rfl⟩
    · rename_i hexp
      refine ⟨hg, .inr ?_⟩
      simpa [hlive, hexp] using hq.2

@[simp] theorem State.toAdopt_settled (s : State) (g : Nat) (bad : List Nat) : (s.settled g bad).toAdopt = s.toAdopt := by
  have rolled : ∀ (u : State) (b : Bool), (if b then u.endRollout else u).toAdopt = u.toAdopt := by
    intro u b
    split
    · exact State.toAdopt_endRollout u
    · rfl
  simp [State.settled, rolled]

/-- The boundary from the statuses on: customers charged, requests without pages ended, and the ended ones out of the table. -/
def State.departed (s : State) (g : Nat) (custs : List Nat) (parts : List StepPart) : State × List (Nat × Req) :=
  let s := custs.foldl (fun s c => s.chargeCust parts c) s
  ((s.mapLive g (fun _ q => if q.spent then { q with status := .nopages } else q)).sendCopies g).leaveAll

theorem State.req?_departed (g : Nat) (custs : List Nat) (parts : List StepPart) (hs : s.reqSat i Req.ended) :
    (s.departed g custs parts).1.req? i = none := by
  have charged : (custs.foldl (fun s c => s.chargeCust parts c) s).reqSat i Req.ended :=
    State.reqSat_foldl _ (fun u c _ hu => State.reqSat_chargeCust _ _ hu) hs
  have pageless := State.reqSat_mapLive (Q := Req.ended) g (fun _ q => if q.spent then { q with status := .nopages } else q) charged
    (fun q hq _ hlive => by rw [show q.status.terminal = true from hq] at hlive; cases hlive) (fun q hq _ => hq)
  exact State.req?_leaveAll (State.reqSat_of_only (by simp) pageless)

@[simp] theorem State.toAdopt_departed (s : State) (g : Nat) (custs : List Nat) (parts : List StepPart) :
    (s.departed g custs parts).1.toAdopt = s.toAdopt := by
  simp [State.departed]

@[simp] theorem State.reqs_setGroup (s : State) (g : Nat) (x : GroupSt) : (s.setGroup g x).serve.reqs = s.serve.reqs := rfl

@[simp] theorem State.reqs_claimGroup (s : State) (h : Nat) : (s.claimGroup h).serve.reqs = s.serve.reqs := by
  unfold State.claimGroup
  split <;> rfl

@[simp] theorem State.reqs_retireProg (s : State) (h : Nat) : (s.retireProg h).serve.reqs = s.serve.reqs := by
  have dropped : (s.dropWork h).serve = s.serve := State.same_of_but (p := .serve) (by simp)
  have shrunk : ∀ (u : State) f n, (u.shrinkWindow f n).serve = u.serve := fun u f n => State.same_of_but (p := .serve) (by simp)
  have kept : ∀ (u : State) (v : ServePart), (u.setServe v).serve.reqs = v.reqs := fun _ _ => rfl
  unfold State.retireProg
  split
  · rfl
  · rw [kept, State.setProg_serve, shrunk, State.setTier_serve, State.setProg_serve, State.setProg_serve, State.reqs_cutSteps, dropped]

@[simp] theorem State.reqs_applyServeReplace (s : State) (g : Nat) : (s.applyServeReplace g).serve.reqs = s.serve.reqs := by
  unfold State.applyServeReplace
  split <;> simp

/-- The boundary from the table without the ended requests on. -/
def State.refilled (s : State) (g : Nat) (parts : List StepPart) (used : List Nat) (gone : List (Nat × Req)) : State :=
  (gone.foldl (fun s e => s.reqDone e.1 e.2) ((((s.trims g parts).adopt).growAndJoin g).dropDrawn used)).applyServeReplace g

theorem State.onlyAdopted_refilled (g : Nat) (parts : List StepPart) (used : List Nat) (gone : List (Nat × Req)) (h : s.req? i = none) :
    (s.refilled g parts used gone).onlyAdopted i (s.toAdopt ≠ []) := by
  have adopted := State.onlyAdopted_adopt (State.req?_trims g parts h)
  rw [State.toAdopt_trims] at adopted
  have grown := State.onlyAdopted_growAndJoin g adopted
  have dropped : ((((s.trims g parts).adopt).growAndJoin g).dropDrawn used).onlyAdopted i (s.toAdopt ≠ []) := State.reqSat_of_eq rfl grown
  have told : (gone.foldl (fun s e => s.reqDone e.1 e.2) ((((s.trims g parts).adopt).growAndJoin g).dropDrawn used)).onlyAdopted i
      (s.toAdopt ≠ []) := State.reqSat_foldl _ (fun u e _ hu => State.reqSat_of_only (by simp) hu) dropped
  exact State.reqSat_of_eq (by rw [State.req?, State.refilled, State.reqs_applyServeReplace, State.req?]) told

/-- Without parts, or with a page fault, nothing is committed. -/
theorem State.commits_none (s : State) {parts : List StepPart} {pf : List Nat} (ds : List Drawn) (skip : List Nat) (h : parts = [] ∨ pf ≠ []) :
    (if pf.isEmpty then s.commitParts parts ds skip else s) = s := by
  split
  · obtain h | h := h
    · rw [h]
      rfl
    · exact absurd (List.isEmpty_iff.1 ‹_›) h
  · rfl

theorem insertNat_ne_nil (x : Nat) (l : List Nat) : insertNat x l ≠ [] := by
  unfold insertNat
  split
  · simp
  · split
    · simp
    split <;> simp

theorem unionNat_ne_nil (xs : List Nat) {ys : List Nat} (h : ys ≠ []) : unionNat xs ys ≠ [] :=
  List.foldlRecOn (motive := fun l : List Nat => l ≠ []) xs _ h fun _ _ _ _ => insertNat_ne_nil _ _

/-- The boundary from its faults on. -/
def State.bounded (s : State) (g : Nat) (bad : List Nat) (parts kept : List StepPart) (trees : List (Nat × List Nat)) : State :=
  let u := s.settled g bad
  let d := u.departed g (u.groupCusts g parts) kept
  let v := d.1.refilled g parts (parts.map (·.req)) d.2
  v.setGroup g { v.group g with plan := v.formStep g trees, badReqs := [] }

theorem State.onlyAdopted_bounded (g : Nat) (bad : List Nat) (parts kept : List StepPart) (trees : List (Nat × List Nat))
    (hs : s.reqSat i (Req.due g)) : (s.bounded g bad parts kept trees).onlyAdopted i (s.toAdopt ≠ []) := by
  have left := State.req?_departed g ((s.settled g bad).groupCusts g parts) kept (State.reqSat_settled g bad hs)
  have refilled := State.onlyAdopted_refilled g parts (parts.map (·.req))
    ((s.settled g bad).departed g ((s.settled g bad).groupCusts g parts) kept).2 left
  rw [State.toAdopt_departed, State.toAdopt_settled] at refilled
  exact State.reqSat_of_eq rfl refilled

theorem State.group_bounded (s : State) (g : Nat) (bad : List Nat) (parts kept : List StepPart) (trees : List (Nat × List Nat)) :
    ((s.bounded g bad parts kept trees).group g).badReqs = [] := by
  unfold State.bounded State.group State.setGroup
  rw [State.setServe_serve, Tab.get_set_same]

/-- Where a page fault holds the step's results back, or no step is planned, the boundary commits nothing. -/
theorem exec_servingStepBoundary {g : Fin 4} {pf kv tq : List Nat} {tr : List (List Nat)} (hkeeper : s.keeper.kbusy = false)
    (h : (s.group g).plan = none ∨ pf ≠ []) :
    ∃ pf' kv' bad parts kept, exec (.servingStepBoundary g pf kv tq tr) s = .next ((s.faulted g pf' kv').bounded g bad parts kept (tq.zip tr)) := by
  change ∃ pf' kv' bad parts kept, execServingStepBoundary g pf kv tq tr s = _
  unfold execServingStepBoundary
  extract_lets owed x walks pf' kv' parts left ds ready bad s1 s2 s3 s4 s5 s6 s7 s8 s9
  have hpf : x.plan = none ∨ pf' ≠ [] := h.imp_right (unionNat_ne_nil walks)
  have hready : ready = true := by
    obtain h | h := hpf
    · simp only [ready, h]
    · have : pf'.isEmpty = false := by simpa using h
      simp only [ready, this, Bool.not_false, Bool.true_or]
      split <;> rfl
  have hcommit : s3 = s.faulted g pf' kv' := State.commits_none _ _ _ (hpf.imp_left fun h => by simp only [parts, h])
  refine ⟨pf', kv', bad, parts, if pf'.isEmpty then parts else [], ?_⟩
  rw [if_neg (by simp [hkeeper]), if_neg (by simp [hready]), ← hcommit]
  have hsettled : s3.settled g bad = s7 := rfl
  have hdeparted : s7.departed g (s7.groupCusts g parts) (if pf'.isEmpty then parts else []) = (s9.sendCopies g).leaveAll := rfl
  simp only [State.bounded, hsettled, hdeparted]
  generalize (s9.sendCopies g).leaveAll = d
  rfl

/-- Settles O45. A request due at the boundary has ended by the time the statuses are given (`State.reqSat_settled`), what has ended leaves
its table (`State.req?_departed`), and from there on its index is given to an adopted request alone (`State.onlyAdopted_refilled`). -/
theorem requestsLeaveAtTheBoundary : Obligations.RequestsLeaveAtTheBoundary := by
  unfold Obligations.RequestsLeaveAtTheBoundary
  refine ⟨?_, ?_, ?_⟩
  · intro g pf kv tq tr s hkeeper hplan
    obtain ⟨pf', kv', bad, parts, kept, ht⟩ := exec_servingStepBoundary (kv := kv) (tq := tq) (tr := tr) hkeeper hplan
    refine ⟨_, ht, State.group_bounded _ _ _ _ _ _, fun i q hq hgroup hdue => ?_⟩
    have due : s.reqSat i (Req.due g) := fun y hy => by
      rw [hq] at hy
      cases hy
      exact ⟨hgroup, .inr hdue⟩
    have done := State.onlyAdopted_bounded g bad parts kept (tq.zip tr) (State.reqSat_faulted g pf' kv' due)
    rwa [State.toAdopt_faulted] at done
  · intro i q s hq hlive hdeadline hexp
    have hc : (q.status.terminal || q.deadline == 0 || q.expired) = false := by simp [hlive, hdeadline, hexp]
    have ht : exec (.requestDeadlineExpiry i) s = .next (s.setReq i { q with
        expired := true
        late := match (s.group q.group).plan with | some pl => pl.parts.any (fun p => p.req == i) | none => false }) := by
      simp only [exec, execRequestDeadlineExpiry, hq, hc, Bool.false_eq_true, if_false] <;> rfl
    exact ⟨_, ht, by simp, State.req?_setReq_same _ _ _⟩
  · intro i q c s hkeeper hq hcfg hgrow hheld hreb hsteps hstatus
    have hst : (q.status == .prefill || q.status == .decode) = true := by simpa using hstatus
    simp only [exec, execNoPages, hkeeper, hq, hcfg, hgrow, hheld, hreb, hst, hsteps, Bool.false_eq_true, if_false, if_true,
      Bool.and_true, beq_self_eq_true, decide_true]

end
end Sys2Proof.Machine
end

/-! # Mailboxes, and O6 to O8: doorbells, queries and records -/

section
namespace Sys2Proof.Machine
open Sys2Proof

/-- A mailbox command is taken in by its mailbox, under its own opcode and class. -/
theorem exec_eq_intake (i : Instr) (m : MCmd) (s : State) (h : i.mcmd? = some m) :
    ∃ op ok body, exec i s = .next (s.intake i m op i.pfOnly ok body) := by
  cases i with
  | nop m' op =>
    simp only [Instr.mcmd?] at h
    split at h
    · cases h
      simp only [exec, execNop]
      split
      · exact ⟨_, _, _, rfl⟩
      · split
        · simp_all
        · exact ⟨_, _, _, rfl⟩
    · cases h
  | servicePrepareLaser m => cases h; exact ⟨0x603, lenIs m 8 0, _, by simp only [exec, execServicePrepareLaser, State.servicePrepare, Instr.pfOnly]; rfl⟩
  | servicePreparePhase m => cases h; exact ⟨0x603, lenIs m 8 0, _, by simp only [exec, execServicePreparePhase, State.servicePrepare, Instr.pfOnly]; rfl⟩
  | servicePrepareFibre m answered => cases h; exact ⟨0x603, lenIs m 8 0, _, by simp only [exec, execServicePrepareFibre, State.servicePrepare, Instr.pfOnly]; rfl⟩
  | _ => cases h <;> exact ⟨_, _, _, rfl⟩

section
variable {s t u : State} {f g : Nat} {m : MCmd}

/-! ### Mailboxes and message state of the functions -/

@[simp] theorem State.mbox_setMbox_same (s : State) (f : Nat) (b : Mailbox) : (s.setMbox f b).mbox f = b := Tab.get_set_same _ _ _ _

theorem State.mbox_setMbox_other (s : State) (b : Mailbox) (h : g ≠ f) : (s.setMbox f b).mbox g = s.mbox g :=
  Tab.get_set_other _ _ _ h

@[simp] theorem State.fnSt_setMbox (s : State) (f : Nat) (b : Mailbox) (g : Nat) : (s.setMbox f b).fnSt g = s.fnSt g := rfl

@[simp] theorem State.fnSt_setFnSt_same (s : State) (f : Nat) (e : FnSt) : (s.setFnSt f e).fnSt f = e := Tab.get_set_same _ _ _ _

theorem State.fnSt_setFnSt_other (s : State) (e : FnSt) (h : g ≠ f) : (s.setFnSt f e).fnSt g = s.fnSt g := Tab.get_set_other _ _ _ h

@[simp] theorem State.mbox_setFnSt (s : State) (f : Nat) (e : FnSt) (g : Nat) : (s.setFnSt f e).mbox g = s.mbox g := rfl

@[simp] theorem State.mbox_send (s : State) (o : Out) (g : Nat) : (s.send o).mbox g = s.mbox g := rfl

/-- Mailboxes, like the rest of the Keeper, are untouched by what changes other parts. -/
theorem State.mbox_of_only (h : s.onlyChanges t (Part.but .keeper)) (g : Nat) : t.mbox g = s.mbox g := by
  have hk : t.keeper = s.keeper := State.same_of_but h
  rw [State.mbox, hk, State.mbox]

theorem State.fnSt_of_only (h : s.onlyChanges t (Part.but .fnp)) (g : Nat) : t.fnSt g = s.fnSt g := by
  have hf : t.fnp = s.fnp := State.same_of_but h
  rw [State.fnSt, hf, State.fnSt]

@[simp] theorem State.mbox_raise (s : State) (f v g : Nat) : (s.raise f v).mbox g = s.mbox g := State.mbox_of_only (by simp) g

theorem State.fnSt_raise_other (s : State) (v : Nat) (h : g ≠ f) : (s.raise f v).fnSt g = s.fnSt g := by
  unfold State.raise
  simp only []
  split
  · rfl
  split
  · exact State.fnSt_setFnSt_other _ _ h
  split
  · exact State.fnSt_setFnSt_other _ _ h
  · rfl

/-! ### Changes of one mailbox alone -/

theorem State.onlyMailbox_refl (s : State) (f : Nat) : s.onlyMailbox s f := ⟨by simp, rfl, rfl, fun _ _ => ⟨rfl, rfl⟩⟩

theorem State.onlyMailbox_trans (h : s.onlyMailbox t f) (h' : t.onlyMailbox u f) : s.onlyMailbox u f := by
  obtain ⟨hs, hk, hf, hg⟩ := h
  obtain ⟨hs', hk', hf', hg'⟩ := h'
  refine ⟨State.onlyChanges_trans hs hs', ?_, ?_, fun g hgf => ?_⟩
  · rw [hk', hk]
  · rw [hf', hf]
  · exact ⟨(hg' g hgf).1.trans (hg g hgf).1, (hg' g hgf).2.trans (hg g hgf).2⟩

theorem State.onlyMailbox_setMbox (s : State) (f : Nat) (b : Mailbox) : s.onlyMailbox (s.setMbox f b) f :=
  ⟨by simp, rfl, rfl, fun _ h => ⟨State.mbox_setMbox_other s b h, rfl⟩⟩

theorem State.onlyMailbox_setFnSt (s : State) (f : Nat) (e : FnSt) : s.onlyMailbox (s.setFnSt f e) f :=
  ⟨by simp, rfl, rfl, fun _ h => ⟨rfl, State.fnSt_setFnSt_other s e h⟩⟩

theorem State.onlyMailbox_send (s : State) (o : Out) (f : Nat) : s.onlyMailbox (s.send o) f :=
  ⟨by simp, rfl, rfl, fun _ _ => ⟨rfl, rfl⟩⟩

theorem State.onlyMailbox_raise (s : State) (f v : Nat) : s.onlyMailbox (s.raise f v) f := by
  unfold State.raise
  simp only []
  split
  · exact s.onlyMailbox_refl f
  split
  · exact s.onlyMailbox_setFnSt f _
  split
  · exact s.onlyMailbox_setFnSt f _
  · exact s.onlyMailbox_send _ f

theorem State.onlyMailbox_setCause (s : State) (f bit v : Nat) : s.onlyMailbox (s.setCause f bit v) f := by
  unfold State.setCause
  simp only []
  split
  · exact s.onlyMailbox_refl f
  · exact State.onlyMailbox_trans (s.onlyMailbox_setMbox f _) (State.onlyMailbox_raise _ f v)

theorem getLsbD_ofNat_two_pow {w bit i : Nat} (h : i < w) : (BitVec.ofNat w (2 ^ bit)).getLsbD i = decide (bit = i) := by
  rw [BitVec.getLsbD_ofNat, Nat.testBit_two_pow, decide_eq_true h, Bool.true_and]

theorem getLsbD_or_two_pow {w bit : Nat} (v : BitVec w) (h : bit < w) : (v ||| BitVec.ofNat w (2 ^ bit)).getLsbD bit = true := by
  rw [BitVec.getLsbD_or, getLsbD_ofNat_two_pow h, decide_eq_true rfl, Bool.or_true]

/-- Setting a bit that is set changes nothing. -/
theorem or_two_pow_of_set {w bit : Nat} (v : BitVec w) (h : v.getLsbD bit = true) : v ||| BitVec.ofNat w (2 ^ bit) = v := by
  refine BitVec.eq_of_getLsbD_eq fun i hi => ?_
  rw [BitVec.getLsbD_or, getLsbD_ofNat_two_pow hi]
  by_cases hb : bit = i
  · rw [← hb, h, Bool.true_or]
  · simp [hb]

/-- A cause bit is set, and the rest of the mailbox is as before. -/
theorem State.mbox_setCause (s : State) (f bit v : Nat) :
    (s.setCause f bit v).mbox f = { s.mbox f with cause := (s.mbox f).cause ||| BitVec.ofNat 6 (2 ^ bit) } := by
  unfold State.setCause
  simp only []
  split
  · rename_i h
    rw [or_two_pow_of_set _ h]
  · simp

theorem State.mbox_setCause_other (s : State) (bit v : Nat) (h : g ≠ f) : (s.setCause f bit v).mbox g = s.mbox g :=
  (State.onlyMailbox_setCause s f bit v).2.2.2 g h |>.1

theorem State.cause_setCause (s : State) (f v : Nat) {bit : Nat} (h : bit < 6) : ((s.setCause f bit v).mbox f).cause.getLsbD bit = true := by
  rw [State.mbox_setCause]
  exact getLsbD_or_two_pow _ h

/-! ### Completions -/

theorem State.answers_complete (s : State) (m : MCmd) (code : Nat) (resp : List Byte) : (s.complete m code resp).answers m code resp := by
  unfold State.answers State.complete
  simp only [State.mbox_setCause, State.mbox_setMbox_same, true_and]
  exact getLsbD_or_two_pow _ (by decide)

theorem State.onlyMailbox_complete (s : State) (m : MCmd) (code : Nat) (resp : List Byte) : s.onlyMailbox (s.complete m code resp) m.fn :=
  State.onlyMailbox_trans (s.onlyMailbox_setMbox _ _) (State.onlyMailbox_setCause _ _ _ _)

/-! ### How a mailbox takes a doorbell -/

variable {i : Instr} {op : Nat} {pf ok : Bool} {body : State → State}

theorem State.open_iff : s.mailboxOpen m = true ↔
    (!s.fnExists m.fn || (s.fnSt m.fn).resetting || (s.fnSt m.fn).d3hot || !s.keeper.isOpen) = false := by
  simp [State.mailboxOpen, and_assoc]

theorem State.intake_closed (h : s.mailboxOpen m = false) : s.intake i m op pf ok body = s := by
  have hc : (!s.fnExists m.fn || (s.fnSt m.fn).resetting || (s.fnSt m.fn).d3hot || !s.keeper.isOpen) = true := by
    rw [← Bool.not_eq_false]
    exact fun hf => by rw [State.open_iff.2 hf] at h; cases h
  simp only [State.intake, hc, if_true]

/-- While the Keeper restarts a doorbell is latched, and a second one sets DBERR. -/
theorem State.intake_restarting (h : s.mailboxOpen m = true) (hb : s.keeper.kbusy = true) : s.intake i m op pf ok body =
    if (s.mbox m.fn).dbpend then s.setCause m.fn 2 2 else s.setMbox m.fn { s.mbox m.fn with dbpend := true, latched := some i } := by
  simp only [State.intake, State.open_iff.1 h, hb, Bool.true_or, Bool.false_eq_true, if_false, if_true]

theorem State.intake_running (h : s.mailboxOpen m = true) (hb : s.keeper.kbusy = false) (hr : s.keeper.recovery = false)
    (hs : (s.mbox m.fn).state = .running) : s.intake i m op pf ok body = s.setCause m.fn 2 2 := by
  simp only [State.intake, State.open_iff.1 h, hb, hr, hs, Bool.false_and, Bool.or_false, Bool.false_eq_true, if_false, if_true]

theorem State.intake_taken (h : s.mailboxOpen m = true) (hb : s.keeper.kbusy = false) (hr : s.keeper.recovery = false)
    (hs : (s.mbox m.fn).state ≠ .running) : s.intake i m op pf ok body = if m.doorbell ≠ m.seq then s.complete m codeLength []
      else if pf && m.fn.val != 0 then s.complete m codeDenied [] else if !ok then s.complete m codeLength [] else body s := by
  simp only [State.intake, State.open_iff.1 h, hb, hr, hs, Bool.false_and, Bool.or_false, Bool.false_eq_true, if_false, bne_iff_ne]

theorem State.judges_iff : s.judges m = true ↔ s.mailboxOpen m = true ∧ s.keeper.kbusy = false ∧ s.keeper.recovery = false ∧
    (s.mbox m.fn).state ≠ .running ∧ m.doorbell = m.seq := by
  simp [State.judges, and_assoc]

/-- A command the Keeper judges is run when its function may send it and its length is right. -/
theorem State.intake_judged (h : s.judges m = true) (hpf : pf = true → m.fn = 0) (hok : ok = true) : s.intake i m op pf ok body = body s := by
  obtain ⟨hopen, hb, hr, hs, hseq⟩ := State.judges_iff.1 h
  have hd : (pf && m.fn.val != 0) = false := by
    cases pf with
    | false => rfl
    | true => simp [hpf rfl]
  simp only [State.intake_taken hopen hb hr hs, hseq, hd, hok, ne_eq, not_true_eq_false, Bool.not_true, Bool.false_eq_true, if_false]

theorem State.intake_denied (h : s.judges m = true) (hf : m.fn ≠ 0) : s.intake i m op true ok body = s.complete m codeDenied [] := by
  obtain ⟨hopen, hb, hr, hs, hseq⟩ := State.judges_iff.1 h
  have hd : (true && m.fn.val != 0) = true := bne_iff_ne.2 fun h0 => hf (Fin.ext h0)
  simp only [State.intake_taken hopen hb hr hs, hseq, hd, ne_eq, not_true_eq_false, if_true, if_false]

/-! ### O6 -/

/-- Settles O6. -/
theorem doorbellsOutOfTurn : Obligations.DoorbellsOutOfTurn := by
  unfold Obligations.DoorbellsOutOfTurn
  refine ⟨fun i m s hm => ?_, fun i m s hm hpf hf hj => ?_⟩
  · obtain ⟨op, ok, body, he⟩ := exec_eq_intake i m s hm
    have causeOnly : ∃ t, Host.Outcome.next (s.setCause m.fn 2 2) = (.next t : Host.Outcome State Fault Refusal) ∧
        (t.mbox m.fn).cause.getLsbD 2 = true ∧ t.mbox m.fn = { s.mbox m.fn with cause := (t.mbox m.fn).cause } ∧ s.onlyMailbox t m.fn :=
      ⟨_, rfl, State.cause_setCause s _ 2 (by decide), by rw [State.mbox_setCause], State.onlyMailbox_setCause s _ 2 2⟩
    rw [he]
    refine ⟨fun h => ?_, fun h hb hd => ?_, fun h hb hd => ?_, fun h hb hr hs => ?_, fun h hb hr hs hseq => ?_⟩
    · rw [State.intake_closed h]
    · rw [State.intake_restarting h hb, hd, if_neg (by decide)]
    · rw [State.intake_restarting h hb, hd, if_pos rfl]
      exact causeOnly
    · rw [State.intake_running h hb hr hs]
      exact causeOnly
    · rw [State.intake_taken h hb hr hs, if_pos hseq]
      exact ⟨_, rfl, s.answers_complete _ _ _, s.onlyMailbox_complete _ _ _⟩
  · obtain ⟨op, ok, body, he⟩ := exec_eq_intake i m s hm
    rw [he, hpf, State.intake_denied hj hf]
    exact ⟨_, rfl, s.answers_complete _ _ _, s.onlyMailbox_complete _ _ _⟩

end
end Sys2Proof.Machine
end

section
namespace Sys2Proof.Machine
open Sys2Proof
section
variable {s : State} {m : MCmd}

/-! ### O7: the answers of the queries -/

/-- A command that only completes leaves everything but the mailbox as it is. -/
theorem answers_of_intake {i : Instr} {op : Nat} {pf ok : Bool} {body : State → State} {code : Nat} {resp : List Byte} (h : s.judges m = true)
    (he : exec i s = .next (s.intake i m op pf ok body)) (hpf : pf = true → m.fn = 0) (hok : ok = true)
    (hbody : body s = s.complete m code resp) : ∃ t, exec i s = .next t ∧ t.answers m code resp ∧ s.onlyMailbox t m.fn := by
  rw [he, State.intake_judged h hpf hok, hbody]
  exact ⟨_, rfl, s.answers_complete _ _ _, s.onlyMailbox_complete _ _ _⟩

@[simp] theorem State.length_identity (s : State) (f : Fn) : (s.identity f).length = 64 := by
  simp [State.identity, partName]

theorem State.take_identity (s : State) (f : Fn) : (s.identity f).take 9 = partName ++ [0xB0] := rfl

theorem State.moduleId_identity (s : State) (f : Fn) : fieldAt (s.identity f) 12 2 = (s.moduleId + b2n s.isLead * 2 ^ 15) % 2 ^ 16 := by
  have hbytes : ((s.identity f).drop 12).take 2 = leBytes 2 (s.moduleId + b2n s.isLead * 2 ^ 15) := rfl
  rw [fieldAt, hbytes, leNat_leBytes]
  norm_num

@[simp] theorem State.length_pairStatus (s : State) : s.pairStatus.length = 32 := by
  simp [State.pairStatus]

theorem State.state_pairStatus (s : State) : fieldAt s.pairStatus 0 1 = s.pair.state.code := by
  have hbytes : (s.pairStatus.drop 0).take 1 = leBytes 1 s.pair.state.code := rfl
  rw [fieldAt, hbytes, leNat_leBytes]
  cases s.pair.state <;> rfl

theorem State.lscale_pairStatus (s : State) : fieldAt s.pairStatus 4 4 = s.run.lscale.toNat := by
  have hbytes : (s.pairStatus.drop 4).take 4 = leBytes 4 s.run.lscale.toNat := rfl
  rw [fieldAt, hbytes, leNat_leBytes]
  exact Nat.mod_eq_of_lt s.run.lscale.isLt

@[simp] theorem State.length_portRecord (s : State) (p : Nat) : (s.portRecord p).length = 64 := by
  simp [State.portRecord, List.length_flatMap]

@[simp] theorem State.length_reqEntry (s : State) (q : Req) : (s.reqEntry q).length = 128 := by
  simp [State.reqEntry, List.length_flatMap]

/-- The record BUDGET_READ answers. -/
def Cust.budgetRecord (v : Cust) : List Byte := leBytes 8 (bits64 v.budget) ++ leBytes 8 v.charged ++ leBytes 1 (b2n v.deferred)

theorem Cust.budget_budgetRecord (v : Cust) : fieldAt v.budgetRecord 0 8 = bits64 v.budget := by
  have hbytes : (v.budgetRecord.drop 0).take 8 = leBytes 8 (bits64 v.budget) := rfl
  rw [fieldAt, hbytes, leNat_leBytes, bits64]
  omega

/-- Settles O7. -/
theorem queriesAnswer : Obligations.QueriesAnswer := by
  unfold Obligations.QueriesAnswer
  intro m s hj
  refine ⟨fun hl => ?_, fun op hop => ?_, fun hl => ?_, fun hl => ?_, fun hf hl hres hport => ?_, fun i q hl hp hres hq => ?_,
    fun hl hp hres hf => ?_, fun hl hp => ⟨?_, ?_⟩⟩
  · exact answers_of_intake hj (i := .nop m 0) (pf := false) (body := fun s => s.complete m codeOk []) rfl nofun hl rfl
  · have h0 : op ≠ 0 := by rintro rfl; revert hop; decide
    refine answers_of_intake hj (op := op) (pf := false) (ok := true) (body := fun s => s.complete m codeOpcode []) ?_ nofun rfl rfl
    simp only [exec, execNop, h0, hop, Bool.false_eq_true, if_false]
  · obtain ⟨t, ht, ha, ho⟩ := answers_of_intake hj (i := .identify m) rfl nofun hl rfl
    exact ⟨t, _, ht, ha, s.length_identity _, s.take_identity _, s.moduleId_identity _, ho⟩
  · obtain ⟨t, ht, ha, ho⟩ := answers_of_intake hj (i := .pairStatus m) rfl nofun hl rfl
    exact ⟨t, _, ht, ha, s.length_pairStatus, s.state_pairStatus, s.lscale_pairStatus, ho⟩
  · have hc : (!reservedZero m.payload 8 [(0, 1)] || decide (5 < fieldAt m.payload 0 1)) = false := by simp [hres, hport]
    obtain ⟨t, ht, ha, ho⟩ := answers_of_intake hj (i := .linkStatus m) rfl (fun _ => hf) hl (by simp only [hc, Bool.false_eq_true, if_false]; rfl)
    exact ⟨t, ht, ha, s.length_portRecord _, ho⟩
  · obtain ⟨t, ht, ha, ho⟩ := answers_of_intake hj (i := .reqStatus m) rfl nofun hl
      (by simp only [hp, hres, hq, ne_eq, not_true_eq_false, Bool.not_true, Bool.false_eq_true, if_false]; rfl)
    exact ⟨t, ht, ha, s.length_reqEntry _, ho⟩
  · have hc : (m.fn.val != 0 && (s.customer (fieldAt m.payload 0 1)).fn != some m.fn) = false := by
      rcases hf with hf | hf <;> simp [hf]
    obtain ⟨t, ht, ha, ho⟩ := answers_of_intake hj (i := .budgetRead m) (resp := (s.customer (fieldAt m.payload 0 1)).budgetRecord) rfl nofun hl
      (by simp only [hp, hres, hc, ne_eq, not_true_eq_false, Bool.not_true, Bool.false_eq_true, if_false]; rfl)
    exact ⟨t, _, ht, ha, Cust.budget_budgetRecord _, ho⟩
  · exact answers_of_intake hj (i := .reqStatus m) rfl nofun hl (if_pos hp)
  · exact answers_of_intake hj (i := .budgetRead m) rfl nofun hl (if_pos hp)

end
end Sys2Proof.Machine
end

section
namespace Sys2Proof.Machine
open Sys2Proof
section
variable {s t : State} {m : MCmd} {o : Nat} {bs : List Byte}

/-! ### O8: records copied out -/

theorem descsAt_one (p : List Byte) (o : Nat) : descsAt p o 1 = [descOf ((p.drop o).take 16)] := rfl

theorem addr_descOf (p : List Byte) (o : Nat) : (descOf ((p.drop o).take 16)).addr = fieldAt p o 8 := by
  simp [descOf, fieldAt, List.take_take]

/-- A direct descriptor is one extent. -/
theorem cmdExtents_direct (m : MCmd) {d : Desc} (h : d.isList = false) : cmdExtents m [d] 0 = [(d.space, d.addr, d.len)] := by
  simp [cmdExtents, withLists, extentsOf, h]

theorem hostRoom_iff (p : List Byte) (o n : Nat) : hostRoom p o n = true ↔ (descOf ((p.drop o).take 16)).isList = false ∧
    (descOf ((p.drop o).take 16)).space = 0 ∧ n ≤ (descOf ((p.drop o).take 16)).len := by
  simp [hostRoom, and_assoc]

theorem cmdExtents_of_hostRoom (h : hostRoom m.payload o bs.length = true) :
    ∃ n, bs.length ≤ n ∧ cmdExtents m (descsAt m.payload o 1) 0 = [(0, fieldAt m.payload o 8, n)] := by
  obtain ⟨hlist, hspace, hlen⟩ := (hostRoom_iff _ _ _).1 h
  exact ⟨_, hlen, by rw [descsAt_one, cmdExtents_direct m hlist, hspace, addr_descOf]⟩

/-- The descriptor has room for the record. -/
theorem extentBytes_of_hostRoom (h : hostRoom m.payload o bs.length = true) :
    ¬extentBytes (cmdExtents m (descsAt m.payload o 1) 0) < bs.length := by
  obtain ⟨n, hn, he⟩ := cmdExtents_of_hostRoom h
  rw [he]
  simpa [extentBytes] using hn

/-- A record with room for it is written where the descriptor says, and the command completes. -/
theorem State.copyOut_hostRoom (s : State) (h : hostRoom m.payload o bs.length = true) : s.copyOut m (descsAt m.payload o 1) bs =
    (s.setHostMem (Mem.writeN s.hostMem (fieldAt m.payload o 8) bs)).complete m codeOk [] := by
  obtain ⟨n, hn, he⟩ := cmdExtents_of_hostRoom h
  unfold State.copyOut
  rw [if_neg (extentBytes_of_hostRoom h)]
  simp only [he, State.writeOut, List.take_of_length_le hn, if_pos hn, if_true]

/-- The mailbox's answer is read from the Keeper alone. -/
theorem State.answers_of_keeper {u : State} {code : Nat} {resp : List Byte} (h : u.keeper = t.keeper) (ha : t.answers m code resp) :
    u.answers m code resp := by
  unfold State.answers State.mbox at ha ⊢
  rw [h]
  exact ha

@[simp] theorem State.hostMem_complete (s : State) (m : MCmd) (code : Nat) (resp : List Byte) : (s.complete m code resp).hostMem = s.hostMem :=
  State.same_of_but (p := .hostMem) (by simp)

/-- A command the Keeper judges is run. -/
theorem exec_judged {i : Instr} {op : Nat} {pf ok : Bool} {body : State → State} (h : s.judges m = true)
    (he : exec i s = .next (s.intake i m op pf ok body)) (hpf : pf = true → m.fn = 0) (hok : ok = true) : exec i s = .next (body s) := by
  rw [he, State.intake_judged h hpf hok]

/-- The end of a command whose record was copied out and that then changed other parts. -/
theorem copiedOut {i : Instr} {ps qs : List Part} (ht : exec i s = .next t)
    (ho : ((s.setHostMem (Mem.writeN s.hostMem (fieldAt m.payload o 8) bs)).complete m codeOk []).onlyChanges t qs) (hk : .keeper ∉ qs)
    (hh : .hostMem ∉ qs) (hs : s.onlyChanges t ps) : ∃ t, exec i s = .next t ∧ t.answers m 0 [] ∧
      t.hostMem = Mem.writeN s.hostMem (fieldAt m.payload o 8) bs ∧ s.onlyChanges t ps :=
  ⟨t, ht, State.answers_of_keeper (ho _ hk) (State.answers_complete _ _ _ _), (ho _ hh).trans (State.hostMem_complete _ _ _ _), hs⟩

theorem length_flatMap_const {α β : Type} {f : α → List β} {n : Nat} (l : List α) (h : ∀ x, (f x).length = n) :
    (l.flatMap f).length = l.length * n := by
  rw [List.length_flatMap, List.map_congr_left fun x _ => h x, List.map_const', List.sum_replicate, smul_eq_mul]

@[simp] theorem State.length_healthRecord (s : State) : s.healthRecord.length = 12288 := by
  have hheader : s.healthHeader.length = 64 := by simp [State.healthHeader]
  have harrays : s.healthArrays.length = 656 := by simp [State.healthArrays]
  have hunits : s.healthUnits.length = 304 := by simp [State.healthUnits, List.length_flatMap]
  have htransients : s.healthTransients.length = 3072 := by
    refine (length_flatMap_const (n := 16) _ fun i => ?_).trans (by rw [List.length_range])
    split <;> simp
  have hlog : s.healthLog.length = 8192 :=
    (length_flatMap_const (n := 32) _ fun i => by rw [List.length_take_of_le (by simp)]).trans (by rw [List.length_range])
  simp [State.healthRecord, hheader, harrays, hunits, htransients, hlog]

@[simp] theorem State.length_fogRecord (s : State) (e : FogEntry) : (s.fogRecord e).length = 160 := by
  simp [State.fogRecord, List.length_flatMap]

/-- What FOG_READ writes. -/
def State.fogBytes (s : State) : List Byte :=
  leBytes 4 s.link.leadFog.length ++ List.replicate 4 0 ++ leBytes 8 s.link.fogDropped ++ s.link.leadFog.flatMap s.fogRecord

theorem State.length_fogBytes (s : State) : s.fogBytes.length = 16 + 160 * s.link.leadFog.length := by
  simp [State.fogBytes, List.length_flatMap]
  omega

theorem State.take_fogBytes (s : State) : s.fogBytes.take 4 = leBytes 4 s.link.leadFog.length := rfl

/-- The Lead's entries that are still within the fog window, which FOG_READ leaves. -/
def State.keepFog (s : State) (es : List FogEntry) : State :=
  s.setLink { s.link with leadFog := es.filter (fun e => decide (s.watch 4 - e.mergedAt ≤ s.fogWindow)) }

theorem State.only_keepFog (s : State) (es : List FogEntry) : s.onlyChanges (s.keepFog es) [.link] := State.only_setLink _ _ (by simp)

theorem fogRead_writes (hj : s.judges m = true) (hf : m.fn = 0) (hl : lenIs m 0 1 = true) (hd : descsOk s m (descsAt m.payload 0 1) [true] = true)
    (hlead : s.isLead = true) (hroom : hostRoom m.payload 0 s.fogBytes.length = true) :
    ∃ t, exec (.fogRead m) s = .next t ∧ t.answers m 0 [] ∧ t.hostMem = Mem.writeN s.hostMem (fieldAt m.payload 0 8) s.fogBytes ∧
      t.link.leadFog = s.link.leadFog.filter (fun e => decide (s.watch 4 - e.mergedAt ≤ s.fogWindow)) ∧
      s.onlyChanges t [.hostMem, .keeper, .fnp, .outbox, .link] := by
  have hpwr : ∀ u : State, (u.complete m codeOk []).pwr = u.pwr := fun u => State.same_of_but (p := .pwr) (by simp)
  have hlink : ∀ u : State, (u.complete m codeOk []).link = u.link := fun u => State.same_of_but (p := .link) (by simp)
  have ht := exec_judged hj (i := .fogRead m) rfl (fun _ => hf) hl
  simp only [hd, hlead, Bool.not_true, Bool.false_eq_true, if_false] at ht
  change exec _ s = .next (if _ < s.fogBytes.length then _ else (s.copyOut m (descsAt m.payload 0 1) s.fogBytes).keepFog s.link.leadFog) at ht
  rw [if_neg (extentBytes_of_hostRoom hroom)] at ht
  rw [State.copyOut_hostRoom _ hroom] at ht
  obtain ⟨t, ht', ha, hmem, ho⟩ := copiedOut (ps := [.hostMem, .keeper, .fnp, .outbox, .link]) ht (State.only_keepFog _ _) (by decide) (by decide)
    (State.onlyChanges_mono (State.onlyChanges_then (ps := [.hostMem, .keeper, .fnp, .outbox]) (by simp) (State.only_keepFog _ _)) (by decide))
  obtain rfl : t = _ := Host.Outcome.next.inj (ht'.symm.trans ht)
  refine ⟨_, ht, ha, hmem, ?_, ho⟩
  simp only [State.keepFog, State.watch, State.fogWindow, hpwr, hlink, State.setLink_link, State.setHostMem_link, State.setHostMem_pwr]
  rfl

/-- What ACCOUNT_READ leaves of the accounts of closed functions: a function that the physical function reads is closed no more. -/
def State.closeRead (s : State) (pf : Bool) (fs : List Nat) : State :=
  if pf then s.setFnp { s.fnp with closed := List.filter (fun e => !fs.contains e.1) s.fnp.closed } else s

theorem State.only_closeRead (s : State) (pf : Bool) (fs : List Nat) : s.onlyChanges (s.closeRead pf fs) [.fnp] := by
  unfold State.closeRead
  split
  · exact State.only_setFnp _ _ (by simp)
  · exact State.onlyChanges_refl _ _

theorem Tab.find?_filter_none {α : Type} (t : Tab α) (k : Nat) (p : Nat × α → Bool) (h : ∀ v, p (k, v) = false) :
    Tab.find? (List.filter p t) k = none := by
  induction t with
  | nil => rfl
  | cons e t ih =>
    rw [List.filter_cons]
    split
    · rename_i hp
      rw [Tab.find?, if_neg, ih]
      rintro rfl
      rw [h] at hp
      cases hp
    · exact ih

theorem accountRead_writes (hj : s.judges m = true) (hl : lenIs m 8 1 = true) (hd : descsOk s m (descsAt m.payload 8 1) [true] = true)
    (hr : reservedZero m.payload 8 [(0, 1)] = true) (hf : fieldAt m.payload 0 1 = m.fn)
    (hroom : hostRoom m.payload 8 (s.accounts (m.fn == 0) [m.fn.val]).length = true) :
    ∃ t, exec (.accountRead m) s = .next t ∧ t.answers m 0 [] ∧
      t.hostMem = Mem.writeN s.hostMem (fieldAt m.payload 8 8) (s.accounts (m.fn == 0) [m.fn.val]) ∧
      (m.fn = 0 → t.fnp.closed.find? 0 = none) ∧ s.onlyChanges t [.hostMem, .keeper, .fnp, .outbox] := by
  have hexists : s.fnExists m.fn = true := by
    have := State.open_iff.1 (State.judges_iff.1 hj).1
    simp_all
  have hpf : (m.fn.val == 0) = (m.fn == 0) := by
    rw [Bool.eq_iff_iff, beq_iff_eq, beq_iff_eq, Fin.ext_iff]
    rfl
  have hall : (m.fn.val == 0xFF) = false := beq_eq_false_iff_ne.2 (by have := m.fn.isLt; omega)
  have hle : decide (16 < m.fn.val) = false := decide_eq_false (by have := m.fn.isLt; omega)
  have ht : exec (.accountRead m) s = .next ((s.copyOut m (descsAt m.payload 8 1) (s.accounts (m.fn == 0) [m.fn.val])).closeRead (m.fn == 0) [m.fn.val]) := by
    refine (exec_judged hj rfl Bool.noConfusion hl).trans (congrArg Host.Outcome.next ?_)
    simp only [hd, hr, hf, hall, hle, hpf, hexists, Bool.not_true, Bool.false_eq_true, if_false, Bool.or_self, Bool.and_false,
      List.all_cons, List.all_nil, Bool.and_true, Bool.or_true, beq_self_eq_true]
    exact if_neg (extentBytes_of_hostRoom hroom)
  rw [State.copyOut_hostRoom _ hroom] at ht
  obtain ⟨t, ht', ha, hmem, ho⟩ := copiedOut (ps := [.hostMem, .keeper, .fnp, .outbox]) ht (State.only_closeRead _ _ _) (by decide) (by decide)
    (State.onlyChanges_mono (State.onlyChanges_then (ps := [.hostMem, .keeper, .fnp, .outbox]) (by simp) (State.only_closeRead _ _ _)) (by decide))
  obtain rfl : t = _ := Host.Outcome.next.inj (ht'.symm.trans ht)
  refine ⟨_, ht, ha, hmem, fun h0 => ?_, ho⟩
  rw [State.closeRead, if_pos (by rw [h0]; rfl), State.setFnp_fnp]
  exact Tab.find?_filter_none _ _ _ fun v => by rw [h0]; rfl

/-- Settles O8. -/
theorem recordsAreCopiedOut : Obligations.RecordsAreCopiedOut := by
  unfold Obligations.RecordsAreCopiedOut
  intro m s hj
  refine ⟨fun hf hl hd hr hroom => ?_, fun hl hd hr hf hroom => ?_, fun tb hf hl hd htb hroom => ?_, fun hf hl hd hlead hroom => ?_,
    fun hl hd hroom => ?_, fun hf hl hd hdebug hok hbusy hroom => ?_⟩
  · rw [← s.length_healthRecord] at hroom
    have ht := exec_judged hj (i := .healthRead m) rfl (fun _ => hf) hl
    simp only [hd, hr, Bool.not_true, Bool.false_eq_true, if_false, s.copyOut_hostRoom hroom] at ht
    obtain ⟨t, ht, ha, hmem, ho⟩ := copiedOut ht (ps := [.hostMem, .keeper, .fnp, .outbox]) (State.onlyChanges_refl _ []) (by simp) (by simp) (by simp)
    exact ⟨t, ht, ha, s.length_healthRecord, hmem, ho⟩
  · exact accountRead_writes hj hl hd hr hf hroom
  · have ht := exec_judged hj (i := .sizeTableRead m) rfl (fun _ => hf) hl
    simp only [hd, htb, Bool.not_true, Bool.false_eq_true, if_false, s.copyOut_hostRoom hroom] at ht
    exact copiedOut ht (State.onlyChanges_refl _ []) (by simp) (by simp) (by simp)
  · rw [← s.length_fogBytes] at hroom
    obtain ⟨t, ht, ha, hmem, hlink, ho⟩ := fogRead_writes hj hf hl hd hlead hroom
    exact ⟨t, s.fogBytes, ht, ha, s.length_fogBytes, s.take_fogBytes, hmem, hlink, ho⟩
  · have ht := exec_judged hj (i := .daymarkRead m) rfl nofun hl
    simp only [hd, Bool.not_true, Bool.false_eq_true, if_false, s.copyOut_hostRoom hroom] at ht
    exact copiedOut ht (State.onlyChanges_refl _ []) (by simp) (by simp) (by simp)
  · have ht := exec_judged hj (i := .accRead m) rfl (fun _ => hf) hl
    simp only [hd, hdebug, hok, hbusy, Bool.not_true, Bool.false_eq_true, if_false, s.copyOut_hostRoom hroom] at ht
    exact copiedOut ht (qs := [.fresh]) (State.only_setFresh _ _ (by simp)) (by simp) (by simp) (by simp)

end
end Sys2Proof.Machine
end

/-! # O9: the pairing moves -/

section
namespace Sys2Proof.Machine
open Sys2Proof
section
variable {s t u : State} {f g : Nat} {m : MCmd}

/-! ### Events enter a function's ring, and long operations end -/

@[simp] theorem State.ops_raise (s : State) (f v : Nat) : (s.raise f v).keeper.ops = s.keeper.ops := by
  have hk : (s.raise f v).keeper = s.keeper := State.same_of_but (p := .keeper) (by simp)
  rw [hk]

@[simp] theorem State.ops_setMbox (s : State) (f : Nat) (b : Mailbox) : (s.setMbox f b).keeper.ops = s.keeper.ops := rfl

@[simp] theorem State.ops_setCause (s : State) (f bit v : Nat) : (s.setCause f bit v).keeper.ops = s.keeper.ops := by
  obtain ⟨-, hk, -⟩ := State.onlyMailbox_setCause s f bit v
  rw [hk]

@[simp] theorem State.ops_complete (s : State) (m : MCmd) (code : Nat) (resp : List Byte) : (s.complete m code resp).keeper.ops = s.keeper.ops := by
  obtain ⟨-, hk, -⟩ := State.onlyMailbox_complete s m code resp
  rw [hk]

theorem State.onlyMailbox_deliver (s : State) (f : Nat) (e : Event) : s.onlyMailbox (s.deliver f e) f := by
  unfold State.deliver
  simp only []
  split
  · exact s.onlyMailbox_refl f
  split
  · split
    · exact State.onlyMailbox_trans (s.onlyMailbox_setMbox f _) (State.onlyMailbox_setCause _ f _ _)
    · exact s.onlyMailbox_setMbox f _
  · exact State.onlyMailbox_trans (State.onlyMailbox_trans (s.onlyMailbox_setMbox f _) (State.onlyMailbox_setMbox _ f _)) (State.onlyMailbox_raise _ f _)

@[simp] theorem State.ops_deliver (s : State) (f : Nat) (e : Event) : (s.deliver f e).keeper.ops = s.keeper.ops := by
  obtain ⟨-, hk, -⟩ := State.onlyMailbox_deliver s f e
  rw [hk]

@[simp] theorem State.ops_post (s : State) (f code seq : Nat) (data : List Byte) : (s.post f code seq data).keeper.ops = s.keeper.ops := by
  unfold State.post
  simp only []
  split
  · rfl
  · simp

/-- An ended operation leaves the table with those like it. -/
@[simp] theorem State.ops_opDone (s : State) (o : LongOp) (code : Nat) :
    (s.opDone o code).keeper.ops = s.keeper.ops.filter (fun p => !(p.fn == o.fn && p.seq == o.seq && p.kind == o.kind)) := by
  simp [State.opDone]

theorem State.not_mem_ops_opDone (s : State) (o : LongOp) (code : Nat) : o ∉ (s.opDone o code).keeper.ops := by
  simp

/-- An event delivered to a function that is there enters its ring, or is held for it. -/
theorem State.entered_deliver (hf : s.fnExists f = true) (hr : (s.fnSt f).resetting = false) (e : Event) : s.entered (s.deliver f e) f e := by
  unfold State.entered State.deliver
  simp only [hf, hr, Bool.not_true, Bool.or_self, Bool.false_eq_true, if_false]
  split
  · split <;> simp [State.mbox_setCause]
  · simp

theorem State.postsTo_iff : s.postsTo f = true ↔
    s.fnExists f = true ∧ (s.fnSt f).resetting = false ∧ s.keeper.isOpen = true ∧ s.keeper.kbusy = false := by
  simp [State.postsTo, and_assoc]

theorem State.entered_post (h : s.postsTo f = true) (code seq : Nat) (data : List Byte) :
    s.entered (s.post f code seq data) f { code := code, fn := f, seq := seq, data := data } := by
  obtain ⟨hf, hr, ho, hb⟩ := State.postsTo_iff.1 h
  unfold State.post
  simp only [ho, hb, Bool.not_true, Bool.or_self, Bool.false_eq_true, if_false]
  exact State.entered_deliver hf hr _

/-- An event entered after other changes entered the ring as it was, when they leave the mailbox alone. -/
theorem State.entered_from {e : Event} (h : u.mbox f = s.mbox f) (he : u.entered t f e) : s.entered t f e := by
  unfold State.entered at he ⊢
  rwa [h] at he

theorem State.entered_to {e : Event} (h : u.mbox f = t.mbox f) (he : s.entered t f e) : s.entered u f e := by
  unfold State.entered at he ⊢
  rwa [h]

/-- An operation's end is posted after changes that leave the mailbox and the function alone. -/
theorem State.entered_opDone {o : LongOp} (hm : u.mbox o.fn = s.mbox o.fn) (hp : u.postsTo o.fn = s.postsTo o.fn) (h : s.postsTo o.fn = true) (code : Nat) :
    s.entered (u.opDone o code) o.fn { code := 1, fn := o.fn, seq := o.seq, data := opDoneData code o.opcode [] } := by
  unfold State.opDone
  refine State.entered_from (u := u.setKeeper _) ?_ (State.entered_post ?_ _ _ _)
  · exact hm
  · exact hp.trans h

end
end Sys2Proof.Machine
end

section
namespace Sys2Proof.Machine
open Sys2Proof
section
variable {s t u : State} {f g : Nat} {m : MCmd}

/-! ### O9: the pairing moves -/

theorem State.answers_accept (s : State) (m : MCmd) (k : OpKind) (opcode : Nat) : (s.accept m k opcode).answers m 0x01 [] :=
  State.answers_complete _ _ _ _

/-- An accepted command is among the Keeper's long operations. -/
@[simp] theorem State.ops_accept (s : State) (m : MCmd) (k : OpKind) (opcode : Nat) : (s.accept m k opcode).keeper.ops =
    s.keeper.ops ++ [{ kind := k, fn := m.fn, seq := m.seq, opcode := opcode, payload := m.payload }] := by
  simp [State.accept]

@[simp] theorem State.pair_accept (s : State) (m : MCmd) (k : OpKind) (opcode : Nat) : (s.accept m k opcode).pair = s.pair :=
  State.same_of_but (p := .pair) (by simp)

@[simp] theorem State.mem_accept (s : State) (m : MCmd) (k : OpKind) (opcode : Nat) : (s.accept m k opcode).mem = s.mem :=
  State.same_of_but (p := .mem) (by simp)

@[simp] theorem State.prog_accept (s : State) (m : MCmd) (k : OpKind) (opcode : Nat) : (s.accept m k opcode).prog = s.prog :=
  State.same_of_but (p := .prog) (by simp)

@[simp] theorem State.pair_opDone (s : State) (o : LongOp) (code : Nat) : (s.opDone o code).pair = s.pair :=
  State.same_of_but (p := .pair) (by simp)

@[simp] theorem State.mem_opDone (s : State) (o : LongOp) (code : Nat) : (s.opDone o code).mem = s.mem :=
  State.same_of_but (p := .mem) (by simp)

@[simp] theorem State.prog_opDone (s : State) (o : LongOp) (code : Nat) : (s.opDone o code).prog = s.prog :=
  State.same_of_but (p := .prog) (by simp)

theorem Tab.del_of_find?_none {α : Type} (t : Tab α) (k : Nat) (h : t.find? k = none) : t.del k = t := by
  rw [Tab.del, List.filter_eq_self]
  intro e he
  have := Tab.find?_of_mem he
  simp only [bne_iff_ne, ne_eq]
  rintro rfl
  exact this h

@[simp] theorem State.progs_shrinkWindow (s : State) (f : Fn) (n : Nat) : (s.shrinkWindow f n).prog.progs = s.prog.progs := by
  unfold State.shrinkWindow
  simp only [State.setArr_prog, State.setProg_prog]
  rw [State.foldl_keeps (fun s => s.prog) (fun s k => State.same_of_but (p := .prog) (by simp))]

@[simp] theorem State.progs_retireProg (s : State) (h : Nat) : (s.retireProg h).prog.progs = s.prog.progs.del h := by
  have dropped : ((s.dropWork h).cutSteps (fun x => x.prog == h) []).prog = s.prog := State.same_of_but (p := .prog) (by simp)
  unfold State.retireProg
  split
  · exact (Tab.del_of_find?_none _ _ ‹_›).symm
  · simp only [State.setServe_prog, State.setProg_prog, State.progs_shrinkWindow, State.setTier_prog, dropped]

/-- Retiring the programs of a list of handles takes their entries away. -/
theorem State.progs_retires (l : List Nat) : ∀ s : State,
    (l.foldl (fun s h => s.retireProg h) s).prog.progs = List.filter (fun e => !l.contains e.1) s.prog.progs := by
  induction l with
  | nil => intro s; simp
  | cons h l ih =>
    intro s
    rw [List.foldl_cons, ih, State.progs_retireProg, Tab.del, List.filter_filter]
    congr 1
    funext e
    by_cases he : e.1 = h <;> simp [he]

theorem State.progs_retireAll (s : State) : s.retireAll.prog.progs = [] := by
  unfold State.retireAll
  simp only [State.setProg_prog, State.progs_retires]
  rw [List.filter_eq_nil_iff]
  intro e he
  simpa using ⟨e.2, he⟩

theorem pairLoad_loads (hj : s.judges m = true) (hf : m.fn = 0) (hl : lenIs m 64 3 = true ∨ lenIs m 64 4 = true)
    (hd : descsOk s m (descsAt m.payload 64 m.ndesc) (List.replicate m.ndesc false) = true) (hx : s.excluded = false)
    (he : s.pair.state = .empty) (hr : reservedZero m.payload 64 [(0, 29), (32, 29)] = true) (ht : modelOk (modelAt m.payload 0) = true)
    (hu : modelOk (modelAt m.payload 32) = true) (hw : (modelAt m.payload 32).wfmt = 3)
    (hv : (modelAt m.payload 0).vocab = (modelAt m.payload 32).vocab) (hi : s.inputLost m (descsAt m.payload 64 m.ndesc) = false) :
    ∃ t, exec (.pairLoad m true) s = .next t ∧ t.answers m 0x01 [] ∧ t.pair.state = .loading ∧
      t.pair.teacher = some (modelAt m.payload 0) ∧ t.pair.student = some (modelAt m.payload 32) ∧
      (∃ o ∈ t.keeper.ops, o.kind = .pairLoad ∧ o.seq = m.seq) ∧ t.mem = s.mem := by
  have hexec := exec_judged hj (i := .pairLoad m true) rfl (fun _ => hf) (by simpa using hl)
  simp only [hd, hx, he, hr, ht, hu, hw, hv, hi, Bool.not_true, Bool.false_eq_true, if_false, ne_eq, not_true_eq_false, Bool.or_self,
    bne_self_eq_false] at hexec
  refine ⟨_, hexec, State.answers_accept _ _ _ _, by simp, by simp, by simp, ⟨_, by rw [State.ops_accept]; exact List.mem_append_right _ (List.mem_singleton.2 rfl), rfl, rfl⟩, by simp⟩

theorem pairLoadDone_places {r : LoadResult} {o : LongOp} (ho : s.findOp .pairLoad = some o) (hb : s.keeper.kbusy = false)
    (hr : r.readable = true) (ht : s.pair.teacher = some r.teacher) (hu : s.pair.student = some r.student) (hd : r.digestsOk = true)
    (hfit : s.loadFits r = true) : ∃ t, exec (.pairLoadDone r) s = .next t ∧ t.pair.state = .resident ∧ t.mem = Mem.place s.mem r.placed ∧
      o ∉ t.keeper.ops ∧
      (s.postsTo o.fn = true → s.entered t o.fn { code := 1, fn := o.fn, seq := o.seq, data := opDoneData 0 o.opcode [] }) := by
  have hexec : exec (.pairLoadDone r) s = execPairLoadDone r s := rfl
  simp only [execPairLoadDone, ho, hb, hr, ht, hu, hd, hfit, bne_self_eq_false, Bool.not_true, Bool.or_self, Bool.false_eq_true, if_false,
    ne_eq, not_true_eq_false] at hexec
  exact ⟨_, hexec, by simp, by simp, State.not_mem_ops_opDone _ _ _, fun h => by refine State.entered_opDone ?_ ?_ h _ <;> rfl⟩

theorem State.pair_retireAll (s : State) : s.retireAll.pair = s.pair := State.same_of_but (p := .pair) (by simp)

/-- The end of a held refresh posts its event and changes the Keeper and the messages alone. -/
theorem State.only_refreshOver (s : State) (h : HeldRefresh) (k : OpKind) (code : Nat) :
    s.onlyChanges (s.refreshOver h k code) [.keeper, .fnp, .outbox] := by
  simp

/-- The end of a refresh that may be held. -/
def State.dropHeld (s : State) (h : Option HeldRefresh) (k : OpKind) : State := match h with
  | none => s
  | some h => s.refreshOver h k codeSuperseded

theorem State.only_dropHeld (s : State) (h : Option HeldRefresh) (k : OpKind) : s.onlyChanges (s.dropHeld h k) [.keeper, .fnp, .outbox] := by
  cases h with
  | none => exact State.onlyChanges_refl _ _
  | some h => exact State.only_refreshOver _ _ _ _

/-- The state in which an unload is accepted: programs retired, held refreshes ended. -/
def State.unloaded (s : State) : State :=
  let u := (s.setPair { s.pair with state := .unloading }).retireAll
  let v := (u.dropHeld u.pair.heldTeacher .refreshTeacher).dropHeld u.pair.heldStudent .refreshStudent
  v.setPair { v.pair with heldTeacher := none, heldStudent := none }

theorem State.state_unloaded (s : State) : s.unloaded.pair.state = .unloading := by
  have dropped : ∀ (u : State) x y, ((u.dropHeld x .refreshTeacher).dropHeld y .refreshStudent).pair = u.pair := fun u x y =>
    (State.only_dropHeld _ _ _ .pair (by simp)).trans (State.only_dropHeld _ _ _ .pair (by simp))
  simp only [State.unloaded, State.setPair_pair, dropped, State.pair_retireAll]

theorem State.progs_unloaded (s : State) : s.unloaded.prog.progs = [] := by
  have dropped : ∀ (u : State) x y, ((u.dropHeld x .refreshTeacher).dropHeld y .refreshStudent).prog = u.prog := fun u x y =>
    (State.only_dropHeld _ _ _ .prog (by simp)).trans (State.only_dropHeld _ _ _ .prog (by simp))
  simp only [State.unloaded, State.setPair_prog, dropped, State.progs_retireAll]

theorem exec_pairUnload (hj : s.judges m = true) (hf : m.fn = 0) (hl : lenIs m 0 0 = true) (hx : s.excluded = false)
    (hp : s.pair.state = .resident) (ha : s.run.active = false) : exec (.pairUnload m) s = .next (s.unloaded.accept m .pairUnload 0x101) := by
  refine (exec_judged hj (i := .pairUnload m) rfl (fun _ => hf) hl).trans ?_
  simp only []
  rw [if_neg (by simp [hx]), if_neg (by simp [hp, ha])]
  rfl

/-! ### Refreshes -/

/-- A refresh held in the place of another. -/
theorem exec_refresh {img : WeightImage} {k : Nat} (hj : s.judges m = true) (hf : m.fn = 0) (hl : lenIs m 8 1 = true)
    (hd : descsOk s m (descsAt m.payload 8 m.ndesc) (List.replicate m.ndesc false) = true) (hp : s.pair.state = .resident)
    (hr : reservedZero m.payload 8 [(0, 1)] = true) (hi : s.inputLost m (descsAt m.payload 8 m.ndesc) = false)
    (hk : fieldAt m.payload 0 1 = k) (hk1 : k ≤ 1) (hdims : (if k = 0 then s.pair.teacher else s.pair.student) = some img.dims) :
    exec (.refresh m img) s = .next ((s.holdRefresh { fn := m.fn, seq := m.seq, img := { img with state := none } } (k == 1)).accept m
      (if k = 1 then .refreshStudent else .refreshTeacher) 0x102) := by
  have hn : m.ndesc = 1 := by
    simp only [lenIs, Bool.and_eq_true, beq_iff_eq] at hl
    exact hl.1.2
  rw [hn] at hd hi
  have hle : decide (1 < k) = false := decide_eq_false (by omega)
  refine (exec_judged hj (i := .refresh m img) rfl (fun _ => hf) (by simp [hl])).trans ?_
  simp only [hd, hp, hr, hi, hk, hle, hdims, hn, Bool.not_true, Bool.false_eq_true, if_false, ne_eq, not_true_eq_false, Bool.or_self,
    bne_self_eq_false, OfNat.one_ne_ofNat]

theorem State.mem_holdRefresh (s : State) (h : HeldRefresh) (b : Bool) : (s.holdRefresh h b).mem = s.mem :=
  State.same_of_but (p := .mem) (by simp)

theorem State.heldTeacher_holdRefresh (s : State) (h : HeldRefresh) : (s.holdRefresh h false).pair.heldTeacher = some h := by
  simp only [State.holdRefresh, Bool.false_eq_true, if_false, State.setPair_pair]

theorem State.heldStudent_holdRefresh (s : State) (h : HeldRefresh) : (s.holdRefresh h true).pair.heldStudent = some h := by
  simp only [State.holdRefresh, if_true, State.setPair_pair]

@[simp] theorem State.target_setTarget_same (s : State) (k : Nat) (e : TargetSt) : (s.setTarget k e).target k = e := Tab.get_set_same _ _ _ _

theorem State.target_setTarget_other (s : State) {k j : Nat} (e : TargetSt) (h : j ≠ k) : (s.setTarget k e).target j = s.target j :=
  Tab.get_set_other _ _ _ h

/-- The targets of a list without repeats are turned over once. -/
theorem State.target_flips (l : List Nat) (hl : l.Nodup) (k : Nat) : ∀ s : State,
    ((l.foldl (fun s t => s.setTarget t { s.target t with parity := !(s.target t).parity }) s).target k) =
      if k ∈ l then { s.target k with parity := !(s.target k).parity } else s.target k := by
  induction l with
  | nil => intro s; simp
  | cons t l ih =>
    intro s
    obtain ⟨ht, hl⟩ := List.nodup_cons.1 hl
    rw [List.foldl_cons, ih hl]
    by_cases hk : k = t
    · subst hk
      simp [ht]
    · simp [hk, State.target_setTarget_other s _ hk]

theorem State.pair_applyTeacher (s : State) (img : WeightImage) :
    (s.applyTeacher img).pair = { s.pair with parity := !s.pair.parity, refreshes := s.pair.refreshes + 1 } := by
  unfold State.applyTeacher
  simp only []
  rw [State.foldl_keeps (fun s => s.pair) (f := fun s t => s.setTarget t { s.target t with parity := !(s.target t).parity }) (fun _ _ => rfl)]
  rfl

theorem State.mem_applyTeacher (s : State) (img : WeightImage) : (s.applyTeacher img).mem = Mem.place s.mem img.placed := by
  unfold State.applyTeacher
  simp only []
  rw [State.foldl_keeps (fun s => s.mem) (f := fun s t => s.setTarget t { s.target t with parity := !(s.target t).parity }) (fun _ _ => rfl)]
  rfl

theorem State.target_applyTeacher (s : State) (img : WeightImage) {k : Nat} (hk : k < 4) :
    (s.applyTeacher img).target k = { s.target k with parity := !(s.target k).parity } :=
  (State.target_flips (List.range 4) List.nodup_range k _).trans (if_pos (List.mem_range.2 hk))

/-- Settles O9. -/
theorem pairingMoves : Obligations.PairingMoves := by
  unfold Obligations.PairingMoves
  refine ⟨fun m s hj hf hl hd hx he hr ht hu hw hv hi => pairLoad_loads hj hf hl hd hx he hr ht hu hw hv hi,
    fun r o s ho hb hr ht hu hd hfit => pairLoadDone_places ho hb hr ht hu hd hfit, fun m s hj hf hl hx hp ha => ?_, fun o s ho hb => ?_,
    fun m img s hj hf hl hd hp hr hi => ⟨fun hk hdims => ?_, fun hk hdims => ?_⟩, fun h s ha hb hh => ?_⟩
  · refine ⟨_, exec_pairUnload hj hf hl hx hp ha, State.answers_accept _ _ _ _, ?_, ?_, ?_, ?_⟩
    · rw [State.pair_accept, State.state_unloaded]
    · rw [State.prog_accept, State.progs_unloaded]
    · rw [State.pair_accept]
      rfl
    · rw [State.pair_accept]
      rfl
  · have hexec : exec .pairUnloadDone s = execPairUnloadDone s := rfl
    simp only [execPairUnloadDone, ho, hb, Bool.false_eq_true, if_false] at hexec
    exact ⟨_, hexec, by simp, by simp, State.not_mem_ops_opDone _ _ _, by simp⟩
  · refine ⟨_, exec_refresh hj hf hl hd hp hr hi hk (by decide) hdims, State.answers_accept _ _ _ _, ?_, ?_⟩
    · rw [State.pair_accept]
      exact State.heldTeacher_holdRefresh _ _
    · rw [State.mem_accept, State.mem_holdRefresh]
  · refine ⟨_, exec_refresh hj hf hl hd hp hr hi hk (by decide) hdims, State.answers_accept _ _ _ _, ?_, ?_⟩
    · rw [State.pair_accept]
      exact State.heldStudent_holdRefresh _ _
    · rw [State.mem_accept, State.mem_holdRefresh]
  · have hexec : exec (.refreshDone 0 true) s = execRefreshDone 0 true s := rfl
    simp only [execRefreshDone, State.applyHeldTeacher, ha, hb, hh, Bool.false_eq_true, if_false, if_true] at hexec
    have only : ∀ u : State, u.onlyChanges (u.refreshOver h .refreshTeacher codeOk) [.keeper, .fnp, .outbox] := fun u => State.only_refreshOver _ _ _ _
    have hpair : ∀ u : State, (u.refreshOver h .refreshTeacher codeOk).pair = u.pair := fun u => only u .pair (by simp)
    have hmem : ∀ u : State, (u.refreshOver h .refreshTeacher codeOk).mem = u.mem := fun u => only u .mem (by simp)
    have htgt : ∀ u : State, (u.refreshOver h .refreshTeacher codeOk).tgt = u.tgt := fun u => only u .tgt (by simp)
    refine ⟨_, hexec, by rw [hpair]; rfl, by rw [hpair]; simp [State.pair_applyTeacher], by rw [hmem]; exact State.mem_applyTeacher _ _, fun k hk => ?_⟩
    rw [State.target, htgt]
    exact congrArg TargetSt.parity (State.target_applyTeacher s h.img hk)

end
end Sys2Proof.Machine
end

/-! # O10 to O12: programs, runs and requests -/

section
namespace Sys2Proof.Machine
open Sys2Proof
section
variable {s t u : State} {f g h : Nat} {m : MCmd} {p q : Prog}

/-! ### O10: programs are submitted, retired and restarted -/

/-- Settling a program can only complete it. -/
theorem State.progAt_settleProg (hp : s.progAt h = some p) :
    ∃ st, (s.settleProg h).progAt h = some { p with state := st } ∧ (st = p.state ∨ st = .completed) := by
  rw [State.progAt] at hp
  unfold State.settleProg
  rw [hp]
  simp only []
  split
  · exact ⟨.completed, Tab.find?_set_same _ _ _, .inr rfl⟩
  · exact ⟨p.state, hp, .inl rfl⟩

theorem Tab.le_of_freeFrom {α : Type} (t : Tab α) (fuel : Nat) : ∀ n k, t.freeFrom fuel n = some k → n ≤ k := by
  induction fuel with
  | zero => exact fun _ _ h => nomatch h
  | succ fuel ih =>
    intro n k h
    rw [Tab.freeFrom] at h
    split at h
    · exact (Nat.le_succ n).trans (ih _ _ h)
    · cases h
      exact le_rfl

@[simp] theorem State.progs_commitKeys (s : State) (f : Fn) (ks : List DWord) : (s.commitKeys f ks).prog.progs = s.prog.progs := by
  have commit : ∀ (u : State) j k, (u.commitKey f.val j k).prog = u.prog := fun u j k => State.same_of_but (p := .prog) (by simp)
  unfold State.commitKeys
  simp only []
  rw [State.foldl_keeps (fun s => s.prog) (f := fun s (x : DWord × Nat) => s.commitKey f.val (x.2 + 1) x.1) (fun s x => commit _ _ _)]
  split
  · rfl
  · rw [commit]
    rfl

@[simp] theorem State.prog_complete (s : State) (m : MCmd) (code : Nat) (resp : List Byte) : (s.complete m code resp).prog = s.prog :=
  State.same_of_but (p := .prog) (by simp)

theorem State.settleProg_keeper (s : State) (h : Nat) : (s.settleProg h).keeper = s.keeper := State.same_of_but (p := .keeper) (by simp)

/-- A program installed and its submission completed. -/
def State.submitted (s : State) (m : MCmd) (h : Nat) (img : ProgImage) (regions : List Nat) : State :=
  let s := s.growWindow m.fn img.slots
  let s := s.setProg { s.prog with
    progs := s.prog.progs.set h { fn := m.fn, img := img, state := startState img, regions := regions, ended := [] },
    groups := img.groups.foldl (fun t d => t.set d.desc (img.mirrored d)) s.prog.groups }
  let s := ((s.commitKeys m.fn ((List.range 3).map (fun j => BitVec.ofNat 64 (fieldAt m.payload (8 * j) 8)))).commitGroups img).replaceProg 0 h
  let w := s.window m.fn.val
  s.complete m codeOk (leBytes 2 h ++ leBytes 1 w.base ++ leBytes 1 w.size ++ leBytes 2 img.worst.length ++ [0, 0] ++ s.worstEntries img)

theorem State.progAt_submitted (s : State) (m : MCmd) (h : Nat) (img : ProgImage) (regions : List Nat) :
    (s.submitted m h img regions).progAt h = some { fn := m.fn, img := img, state := startState img, regions := regions, ended := [] } := by
  have kept : ∀ (u : State) ks, (((u.commitKeys m.fn ks).commitGroups img).replaceProg 0 h).prog.progs = u.prog.progs := fun u ks => by
    rw [State.replaceProg, if_pos rfl]
    exact (congrArg ProgPart.progs (State.same_of_but (p := .prog) (by simp))).trans (u.progs_commitKeys m.fn ks)
  unfold State.submitted
  simp only []
  rw [State.progAt, State.prog_complete, kept]
  exact Tab.find?_set_same _ _ _

/-- A program submitted with nothing in its way. -/
theorem progSubmit_installs {img : ProgImage} {x : State × List Nat} (hj : s.judges m = true) (hl : lenIs m 32 1 = true)
    (hd : descsOk s m (descsAt m.payload 32 1) [false] = true) (hr : reservedZero m.payload 32 [(0, 26)] = true) (hs : img.signed = true)
    (hi : s.inputLost m (descsAt m.payload 32 1) = false) (hdecl : declaresOk img = true) (hold : fieldAt m.payload 24 2 = 0)
    (hfree : s.prog.progs.freeFrom 65535 1 = some h) (hb : s.customBusy img 0 = false) (hg : groupsOk img = true) (hn : img.slots ≤ 32)
    (ht : s.groupTaken img 0 = false) (hc : s.submitCheck m.fn h img = none) (hm : s.takeMemory m.fn h img = some x) :
    ∃ t r p, exec (.progSubmit m img) s = .next t ∧ t.answers m 0 r ∧ r.take 2 = leBytes 2 h ∧ t.progAt h = some p ∧ p.img = img ∧
      p.fn = m.fn ∧ p.regions = x.2 := by
  have hh : h ≠ 0 := by have := Tab.le_of_freeFrom _ _ _ _ hfree; omega
  have hslots : decide (32 < img.slots) = false := decide_eq_false (by omega)
  have hexec := exec_judged hj (i := .progSubmit m img) rfl Bool.noConfusion hl
  simp only [hd, hr, hs, hi, hdecl, hold, hfree, hb, hg, ht, hc, hm, hh, hslots, Bool.not_true, Bool.false_eq_true, if_false, bne_self_eq_false,
    Bool.false_and, Option.getD_some, Bool.or_self] at hexec
  obtain ⟨st, hp, -⟩ := State.progAt_settleProg (State.progAt_submitted x.1 m h img x.2)
  refine ⟨_, _, _, hexec, State.answers_of_keeper (State.settleProg_keeper _ _) (State.answers_complete _ _ _ _), ?_, hp, rfl, rfl, rfl⟩
  simp only [List.append_assoc]
  exact List.take_left' (length_leBytes _ _)

theorem State.progAt_of_progFor {f : Fn} (hq : s.progFor f h = some q) : s.progAt h = some q := by
  obtain ⟨p, hp, hpq⟩ := Option.bind_eq_some_iff.1 hq
  split at hpq
  · cases hpq
    exact hp
  · cases hpq

/-- A retired program's regions are freed. -/
theorem State.regions_retireProg (hp : s.progAt h = some p) :
    (s.retireProg h).tier.regions = List.filter (fun e => !p.regions.contains e.1) s.tier.regions := by
  have dropped : ((s.dropWork h).cutSteps (fun x => x.prog == h) []).tier = s.tier := State.same_of_but (p := .tier) (by simp)
  have shrunk : ∀ (u : State) f n, (u.shrinkWindow f n).tier = u.tier := fun u f n => State.same_of_but (p := .tier) (by simp)
  unfold State.retireProg
  rw [hp]
  simp only [State.setServe_tier, State.setProg_tier, shrunk, State.setTier_tier, dropped]

theorem progRetire_retires (hj : s.judges m = true) (hl : lenIs m 8 0 = true) (hr : reservedZero m.payload 8 [(0, 2)] = true)
    (hq : s.progFor m.fn (fieldAt m.payload 0 2) = some q) (ha : s.run.active = false ∨ s.run.prog ≠ fieldAt m.payload 0 2) :
    ∃ t, exec (.progRetire m) s = .next t ∧ t.answers m 0 [] ∧ t.progAt (fieldAt m.payload 0 2) = none ∧
      (∀ k ∈ q.regions, t.tier.regions.find? k = none) ∧ t.mem = s.mem := by
  have hrun : (s.run.active && s.run.prog == fieldAt m.payload 0 2) = false := by rcases ha with h | h <;> simp [h]
  have hexec := exec_judged hj (i := .progRetire m) rfl Bool.noConfusion hl
  simp only [hr, hq, hrun, Bool.not_true, Bool.false_eq_true, if_false] at hexec
  have hat : ∀ v : ProgPart, v.progs = s.prog.progs → (s.setProg v).progAt (fieldAt m.payload 0 2) = some q := fun v hv => by
    rw [State.progAt, State.setProg_prog, hv]
    exact State.progAt_of_progFor hq
  refine ⟨_, hexec, State.answers_complete _ _ _ _, ?_, fun k hk => ?_, ?_⟩
  · rw [State.progAt, State.prog_complete, State.progs_retireProg]
    exact Tab.find?_del_same _ _
  · have htier : ∀ u : State, (u.complete m codeOk []).tier = u.tier := fun u => State.same_of_but (p := .tier) (by simp)
    rw [htier]
    refine (congrArg (fun t : Tab Region => t.find? k) (State.regions_retireProg (p := q) ?_)).trans ?_
    · exact hat _ rfl
    · exact Tab.find?_filter_none _ _ _ fun v => by simpa using hk
  · exact State.same_of_but (p := .mem) (by simp)

theorem progRestart_restarts (hj : s.judges m = true) (hl : lenIs m 8 0 = true) (hr : reservedZero m.payload 8 [(0, 2)] = true)
    (hq : s.progFor m.fn (fieldAt m.payload 0 2) = some q) (hst : q.state = .faulted ∨ q.state = .completed) :
    ∃ t p, exec (.progRestart m) s = .next t ∧ t.answers m 0 [] ∧ t.progAt (fieldAt m.payload 0 2) = some p ∧ p.state ≠ .faulted ∧
      p.ended = [] ∧ p.img = q.img ∧ s.onlyChanges t [.keeper, .fnp, .outbox, .prog] := by
  have hst' : (q.state == .faulted || q.state == .completed) = true := by rcases hst with h | h <;> rw [h] <;> rfl
  have hexec := exec_judged hj (i := .progRestart m) rfl Bool.noConfusion hl
  simp only [hr, hq, hst', Bool.not_true, Bool.false_eq_true, if_false] at hexec
  have hset : ∀ p : Prog, ((s.setProg { s.prog with progs := s.prog.progs.set (fieldAt m.payload 0 2) p }).complete m codeOk []).progAt
      (fieldAt m.payload 0 2) = some p := fun p => by
    rw [State.progAt, State.prog_complete]
    exact Tab.find?_set_same _ _ _
  obtain ⟨st, hp, hor⟩ := State.progAt_settleProg (hset { q.fromStart with
    state := if s.run.active && s.run.prog == fieldAt m.payload 0 2 then .running else startState q.img })
  refine ⟨_, _, hexec, State.answers_of_keeper (State.settleProg_keeper _ _) (State.answers_complete _ _ _ _), hp, ?_, rfl, rfl, by simp⟩
  have hstart : startState q.img ≠ .faulted := by unfold startState; split <;> decide
  intro (hf : st = .faulted)
  rw [hf] at hor
  rcases hor with h | h
  · simp only [] at h
    split at h
    · cases h
    · exact hstart h.symm
  · cases h

/-- Settles O10. -/
theorem programsComeAndGo : Obligations.ProgramsComeAndGo := by
  unfold Obligations.ProgramsComeAndGo
  refine ⟨fun m img s h x hj hl hd hr hs hi hdecl hold hfree hb hg hn ht hc hm => ?_, fun m s q hj hl hr hq ha => ?_, fun m s q hj hl hr hq hst => ?_⟩
  · exact progSubmit_installs hj hl hd hr hs hi hdecl hold hfree hb hg hn ht hc hm
  · exact progRetire_retires hj hl hr hq ha
  · exact progRestart_restarts hj hl hr hq hst

end
end Sys2Proof.Machine
end

section
namespace Sys2Proof.Machine
open Sys2Proof
section
variable {s t u : State} {m : MCmd} {q : Prog} {tb : SizeTable} {lasts : List LastStep}

/-! ### O11: a learning run starts and stops -/

/-- What a run's phases, its rejoin and its reports leave of it as it was. -/
def Run.basics (r : Run) : Bool × Nat × Nat × DWord × Word × Bool := (r.active, r.prog, r.step, r.seed, r.lscale, r.bank)

@[simp] theorem State.basics_phaseStart (s : State) (p : Phase) : (s.phaseStart p).run.basics = s.run.basics := by
  unfold State.phaseStart
  split <;> rfl

@[simp] theorem State.run_post (s : State) (f code seq : Nat) (data : List Byte) : (s.post f code seq data).run = s.run :=
  State.same_of_but (p := .run) (by simp)

@[simp] theorem State.basics_startRollouts (s : State) : s.startRollouts.run.basics = s.run.basics :=
  State.foldl_keeps (fun s => s.run.basics) (f := State.startRollout) (fun _ _ => State.basics_phaseStart _ _) _ s

@[simp] theorem State.basics_rejoinAt (s : State) (top : Option Nat) : (s.rejoinAt top).run.basics = s.run.basics := by
  unfold State.rejoinAt
  split
  · rfl
  · simp only []
    split
    · rw [State.run_post]
      rfl
    · rfl

theorem State.bank_flushReports (n : Nat) : ∀ s : State, (State.flushReports n s).run.bank = s.run.bank := by
  induction n with
  | zero => exact fun _ => rfl
  | succ n ih =>
    intro s
    unfold State.flushReports
    split
    · rfl
    split
    · rfl
    · refine (ih _).trans ?_
      simp only []
      split
      · split <;> simp only [State.run_post] <;> rfl
      · rfl

theorem State.bank_writeSummary (s : State) : s.writeSummary.run.bank = s.run.bank := by
  unfold State.writeSummary
  split
  · rfl
  · unfold State.putReport
    simp only []
    split
    · rfl
    · rw [State.bank_flushReports]
      rfl

theorem State.bank_settleLast {shards : List ShardDesc} (hlead : s.run.leadLost = false) (hl : ∀ x ∈ lasts, x.lost = false) :
    (s.settleLast lasts shards).run.bank = s.run.bank := by
  have hlost : lasts.any (fun x => x.lost) = false := by simpa using hl
  simp [State.settleLast, hlead, hlost]

/-- A run started: its registers written, its program running, its rollouts begun. -/
def State.runStarted (s : State) (m : MCmd) (lasts : List LastStep) (q : Prog) : State :=
  let p := m.payload
  let ds := descsAt p 56 2
  let h := fieldAt p 0 2
  let top := s.behindAt lasts q.img.shards
  let s := (s.settleLast lasts q.img.shards).writeSummary
  let s := s.setRun (startRun s.run q.fn p (cmdRing m ds 0) (cmdRing m ds 1))
  let s := s.setProg { s.prog with progs := s.prog.progs.set h { q.fromStart with state := .running } }
  let s := ((s.setLead {}).commitKey q.fn.val 0 s.run.seed).writeLscale s.run.lscale
  let s := s.setServe { s.serve with batchClosed := false }
  let s := (if s.reshardsToRollout then s else s.startRollouts).rejoinAt top
  if q.img.pipelined != 0 && !s.spanIdle then s.phaseStart .score else s

theorem exec_runStart (hj : s.judges m = true) (hf : m.fn = 0) (hl : lenIs m 56 2 = true)
    (hd : descsOk s m (descsAt m.payload 56 2) [true, true] = true) (hp : s.pair.state = .resident) (ha : s.run.active = false)
    (hdebug : s.keeper.debug = false) (ht : s.link.table = some tb) (hr : runFieldsOk m.payload = true)
    (hq : s.progAt (fieldAt m.payload 0 2) = some q) (hlearn : q.img.learn = true) (hss : q.img.sspan = tb.sspan) (hls : q.img.lspan = tb.lspan) :
    exec (.runStart m lasts) s = .next ((s.runStarted m lasts q).complete m codeOk []) := by
  refine (exec_judged hj (i := .runStart m lasts) rfl (fun _ => hf) hl).trans ?_
  simp only [hd, hp, ha, hdebug, ht, hr, hq, hlearn, hss, hls, Bool.not_true, Bool.false_eq_true, if_false, ne_eq, not_true_eq_false, bne_self_eq_false,
    Bool.or_self, Option.isNone_some, decide_false, State.runStarted]

theorem State.writeLscale_run (s : State) (v : Word) : (s.writeLscale v).run = s.run := State.same_of_but (p := .run) (by simp)

theorem State.basics_runStarted (s : State) (m : MCmd) (lasts : List LastStep) (q : Prog) :
    (s.runStarted m lasts q).run.basics = (true, fieldAt m.payload 0 2, 0, BitVec.ofNat 64 (fieldAt m.payload 8 8),
      if fieldAt m.payload 16 4 = 0 then 0x47800000 else BitVec.ofNat 32 (fieldAt m.payload 16 4),
      (s.settleLast lasts q.img.shards).run.bank) := by
  have scored : ∀ (u : State) (c : Bool), (if c then u.phaseStart .score else u).run.basics = u.run.basics := by
    intro u c
    split <;> simp
  have rolled : ∀ (u : State) top, ((if u.reshardsToRollout then u else u.startRollouts).rejoinAt top).run.basics = u.run.basics := by
    intro u top
    split <;> simp
  have keyed : ∀ (u : State) k, (u.commitKey q.fn.val 0 k).run = u.run := fun u k => State.same_of_but (p := .run) (by simp)
  unfold State.runStarted
  simp only []
  rw [scored, rolled, State.setServe_run, State.writeLscale_run, keyed]
  simp only [State.setLead_run, State.setProg_run, State.setRun_run, Run.basics, startRun, State.bank_writeSummary]

theorem State.prog_runStarted (s : State) (m : MCmd) (lasts : List LastStep) (q : Prog) :
    (s.runStarted m lasts q).progAt (fieldAt m.payload 0 2) = some { q.fromStart with state := .running } := by
  have scored : ∀ (u : State) (c : Bool), (if c then u.phaseStart .score else u).prog = u.prog := fun u c => State.same_of_but (p := .prog) (by simp)
  have rolled : ∀ (u : State) top, ((if u.reshardsToRollout then u else u.startRollouts).rejoinAt top).prog = u.prog := fun u top =>
    State.same_of_but (p := .prog) (by simp)
  have keyed : ∀ (u : State) k l, ((u.commitKey q.fn.val 0 k).writeLscale l).prog = u.prog := fun u k l => State.same_of_but (p := .prog) (by simp)
  unfold State.runStarted
  simp only []
  rw [State.progAt, scored, rolled, State.setServe_prog, keyed]
  exact Tab.find?_set_same _ _ _

/-- The targets of a list take the loss scale. -/
theorem State.target_writeLscales (v : Word) (l : List Nat) (k : Nat) : ∀ s : State, k ∈ l ∨ (s.target k).lscale = v →
    ((l.foldl (fun s t => s.setTarget t { s.target t with lscale := v }) s).target k).lscale = v := by
  induction l with
  | nil => intro s h; simpa using h
  | cons t l ih =>
    intro s h
    refine ih _ ?_
    by_cases hk : k = t
    · subst hk
      exact .inr (by simp)
    · rw [State.target_setTarget_other s _ hk]
      simpa [hk] using h

theorem State.target_writeLscale (s : State) (v : Word) {k : Nat} (hk : k < 4) : ((s.writeLscale v).target k).lscale = v :=
  State.target_writeLscales v (List.range 4) k s (.inl (List.mem_range.2 hk))

theorem State.target_of_tgt (h : t.tgt = s.tgt) (k : Nat) : t.target k = s.target k := by
  rw [State.target, h, State.target]

theorem State.target_runStarted (s : State) (m : MCmd) (lasts : List LastStep) (q : Prog) {k : Nat} (hk : k < 4) :
    ((s.runStarted m lasts q).target k).lscale =
      if fieldAt m.payload 16 4 = 0 then 0x47800000 else BitVec.ofNat 32 (fieldAt m.payload 16 4) := by
  have scored : ∀ (u : State) (c : Bool), (if c then u.phaseStart .score else u).tgt = u.tgt := fun u c => State.same_of_but (p := .tgt) (by simp)
  have rolled : ∀ (u : State) top, ((if u.reshardsToRollout then u else u.startRollouts).rejoinAt top).tgt = u.tgt := fun u top =>
    State.same_of_but (p := .tgt) (by simp)
  unfold State.runStarted
  simp only []
  rw [State.target_of_tgt (scored _ _), State.target_of_tgt (rolled _ _), State.target_of_tgt (State.setServe_tgt _ _), State.target_writeLscale _ _ hk]
  simp only [State.setProg_run, State.setRun_run, startRun]

theorem State.mem_runStarted (s : State) (m : MCmd) (lasts : List LastStep) (q : Prog) : (s.runStarted m lasts q).mem = s.mem := by
  have scored : ∀ (u : State) (c : Bool), (if c then u.phaseStart .score else u).mem = u.mem := fun u c => State.same_of_but (p := .mem) (by simp)
  have rolled : ∀ (u : State) top, ((if u.reshardsToRollout then u else u.startRollouts).rejoinAt top).mem = u.mem := fun u top =>
    State.same_of_but (p := .mem) (by simp)
  have keyed : ∀ (u : State) k l, ((u.commitKey q.fn.val 0 k).writeLscale l).mem = u.mem := fun u k l => State.same_of_but (p := .mem) (by simp)
  have settled : (s.settleLast lasts q.img.shards).writeSummary.mem = s.mem := State.same_of_but (p := .mem) (by simp)
  unfold State.runStarted
  simp only []
  rw [scored, rolled, State.setServe_mem, keyed, State.setLead_mem, State.setProg_mem, State.setRun_mem, settled]

theorem runStart_starts (hj : s.judges m = true) (hf : m.fn = 0) (hl : lenIs m 56 2 = true)
    (hd : descsOk s m (descsAt m.payload 56 2) [true, true] = true) (hp : s.pair.state = .resident) (ha : s.run.active = false)
    (hdebug : s.keeper.debug = false) (ht : s.link.table = some tb) (hr : runFieldsOk m.payload = true)
    (hq : s.progAt (fieldAt m.payload 0 2) = some q) (hlearn : q.img.learn = true) (hss : q.img.sspan = tb.sspan) (hls : q.img.lspan = tb.lspan) :
    ∃ t, exec (.runStart m lasts) s = .next t ∧ t.answers m 0 [] ∧ t.run.active = true ∧ t.run.prog = fieldAt m.payload 0 2 ∧
      t.run.step = 0 ∧ t.run.seed = BitVec.ofNat 64 (fieldAt m.payload 8 8) ∧
      t.run.lscale = (if fieldAt m.payload 16 4 = 0 then 0x47800000 else BitVec.ofNat 32 (fieldAt m.payload 16 4)) ∧
      (∀ k < 4, (t.target k).lscale = t.run.lscale) ∧
      t.progAt (fieldAt m.payload 0 2) = some { q.fromStart with state := .running } ∧ t.mem = s.mem ∧
      (s.run.leadLost = false → (∀ x ∈ lasts, x.lost = false) → t.run.bank = s.run.bank) := by
  have hrun : ∀ u : State, (u.complete m codeOk []).run = u.run := fun u => State.same_of_but (p := .run) (by simp)
  have htgt : ∀ u : State, (u.complete m codeOk []).tgt = u.tgt := fun u => State.same_of_but (p := .tgt) (by simp)
  have hbasics := State.basics_runStarted s m lasts q
  simp only [Run.basics, Prod.mk.injEq] at hbasics
  obtain ⟨hactive, hprog, hstep, hseed, hlscale, hbank⟩ := hbasics
  refine ⟨_, exec_runStart hj hf hl hd hp ha hdebug ht hr hq hlearn hss hls, State.answers_complete _ _ _ _, ?_, ?_, ?_, ?_, ?_, fun k hk => ?_, ?_, ?_,
    fun hlead hlost => ?_⟩
  · rw [hrun, hactive]
  · rw [hrun, hprog]
  · rw [hrun, hstep]
  · rw [hrun, hseed]
  · rw [hrun, hlscale]
  · rw [hrun, hlscale, State.target_of_tgt (htgt _), State.target_runStarted s m lasts q hk]
  · rw [State.progAt, State.prog_complete]
    exact State.prog_runStarted s m lasts q
  · have hmem : ∀ u : State, (u.complete m codeOk []).mem = u.mem := fun u => State.same_of_but (p := .mem) (by simp)
    rw [hmem, State.mem_runStarted]
  · rw [hrun, hbank, State.bank_settleLast hlead hlost]

/-! ### Snapshots end -/

/-- The end of a snapshot posts its event last, and its mailbox is otherwise as it was. -/
theorem endSnap_ends {x : SnapSt} (hx : s.run.snap = some x) (k : Nat) :
    (s.endSnap k).run.snap = s.run.snapDue.head?.map (fun y => { y with startedAt := s.watch 4 }) ∧ (s.endSnap k).run.snapDue = s.run.snapDue.tail ∧
      (s.postsTo 0 = true → s.entered (s.endSnap k) 0
        { code := 4, fn := 0, seq := (x.seq.map (·.2)).getD 0, data := leBytes 1 (if k = 1 then codeOk else codeIncomplete) ++
            leBytes 1 k ++ List.replicate 6 0 ++ leBytes 8 x.step ++ leBytes 8 x.slot }) := by
  have post : ∀ (u : State) seq c a b d, (u.snapDonePost seq c a b d).run = u.run := fun u seq c a b d => State.same_of_but (p := .run) (by simp)
  have started : ∀ (u : State) (c : Bool), (if c then u.phaseStart .update else u).run.snap = u.run.snap ∧
      (if c then u.phaseStart .update else u).run.snapDue = u.run.snapDue := by
    intro u c
    unfold State.phaseStart
    split
    · split <;> exact ⟨rfl, rfl⟩
    · exact ⟨rfl, rfl⟩
  unfold State.endSnap
  split
  · simp_all
  rename_i y hy
  obtain rfl : y = x := Option.some.inj (hy.symm.trans hx)
  extract_lets now s1 ring ring' s2 next run0 run1 run2 run3 s4 s5
  have h2 : run2.snap = next ∧ run2.snapDue = s.run.snapDue.tail := by
    simp only [run2]
    split <;> exact ⟨rfl, rfl⟩
  have h3 : run3.snap = next ∧ run3.snapDue = s.run.snapDue.tail := by
    simp only [run3]
    split <;> exact h2
  have hkeeper : s5.keeper = s4.keeper := State.same_of_but (p := .keeper) (by simp [s5])
  have hfnp : s5.fnp = s4.fnp := State.same_of_but (p := .fnp) (by simp [s5])
  refine ⟨?_, ?_, fun hpost => State.entered_from (u := s5) ?_ (State.entered_post ?_ _ _ _)⟩
  · rw [post]
    exact (started s4 _).1.trans h3.1
  · rw [post]
    exact (started s4 _).2.trans h3.2
  · rw [State.mbox, hkeeper]
    rfl
  · rw [State.postsTo, State.fnExists, State.fnSt, hkeeper, hfnp]
    exact hpost

@[simp] theorem State.run_accept (s : State) (m : MCmd) (k : OpKind) (opcode : Nat) : (s.accept m k opcode).run = s.run :=
  State.same_of_but (p := .run) (by simp)

@[simp] theorem State.run_complete (s : State) (m : MCmd) (code : Nat) (resp : List Byte) : (s.complete m code resp).run = s.run :=
  State.same_of_but (p := .run) (by simp)

/-- Settles O11. -/
theorem runsStartAndStop : Obligations.RunsStartAndStop := by
  unfold Obligations.RunsStartAndStop
  refine ⟨fun m lasts s q tb hj hf hl hd hp ha hdebug ht hr hq hlearn hss hls => runStart_starts hj hf hl hd hp ha hdebug ht hr hq hlearn hss hls,
    fun m s hj hf hl ha hstop => ?_, fun m s hj hf hl hd hp ha => ?_, fun s x failed hx => ?_, fun s c hup hb => ⟨?_, fun hheld => ?_⟩⟩
  · have hexec := exec_judged hj (i := .runStop m) rfl (fun _ => hf) hl
    simp only [ha, hstop, Bool.not_true, Option.isSome_none, Bool.or_self, Bool.false_eq_true, if_false] at hexec
    refine ⟨_, hexec, State.answers_accept _ _ _ _, by simp only [State.run_accept, State.setRun_run, ha],
      ⟨_, by rw [State.ops_accept]; exact List.mem_append_right _ (List.mem_singleton.2 rfl), rfl, rfl⟩⟩
  · have hexec := exec_judged hj (i := .snapRequest m) rfl (fun _ => hf) (by simp [ha, hl])
    have hds : descsAt m.payload 0 0 = [] := rfl
    simp only [ha, hd, hp, hds, if_true, Bool.not_true, Bool.false_eq_true, if_false, ne_eq, not_true_eq_false] at hexec
    exact ⟨_, hexec, State.answers_complete _ _ _ _, by simp only [State.run_complete, State.setRun_run, ha]⟩
  · obtain ⟨hsnap, hdue, hpost⟩ := endSnap_ends hx (if failed then 2 else 1)
    refine ⟨_, rfl, hsnap, hdue, fun h => ?_⟩
    have := hpost h
    cases failed <;> exact this
  · simp only [exec, execHostRingPoll, hup, hb, Bool.not_true, Bool.or_self, Bool.false_eq_true, if_false, if_true]
  · simp only [exec, execHostRingPoll, hup, hb, hheld, Bool.not_true, Bool.or_self, Bool.false_eq_true, if_false, List.length_nil, State.flushReports]

end
end Sys2Proof.Machine
end

section
namespace Sys2Proof.Machine
open Sys2Proof
section
variable {s t u : State} {m : MCmd} {i g : Nat} {q : Req}

/-! ### O12: requests join, are cancelled and paused; customers are bound and refilled -/

theorem le_roundUp (n : Nat) {g : Nat} (h : 0 < g) : n ≤ roundUp n g := by
  unfold roundUp cdiv
  have := Nat.div_add_mod (n + g - 1) g
  have := Nat.mod_lt (n + g - 1) h
  rw [Nat.mul_comm]
  omega

theorem le_foldl_min {lo : Nat} (l : List Nat) : ∀ a, lo ≤ a → (∀ x ∈ l, lo ≤ x) → lo ≤ l.foldl min a := by
  induction l with
  | nil => exact fun _ h _ => h
  | cons x l ih =>
    exact fun a ha hl => ih _ (le_min ha (hl x List.mem_cons_self)) fun y hy => hl y (List.mem_cons_of_mem _ hy)

/-- The lowest free place is not below the range it is sought in. -/
theorem le_of_lowestFree {busy : List (Nat × Nat)} {lo hi align n a : Nat} (hal : 0 < align) (h : lowestFree busy lo hi align n = some a) :
    lo ≤ a := by
  unfold lowestFree at h
  simp only [] at h
  split at h
  · cases h
  · rename_i b r hfits
    cases h
    have hle : ∀ x ∈ b :: r, lo ≤ x := by
      intro x hx
      rw [← hfits] at hx
      obtain hx | hx := List.mem_cons.1 (List.mem_filter.1 hx).1
      · rw [hx]
        exact le_roundUp _ hal
      · obtain ⟨y, -, rfl⟩ := List.mem_map.1 hx
        exact (le_max_left _ _).trans (le_roundUp _ hal)
    exact le_foldl_min r b (hle b List.mem_cons_self) fun x hx => hle x (List.mem_cons_of_mem _ hx)

theorem State.le_of_place {k align n a : Nat} (hal : 0 < align) (h : s.place 2 k align n = some a) : spadBase k ≤ a := by
  simp only [State.place, tierRange] at h
  exact le_of_lowestFree (lt_of_lt_of_le hal (le_max_left _ _)) h

theorem le_of_getD {o : Option Nat} {lo d : Nat} (hd : lo ≤ d) (ho : ∀ a, o = some a → lo ≤ a) : lo ≤ o.getD d := by
  cases o with
  | none => exact hd
  | some a => exact ho a rfl

/-- A request's tables lie in its home tile's scratchpad. -/
theorem State.le_of_placeTables {home n : Nat} {x : Nat × Nat} (h : s.placeTables home n = some x) : spadBase home ≤ x.1 ∧ spadBase home ≤ x.2 := by
  -- The search for a place is kept closed, and the definition opened as a function: unfolded at its arguments it would be evaluated.
  obtain ⟨place, hplace, hle⟩ : ∃ f : Nat → Nat → Nat → Nat → Option Nat, s.place = f ∧ ∀ a, f 2 home 4096 4096 = some a → spadBase home ≤ a :=
    ⟨_, rfl, fun a ha => State.le_of_place (by norm_num) ha⟩
  obtain ⟨search, hsearch, hle'⟩ : ∃ f : List (Nat × Nat) → Nat → Nat → Nat → Nat → Option Nat, lowestFree = f ∧
      ∀ b hi k a, f b (spadBase home) hi 64 k = some a → spadBase home ≤ a :=
    ⟨_, rfl, fun b hi k a ha => le_of_lowestFree (by norm_num) ha⟩
  have hdef : State.placeTables = State.placeTables := rfl
  conv at hdef => rhs; delta State.placeTables
  rw [hdef] at h
  beta_reduce at h
  rw [hplace, hsearch] at h
  cases ho : place 2 home 4096 4096 with
  | none =>
    rw [ho] at h
    cases h
  | some pd =>
    rw [ho] at h
    obtain rfl := Option.some.inj h
    exact ⟨hle pd ho, le_of_getD (hle pd ho) fun a ha => hle' _ _ _ a ha⟩

/-- The request that JOIN makes. -/
def State.joining (s : State) (m : MCmd) (g : Nat) (x : Nat × Nat) : Req :=
  let p := m.payload
  let nstop := fieldAt p 28 1
  let ds := descsAt p (72 + 68 * nstop) 2
  let home := s.firstTile g
  { status := .queued, before := .queued, cancel := .none_, reason := .none_, cust := fieldAt p 4 1, group := g
    teacher := bitOf (fieldAt p 5 1) 0, learn := bitOf (fieldAt p 5 1) 1, logp := bitOf (fieldAt p 5 1) 2, tree := false, held := false, fn := m.fn
    reqid := BitVec.ofNat 32 (fieldAt p 0 4), len := 0
    prompt := (List.range (fieldAt p 8 4)).map (fun j => fieldAt (m.reads.getD 0 []) (4 * j) 4 % 2 ^ 18)
    maxnew := fieldAt p 12 4, temp := BitVec.ofNat 32 (fieldAt p 16 4), topp := BitVec.ofNat 32 (fieldAt p 20 4)
    topk := fieldAt p 24 2, draft := fieldAt p 26 1, seed := BitVec.ofNat 64 (fieldAt p 32 8)
    deadline := fieldAt p 40 8, accepted := s.watch home, order := s.serve.order, admitted := 0
    pdir := x.1 - spadBase home, eos := (List.range (fieldAt p 27 1)).map (fun j => fieldAt p (48 + 4 * j) 4)
    stops := (List.range nstop).map (stopEntry p), stoptab := x.2 - spadBase home, outbuf := (ds.getD 1 (descOf [])).addr, outcap := fieldAt p 64 4
    generated := [], written := 0, done := 0, pages := [], heldSteps := 0, expired := false, late := false
    charged := 0, ops := [], beforeClose := !s.serve.batchClosed, rebuild := 0, home := home, outExts := cmdExtents m ds 1
    flr := false, doomed := false, pageless := false }

/-- The state in which a joined request stands in its table. -/
def State.joined (s : State) (m : MCmd) (i g : Nat) (x : Nat × Nat) : State :=
  let mem : Mem := Mem.writeN s.mem x.1 (List.replicate 4096 0)
  let s' := s.setMem (Mem.writeN mem x.2 ((m.payload.drop 72).take (68 * fieldAt m.payload 28 1)))
  s'.setServe { s'.serve with reqs := s'.serve.reqs.set i (s.joining m g x), order := s'.serve.order + 1 }

theorem exec_join {ds : List Desc} {x : Nat × Nat} (hj : s.judges m = true) (hl : lenIs m (72 + 68 * fieldAt m.payload 28 1) 2 = true)
    (hds : ds = descsAt m.payload (72 + 68 * fieldAt m.payload 28 1) 2) (hd : descsOk s m ds [false, true] = true)
    (hin : 4 * fieldAt m.payload 8 4 ≤ extentBytes (cmdExtents m ds 0))
    (hout : fieldAt m.payload 64 4 * (if bitOf (fieldAt m.payload 5 1) 2 then 8 else 4) ≤ extentBytes (cmdExtents m ds 1))
    (hp : s.pair.state = .resident) (hr : joinFieldsOk m.payload (fieldAt m.payload 28 1) = true) (hi : s.inputLost m ds = false)
    (hc : (s.customer (fieldAt m.payload 4 1)).fn = some m.fn) (hfree : s.serve.reqs.freeFrom 4096 0 = some i) (hlt : i < 4096)
    (hrun : bitOf (fieldAt m.payload 5 1) 1 = true → s.run.active = true) (hg : s.chooseGroup (bitOf (fieldAt m.payload 5 1) 0) = some g)
    (hx : s.placeTables (s.firstTile g) (fieldAt m.payload 28 1) = some x) :
    exec (.join m) s = .next ((s.joined m i g x).complete m codeOk (leBytes 2 i ++ leBytes 1 g)) := by
  subst hds
  have hrun' : (bitOf (fieldAt m.payload 5 1) 1 && !s.run.active) = false := by
    cases hb : bitOf (fieldAt m.payload 5 1) 1
    · rfl
    · rw [hrun hb]
      rfl
  refine (exec_judged hj (i := .join m) rfl Bool.noConfusion hl).trans ?_
  obtain ⟨free, hfree', hf⟩ : ∃ f : Tab Req → Nat → Nat → Option Nat, Tab.freeFrom = f ∧ f s.serve.reqs 4096 0 = some i := ⟨_, rfl, hfree⟩
  obtain ⟨tables, htables, ht⟩ : ∃ f : Nat → Nat → Option (Nat × Nat), s.placeTables = f ∧ f (s.firstTile g) (fieldAt m.payload 28 1) = some x :=
    ⟨_, rfl, hx⟩
  rw [if_neg (by simp only [hd, decide_eq_false (Nat.not_lt.2 hin), decide_eq_false (Nat.not_lt.2 hout)]; decide), if_neg (by simp [hp]),
    if_neg (by simp [hr]), if_neg (by simp [hi]), if_neg (by rw [show (s.serve.cust.get {} (fieldAt m.payload 4 1)).fn = some m.fn from hc]; simp),
    htables, hfree', hf]
  dsimp only
  rw [if_neg (by omega), hrun', if_neg (by decide), hg]
  dsimp only
  rw [ht]
  rfl

@[simp] theorem State.req?_complete (s : State) (m : MCmd) (code : Nat) (resp : List Byte) (j : Nat) : (s.complete m code resp).req? j = s.req? j :=
  State.req?_of_only (by simp) j

@[simp] theorem State.req?_accept (s : State) (m : MCmd) (k : OpKind) (opcode j : Nat) : (s.accept m k opcode).req? j = s.req? j :=
  State.req?_of_only (by simp) j

@[simp] theorem State.mem_complete (s : State) (m : MCmd) (code : Nat) (resp : List Byte) : (s.complete m code resp).mem = s.mem :=
  State.same_of_but (p := .mem) (by simp)

theorem State.mem_joined (s : State) (m : MCmd) (i g : Nat) (x : Nat × Nat) : (s.joined m i g x).mem =
    Mem.writeN (Mem.writeN s.mem x.1 (List.replicate 4096 0)) x.2 ((m.payload.drop 72).take (68 * fieldAt m.payload 28 1)) := rfl

theorem State.req?_joined_same (s : State) (m : MCmd) (i g : Nat) (x : Nat × Nat) : (s.joined m i g x).req? i = some (s.joining m g x) :=
  Tab.find?_set_same _ _ _

theorem State.req?_joined_other (s : State) (m : MCmd) {i j : Nat} (g : Nat) (x : Nat × Nat) (h : j ≠ i) : (s.joined m i g x).req? j = s.req? j :=
  Tab.find?_set_other _ _ h

theorem State.only_joined (s : State) (m : MCmd) (i g : Nat) (x : Nat × Nat) : s.onlyChanges (s.joined m i g x) [.mem, .serve] :=
  State.onlyChanges_trans (State.only_setMem _ _ (by decide)) (State.only_setServe _ _ (by decide))

/-- A joined request writes its page directory and its stop table. -/
theorem State.storesOnly_joined {x : Nat × Nat} (hx : s.placeTables (s.firstTile g) (fieldAt m.payload 28 1) = some x) :
    s.storesOnly (s.joined m i g x) [(spadBase (s.joining m g x).home + (s.joining m g x).pdir, 4096),
      (spadBase (s.joining m g x).home + (s.joining m g x).stoptab, 68 * fieldAt m.payload 28 1)] := by
  obtain ⟨hpd, hst⟩ := State.le_of_placeTables hx
  have hpd' : spadBase (s.joining m g x).home + (s.joining m g x).pdir = x.1 := Nat.add_sub_cancel' hpd
  have hst' : spadBase (s.joining m g x).home + (s.joining m g x).stoptab = x.2 := Nat.add_sub_cancel' hst
  rw [hpd', hst']
  intro a ha
  have hfirst := ha (x.1, 4096) (by simp)
  have hsecond := ha (x.2, 68 * fieldAt m.payload 28 1) (by simp)
  have hlen : ((m.payload.drop 72).take (68 * fieldAt m.payload 28 1)).length ≤ 68 * fieldAt m.payload 28 1 := List.length_take_le _ _
  rw [State.mem_joined, Mem.read_writeN_outside _ _ (hsecond.imp_right fun h => le_trans (Nat.add_le_add_left hlen _) h),
    Mem.read_writeN_outside _ _ (by rw [List.length_replicate]; exact hfirst)]

/-- CANCEL and PAUSE note the operation at the request they name. -/
theorem State.noteReqOp_notes (hp : s.pair.state = .resident) (hr : reservedZero m.payload 8 [(0, 2), (4, 4)] = true)
    (hq : s.reqNamed m = some (i, q)) (isPause : Bool) : s.noteReqOp m isPause = (s.setReq i { q with
      ops := q.ops ++ [{ isPause := isPause, fn := m.fn, seq := m.seq }],
      cancel := if !isPause && q.cancel == .none_ then .pending else q.cancel }).accept m (if isPause then .pause else .cancel)
        (if isPause then 0x302 else 0x301) := by
  simp only [State.noteReqOp, hp, hr, hq, ne_eq, not_true_eq_false, Bool.not_true, Bool.false_eq_true, if_false]

@[simp] theorem State.customer_setCustomer_same (s : State) (c : Nat) (v : Cust) : (s.setCustomer c v).customer c = v := Tab.get_set_same _ _ _ _

theorem State.customer_setCustomer_other (s : State) {c d : Nat} (v : Cust) (h : d ≠ c) : (s.setCustomer c v).customer d = s.customer d :=
  Tab.get_set_other _ _ _ h

@[simp] theorem State.serve_complete (s : State) (m : MCmd) (code : Nat) (resp : List Byte) : (s.complete m code resp).serve = s.serve :=
  State.same_of_but (p := .serve) (by simp)

@[simp] theorem State.customer_complete (s : State) (m : MCmd) (code : Nat) (resp : List Byte) (c : Nat) :
    (s.complete m code resp).customer c = s.customer c := by
  rw [State.customer, State.serve_complete, State.customer]

/-- Settles O12. -/
theorem requestsComeAndGo : Obligations.RequestsComeAndGo := by
  unfold Obligations.RequestsComeAndGo
  refine ⟨fun m s ds i g x hj hl hds hd hin hout hp hr hi hc hfree hlt hrun hg hx => ?_, fun m s i q hj hl hp hr hq => ⟨?_, ?_⟩,
    fun m s hj hf hl hp ha hclosed => ?_, fun m s f hj hf hl hr hp hfn hterm => ?_, fun m s r hj hf hl hp hr hle hrr => ?_⟩
  · refine ⟨_, _, exec_join hj hl hds hd hin hout hp hr hi hc hfree hlt hrun hg hx, State.answers_complete _ _ _ _,
      (State.req?_complete _ _ _ _ _).trans (State.req?_joined_same _ _ _ _ _), rfl, rfl, rfl, rfl, rfl, ?_, rfl, rfl, rfl, rfl, fun j hji => ?_, ?_, ?_⟩
    · exact (List.length_map ..).trans List.length_range
    · rw [State.req?_complete, State.req?_joined_other _ _ _ _ hji]
    · exact State.onlyChanges_mono (State.onlyChanges_then (State.only_joined s m i g x)
        (State.onlyChanges_complete (s₀ := s.joined m i g x) (ps := [.keeper, .fnp, .outbox]) _ _ _ _ (by decide) |>.2 (State.onlyChanges_refl _ _))) (by decide)
    · intro a ha
      rw [State.mem_complete]
      exact State.storesOnly_joined hx a ha
  · have hexec := exec_judged hj (i := .cancel m) rfl Bool.noConfusion hl
    simp only [State.noteReqOp_notes hp hr hq] at hexec
    refine ⟨_, hexec, State.answers_accept _ _ _ _, ?_, by simp⟩
    rw [State.req?_accept, State.req?_setReq_same]
    cases q.cancel <;> rfl
  · have hexec := exec_judged hj (i := .pause m) rfl Bool.noConfusion hl
    simp only [State.noteReqOp_notes hp hr hq] at hexec
    refine ⟨_, hexec, State.answers_accept _ _ _ _, ?_, by simp⟩
    rw [State.req?_accept, State.req?_setReq_same]
    rfl
  · have hexec := exec_judged hj (i := .batchClose m) rfl (fun _ => hf) hl
    simp only [hp, ha, hclosed, ne_eq, not_true_eq_false, Bool.not_true, Bool.false_eq_true, if_false, decide_false, Bool.or_self] at hexec
    exact ⟨_, hexec, State.answers_complete _ _ _ _, by rw [State.serve_complete]; rfl⟩
  · have hany : List.any s.serve.reqs (fun e => e.2.cust == fieldAt m.payload 0 1 && !e.2.status.terminal) = false := by
      rw [List.any_eq_false]
      intro e he
      by_cases hc : e.2.cust = fieldAt m.payload 0 1
      · simp [hterm e he hc]
      · simp [hc]
    have hexec := exec_judged hj (i := .custBind m) rfl (fun _ => hf) hl
    simp only [hp, hr, hany, hfn, f.isLt, ne_eq, not_true_eq_false, Bool.not_true, Bool.false_eq_true, if_false, dite_true] at hexec
    refine ⟨_, hexec, State.answers_complete _ _ _ _, by simp, fun c hc => ?_⟩
    rw [State.customer_complete, State.customer_setCustomer_other _ _ hc]
  · have hgt : decide (1 < fieldAt m.payload 1 1) = false := decide_eq_false (by omega)
    have hexec := exec_judged hj (i := .budgetRefill m) rfl (fun _ => hf) hl
    simp only [hp, hr, hgt, gt_iff_lt, ← hrr, ne_eq, not_true_eq_false, Bool.not_true, Bool.or_self, Bool.false_eq_true, if_false] at hexec
    refine ⟨_, hexec, State.answers_complete _ _ _ _, fun hin => ?_, fun hin => ?_, fun c hc => ?_⟩
    · rw [State.customer_complete, State.customer_setCustomer_same, if_pos hin]
    · rw [State.customer_complete, State.customer_setCustomer_same, if_neg (by simp [hin])]
      rfl
    · rw [State.customer_complete, State.customer_setCustomer_other _ _ hc]

end
end Sys2Proof.Machine
end

/-! # Memory, carriers, size tables, firmware, service and debug commands (O13 to O18) -/

section
namespace Sys2Proof.Machine
open Sys2Proof
section
variable {s t u : State} {m : MCmd} {i a : Nat} {r : Region} {o : LongOp} {p : List Byte}

/-! ### O13: regions, transfers and the CXL.mem window -/

@[simp] theorem State.tier_complete (s : State) (m : MCmd) (code : Nat) (resp : List Byte) : (s.complete m code resp).tier = s.tier :=
  State.same_of_but (p := .tier) (by simp)

@[simp] theorem State.hostMem_opDone (s : State) (o : LongOp) (code : Nat) : (s.opDone o code).hostMem = s.hostMem :=
  State.same_of_but (p := .hostMem) (by simp)

theorem tierRange_step_pos (tier t : Nat) : 0 < (tierRange tier t).2.2 := by
  unfold tierRange
  split <;> exact Nat.succ_pos _

theorem State.addRegion_some (hfree : s.tier.regions.freeFrom 16384 0 = some i) (hlt : i < 16384) :
    s.addRegion r = some (s.setTier { s.tier with regions := s.tier.regions.set i r }, i) := by
  rw [State.addRegion, hfree, Option.bind_some, if_pos hlt]

theorem regionAlloc_allocates (hj : s.judges m = true) (hp : p = m.payload)
    (hl : (if fieldAt p 10 1 = 0 then lenIs m 16 1 else lenIs m 16 0) = true)
    (hd : descsOk s m (descsAt p 16 (if fieldAt p 10 1 = 0 then 1 else 0)) (if fieldAt p 10 1 = 0 then [false] else []) = true)
    (hr : reservedZero p 16 [(0, 12)] = true) (hn : fieldAt p 0 8 ≠ 0) (htier : fieldAt p 8 1 ≤ 2) (hcls : fieldAt p 10 1 ≤ 5) (hal : 6 ≤ fieldAt p 11 1)
    (hal' : fieldAt p 11 1 ≤ 30) (htile : fieldAt p 8 1 = 1 ∨ fieldAt p 9 1 ≤ 3)
    (hplace : s.place (fieldAt p 8 1) (fieldAt p 9 1) (2 ^ fieldAt p 11 1) (fieldAt p 0 8) = some a)
    (hfree : s.tier.regions.freeFrom 16384 0 = some i) (hlt : i < 16384) :
    ∃ t r, exec (.regionAlloc m) s = .next t ∧ t.answers m 0 (leBytes 8 a ++ leBytes 4 i) ∧ t.tier.regions.find? i = some r ∧
      r.base = a ∧ r.tier = fieldAt p 8 1 ∧ r.cls = fieldAt p 10 1 ∧ r.fn = m.fn ∧ r.prog = 0 ∧ fieldAt p 0 8 ≤ r.length ∧
      s.onlyChanges t [.keeper, .tier, .fnp, .outbox] := by
  subst hp
  have fields : (!reservedZero m.payload 16 [(0, 12)] || fieldAt m.payload 0 8 == 0 || decide (fieldAt m.payload 8 1 > 2) || decide (fieldAt m.payload 10 1 > 5) ||
      decide (fieldAt m.payload 11 1 < 6) || decide (fieldAt m.payload 11 1 > 30) ||
      (fieldAt m.payload 8 1 != 1 && decide (fieldAt m.payload 9 1 > 3))) = false := by
    simp only [hr, Bool.not_true, Bool.or_eq_false_iff, beq_eq_false_iff_ne, decide_eq_false_iff_not, Bool.and_eq_false_iff, bne_eq_false_iff_eq]
    refine ⟨⟨⟨⟨⟨⟨trivial, hn⟩, by omega⟩, by omega⟩, by omega⟩, by omega⟩, ?_⟩
    omega
  have hexec := exec_judged hj (i := .regionAlloc m) rfl Bool.noConfusion hl
  simp only [hd, fields, hplace, State.addRegion_some hfree hlt, Bool.not_true, Bool.false_eq_true, if_false] at hexec
  exact ⟨_, _, hexec, State.answers_complete _ _ _ _,
    (congrArg (fun x => x.regions.find? i) (State.tier_complete _ _ _ _)).trans (Tab.find?_set_same _ _ _), rfl, rfl, rfl, rfl, rfl,
    le_roundUp _ (tierRange_step_pos _ _), by simp⟩

theorem regionFree_frees (hj : s.judges m = true) (hl : lenIs m 8 0 = true) (hr : reservedZero m.payload 8 [(0, 4)] = true)
    (hreg : s.regionFor m.fn (fieldAt m.payload 0 4) = some r) (hprog : r.prog = 0) :
    ∃ t, exec (.regionFree m) s = .next t ∧ t.answers m 0 [] ∧
      t.tier = { s.tier with regions := s.tier.regions.del (fieldAt m.payload 0 4) } ∧ s.onlyChanges t [.keeper, .tier, .fnp, .outbox] := by
  have hexec := exec_judged hj (i := .regionFree m) rfl Bool.noConfusion hl
  simp only [hr, hreg, hprog, bne_self_eq_false, Bool.not_true, Bool.false_eq_true, if_false] at hexec
  exact ⟨_, hexec, State.answers_complete _ _ _ _, State.tier_complete _ _ _ _, by simp⟩

theorem memTransfer_accepts (hj : s.judges m = true) (hp : p = m.payload) (hl : lenIs m 32 1 = true)
    (hd : descsOk s m (descsAt p 32 1) [fieldAt p 24 1 == 1] = true) (hdir : fieldAt p 24 1 ≤ 1)
    (hroom : fieldAt p 16 8 ≤ extentBytes (cmdExtents m (descsAt p 32 1) 0)) (hr : reservedZero p 32 [(0, 4), (8, 17)] = true)
    (hreg : s.regionFor m.fn (fieldAt p 0 4) = some r) (hin : fieldAt p 8 8 + fieldAt p 16 8 ≤ r.length) :
    ∃ t, exec (.memTransfer m) s = .next t ∧ t.answers m 0x01 [] ∧ t.mem = s.mem ∧ t.hostMem = s.hostMem ∧
      t.keeper.ops = s.keeper.ops ++ [LongOp.mk .transfer m.fn m.seq 0x402 p (cmdExtents m (descsAt p 32 1) 0) (r.base + fieldAt p 8 8)] := by
  subst hp
  have hroom' : decide (extentBytes (cmdExtents m (descsAt m.payload 32 1) 0) < fieldAt m.payload 16 8) = false := decide_eq_false (by omega)
  have hdir' : decide (fieldAt m.payload 24 1 > 1) = false := decide_eq_false (by omega)
  have hexec := exec_judged hj (i := .memTransfer m) rfl Bool.noConfusion hl
  simp only [hd, hroom', hdir', hr, hreg, if_neg (Nat.not_lt.2 hin), Bool.and_false, Bool.or_self, Bool.not_true, Bool.false_eq_true, if_false] at hexec
  refine ⟨_, hexec, State.answers_complete _ _ _ _, State.mem_complete _ _ _ _, State.hostMem_complete _ _ _ _, State.ops_complete _ _ _ _⟩

/-- A transfer's end once its data has moved: the operation leaves the table, and charging changes no memory. -/
theorem transferEnds (hm : u.hostMem = t.hostMem) (hmem : u.mem = t.mem) (code : Nat) : o ∉ (u.opDone o code).keeper.ops ∧
    (u.opDone o code).mem = t.mem ∧ (u.opDone o code).hostMem = t.hostMem :=
  ⟨State.not_mem_ops_opDone _ _ _, (State.mem_opDone _ _ _).trans hmem, (State.hostMem_opDone _ _ _).trans hm⟩

/-- A transfer's bytes counted against its function. -/
theorem State.mem_charged (s : State) (f a n c : Nat) (w : Bool) : ((s.countBytes 4 f a n w).addBytes 4 f c n).mem = s.mem ∧
    ((s.countBytes 4 f a n w).addBytes 4 f c n).hostMem = s.hostMem :=
  ⟨State.same_of_but (p := .mem) (by simp), State.same_of_but (p := .hostMem) (by simp)⟩

theorem memTransferDone_ends (fn : Fn) (seq : Nat) (data : List Byte) (hk : s.keeper.kbusy = false)
    (ho : s.keeper.ops.find? (fun o => o.kind == .transfer && o.fn == fn && o.seq == seq) = some o) :
    (fieldAt o.payload 24 1 = 0 → s.windowLost o.extents = false → ∃ t, exec (.memTransferDone fn seq data false) s = .next t ∧ o ∉ t.keeper.ops ∧
      t.mem = Mem.writeN s.mem o.base (data.take (fieldAt o.payload 16 8)) ∧ t.hostMem = s.hostMem) ∧
    (fieldAt o.payload 24 1 ≠ 0 → s.rangeFailed o.base (fieldAt o.payload 16 8) = false →
      ∃ t, exec (.memTransferDone fn seq data false) s = .next t ∧ o ∉ t.keeper.ops ∧
        t.mem = (s.writeOut o.extents (Mem.readN s.mem o.base (fieldAt o.payload 16 8))).mem ∧
        t.hostMem = (s.writeOut o.extents (Mem.readN s.mem o.base (fieldAt o.payload 16 8))).hostMem) ∧
    (∃ t, exec (.memTransferDone fn seq data true) s = .next t ∧ o ∉ t.keeper.ops ∧ t.mem = s.mem ∧ t.hostMem = s.hostMem) := by
  refine ⟨fun hdir hlost => ?_, fun hdir hfail => ?_, ?_⟩
  · have hexec : exec (.memTransferDone fn seq data false) s = execMemTransferDone fn seq data false s := rfl
    simp only [execMemTransferDone, hk, ho, hdir, hlost, Bool.and_false, Bool.false_eq_true, if_false, if_true] at hexec
    exact ⟨_, hexec, transferEnds (t := s.setMem (Mem.writeN s.mem o.base (data.take (fieldAt o.payload 16 8)))) (State.mem_charged _ _ _ _ _ _).2
      (State.mem_charged _ _ _ _ _ _).1 _⟩
  · have hexec : exec (.memTransferDone fn seq data false) s = execMemTransferDone fn seq data false s := rfl
    simp only [execMemTransferDone, hk, ho, hdir, hfail, decide_false, Bool.false_and, Bool.not_false, Bool.or_true, Bool.false_eq_true, if_false,
      if_true] at hexec
    exact ⟨_, hexec, transferEnds (t := s.writeOut o.extents _) (State.mem_charged _ _ _ _ _ _).2 (State.mem_charged _ _ _ _ _ _).1 _⟩
  · have hexec : exec (.memTransferDone fn seq data true) s = execMemTransferDone fn seq data true s := rfl
    simp only [execMemTransferDone, hk, ho, Bool.false_eq_true, if_false, if_true] at hexec
    exact ⟨_, hexec, transferEnds rfl rfl _⟩

theorem cxlmemWindow_opens (hj : s.judges m = true) (hf : m.fn = 0) (hl : lenIs m 8 0 = true) (hx : s.excluded = false) (he : s.pair.state = .empty)
    (hb : fieldAt m.payload 0 4 ≤ 2047) (hn : fieldAt m.payload 4 4 ≤ 1024) (hbn : fieldAt m.payload 0 4 + fieldAt m.payload 4 4 ≤ 2048)
    (hheld : ∀ i < fieldAt m.payload 4 4,
      (s.setTier { s.tier with windowBase := 0, windowSize := 0 }).extentHeld (fieldAt m.payload 0 4 + i) = false) :
    ∃ t, exec (.cxlmemWindow m) s = .next t ∧ t.answers m 0 [] ∧
      t.tier = { s.tier with windowBase := fieldAt m.payload 0 4, windowSize := fieldAt m.payload 4 4 } ∧ t.mem = s.mem := by
  have hfield : (decide (fieldAt m.payload 0 4 > 2047) || decide (fieldAt m.payload 4 4 > 1024) ||
      decide (fieldAt m.payload 0 4 + fieldAt m.payload 4 4 > 2048)) = false := by
    simp only [Bool.or_eq_false_iff, decide_eq_false_iff_not]
    omega
  have hany : (List.range (fieldAt m.payload 4 4)).any
      (fun i => (s.setTier { s.tier with windowBase := 0, windowSize := 0 }).extentHeld (fieldAt m.payload 0 4 + i)) = false := by
    simpa [List.any_eq_false] using hheld
  have hexec := exec_judged hj (i := .cxlmemWindow m) rfl (fun _ => hf) hl
  simp only [hx, he, hfield, hany, ne_eq, not_true_eq_false, Bool.false_eq_true, if_false] at hexec
  exact ⟨_, hexec, State.answers_complete _ _ _ _, State.tier_complete _ _ _ _, State.mem_complete _ _ _ _⟩

/-- Inside the window an access goes on to the far tier. -/
theorem execCxlmemAccess_inside (w : Bool) {o : Nat} {data : List Byte} (hd : data ≠ []) (h : o + data.length ≤ s.tier.windowSize * 2 ^ 30) :
    exec (.cxlmemAccess w o data) s =
      (if w then .next (s.setMem (Mem.writeN s.mem (farBase + s.tier.windowBase * 2 ^ 30 + o) data))
      else if (s.failedIn [(farBase + s.tier.windowBase * 2 ^ 30 + o, data.length)]).isEmpty then
        .next (s.send (.cxlData (Mem.readN s.mem (farBase + s.tier.windowBase * 2 ^ 30 + o) data.length)))
      else .next (s.send (.cxlData (s.hostRead (farBase + s.tier.windowBase * 2 ^ 30 + o) data.length))).useFree) := by
  have hin : ¬(s.tier.windowSize * 2 ^ 30 < o + data.length ∨ data.isEmpty = true) := not_or.2 ⟨Nat.not_lt.2 h, by simpa using hd⟩
  exact if_neg (by simpa only [Bool.or_eq_true, decide_eq_true_eq] using hin)

/-- Settles O13. -/
theorem memoryIsManaged : Obligations.MemoryIsManaged := by
  unfold Obligations.MemoryIsManaged
  refine ⟨⟨fun m s a i p hp hj hl hd hr hn htier hcls hal hal' htile hplace hfree hlt => ?_, fun m s r hj hl hr hreg hprog => ?_,
    fun m s r p hp hj hl hd hdir hroom hr hreg hin => ?_, fun fn seq data s o hk ho => memTransferDone_ends fn seq data hk ho,
    fun m s hj hf hl hx he hb hn hbn hheld => cxlmemWindow_opens hj hf hl hx he hb hn hbn hheld⟩,
    fun s o data hd => ⟨fun hin => ⟨?_, fun hfail => ?_, fun hfail => ?_⟩, fun hout w => ?_⟩⟩
  · exact regionAlloc_allocates hj hp hl hd hr hn htier hcls hal hal' htile hplace hfree hlt
  · exact regionFree_frees hj hl hr hreg hprog
  · exact memTransfer_accepts hj hp hl hd hdir hroom hr hreg hin
  · exact execCxlmemAccess_inside true hd hin
  · rw [execCxlmemAccess_inside false hd hin, hfail]
    rfl
  · rw [execCxlmemAccess_inside false hd hin, if_neg Bool.false_ne_true, if_neg (by simpa using hfail)]
  · exact if_pos (by rw [decide_eq_true hout, Bool.true_or])

end
end Sys2Proof.Machine
end

section
namespace Sys2Proof.Machine
open Sys2Proof
section
variable {s t u : State} {m : MCmd} {c d n : Nat} {a : Arb}

/-! ### O14: carriers -/

/-- A round leaves FREEZE as it was. -/
theorem Arb.freeze_round (n : Nat) (a : Arb) : (a.round n).1.freeze = a.freeze := by
  have happ : (a.applyPri n).freeze = a.freeze := by
    cases hp : a.pending with
    | none => rw [Arb.applyPri, hp]
    | some x =>
      obtain ⟨b, hb, happ⟩ := Arb.applyPri_of_pending (n := n) hp
      rw [happ]
      exact (congrArg Arb.freeze hb.head :)
  cases hw : (a.applyPri n).choose with
  | none => rw [Arb.round, hw]
  | some w =>
    obtain ⟨b, hb, hround⟩ := Arb.round_of_choose hw
    rw [hround]
    exact (congrArg Arb.freeze hb.head).trans happ

theorem State.freeze_freezeArb (s : State) (n : Nat) (v : Bool) : ((s.freezeArb n v).arbAt n).freeze = v := by
  rw [State.freezeArb, State.arbSettle_arbAt]
  split
  · rfl
  · exact Arb.freeze_round _ _

/-- Freezing an arbiter begins no round. -/
theorem State.held_freezeArb (s : State) (n : Nat) : ((s.freezeArb n true).arbAt n).held = (s.arbAt n).held := by
  rw [State.freezeArb, State.arbSettle_no_round _ _ (.inr (.inl rfl))]

theorem State.arbAt_of_arb (h : t.arb = s.arb) (n : Nat) : t.arbAt n = s.arbAt n := by rw [State.arbAt, h, State.arbAt]

theorem State.carrier_of_tier (h : t.tier = s.tier) (c : Nat) : t.carrier c = s.carrier c := by rw [State.carrier, h, State.carrier]

@[simp] theorem State.carrier_setCarrier_same (s : State) (c : Nat) (v : Carrier) : (s.setCarrier c v).carrier c = v := Tab.get_set_same _ _ _ _

theorem State.carrier_setCarrier_other (s : State) (v : Carrier) (h : d ≠ c) : (s.setCarrier c v).carrier d = s.carrier d :=
  Tab.get_set_other _ _ _ h

@[simp] theorem State.ops_setKprCause (s : State) (bit : Nat) : (s.setKprCause bit).keeper.ops = s.keeper.ops := by
  unfold State.setKprCause
  split
  · rfl
  · rw [State.ops_raise]
    rfl

/-- A health event ends no long operation. -/
@[simp] theorem State.ops_healthEvent (s : State) (code tile unit addr count : Nat) :
    (s.healthEvent code tile unit addr count).keeper.ops = s.keeper.ops := by
  have hfog : ∀ (u : State) x y, (u.fogNote x y).keeper = u.keeper := fun u x y => State.same_of_but (p := .keeper) (by simp)
  have hlog : ∀ (u : State) e, (u.logHealth e).keeper = u.keeper := fun u e => State.same_of_but (p := .keeper) (by simp)
  unfold State.healthEvent
  extract_lets e s₁ s₂ s₃ s₄
  have h₃ : s₃.keeper.ops = s.keeper.ops := by simp only [s₃, s₂, s₁, State.ops_setKprCause, State.ops_post, hlog]
  have h₄ : s₄.keeper.ops = s.keeper.ops := by
    simp only [s₄]
    split <;> exact h₃
  split
  · rw [hfog, h₄]
  · exact h₄

@[simp] theorem State.ops_freezeArb (s : State) (n : Nat) (v : Bool) : (s.freezeArb n v).keeper.ops = s.keeper.ops := by
  unfold State.freezeArb State.arbSettle State.endRound
  split
  · rfl
  · simp only []
    split
    · exact State.ops_setKprCause _ _
    · rfl

/-- A carrier is there, powered, and not being evacuated. -/
def Carrier.serving (v : Carrier) : Bool := v.present && v.powered && !v.evacuating

theorem State.serving_retireUnit (s : State) (a c : Nat) : ((s.retireUnit a).carrier c).serving = (s.carrier c).serving := by
  unfold State.retireUnit
  simp only []
  split
  · rfl
  split
  · rfl
  · rfl
  · by_cases h : c = s.carrierOf a
    · subst h
      refine (congrArg Carrier.serving (Tab.get_set_same _ _ _ _)).trans rfl
    · exact congrArg Carrier.serving (Tab.get_set_other _ _ _ h)

theorem carrierEvacuate_begins (hj : s.judges m = true) (hf : m.fn = 0) (hl : lenIs m 8 0 = true) (hx : s.excluded = false)
    (hr : reservedZero m.payload 8 [(0, 1)] = true) (hc : fieldAt m.payload 0 1 ≤ 3) (hs : s.carrierServes (fieldAt m.payload 0 1) = true)
    (hroom : (s.heldOn (fieldAt m.payload 0 1)).length ≤ (s.freeElsewhere (fieldAt m.payload 0 1)).length) :
    ∃ t, exec (.carrierEvacuate m) s = .next t ∧ t.answers m 0x01 [] ∧ (t.carrier (fieldAt m.payload 0 1)).evacuating = true ∧
      (∀ c, c ≠ fieldAt m.payload 0 1 → t.carrier c = s.carrier c) ∧ t.mem = s.mem := by
  have hfield : (!reservedZero m.payload 8 [(0, 1)] || decide (fieldAt m.payload 0 1 > 3)) = false := by
    rw [hr, decide_eq_false (by omega)]
    rfl
  have hexec := exec_judged hj (i := .carrierEvacuate m) rfl (fun _ => hf) hl
  simp only [hx, hfield, hs, if_neg (Nat.not_lt.2 hroom), Bool.not_true, Bool.false_eq_true, if_false] at hexec
  have htier : ∀ (u : State) k op, (u.accept m k op).tier = u.tier := fun u k op => State.same_of_but (p := .tier) (by simp)
  refine ⟨_, hexec, State.answers_accept _ _ _ _, ?_, fun d hd => ?_, State.mem_accept _ _ _ _⟩
  · rw [State.carrier_of_tier (htier _ _ _), State.carrier_setCarrier_same]
  · rw [State.carrier_of_tier (htier _ _ _), State.carrier_setCarrier_other _ _ hd]

/-- A left fold that keeps the better of two ends with an element no other one beats. -/
theorem foldl_least {α : Type} (f : α → Nat) (l : List α) : ∀ e, l.foldl (fun b x => if f x < f b then x else b) e ∈ e :: l ∧
    ∀ x ∈ e :: l, f (l.foldl (fun b x => if f x < f b then x else b) e) ≤ f x := by
  induction l with
  | nil => simp
  | cons y l ih =>
    intro e
    obtain ⟨hmem, hle⟩ := ih (if f y < f e then y else e)
    have hhead := hle _ List.mem_cons_self
    rw [List.foldl_cons]
    by_cases h : f y < f e
    · simp only [h, if_true] at hmem hle hhead ⊢
      refine ⟨List.mem_cons_of_mem _ hmem, fun x hx => ?_⟩
      rcases List.mem_cons.1 hx with rfl | hx
      · omega
      · exact hle x hx
    · simp only [h, if_false] at hmem hle hhead ⊢
      refine ⟨List.mem_cons.2 ((List.mem_cons.1 hmem).imp_right (List.mem_cons_of_mem _)), fun x hx => ?_⟩
      rcases List.mem_cons.1 hx with rfl | hx
      · exact hhead
      rcases List.mem_cons.1 hx with rfl | hx
      · omega
      · exact hle x (List.mem_cons_of_mem _ hx)

theorem State.extentHeld_of_mem_heldOn {e : Nat} (h : e ∈ s.heldOn c) : s.extentHeld e = true := by
  simp only [State.heldOn, List.mem_filter, Bool.and_eq_true] at h
  exact h.2.2

theorem State.extentHeld_of_mem_freeElsewhere {e : Nat} (h : e ∈ s.freeElsewhere c) : s.extentHeld e = false := by
  simp only [State.freeElsewhere, List.mem_filter, Bool.and_eq_true, Bool.not_eq_true'] at h
  exact h.2.2

theorem State.ne_of_mem_heldOn {e b : Nat} (he : e ∈ s.heldOn c) (hb : b ∈ s.freeElsewhere c) : e ≠ b := by
  rintro rfl
  exact Bool.false_ne_true ((State.extentHeld_of_mem_freeElsewhere hb).symm.trans (State.extentHeld_of_mem_heldOn he))

theorem extentSwitch_switches (c : Fin 4) (e : Nat) (hk : s.keeper.kbusy = false) (hev : (s.carrier c).evacuating = true) (he : e ∈ s.heldOn c)
    (hfree : s.freeElsewhere c ≠ []) : ∃ t b, exec (.extentSwitch c e) s = .next t ∧ b ∈ s.freeElsewhere c ∧
      (∀ x ∈ s.freeElsewhere c, s.physExtent b ≤ s.physExtent x) ∧ t.physExtent e = s.physExtent b ∧
      t.physExtent b = s.physExtent e ∧ (∀ x, x ≠ e → x ≠ b → t.physExtent x = s.physExtent x) ∧ s.onlyChanges t [.tier] := by
  obtain ⟨x, l, hl⟩ := List.exists_cons_of_ne_nil hfree
  obtain ⟨hmem, hleast⟩ := foldl_least s.physExtent l x
  have hexec : exec (.extentSwitch c e) s = execExtentSwitch c e s := rfl
  simp only [execExtentSwitch, hk, hev, List.contains_iff_mem.2 he, hl, Bool.and_self, Bool.false_eq_true, if_false, if_true] at hexec
  rw [← hl] at hmem hleast
  have hne := State.ne_of_mem_heldOn he hmem
  refine ⟨_, _, hexec, hmem, hleast, ?_, ?_, fun y hy hyb => ?_, by simp⟩
  · exact (Tab.get_set_other _ _ _ hne).trans (Tab.get_set_same _ _ _ _)
  · exact Tab.get_set_same _ _ _ _
  · exact (Tab.get_set_other _ _ _ hyb).trans (Tab.get_set_other _ _ _ hy)

/-- The long operation of a kind ended, where there is one. -/
def State.endOp (s : State) (k : OpKind) (code : Nat) : State :=
  match s.findOp k with
  | none => s
  | some o => s.opDone o code

theorem State.only_endOp (s : State) (k : OpKind) (code : Nat) : s.onlyChanges (s.endOp k code) [.keeper, .fnp, .outbox] := by
  unfold State.endOp
  split <;> simp

@[simp] theorem State.carrier_endOp (s : State) (k : OpKind) (code c : Nat) : (s.endOp k code).carrier c = s.carrier c :=
  State.carrier_of_tier (State.only_endOp s k code .tier (by decide)) c

@[simp] theorem State.arbAt_endOp (s : State) (k : OpKind) (code n : Nat) : (s.endOp k code).arbAt n = s.arbAt n :=
  State.arbAt_of_arb (State.only_endOp s k code .arb (by decide)) n

@[simp] theorem State.mem_endOp (s : State) (k : OpKind) (code : Nat) : (s.endOp k code).mem = s.mem := State.only_endOp s k code .mem (by decide)

theorem State.not_mem_ops_endOp {k : OpKind} {o : LongOp} (code : Nat) (h : s.findOp k = some o) : o ∉ (s.endOp k code).keeper.ops := by
  rw [State.endOp, h]
  exact State.not_mem_ops_opDone _ _ _

@[simp] theorem State.carrier_healthEvent (s : State) (code tile unit addr count c : Nat) :
    (s.healthEvent code tile unit addr count).carrier c = s.carrier c :=
  State.carrier_of_tier (State.same_of_but (p := .tier) (by simp)) c

@[simp] theorem State.arbAt_healthEvent (s : State) (code tile unit addr count n : Nat) :
    (s.healthEvent code tile unit addr count).arbAt n = s.arbAt n :=
  State.arbAt_of_arb (State.same_of_but (p := .arb) (by simp)) n

@[simp] theorem State.mem_healthEvent (s : State) (code tile unit addr count : Nat) : (s.healthEvent code tile unit addr count).mem = s.mem :=
  State.same_of_but (p := .mem) (by simp)

@[simp] theorem State.arbAt_setCarrier (s : State) (c : Nat) (v : Carrier) (n : Nat) : (s.setCarrier c v).arbAt n = s.arbAt n := rfl

@[simp] theorem State.mem_freezeArb (s : State) (n : Nat) (v : Bool) : (s.freezeArb n v).mem = s.mem := State.same_of_but (p := .mem) (by simp)

@[simp] theorem State.carrier_freezeArb (s : State) (n : Nat) (v : Bool) (c : Nat) : (s.freezeArb n v).carrier c = s.carrier c :=
  State.carrier_of_tier (State.same_of_but (p := .tier) (by simp)) c

theorem carrierReleased_releases (c : Fin 4) (hk : s.keeper.kbusy = false) (hev : (s.carrier c).evacuating = true) (hheld : s.heldOn c = [])
    (harb : (s.arbAt (32 + c)).held = false) : ∃ t, exec (.carrierReleased c) s = .next t ∧ (t.carrier c).powered = false ∧
      (t.carrier c).evacuating = false ∧ (t.arbAt (32 + c)).freeze = true ∧
      (∀ o, s.findOp (.evacuate c) = some o → o ∉ t.keeper.ops) ∧ t.mem = s.mem := by
  have hexec : exec (.carrierReleased c) s = execCarrierReleased c s := rfl
  simp only [execCarrierReleased, hk, hev, hheld, List.isEmpty_nil, Bool.and_self, State.held_freezeArb, harb, Bool.false_eq_true, if_false,
    if_true] at hexec
  refine ⟨State.endOp _ _ _, hexec, ?_, ?_, ?_, fun o ho => State.not_mem_ops_endOp _ ?_, ?_⟩
  · simp
  · simp
  · simp [State.freeze_freezeArb]
  · rw [State.findOp, State.ops_healthEvent]
    exact (congrArg _ (State.ops_freezeArb _ _ _)).trans ho
  · simp only [State.mem_endOp, State.mem_healthEvent]
    exact State.mem_freezeArb _ _ _

/-- A carrier's spare retired, with its events. -/
def State.retirePage (s : State) (a : Nat) : State :=
  (s.retireUnit a).retireEvent a (s.retireClass a) false (decide (s.sparesLeft a ≠ 0))

theorem State.serving_retirePage (s : State) (a c : Nat) : ((s.retirePage a).carrier c).serving = (s.carrier c).serving := by
  have hevent : ∀ (u : State) k e b, (u.retireEvent a k e b).carrier c = u.carrier c := fun u k e b =>
    State.carrier_of_tier (State.same_of_but (p := .tier) (by simp)) c
  rw [State.retirePage, hevent, State.serving_retireUnit]

theorem Carrier.serving_iff (v : Carrier) : v.serving = true ↔ v.present = true ∧ v.powered = true ∧ v.evacuating = false := by
  simp [Carrier.serving, and_assoc]

/-- A new carrier in its slot, none of its pages retired, its arbiter thawed. -/
def State.newCarrier (s : State) (c : Nat) : State :=
  ((s.setTier { s.tier with retiredUnits := s.tier.retiredUnits.filter (fun u => tierCode u != 2 || s.carrierOf u != c) }).setCarrier c
    {}).freezeArb (32 + c) false

theorem State.carrier_newCarrier (s : State) (c : Nat) : (s.newCarrier c).carrier c = {} := by
  rw [State.newCarrier, State.carrier_freezeArb, State.carrier_setCarrier_same]

/-- The new carrier with the pages the host found worn on it retired. -/
def State.fitted (s : State) (c : Nat) (retired : List Nat) : State :=
  retired.foldl State.retirePage (s.newCarrier c)

theorem State.serving_fitted (s : State) (c : Nat) (l : List Nat) : ((s.fitted c l).carrier c).serving = true := by
  rw [State.fitted, State.foldl_keeps (fun s => (s.carrier c).serving) (fun s a => s.serving_retirePage a c), State.carrier_newCarrier]
  rfl

theorem State.freeze_fitted (s : State) (c : Nat) (l : List Nat) : ((s.fitted c l).arbAt (32 + c)).freeze = false := by
  have harb : (s.fitted c l).arb = (s.newCarrier c).arb :=
    State.foldl_keeps (fun s => s.arb) (fun s a => State.same_of_but (p := .arb) (by simp [State.retirePage])) _ _
  rw [State.arbAt_of_arb harb, State.newCarrier, State.freeze_freezeArb]

theorem State.mem_fitted (s : State) (c : Nat) (l : List Nat) : (s.fitted c l).mem = s.mem :=
  (State.foldl_keeps (fun s => s.mem) (fun s a => State.same_of_but (p := .mem) (by simp [State.retirePage])) _ _).trans (State.mem_freezeArb _ _ _)

theorem carrierFitted_fits (c : Fin 4) (retired : List Nat) (hout : (s.carrier c).present = false ∨ (s.carrier c).powered = false) :
    ∃ t, exec (.carrierFitted c retired) s = .next t ∧ (t.carrier c).present = true ∧ (t.carrier c).powered = true ∧
      (t.carrier c).evacuating = false ∧ (t.arbAt (32 + c)).freeze = false ∧ t.mem = s.mem ∧
      (retired = [] → (t.carrier c).spares = 2097152) := by
  have hexec : exec (.carrierFitted c retired) s = execCarrierFitted c retired s := rfl
  have hgone : ((s.carrier c).present && (s.carrier c).powered) = false := by rcases hout with h | h <;> simp [h]
  simp only [execCarrierFitted, hgone, Bool.false_eq_true, if_false] at hexec
  obtain ⟨hp, hpow, hev⟩ := (Carrier.serving_iff _).1 (s.serving_fitted c
    (List.filter (fun a => tierCode a == 2 && (s.newCarrier c).carrierOf a == c.val) retired))
  refine ⟨State.healthEvent (s.fitted c (List.filter (fun a => tierCode a == 2 && (s.newCarrier c).carrierOf a == c.val) retired)) _ _ _ _ _, hexec,
    ?_, ?_, ?_, ?_, ?_, ?_⟩
  · rwa [State.carrier_healthEvent]
  · rwa [State.carrier_healthEvent]
  · rwa [State.carrier_healthEvent]
  · rw [State.arbAt_healthEvent, State.freeze_fitted]
  · rw [State.mem_healthEvent, State.mem_fitted]
  · rintro rfl
    rw [State.carrier_healthEvent]
    exact congrArg Carrier.spares (s.carrier_newCarrier c)

theorem carrierLost_loses (c : Fin 4) (hp : (s.carrier c).present = true) :
    ∃ t, exec (.carrierLost c) s = .next t ∧ (t.carrier c).present = false ∧ (t.carrier c).powered = false ∧
      (∀ d, d ≠ c.val → t.carrier d = s.carrier d) ∧ t.mem = s.mem := by
  have hexec : exec (.carrierLost c) s = execCarrierLost c s := rfl
  simp only [execCarrierLost, hp, Bool.not_true, Bool.false_eq_true, if_false] at hexec
  refine ⟨State.healthEvent (State.setCarrier (State.endOp s (.evacuate c) codeState) c _) _ _ _ _ _, hexec, ?_, ?_, fun d hd => ?_, ?_⟩
  · simp
  · simp
  · rw [State.carrier_healthEvent, State.carrier_setCarrier_other _ _ hd, State.carrier_endOp]
  · rw [State.mem_healthEvent]
    exact State.mem_endOp _ _ _

/-- Settles O14. -/
theorem carriersMove : Obligations.CarriersMove := by
  unfold Obligations.CarriersMove
  refine ⟨fun m s hj hf hl hx hr hc hs hroom => carrierEvacuate_begins hj hf hl hx hr hc hs hroom,
    fun c e s hk hev he hfree => extentSwitch_switches c e hk hev he hfree,
    fun c s hk hev hheld harb => carrierReleased_releases c hk hev hheld harb, fun c retired s hout => carrierFitted_fits c retired hout,
    fun c s hp => carrierLost_loses c hp⟩

end
end Sys2Proof.Machine
end

section
namespace Sys2Proof.Machine
open Sys2Proof
section
variable {s t u : State} {m : MCmd} {o : LongOp}

/-! ### O15: a size table comes into force -/

@[simp] theorem State.link_opDone (s : State) (o : LongOp) (code : Nat) : (s.opDone o code).link = s.link :=
  State.same_of_but (p := .link) (by simp)

@[simp] theorem State.link_accept (s : State) (m : MCmd) (k : OpKind) (opcode : Nat) : (s.accept m k opcode).link = s.link :=
  State.same_of_but (p := .link) (by simp)

/-- A pending table given up for a newer one. -/
def State.supersedeTable (s : State) : State :=
  match s.link.pendingTable with
  | none => s
  | some (_, f, q) => (s.setLink { s.link with pendingTable := none, confirmed := false }).tableOver f q codeSuperseded

theorem State.table_supersedeTable (s : State) : s.supersedeTable.link.table = s.link.table := by
  unfold State.supersedeTable
  split
  · rfl
  · rw [State.tableOver, State.link_opDone]
    rfl

/-- What a table is judged by is not changed by the one it supersedes. -/
theorem State.tableOk_accepted (s : State) (m : MCmd) (k : OpKind) (opcode : Nat) (bs : List Byte) :
    (s.supersedeTable.accept m k opcode).tableOk bs = s.tableOk bs := by
  have hpwr : (s.supersedeTable.accept m k opcode).pwr = s.pwr := by
    refine State.same_of_but (p := .pwr) ?_
    unfold State.supersedeTable
    split <;> simp
  simp only [State.tableOk, State.moduleId, hpwr, State.link_accept, State.table_supersedeTable]

theorem State.mem_outbox_send (s : State) (o : Out) : o ∈ (s.send o).outbox := by simp [State.send]

theorem sizeTableSet_waits {bs : List Byte} (hj : s.judges m = true) (hf : m.fn = 0) (hl : lenIs m 0 1 = true)
    (hd : descsOk s m (descsAt m.payload 0 1) [false] = true) (hroom : 4160 ≤ extentBytes (cmdExtents m (descsAt m.payload 0 1) 0))
    (hbs : bs = (m.reads.getD 0 []).take 4160) (hstrap : s.pwr.strapBad = false) (hrun : s.run.active = true → s.shrinkOk bs = true)
    (hok : s.tableOk bs = true) (hin : s.inputLost m (descsAt m.payload 0 1) = false) :
    ∃ t, exec (.sizeTableSet m) s = .next t ∧ t.answers m 0x01 [] ∧ t.link.table = s.link.table ∧
      t.link.pendingTable = some (tableFields bs, m.fn, m.seq) ∧ Out.tableCrc (tableCrc bs) ∈ t.outbox := by
  have hroom' : decide (extentBytes (cmdExtents m (descsAt m.payload 0 1) 0) < tableSize) = false := decide_eq_false (Nat.not_lt.2 hroom)
  have hbs' : (m.reads.getD 0 []).take tableSize = bs := hbs.symm
  have hshrink : (s.run.active && !s.shrinkOk bs) = false := by
    cases ha : s.run.active with
    | false => rfl
    | true => rw [hrun ha]; rfl
  have hok' : (s.supersedeTable.accept m .sizeTable 0x500).tableOk bs = true := (s.tableOk_accepted m _ _ bs).trans hok
  have hexec := exec_judged hj (i := .sizeTableSet m) rfl (fun _ => hf) hl
  simp only [hd, hroom', hbs', hstrap, hshrink, hin, Bool.not_true, Bool.or_self, Bool.false_eq_true, if_false] at hexec
  refine ⟨_, hexec.trans (congrArg _ (if_neg (c := (!(s.supersedeTable.accept m .sizeTable 0x500).tableOk bs) = true) ?_)),
    State.answers_of_keeper rfl (s.supersedeTable.answers_accept m .sizeTable 0x500), ?_, rfl, State.mem_outbox_send _ _⟩
  · rw [hok']
    decide
  · exact (congrArg LinkPart.table (State.link_accept _ _ _ _)).trans s.table_supersedeTable

end
section
variable {s : State} {m : MCmd} {tb : SizeTable} {f : Fn} {q : Nat} {census : List CensusEntry}

/-- The end of SIZE_TABLE_SET is posted to the function that sent it. -/
theorem State.entered_tableOver {t : State} {f : Fn} (hm : t.mbox f = s.mbox f) (hp : t.postsTo f = s.postsTo f) (q code : Nat)
    (h : s.postsTo f = true) : s.entered (t.tableOver f q code) f { code := 1, fn := f, seq := q, data := opDoneData code 0x500 [] } :=
  State.entered_opDone (o := { kind := .sizeTable, fn := f, seq := q, opcode := 0x500, payload := [] }) hm hp h code

theorem sizeTableInForce_ends (hk : s.keeper.kbusy = false) (hrun : s.run.active = false) (hpend : s.link.pendingTable = some (tb, f, q))
    (hcensus : ∀ x ∈ tb.present, ∃ e ∈ census, e.id = x.1) (hdup : duplicateOf census = none) :
    ((∀ e ∈ census, e.fwmaj = s.keeper.fwmaj) →
      ∃ t, exec (.sizeTableInForce (tableCrc tb.raw) census) s = .next t ∧ t.link.table = some tb ∧ t.link.pendingTable = none ∧
        (s.postsTo f = true → s.entered t f { code := 1, fn := f, seq := q, data := opDoneData 0 0x500 [] })) ∧
    (∀ crc, (∃ e ∈ census, e.fwmaj ≠ s.keeper.fwmaj) ∨ crc ≠ tableCrc tb.raw →
      ∃ t, exec (.sizeTableInForce crc census) s = .next t ∧ t.link.table = s.link.table ∧ t.link.pendingTable = none ∧
        (s.postsTo f = true → s.entered t f { code := 1, fn := f, seq := q, data := opDoneData 0x21 0x500 [] })) := by
  have hall : List.all tb.present (fun e => census.any (fun c => c.id == e.1)) = true := by
    simpa [List.all_eq_true] using fun a b hab => hcensus (a, b) hab
  refine ⟨fun hmaj => ?_, fun crc hbad => ?_⟩
  · have hany : (census.any (fun c => c.fwmaj != s.keeper.fwmaj) || tableCrc tb.raw != tableCrc tb.raw) = false := by
      simpa [List.any_eq_false] using hmaj
    have hexec : exec (.sizeTableInForce (tableCrc tb.raw) census) s = execSizeTableInForce (tableCrc tb.raw) census s := rfl
    simp only [execSizeTableInForce, hk, hpend, hdup, hall, hany, hrun, Bool.not_true, Bool.false_eq_true, if_false] at hexec
    refine ⟨_, hexec, ?_, ?_, fun hp => State.entered_tableOver ?_ ?_ _ _ hp⟩
    · exact (congrArg LinkPart.table (State.link_opDone _ _ _) :)
    · exact (congrArg LinkPart.pendingTable (State.link_opDone _ _ _) :)
    · rfl
    · rfl
  · have hany : (census.any (fun c => c.fwmaj != s.keeper.fwmaj) || crc != tableCrc tb.raw) = true := by
      simpa [List.any_eq_true] using hbad
    have hexec : exec (.sizeTableInForce crc census) s = execSizeTableInForce crc census s := rfl
    simp only [execSizeTableInForce, hk, hpend, hdup, hall, hany, Bool.not_true, Bool.false_eq_true, if_false, if_true] at hexec
    refine ⟨_, hexec, ?_, ?_, fun hp => State.entered_tableOver ?_ ?_ _ _ hp⟩
    · exact (congrArg LinkPart.table (State.link_opDone _ _ _) :)
    · exact (congrArg LinkPart.pendingTable (State.link_opDone _ _ _) :)
    · rfl
    · rfl

/-- Settles O15. -/
theorem sizeTablesComeIntoForce : Obligations.SizeTablesComeIntoForce := by
  unfold Obligations.SizeTablesComeIntoForce
  refine ⟨fun m s bs hj hf hl hd hroom hbs hstrap hrun hok hin => sizeTableSet_waits hj hf hl hd hroom hbs hstrap hrun hok hin,
    fun census s tb f q hk hrun hpend hcensus => ⟨fun hdup => ?_, fun crc hdup hbad => ?_⟩⟩
  · exact (sizeTableInForce_ends hk hrun hpend hcensus hdup).1
  · exact (sizeTableInForce_ends hk hrun hpend hcensus hdup).2 crc hbad

end
section
variable {s t u : State} {m : MCmd} {o : LongOp}

/-! ### O16: firmware -/

@[simp] theorem State.fwSlot_setFwSlot_same (s : State) (i : Bool) (x : FwSlot) : (s.setFwSlot i x).fwSlot i = x := Tab.get_set_same _ _ _ _

theorem State.fwSlot_setFwSlot_not (s : State) (i : Bool) (x : FwSlot) : (s.setFwSlot (!i) x).fwSlot i = s.fwSlot i :=
  Tab.get_set_other _ _ _ (by cases i <;> decide)

theorem State.fwSlot_of_sec (h : t.sec = s.sec) (i : Bool) : t.fwSlot i = s.fwSlot i := by rw [State.fwSlot, h, State.fwSlot]

@[simp] theorem State.slot_complete (s : State) (m : MCmd) (code : Nat) (resp : List Byte) : (s.complete m code resp).keeper.slot = s.keeper.slot := by
  obtain ⟨-, hk, -⟩ := State.onlyMailbox_complete s m code resp
  rw [hk]

@[simp] theorem State.slot_accept (s : State) (m : MCmd) (k : OpKind) (opcode : Nat) : (s.accept m k opcode).keeper.slot = s.keeper.slot := by
  rw [State.accept, State.slot_complete]
  rfl

theorem fwLoad_begins {v : FwVerdict} (hj : s.judges m = true) (hf : m.fn = 0) (hl : lenIs m 0 1 = true)
    (hd : descsOk s m (descsAt m.payload 0 1) [false] = true) (hop : s.findOp .fwLoad = none)
    (hcheck : s.fwCheck (imageSlot (m.reads.getD 0 [])) v = 0) (hin : s.inputLost m (descsAt m.payload 0 1) = false) :
    ∃ t, exec (.fwLoad m v) s = .next t ∧ t.answers m 0x01 [] ∧
      t.fwSlot s.otherSlot = { imageSlot (m.reads.getD 0 []) with present := false } ∧ t.fwSlot s.keeper.slot = s.fwSlot s.keeper.slot ∧
      ∃ o ∈ t.keeper.ops, o.kind = .fwLoad ∧ o.seq = m.seq := by
  have hexec := exec_judged hj (i := .fwLoad m v) rfl (fun _ => hf) hl
  simp only [hd, hop, hcheck, hin, codeOk, ne_eq, not_true_eq_false, Option.isSome_none, Bool.not_true, Bool.false_eq_true, if_false] at hexec
  have hother : (s.accept m .fwLoad 0x601).otherSlot = s.otherSlot := by rw [State.otherSlot, State.slot_accept, State.otherSlot]
  rw [hother] at hexec
  refine ⟨_, hexec, State.answers_of_keeper rfl (s.answers_accept m .fwLoad 0x601), State.fwSlot_setFwSlot_same _ _ _, ?_, ?_⟩
  · exact (State.fwSlot_setFwSlot_not _ _ _).trans (State.fwSlot_of_sec (State.sec_accept _ _ _ _) _)
  · refine ⟨{ kind := .fwLoad, fn := m.fn, seq := m.seq, opcode := 0x601, payload := m.payload }, ?_, rfl, rfl⟩
    exact (State.ops_accept s m .fwLoad 0x601) ▸ List.mem_append_right _ (List.mem_singleton_self _)

theorem fwLoadDone_ends (ok : Bool) (ho : s.findOp .fwLoad = some o) (hk : s.keeper.kbusy = false) :
    ∃ t, exec (.fwLoadDone ok) s = .next t ∧ t.fwSlot s.otherSlot = { s.fwSlot s.otherSlot with present := true, ok := ok } ∧
      o ∉ t.keeper.ops ∧ (s.postsTo o.fn = true → s.entered t o.fn
        { code := 1, fn := o.fn, seq := o.seq, data := opDoneData (if ok then 0 else 0x37) o.opcode [] }) := by
  have hexec : exec (.fwLoadDone ok) s = execFwLoadDone ok s := rfl
  simp only [execFwLoadDone, ho, hk, Bool.false_eq_true, if_false] at hexec
  refine ⟨_, hexec, ?_, State.not_mem_ops_opDone _ _ _, fun h => State.entered_opDone ?_ ?_ h _⟩
  · rw [State.fwSlot_of_sec (State.sec_opDone _ _ _), State.fwSlot_setFwSlot_same]
  · rfl
  · rfl

theorem fwActivate_begins {v : FwVerdict} (hj : s.judges m = true) (hf : m.fn = 0) (hl : lenIs m 0 0 = true) (hload : s.findOp .fwLoad = none)
    (hact : s.findOp .fwActivate = none) (hp : (s.fwSlot s.otherSlot).present = true) (hcheck : s.fwCheck (s.fwSlot s.otherSlot) v = 0)
    (hmaj : s.inCascade = true → (s.fwSlot s.otherSlot).maj = s.keeper.fwmaj) :
    ∃ t, exec (.fwActivate m v) s = .next t ∧ t.answers m 0x01 [] ∧ t.keeper.kbusy = true ∧ t.keeper.restart = some .activate ∧
      t.keeper.slot = s.keeper.slot ∧ t.keeper.prevSlot = s.keeper.slot ∧ t.sec.counter = s.sec.counter := by
  have hrec : s.keeper.recovery = false := by
    have := hj
    simp only [State.judges, Bool.and_eq_true, Bool.not_eq_true'] at this
    exact this.1.1.2
  have hcas : (s.inCascade && (s.fwSlot s.otherSlot).maj != s.keeper.fwmaj) = false := by
    cases hc : s.inCascade with
    | false => rfl
    | true => simp [hmaj hc]
  have hexec := exec_judged hj (i := .fwActivate m v) rfl (fun _ => hf) hl
  have hcas' : ∀ x, ((s.setFwSlot s.otherSlot x).inCascade && (s.fwSlot s.otherSlot).maj != (s.setFwSlot s.otherSlot x).keeper.fwmaj) = false :=
    fun _ => hcas
  have hrec' : ∀ x, (s.setFwSlot s.otherSlot x).keeper.recovery = false := fun _ => hrec
  simp only [hload, hact, hp, hcheck, hcas', hrec', codeOk, ne_eq, not_true_eq_false, Option.isSome_none, Bool.or_self, Bool.not_true,
    Bool.false_eq_true, if_false] at hexec
  refine ⟨_, hexec, State.answers_accept (s.setFwSlot _ _) m .fwActivate 0x602, rfl, rfl, ?_, ?_, ?_⟩
  · exact State.slot_accept _ _ _ _
  · exact State.slot_accept _ _ _ _
  · exact (congrArg SecPart.counter (State.sec_accept (s.setFwSlot _ _) m .fwActivate 0x602) :)

/-- Settles O16. -/
theorem firmwareChanges : Obligations.FirmwareChanges := by
  unfold Obligations.FirmwareChanges
  exact ⟨fun m v s hj hf hl hd hop hcheck hin => fwLoad_begins hj hf hl hd hop hcheck hin, fun ok s o ho hk => fwLoadDone_ends ok ho hk,
    fun m v s hj hf hl hload hact hp hcheck hmaj => fwActivate_begins hj hf hl hload hact hp hcheck hmaj⟩

end
end Sys2Proof.Machine
end

section
namespace Sys2Proof.Machine
open Sys2Proof
section
variable {s t u : State} {m : MCmd} {o : LongOp} {f g p q : Nat} {k : Packet} {x : Out}

/-! ### What sending leaves alone -/

@[simp] theorem State.port_setPort_same (s : State) (p : Nat) (v : Port) : (s.setPort p v).port p = v := Tab.get_set_same _ _ _ _

theorem State.port_setPort_other (s : State) (v : Port) (h : q ≠ p) : (s.setPort p v).port q = s.port q := Tab.get_set_other _ _ _ h

theorem State.port_of_link (h : t.link = s.link) (p : Nat) : t.port p = s.port p := by rw [State.port, h, State.port]

@[simp] theorem State.port_send (s : State) (o : Out) (p : Nat) : (s.send o).port p = s.port p := rfl

/-- A port but for its queues and the number of its next packet: what queueing and sending packets leaves alone. -/
def Port.core (x : Port) : Port := { x with txSeq := 0, replay := [], txWait := [] }

theorem Port.state_of_core {x y : Port} (h : x.core = y.core) : x.state = y.state := (congrArg Port.state h :)

theorem Port.serviced_of_core {x y : Port} (h : x.core = y.core) : x.serviced = y.serviced := (congrArg Port.serviced h :)

theorem State.core_setPort {v : Port} (h : v.core = (s.port p).core) (q : Nat) : ((s.setPort p v).port q).core = (s.port q).core := by
  by_cases hq : q = p
  · rw [hq, State.port_setPort_same, h]
  · rw [State.port_setPort_other _ _ hq]

theorem State.core_emit (s : State) (p : Nat) (k : Packet) (q : Nat) : ((s.emit p k).port q).core = (s.port q).core :=
  State.core_setPort (by rfl) q

theorem State.core_pump (n p : Nat) : ∀ (s : State) (q : Nat), ((State.pump n p s).port q).core = (s.port q).core := by
  induction n with
  | zero => exact fun _ _ => rfl
  | succ n ih =>
    intro s q
    rw [State.pump]
    split
    · rfl
    split
    · rw [ih, State.core_emit, State.core_setPort (by rfl)]
    · rfl

theorem State.core_sendTo (s : State) (k : Packet) (q : Nat) : ((s.sendTo k).port q).core = (s.port q).core := by
  rw [State.sendTo, State.sendVia]
  split
  · rfl
  · rw [State.enqueue, State.core_pump, State.core_setPort (by rfl)]

/-- A port that goes down is DOWN with nothing else changed of its state than its widths; what waited is sent another way. -/
theorem State.core_portDown (s : State) (p : Nat) : ((s.portDown p).port p).core = { (s.port p).core with state := .down, txWide := 0, rxWide := 0 } := by
  unfold State.portDown
  simp only []
  rw [State.foldl_keeps (fun s => (s.port p).core) (fun s k => s.core_sendTo k p), State.port_setPort_same]
  rfl

theorem State.core_portDown_other (s : State) (h : q ≠ p) : ((s.portDown p).port q).core = (s.port q).core := by
  unfold State.portDown
  simp only []
  rw [State.foldl_keeps (fun s => (s.port q).core) (fun s k => s.core_sendTo k q), State.port_setPort_other _ _ h]

@[simp] theorem State.state_portDown (s : State) (p : Nat) : ((s.portDown p).port p).state = .down := (congrArg Port.state (s.core_portDown p) :)

theorem State.serviced_portDown (s : State) (p : Nat) : ((s.portDown p).port p).serviced = (s.port p).serviced :=
  (congrArg Port.serviced (s.core_portDown p) :)

/-! ### What was sent stays sent -/

theorem State.mem_outbox_pump (n p : Nat) : ∀ s : State, x ∈ s.outbox → x ∈ (State.pump n p s).outbox := by
  induction n with
  | zero => exact fun _ h => h
  | succ n ih =>
    intro s h
    rw [State.pump]
    split
    · exact h
    split
    · exact ih _ (List.mem_cons_of_mem _ h)
    · exact h

theorem State.mem_outbox_sendTo (k : Packet) (h : x ∈ s.outbox) : x ∈ (s.sendTo k).outbox := by
  rw [State.sendTo, State.sendVia]
  split
  · exact h
  · exact State.mem_outbox_pump _ _ _ h

theorem State.mem_outbox_foldl {α : Type} {f : State → α → State} (hf : ∀ s a, x ∈ s.outbox → x ∈ (f s a).outbox) (l : List α) :
    ∀ s : State, x ∈ s.outbox → x ∈ (l.foldl f s).outbox := by
  induction l with
  | nil => exact fun _ h => h
  | cons a l ih => exact fun s h => ih _ (hf s a h)

theorem State.mem_outbox_portDown (p : Nat) (h : x ∈ s.outbox) : x ∈ (s.portDown p).outbox :=
  State.mem_outbox_foldl (fun _ k h => State.mem_outbox_sendTo k h) _ _ h

theorem State.mem_outbox_raise (f v : Nat) (h : x ∈ s.outbox) : x ∈ (s.raise f v).outbox := by
  unfold State.raise
  simp only []
  split
  · exact h
  split
  · exact h
  split
  · exact h
  · exact List.mem_cons_of_mem _ h

theorem State.mem_outbox_setCause (f bit v : Nat) (h : x ∈ s.outbox) : x ∈ (s.setCause f bit v).outbox := by
  unfold State.setCause
  simp only []
  split
  · exact h
  · exact State.mem_outbox_raise _ _ h

theorem State.mem_outbox_post (f code seq : Nat) (data : List Byte) (h : x ∈ s.outbox) : x ∈ (s.post f code seq data).outbox := by
  unfold State.post State.deliver
  simp only []
  split
  · exact h
  split
  · exact h
  split
  · split
    · exact State.mem_outbox_setCause _ _ _ h
    · exact h
  · exact State.mem_outbox_raise _ _ h

theorem State.mem_outbox_opDone (o : LongOp) (code : Nat) (h : x ∈ s.outbox) : x ∈ (s.opDone o code).outbox :=
  State.mem_outbox_post _ _ _ _ h

/-! ### A completion is not changed by the events that follow it -/

/-- What the mailbox holds of a completion. -/
def Mailbox.completion (b : Mailbox) : MState × Nat × Nat × Nat × Nat × List Byte × Bool :=
  (b.state, b.code, b.seq, b.respSeq, b.respCode, b.resp, b.cause.getLsbD 0)

theorem Mailbox.completion_put (b : Mailbox) (e : Event) : (b.put e).completion = b.completion := by
  unfold Mailbox.put
  split
  · split <;> rfl
  · rfl

/-- A cause other than bit 0 is no part of the completion. -/
theorem Mailbox.completion_or (b : Mailbox) {c : BitVec 6} (h : c.getLsbD 0 = false) : { b with cause := b.cause ||| c }.completion = b.completion := by
  simp only [Mailbox.completion, BitVec.getLsbD_or, h, Bool.or_false]

theorem State.completion_setCause (s : State) (f v : Nat) {bit : Nat} (h : bit ≠ 0) : ((s.setCause f bit v).mbox f).completion = (s.mbox f).completion := by
  rw [State.mbox_setCause]
  exact Mailbox.completion_or _ (by rw [getLsbD_ofNat_two_pow (by decide), decide_eq_false h])

theorem State.completion_deliver (s : State) (f g : Nat) (e : Event) : ((s.deliver f e).mbox g).completion = (s.mbox g).completion := by
  by_cases hg : g = f
  · subst hg
    unfold State.deliver
    simp only []
    split
    · rfl
    split
    · split
      · rw [State.completion_setCause _ _ _ (by decide), State.mbox_setMbox_same, Mailbox.completion_put]
      · rw [State.mbox_setMbox_same, Mailbox.completion_put]
    · rw [State.mbox_raise, State.mbox_setMbox_same, State.mbox_setMbox_same]
      exact (Mailbox.completion_or _ (by decide)).trans (Mailbox.completion_put _ _)
  · rw [((State.onlyMailbox_deliver s f e).2.2.2 g hg).1]

theorem State.completion_post (s : State) (f code seq : Nat) (data : List Byte) (g : Nat) :
    ((s.post f code seq data).mbox g).completion = (s.mbox g).completion := by
  unfold State.post
  simp only []
  split
  · rfl
  · exact s.completion_deliver f g _

theorem State.completion_opDone (s : State) (o : LongOp) (code g : Nat) : ((s.opDone o code).mbox g).completion = (s.mbox g).completion := by
  unfold State.opDone
  rw [State.completion_post]
  rfl

theorem State.answers_of_completion {code : Nat} {resp : List Byte} (h : (u.mbox m.fn).completion = (t.mbox m.fn).completion)
    (ha : t.answers m code resp) : u.answers m code resp := by
  simp only [Mailbox.completion, Prod.mk.injEq] at h
  obtain ⟨h₁, h₂, h₃, h₄, h₅, h₆, h₇⟩ := h
  unfold State.answers at ha ⊢
  simp only [h₁, h₂, h₃, h₄, h₅, h₆, h₇]
  exact ha

/-- An operation that ends at once leaves the completion of its command. -/
theorem State.answers_opDone {code : Nat} {resp : List Byte} (h : t.answers m code resp) (o : LongOp) (c : Nat) : (t.opDone o c).answers m code resp :=
  State.answers_of_completion (t.completion_opDone o c _) h

end
end Sys2Proof.Machine
end

section
namespace Sys2Proof.Machine
open Sys2Proof
section
variable {s t u : State} {m : MCmd} {k p : Nat}

/-! ### O17: service is prepared -/

@[simp] theorem State.laser_setLaser_same (s : State) (i : Nat) (v : Laser) : (s.setLaser i v).laser i = v := Tab.get_set_same _ _ _ _

theorem State.laser_setLaser_other (s : State) (v : Laser) {i j : Nat} (h : j ≠ i) : (s.setLaser i v).laser j = s.laser j := Tab.get_set_other _ _ _ h

theorem State.laser_of_link (h : t.link = s.link) (i : Nat) : t.laser i = s.laser i := by rw [State.laser, h, State.laser]

@[simp] theorem mem_insertNat (x y : Nat) (l : List Nat) : y ∈ insertNat x l ↔ y = x ∨ y ∈ l := by
  induction l with
  | nil => simp [insertNat]
  | cons z l ih =>
    rw [insertNat]
    split
    next h =>
      subst h
      simp
    split
    · simp
    · simp [ih, or_left_comm]

@[simp] theorem State.keeper_setLaser (s : State) (i : Nat) (v : Laser) : (s.setLaser i v).keeper = s.keeper := rfl

@[simp] theorem State.laser_opDone (s : State) (o : LongOp) (code i : Nat) : (s.opDone o code).laser i = s.laser i :=
  State.laser_of_link (State.link_opDone _ _ _) i

@[simp] theorem State.laser_accept (s : State) (m : MCmd) (kind : OpKind) (op i : Nat) : (s.accept m kind op).laser i = s.laser i :=
  State.laser_of_link (State.link_accept _ _ _ _) i

@[simp] theorem State.pwr_accept (s : State) (m : MCmd) (kind : OpKind) (op : Nat) : (s.accept m kind op).pwr = s.pwr :=
  State.same_of_but (p := .pwr) (by simp)

@[simp] theorem State.pwr_opDone (s : State) (o : LongOp) (code : Nat) : (s.opDone o code).pwr = s.pwr :=
  State.same_of_but (p := .pwr) (by simp)

@[simp] theorem State.port_accept (s : State) (m : MCmd) (kind : OpKind) (op i : Nat) : (s.accept m kind op).port i = s.port i :=
  State.port_of_link (State.link_accept _ _ _ _) i

@[simp] theorem State.port_opDone (s : State) (o : LongOp) (code i : Nat) : (s.opDone o code).port i = s.port i :=
  State.port_of_link (State.link_opDone _ _ _) i

/-- SERVICE_PREPARE runs the preparation of its PART. -/
theorem servicePrepare_runs {i : Instr} {answered : Bool} (he : exec i s = .next (s.servicePrepare i m answered)) (hj : s.judges m = true)
    (hf : m.fn = 0) (hl : lenIs m 8 0 = true) (hr : reservedZero m.payload 8 [(0, 2)] = true) (hk : fieldAt m.payload 1 1 = k) :
    (fieldAt m.payload 0 1 = 0 → k ≤ 1 → exec i s = .next (s.prepareLaser m k)) ∧
    (fieldAt m.payload 0 1 = 1 → k / 16 ≤ 11 → k % 16 < phasesOf (k / 16) → exec i s = .next (s.preparePhase m k)) ∧
    (fieldAt m.payload 0 1 = 2 → k ≤ 5 → exec i s = .next (s.prepareFibre m k answered)) := by
  rw [State.servicePrepare] at he
  have hexec := exec_judged hj he (fun _ => hf) hl
  simp only [hr, hk, Bool.not_true, Bool.false_eq_true, if_false] at hexec
  refine ⟨fun h h₁ => ?_, fun h h₁ h₂ => ?_, fun h h₁ => ?_⟩
  · simpa only [h, if_pos h₁] using hexec
  · simpa only [h, h₁, h₂, decide_true, Bool.and_self, if_true] using hexec
  · simpa only [h, if_pos h₁] using hexec

theorem State.prepareLaser_prepares (s : State) (hk : k ≤ 1) :
    (s.prepareLaser m k).answers m 0x01 [] ∧
    ((s.laser (1 - k)).state = 0 → ((s.prepareLaser m k).laser k).state = 3 ∧ ((s.prepareLaser m k).laser k).full = false ∧
      ((s.prepareLaser m k).laser (1 - k)).full = true) ∧
    ((s.laser (1 - k)).state ≠ 0 → (s.prepareLaser m k).link.lasers = s.link.lasers) := by
  have hne : 1 - k ≠ k := by omega
  have ha := s.answers_accept m .laser 0x603
  unfold State.prepareLaser
  extract_lets o s₁ other
  have hlaser : s₁.laser other = s.laser (1 - k) := State.laser_accept _ _ _ _ _
  rw [hlaser]
  refine ⟨?_, fun h => ?_, fun h => ?_⟩
  · split
    · exact State.answers_opDone ha _ _
    · exact State.answers_opDone (State.answers_of_keeper (t := s₁) (by rw [State.keeper_setLaser, State.keeper_setLaser]) ha) _ _
  · rw [if_neg (not_not.2 h)]
    refine ⟨?_, ?_, ?_⟩
    · rw [State.laser_opDone, State.laser_setLaser_same]
    · rw [State.laser_opDone, State.laser_setLaser_same]
    · rw [State.laser_opDone, State.laser_setLaser_other _ _ hne, State.laser_setLaser_same]
  · rw [if_pos h, State.link_opDone, State.link_accept]

theorem State.preparePhase_prepares (s : State) (h : ∀ x ∈ s.pwr.phaseOut, x / 16 = k / 16 → x = k) :
    (s.preparePhase m k).answers m 0x01 [] ∧ k ∈ (s.preparePhase m k).pwr.phaseOut := by
  have hany : (s.pwr.phaseOut.any (fun x => x / 16 == k / 16 && x != k)) = false := by
    simpa [List.any_eq_false] using h
  have ha := s.answers_accept m .phase 0x603
  have hpwr : (s.accept m .phase 0x603).pwr = s.pwr := State.pwr_accept _ _ _ _
  unfold State.preparePhase
  extract_lets rail s₁
  rw [if_neg (by rw [hany]; exact Bool.false_ne_true), hpwr]
  refine ⟨State.answers_opDone ?_ _ _, ?_⟩
  · split
    · exact ha
    · exact State.answers_of_keeper rfl ha
  · rw [State.pwr_opDone]
    split
    next hc =>
      rw [hpwr]
      simpa using hc
    next =>
      have hk : k / 16 * 16 + k % 16 = k := Nat.div_add_mod' k 16
      simp [State.shedPhase, rail, hk, mem_insertNat]

/-- A port taken out of service, its peer told by what was sent. -/
theorem State.outOfService (s : State) (p : Nat) : (((s.setPort p { s.port p with serviced := true }).portDown p).port p).state = .down ∧
    (((s.setPort p { s.port p with serviced := true }).portDown p).port p).serviced = true := by
  refine ⟨State.state_portDown _ _, ?_⟩
  rw [State.serviced_portDown, State.port_setPort_same]

theorem State.prepareFibre_prepares (s : State) (p : Nat) (answered : Bool) : (s.prepareFibre m p answered).answers m 0x01 [] ∧
    ((s.prepareFibre m p answered).port p).state = .down ∧ ((s.prepareFibre m p answered).port p).serviced = true ∧
    Out.serviceNotice p ∈ (s.prepareFibre m p answered).outbox ∧
    (answered = false → ∃ o ∈ (s.prepareFibre m p answered).keeper.ops, o.kind = .fibre p ∧ o.seq = m.seq) := by
  have hkeeper : ∀ v : State, ((v.setPort p { v.port p with serviced := true }).portDown p).keeper = v.keeper := fun v =>
    State.same_of_but (p := .keeper) (by simp)
  unfold State.prepareFibre
  extract_lets s₁ s₂ x s₃
  have hk : s₃.keeper = s₁.keeper := hkeeper s₂
  have ha : s₃.answers m 0x01 [] := State.answers_of_keeper hk (s.answers_accept m _ _)
  obtain ⟨hdown, hserv⟩ := s₂.outOfService p
  have hout : Out.serviceNotice p ∈ s₃.outbox := State.mem_outbox_portDown p (State.mem_outbox_send s₁ _)
  cases answered with
  | true =>
    refine ⟨State.answers_opDone ha _ _, ?_, ?_, State.mem_outbox_opDone _ _ hout, nofun⟩
    · exact (congrArg Port.state (State.port_opDone _ _ _ _)).trans hdown
    · exact (congrArg Port.serviced (State.port_opDone _ _ _ _)).trans hserv
  | false =>
    refine ⟨ha, hdown, hserv, hout, fun _ => ⟨{ kind := .fibre p, fn := m.fn, seq := m.seq, opcode := 0x603, payload := m.payload }, ?_, rfl, rfl⟩⟩
    simp only [Bool.false_eq_true, if_false, hk]
    exact (State.ops_accept s m (.fibre p) 0x603) ▸ List.mem_append_right _ (List.mem_singleton_self _)

/-- Settles O17. -/
theorem serviceIsPrepared : Obligations.ServiceIsPrepared := by
  unfold Obligations.ServiceIsPrepared
  refine ⟨fun m s k hj hf hl hr hk => ⟨fun hpart hle => ⟨fun h => ?_, fun h => ?_⟩, fun hpart hrail hphase hout => ?_, fun hpart hle answered => ?_⟩,
    fun p s hup => ?_, fun p s o ho => ?_⟩
  · obtain ⟨ha, hgood, -⟩ := s.prepareLaser_prepares (m := m) hle
    exact ⟨_, (servicePrepare_runs rfl hj hf hl hr hk).1 hpart hle, ha, hgood h⟩
  · obtain ⟨ha, -, hbad⟩ := s.prepareLaser_prepares (m := m) hle
    exact ⟨_, (servicePrepare_runs rfl hj hf hl hr hk).1 hpart hle, ha, hbad h⟩
  · exact ⟨_, (servicePrepare_runs rfl hj hf hl hr hk).2.1 hpart hrail hphase, s.preparePhase_prepares hout⟩
  · exact ⟨_, (servicePrepare_runs (answered := answered) rfl hj hf hl hr hk).2.2 hpart hle, s.prepareFibre_prepares k answered⟩
  · have hexec : exec (.serviceNoticeRx p) s = execServiceNoticeRx p s := rfl
    simp only [execServiceNoticeRx, hup, Bool.not_true, Bool.false_eq_true, if_false] at hexec
    obtain ⟨hdown, hserv⟩ := (s.send (.serviceAnswer p)).outOfService p
    exact ⟨_, hexec, hserv, hdown, State.mem_outbox_portDown _ (State.mem_outbox_send _ _)⟩
  · have hexec : exec (.serviceNoticeTimeout p) s = execServiceNoticeTimeout p s := rfl
    simp only [execServiceNoticeTimeout, ho] at hexec
    exact ⟨_, hexec, State.not_mem_ops_opDone _ _ _, fun h => by refine State.entered_opDone ?_ ?_ h _ <;> rfl⟩

end
end Sys2Proof.Machine
end

section
namespace Sys2Proof.Machine
open Sys2Proof
section
variable {s t u : State} {m : MCmd} {a : AccArgs} {ws : List Nat} {bs : List Byte}

/-! ### O18: debug mode, and accumulators written -/

@[simp] theorem State.debug_complete (s : State) (m : MCmd) (code : Nat) (resp : List Byte) : (s.complete m code resp).keeper.debug = s.keeper.debug := by
  obtain ⟨-, hk, -⟩ := State.onlyMailbox_complete s m code resp
  rw [hk]

@[simp] theorem State.arr_complete (s : State) (m : MCmd) (code : Nat) (resp : List Byte) : (s.complete m code resp).arr = s.arr :=
  State.same_of_but (p := .arr) (by simp)

@[simp] theorem State.eng_complete (s : State) (m : MCmd) (code : Nat) (resp : List Byte) : (s.complete m code resp).eng = s.eng :=
  State.same_of_but (p := .eng) (by simp)

@[simp] theorem State.tgt_complete (s : State) (m : MCmd) (code : Nat) (resp : List Byte) : (s.complete m code resp).tgt = s.tgt :=
  State.same_of_but (p := .tgt) (by simp)

/-- A Target engine with its groups at their reset values. -/
def TargetSt.unset (e : TargetSt) : TargetSt := { e with staged := {}, active := {}, committed := none, refused := false }

/-- Without admitted programs CUST, TCFG and KEY stay at their reset values. -/
theorem State.recommit_of_no_progs (h : s.prog.progs = []) : s.recommit.arr = { s.arr with cust := [] } ∧ s.recommit.eng = { s.eng with keys := [] } ∧
    s.recommit.tgt = s.tgt.map (fun e => (e.1, e.2.unset)) ∧ s.recommit.keeper = s.keeper := by
  unfold State.recommit
  simp only [State.setArb_prog, State.setTgt_prog, State.setEng_prog, State.setArr_prog, h, List.foldl_nil, List.any_nil, List.filter_false]
  exact ⟨rfl, rfl, rfl, rfl⟩

theorem Tab.get_map {α β : Type} (t : Tab α) (d : α) (f : α → β) (k : Nat) :
    Tab.get (t.map (fun e => (e.1, f e.2))) (f d) k = f (t.get d k) := by
  induction t with
  | nil => rfl
  | cons e t ih =>
    rw [List.map_cons, Tab.get, Tab.get]
    split
    · rfl
    · exact ih

theorem debugEnter_enters (hj : s.judges m = true) (hf : m.fn = 0) (hl : lenIs m 0 0 = true) (hrun : s.run.active = false) :
    ∃ t, exec (.debugEnter m) s = .next t ∧ t.answers m 0 [] ∧ t.keeper = { s.keeper with debug := true, mbox := t.keeper.mbox } := by
  have hexec := exec_judged hj (i := .debugEnter m) rfl (fun _ => hf) hl
  simp only [hrun, Bool.false_eq_true, if_false] at hexec
  obtain ⟨-, hk, -⟩ := State.onlyMailbox_complete (s.setKeeper { s.keeper with debug := true }) m codeOk []
  exact ⟨_, hexec, State.answers_complete _ _ _ _, hk⟩

theorem debugExit_exits (hj : s.judges m = true) (hf : m.fn = 0) (hl : lenIs m 0 0 = true) :
    ∃ t, exec (.debugExit m) s = .next t ∧ t.answers m 0 [] ∧ t.keeper.debug = false ∧
      (s.keeper.debug = false → s.onlyMailbox t 0) ∧
      (s.keeper.debug = true → s.prog.progs = [] → t.arr = { s.arr with cust := [] } ∧ t.eng = { s.eng with keys := [] } ∧
        ∀ k < 4, (t.target k).active = {} ∧ (t.target k).staged = {}) := by
  have hexec := exec_judged hj (i := .debugExit m) rfl (fun _ => hf) hl
  cases hd : s.keeper.debug with
  | false =>
    simp only [hd, Bool.false_eq_true, if_false] at hexec
    refine ⟨_, hexec, State.answers_complete _ _ _ _, ?_, fun _ => ?_, nofun⟩
    · rw [State.debug_complete, hd]
    · have := State.onlyMailbox_complete s m codeOk []
      rwa [hf] at this
  | true =>
    simp only [hd, if_true] at hexec
    have hkeeper : ∀ u : State, u.recommit.keeper = u.keeper := fun u => State.same_of_but (p := .keeper) (by simp)
    refine ⟨_, hexec, State.answers_complete _ _ _ _, ?_, nofun, fun _ hprogs => ?_⟩
    · rw [State.debug_complete, hkeeper]
      rfl
    · obtain ⟨harr, heng, htgt, -⟩ := State.recommit_of_no_progs (s := s.setKeeper { s.keeper with debug := false }) hprogs
      refine ⟨by rw [State.arr_complete, harr]; rfl, by rw [State.eng_complete, heng]; rfl, fun k _ => ?_⟩
      have hreset : ∀ e : TargetSt, e.unset.active = {} ∧ e.unset.staged = {} := fun _ => ⟨rfl, rfl⟩
      have hget := Tab.get_map s.tgt {} TargetSt.unset k
      have hnew : ({} : TargetSt).unset = {} := rfl
      rw [hnew] at hget
      rw [State.target, State.tgt_complete, htgt, State.setKeeper_tgt, hget]
      exact hreset _

/-! Tiles of the accumulator store -/

theorem Tab.find?_foldl_set {α : Type} (v : α) (l : List Nat) (k : Nat) : ∀ t : Tab α,
    (l.foldl (fun t k => t.set k v) t).find? k = if k ∈ l then some v else t.find? k := by
  induction l with
  | nil => simp
  | cons j l ih =>
    intro t
    rw [List.foldl_cons, ih]
    by_cases hk : k = j
    · subst hk
      simp
    · simp [hk, Tab.find?_set_other _ _ hk]

/-- The array holds a tile: its slots are the tile's alone. -/
def ArraySt.holdsTile (y : ArraySt) (first : Nat) (t : AccTile) : Prop :=
  (∀ k < t.shape.foot t.comp, y.owners.find? (first + k) = some { first := first, shape := t.shape, comp := t.comp }) ∧ y.tiles.find? first = some t

theorem Shape.foot_pos (sh : Shape) (comp : Bool) : 0 < sh.foot comp := by
  cases sh <;> cases comp <;> decide

/-- A tile that is held is read as it was written. -/
theorem ArraySt.readTile_of_holdsTile {y : ArraySt} {first : Nat} {t : AccTile} (h : y.holdsTile first t) (fresh : Nat) :
    y.readTile fresh first t.shape t.comp = (t.hi, if t.comp then t.lo else List.replicate 1024 0) := by
  obtain ⟨hown, htile⟩ := h
  have hall : ((List.range (t.shape.foot t.comp)).map (first + ·)).all
      (fun k => y.owners.find? k == some { first := first, shape := t.shape, comp := t.comp }) = true := by
    simpa [List.all_eq_true] using hown
  simp only [ArraySt.readTile, hall, if_true, htile]

theorem ArraySt.holdsTile_writeTile (y : ArraySt) (first : Nat) (sh : Shape) (comp : Bool) (hi lo : List X32) :
    (y.writeTile first sh comp hi lo).holdsTile first { shape := sh, comp := comp, hi := hi, lo := if comp then lo else [] } := by
  refine ⟨fun k hk => ?_, Tab.find?_set_same _ _ _⟩
  simp only [ArraySt.writeTile, Tab.find?_foldl_set]
  rw [if_pos (by simpa using hk)]

/-- Writing a tile leaves those of other slots. -/
theorem ArraySt.holdsTile_writeTile_other {y : ArraySt} {first first' : Nat} {sh : Shape} {comp : Bool} {hi lo : List X32} {t : AccTile}
    (h : y.holdsTile first t) (hd : first + t.shape.foot t.comp ≤ first') : (y.writeTile first' sh comp hi lo).holdsTile first t := by
  obtain ⟨hown, htile⟩ := h
  have hpos := Shape.foot_pos t.shape t.comp
  refine ⟨fun k hk => ?_, ?_⟩
  · simp only [ArraySt.writeTile, Tab.find?_foldl_set]
    rw [if_neg, hown k hk]
    simp only [List.mem_map, List.mem_range, not_exists, not_and]
    omega
  · exact (Tab.find?_set_other _ _ (by omega)).trans htile

/-- The words of tile i of an ACC_WRITE. -/
def AccArgs.wordsOf (a : AccArgs) (ws : List Nat) (i : Nat) : List Nat := (ws.drop (i * (a.bytes / 8 / a.ntile))).take (a.bytes / 8 / a.ntile)

/-- Tile i as an ACC_WRITE writes it. -/
def AccArgs.written (a : AccArgs) (ws : List Nat) (i : Nat) : AccTile :=
  { shape := a.sh, comp := a.comp,
    hi := (List.range 1024).map (fun k => BitVec.ofNat 34 ((a.wordsOf ws i).getD (if a.comp then 2 * k else k) 0)),
    lo := if a.comp then (List.range 1024).map (fun k => BitVec.ofNat 34 ((a.wordsOf ws i).getD (2 * k + 1) 0)) else [] }

theorem AccArgs.written_eq (a : AccArgs) (ws : List Nat) (i : Nat) : AccTile.mk a.sh a.comp
    ((List.range 1024).map (fun k => BitVec.ofNat 34 ((a.wordsOf ws i).getD (if a.comp then 2 * k else k) 0)))
    (if a.comp then if a.comp then (List.range 1024).map (fun k => BitVec.ofNat 34 ((a.wordsOf ws i).getD (2 * k + 1) 0)) else [] else []) =
      a.written ws i := by
  rw [AccArgs.written]
  split
  next hc => simp only [hc]
  next hc => simp only [hc]

@[simp] theorem State.array_setArray_same (s : State) (t p : Nat) (v : ArraySt) : (s.setArray t p v).array t p = v := Tab.get_set_same _ _ _ _

/-- The first n tiles written. -/
def State.accPuts (s : State) (a : AccArgs) (ws : List Nat) (n : Nat) : State := (List.range n).foldl (fun s i => s.accPut a ws i) s

theorem State.accPuts_succ (s : State) (a : AccArgs) (ws : List Nat) (n : Nat) : s.accPuts a ws (n + 1) = (s.accPuts a ws n).accPut a ws n := by
  rw [State.accPuts, List.range_succ, List.foldl_append]
  rfl

theorem State.phys_accPuts (s : State) (a : AccArgs) (ws : List Nat) (n t p : Nat) : (s.accPuts a ws n).phys t p = s.phys t p :=
  State.foldl_keeps (fun s => s.phys t p) (f := fun s i => s.accPut a ws i) (fun _ _ => rfl) _ s

theorem State.holdsTile_accPuts (s : State) (a : AccArgs) (ws : List Nat) (n : Nat) : ∀ j < n,
    ((s.accPuts a ws n).array a.tile (s.phys a.tile a.array)).holdsTile (a.slot + j * a.foot) (a.written ws j) := by
  induction n with
  | zero => exact fun _ h => absurd h (Nat.not_lt_zero _)
  | succ n ih =>
    intro j hj
    rw [State.accPuts_succ, State.accPut, State.phys_accPuts]
    simp only [State.array_setArray_same]
    rcases Nat.lt_succ_iff_lt_or_eq.1 hj with hlt | rfl
    · refine ArraySt.holdsTile_writeTile_other (ih j hlt) ?_
      have hmul : (j + 1) * a.foot ≤ n * a.foot := Nat.mul_le_mul_right _ hlt
      have hfoot : (a.written ws j).shape.foot (a.written ws j).comp = a.foot := rfl
      rw [hfoot]
      rw [Nat.succ_mul] at hmul
      omega
    · exact AccArgs.written_eq a ws j ▸ ArraySt.holdsTile_writeTile _ _ _ _ _ _

theorem getD_range_map {α : Type} (n k : Nat) (f : Nat → α) (d : α) (h : k < n) : ((List.range n).map f).getD k d = f k := by
  simp [h]

/-- Where a tile has n words, word k of tile j is among those of the command. -/
theorem AccArgs.word_lt {n j k : Nat} (hn : a.bytes = a.ntile * (8 * n)) (hj : j < a.ntile) (hk : k < n) : n * j + k < a.bytes / 8 := by
  have hin := Nat.mul_le_mul_left n (Nat.succ_le_of_lt hj)
  rw [Nat.mul_succ] at hin
  rw [hn, Nat.mul_left_comm, Nat.mul_div_cancel_left _ (by decide), Nat.mul_comm a.ntile n]
  omega

theorem AccArgs.field_mem_accWords {n j k : Nat} (hn : a.bytes = a.ntile * (8 * n)) (hj : j < a.ntile) (hk : k < n) :
    fieldAt bs (8 * (n * j + k)) 8 ∈ accWords a bs :=
  List.mem_map.2 ⟨_, List.mem_range.2 (AccArgs.word_lt hn hj hk), rfl⟩

theorem AccArgs.getD_wordsOf {n j k : Nat} (hn : a.bytes = a.ntile * (8 * n)) (hj : j < a.ntile) (hk : k < n) :
    (a.wordsOf (accWords a bs) j).getD k 0 = fieldAt bs (8 * (n * j + k)) 8 := by
  have hbytes : a.bytes / 8 = a.ntile * n := by
    rw [hn, Nat.mul_left_comm, Nat.mul_div_cancel_left _ (by decide)]
  have hper : a.bytes / 8 / a.ntile = n := by rw [hbytes, Nat.mul_div_cancel_left _ (by omega)]
  rw [AccArgs.wordsOf, hper, List.getD_eq_getElem?_getD, List.getElem?_take_of_lt hk, List.getElem?_drop, accWords, List.getElem?_map, Nat.mul_comm j n,
    List.getElem?_range (AccArgs.word_lt hn hj hk)]
  rfl

theorem accWrite_writes (hj : s.judges m = true) (hf : m.fn = 0) (hl : lenIs m 8 1 = true) (hd : descsOk s m (descsAt m.payload 8 1) [false] = true)
    (hdebug : s.keeper.debug = true) (ha : a = accArgs m.payload) (hok : a.ok m.payload = true) (hbs : bs = m.reads.getD 0 [])
    (hws : ∀ w ∈ accWords a bs, w < 2 ^ 34) (hbusy : s.accBusy a = false) (hin : s.inputLost m (descsAt m.payload 8 1) = false)
    (hroom : a.bytes ≤ extentBytes (cmdExtents m (descsAt m.payload 8 1) 0)) :
    exec (.accWrite m) s = .next ((s.accPuts a (accWords a bs) a.ntile).complete m codeOk []) := by
  subst ha hbs
  have hbig : ((accWords (accArgs m.payload) (m.reads.getD 0 [])).any (fun w => decide (2 ^ 34 ≤ w))) = false := by
    rw [List.any_eq_false]
    intro w hw
    simpa using hws w hw
  have hexec := exec_judged hj (i := .accWrite m) rfl (fun _ => hf) hl
  simp only [hd, hdebug, hok, hbig, hbusy, hin, if_neg (Nat.not_lt.2 hroom), Bool.not_true, Bool.or_self, Bool.false_eq_true, if_false] at hexec
  exact hexec

/-- Settles O18. -/
theorem debugCommands : Obligations.DebugCommands := by
  unfold Obligations.DebugCommands
  refine ⟨fun m s hj hf hl hrun => debugEnter_enters hj hf hl hrun, fun m s hj hf hl => debugExit_exits hj hf hl,
    fun m s a bs hj hf hl hd hdebug ha hok hbs hws hbusy hin hroom => ⟨_, accWrite_writes hj hf hl hd hdebug ha hok hbs hws hbusy hin hroom,
      State.answers_complete _ _ _ _, ?_, ?_⟩⟩
  · simp [State.accPuts]
  · rintro j hjn k hk r rfl
    have htile := s.holdsTile_accPuts a (accWords a bs) a.ntile j hjn
    have hread := ArraySt.readTile_of_holdsTile htile s.fresh
    have harray : ((s.accPuts a (accWords a bs) a.ntile).complete m codeOk []).array a.tile (s.phys a.tile a.array) =
        (s.accPuts a (accWords a bs) a.ntile).array a.tile (s.phys a.tile a.array) := by rw [State.array, State.arr_complete, State.array]
    have hread' : ((s.accPuts a (accWords a bs) a.ntile).array a.tile (s.phys a.tile a.array)).readTile s.fresh (a.slot + j * a.foot) a.sh a.comp =
      ((a.written (accWords a bs) j).hi, if a.comp then (a.written (accWords a bs) j).lo else List.replicate 1024 0) := hread
    rw [harray, hread']
    have hword {i n : Nat} (hn : a.bytes = a.ntile * (8 * n)) (hi : i < n) :
        (BitVec.ofNat 34 ((a.wordsOf (accWords a bs) j).getD i 0)).toNat = fieldAt bs (8 * (n * j + i)) 8 := by
      rw [AccArgs.getD_wordsOf hn hjn hi, BitVec.toNat_ofNat, Nat.mod_eq_of_lt]
      exact hws _ (AccArgs.field_mem_accWords hn hjn hi)
    refine ⟨fun hc => ?_, fun hc => ⟨?_, ?_⟩⟩
    · simp only [AccArgs.written, hc, Bool.false_eq_true, if_false, getD_range_map _ _ _ _ hk]
      exact hword (n := 1024) (by simp [AccArgs.bytes, hc]) hk
    · simp only [AccArgs.written, hc, if_true, getD_range_map _ _ _ _ hk]
      rw [hword (n := 2048) (by simp [AccArgs.bytes, hc]) (by omega)]
    · simp only [AccArgs.written, hc, if_true, getD_range_map _ _ _ _ hk]
      rw [hword (n := 2048) (by simp [AccArgs.bytes, hc]) (by omega), Nat.add_assoc]

end
end Sys2Proof.Machine
end

/-! # Registers, groups, the event ring and the register windows (O19 to O22) -/

section
namespace Sys2Proof.Machine
open Sys2Proof
section
variable {s u : State} {t f : Nat} {v : Word}

/-! ### O19: status registers -/

theorem bitOf_toNat {w : Nat} (v : BitVec w) (i : Nat) : bitOf v.toNat i = v.getLsbD i := rfl

/-- What a write of a status register leaves: ones clear flags, SATURATED only where it is written there, and CNT_CLR the counters. -/
theorem NumStat.write_eq (x : NumStat) (sat : Bool) (v : Word) : x.write sat v =
    { ovf := x.ovf && !v.getLsbD 31, unf := x.unf && !v.getLsbD 30, nan := x.nan && !v.getLsbD 29, sat := x.sat && !(sat && v.getLsbD 27),
      vanished := if v.getLsbD 28 then 0 else x.vanished, clipped := if v.getLsbD 28 then 0 else x.clipped,
      satcnt := if v.getLsbD 28 then 0 else x.satcnt } := by
  simp only [NumStat.write, bitOf_toNat]
  split
  next h => simp only [NumStat.clearCounts, h, if_true]
  next h => simp only [h, Bool.false_eq_true, if_false]

/-- Settles O19. -/
theorem statusRegistersClear : Obligations.StatusRegistersClear := by
  unfold Obligations.StatusRegistersClear
  refine fun s hs => ⟨?_, ?_, ?_⟩
  · rintro t p v x rfl
    have hexec : exec (.drnCntClr t p v) s = execDrnCntClr t p v s := rfl
    simp only [execDrnCntClr, hs, if_true, State.writeDrnStat, NumStat.write_eq, Bool.false_and, Bool.not_false, Bool.and_true] at hexec
    exact hexec
  · rintro t v e rfl
    have hexec : exec (.tgtCntClr t v) s = execTgtCntClr t v s := rfl
    simp only [execTgtCntClr, hs, if_true] at hexec
    refine ⟨_, hexec, by simp, fun k hk => State.target_setTarget_other _ _ hk, ?_⟩
    simp only [State.target_setTarget_same, TargetSt.writeStatus, bitOf_toNat, NumStat.write_eq]
    cases hc : v.getLsbD 28 with
    | true => simp [TargetSt.catchUp]
    | false => simp
  · rintro t e v x rfl
    have hexec : exec (.vxeCntClr t e v) s = execVxeCntClr t e v s := rfl
    simp only [execVxeCntClr, hs, if_true, State.writeVxeStat, NumStat.write_eq, Bool.true_and] at hexec
    exact hexec

/-! ### O20: groups are committed -/

@[simp] theorem State.custSt_setCust_same (s : State) (t : Nat) (c : CustSt) : (s.setCust t c).custSt t = c := Tab.get_set_same _ _ _ _

/-- A Keeper cause bit is set and nothing else of the Keeper changes. -/
theorem State.keeper_setKprCause (s : State) {bit : Nat} (h : bit < 4) :
    (s.setKprCause bit).keeper.cause.getLsbD bit = true ∧ (s.setKprCause bit).keeper = { s.keeper with cause := (s.setKprCause bit).keeper.cause } := by
  have hraise : ∀ u : State, (u.raise 0 3).keeper = u.keeper := fun u => State.same_of_but (p := .keeper) (by simp)
  unfold State.setKprCause
  split
  next hset => exact ⟨hset, rfl⟩
  next =>
    rw [hraise]
    exact ⟨getLsbD_or_two_pow _ h, rfl⟩

/-- The group's values are finite and its boundaries rise (R116). -/
def CustSt.passes (c : CustSt) : Bool :=
  (c.bnd ++ c.coef).all (fun w => !(ofFP32 w).special) && (c.bnd.zip c.bnd.tail).all (fun (x, y) => (ofFP32 x).lt (ofFP32 y))

theorem CustSt.passes_iff (c : CustSt) : c.passes = true ↔ (∀ w ∈ c.bnd ++ c.coef, (ofFP32 w).special = false) ∧
    ∀ x ∈ c.bnd.zip c.bnd.tail, (ofFP32 x.1).lt (ofFP32 x.2) = true := by
  simp only [CustSt.passes, Bool.and_eq_true, List.all_eq_true, Bool.not_eq_true']

theorem State.commitCust_refuses (s : State) (t : Nat) (h : (s.custSt t).passes = false) :
    s.commitCust t = s.setCust t { s.custSt t with refused := true } := if_neg (by rw [Bool.not_eq_true]; exact h)

theorem State.custSt_custSettle (s : State) (t : Nat) : ((s.custSettle t).custSt t).active = (s.custSt t).active ∧
    ((s.custSettle t).custSt t).refused = (s.custSt t).refused ∧ ((s.custSettle t).custSt t).bnd = (s.custSt t).bnd := by
  unfold State.custSettle
  simp only []
  split
  · rw [State.custSt_setCust_same]
    exact ⟨rfl, rfl, rfl⟩
  · exact ⟨rfl, rfl, rfl⟩

theorem State.commitCust_commits (s : State) (t : Nat) (h : (s.custSt t).passes = true) : ((s.commitCust t).custSt t).refused = false ∧
    ((s.commitCust t).custSt t).active = some { bnd := (s.custSt t).bnd, coef := (s.custSt t).coef } ∧
    ((s.commitCust t).custSt t).bnd = (s.custSt t).bnd := by
  have hcommit : s.commitCust t = State.custSettle (s.setCust t { s.custSt t with
      active := some { bnd := (s.custSt t).bnd, coef := (s.custSt t).coef }, pending := true, refused := false, units := List.range 80 }) t := if_pos h
  obtain ⟨hactive, hrefused, hbnd⟩ := State.custSt_custSettle (s.setCust t { s.custSt t with
      active := some { bnd := (s.custSt t).bnd, coef := (s.custSt t).coef }, pending := true, refused := false, units := List.range 80 }) t
  rw [State.custSt_setCust_same] at hactive hrefused hbnd
  rw [hcommit]
  exact ⟨hrefused, hactive, hbnd⟩

/-- A committed group of a Target engine comes into force as soon as the engine is idle. -/
theorem TargetSt.settle_eq (e : TargetSt) : (e.busy = true ∨ e.committed = none → e.settle = e) ∧
    ∀ c, e.committed = some c → e.busy = false → e.settle.active = c ∧ e.settle.committed = none ∧
      e.settle.slots = e.slots := by
  unfold TargetSt.settle
  refine ⟨fun h => ?_, fun c hc hb => ?_⟩
  · split
    · rfl
    next c hc => rw [if_pos (h.resolve_right (by rw [hc]; nofun))]
  · simp only [hc, hb, Bool.false_eq_true, if_false, and_self]

theorem TargetSt.refused_settle (e : TargetSt) : e.settle.refused = e.refused := by
  unfold TargetSt.settle
  split
  · rfl
  · split <;> rfl

/-! Sampling keys -/

/-- A key group once the engines that are idle have passed their boundary. -/
def KeySt.settled (k : KeySt) (busy : Nat → Bool) : KeySt :=
  if k.pending then { k with units := k.units.filter busy, pending := !(k.units.filter busy).isEmpty } else k

/-- One function's keys settled. -/
def State.keySettle (s : State) (t f : Nat) : State :=
  let k := s.keySt t f
  let units := k.units.filter (s.keyUser t)
  if k.pending then s.setKeySt t f { k with units := units, pending := !units.isEmpty } else s

theorem State.keysSettle_eq (s : State) (t : Nat) : s.keysSettle t = (List.range 17).foldl (fun s f => s.keySettle t f) s := rfl

@[simp] theorem State.keySt_setKeySt_same (s : State) (t f : Nat) (k : KeySt) : (s.setKeySt t f k).keySt t f = k := Tab.get_set_same _ _ _ _

theorem State.keySt_setKeySt_other (s : State) {t f g h : Nat} (k : KeySt) (hne : g * 17 + h ≠ t * 17 + f) : (s.setKeySt t f k).keySt g h = s.keySt g h :=
  Tab.get_set_other _ _ _ hne

theorem State.keySt_keySettle_same (s : State) (t f : Nat) : (s.keySettle t f).keySt t f = (s.keySt t f).settled (s.keyUser t) := by
  unfold State.keySettle KeySt.settled
  simp only []
  split
  · exact State.keySt_setKeySt_same _ _ _ _
  · rfl

theorem State.keySt_keySettle_other (s : State) {t f g h : Nat} (hne : g * 17 + h ≠ t * 17 + f) : (s.keySettle t f).keySt g h = s.keySt g h := by
  unfold State.keySettle
  simp only []
  split
  · exact State.keySt_setKeySt_other _ _ hne
  · rfl

theorem State.keyUser_keySettle (s : State) (t f : Nat) : (s.keySettle t f).keyUser = s.keyUser := by
  unfold State.keySettle
  simp only []
  split <;> rfl

/-- Settling changes neither what is in force nor what is staged. -/
theorem State.active_keysSettle (s : State) (t g h : Nat) :
    ((s.keysSettle t).keySt g h).active = (s.keySt g h).active ∧ ((s.keysSettle t).keySt g h).staged = (s.keySt g h).staged := by
  have hstep : ∀ (u : State) f, ((u.keySettle t f).keySt g h).active = (u.keySt g h).active ∧
      ((u.keySettle t f).keySt g h).staged = (u.keySt g h).staged := fun u f => by
    by_cases hne : g * 17 + h = t * 17 + f
    · unfold State.keySettle
      simp only []
      split
      · unfold State.keySt State.setKeySt
        rw [State.setEng_eng]
        simp only [hne, Tab.get_set_same, and_self]
      · exact ⟨rfl, rfl⟩
    · rw [State.keySt_keySettle_other _ hne]
      exact ⟨rfl, rfl⟩
  rw [State.keysSettle_eq]
  exact ⟨State.foldl_keeps (fun s => (s.keySt g h).active) (fun u f => (hstep u f).1) _ s,
    State.foldl_keeps (fun s => (s.keySt g h).staged) (fun u f => (hstep u f).2) _ s⟩

theorem State.keySt_keySettles (t f : Nat) (l : List Nat) (hl : l.Nodup) : ∀ s : State,
    (l.foldl (fun s f => s.keySettle t f) s).keySt t f = if f ∈ l then (s.keySt t f).settled (s.keyUser t) else s.keySt t f := by
  induction l with
  | nil => simp
  | cons g l ih =>
    intro s
    obtain ⟨hg, hl⟩ := List.nodup_cons.1 hl
    rw [List.foldl_cons, ih hl, State.keyUser_keySettle]
    by_cases hfg : f = g
    · subst hfg
      rw [if_neg hg, if_pos List.mem_cons_self, State.keySt_keySettle_same]
    · rw [State.keySt_keySettle_other _ (by omega)]
      simp [hfg]

theorem State.keySt_keysSettle (s : State) {f : Nat} (t : Nat) (hf : f < 17) : (s.keysSettle t).keySt t f = (s.keySt t f).settled (s.keyUser t) := by
  rw [State.keysSettle_eq, State.keySt_keySettles _ _ _ List.nodup_range, if_pos (List.mem_range.2 hf)]

/-- Committed keys are in force, and PENDING stays while an engine of the tile is inside a command. -/
theorem State.commitStaged_commits (s : State) (t : Nat) {f : Nat} (hf : f < 17) :
    ((s.commitStaged t f).keySt t f).active = (s.keySt t f).staged ∧ ((s.commitStaged t f).keySt t f).staged = (s.keySt t f).staged ∧
    (((s.commitStaged t f).keySt t f).pending = true ↔ ∃ n < 9, s.keyUser t n = true) ∧
    ∀ g h, g * 17 + h ≠ t * 17 + f → ((s.commitStaged t f).keySt g h).active = (s.keySt g h).active := by
  have hsettled := State.keySt_keysSettle (s.setKeySt t f { s.keySt t f with active := (s.keySt t f).staged, pending := true, units := List.range 9 }) t hf
  rw [State.keySt_setKeySt_same] at hsettled
  refine ⟨?_, ?_, ?_, fun g h hne => ?_⟩
  · exact (State.active_keysSettle _ _ _ _).1.trans (congrArg KeySt.active (State.keySt_setKeySt_same _ _ _ _) :)
  · exact (State.active_keysSettle _ _ _ _).2.trans (congrArg KeySt.staged (State.keySt_setKeySt_same _ _ _ _) :)
  · refine (congrArg (fun k : KeySt => k.pending = true) hsettled).to_iff.trans ?_
    have hkeep : ∀ x, (s.setKeySt t f x).keyUser t = s.keyUser t := fun _ => rfl
    simp only [KeySt.settled, if_true, hkeep, Bool.not_eq_true', List.isEmpty_eq_false_iff_exists_mem, List.mem_filter, List.mem_range]
  · exact (State.active_keysSettle _ _ _ _).1.trans (congrArg KeySt.active (State.keySt_setKeySt_other _ _ hne))

/-! SCHED -/

/-- An engine's schedule at a commit: a turn that is open keeps the group it began with (R381). -/
def EngSched.keep (active : Tab SchedFn) (e : EngSched) : EngSched := if e.current.isSome then { e with group := some (e.group.getD active) } else e

theorem State.schedOk_iff (s : State) : s.schedOk = true ↔
    (∀ f < 17, 100 ≤ (s.stagedFn f).slice ∧ (s.stagedFn f).slice ≤ 100000) ∧ (s.stagedFn 0).suspend = false := by
  simp [State.schedOk, List.all_eq_true]

theorem State.writeSchedCommit_commits (s : State) {v : Word} (hv : v.getLsbD 0 = true) (h : s.schedOk = true) :
    ∃ u, s.writeSchedCommit v = u ∧ s.onlyChanges u [.sched] ∧ u.sched.active = s.sched.staged ∧ u.sched.refused = false ∧
      ∀ k, (u.engSched k).current = (s.engSched k).current ∧
        ((s.engSched k).current.isSome = true → ∀ f, u.schedFn k f = s.schedFn k f) := by
  have hwrite : s.writeSchedCommit v = s.setSched { s.sched with
      active := s.sched.staged, refused := false, engines := s.sched.engines.map (fun e => (e.1, e.2.keep s.sched.active)) } := by
    simp only [State.writeSchedCommit, hv, h, Bool.not_true, Bool.false_eq_true, if_false]
    congr 3
    funext e
    unfold EngSched.keep
    split <;> rfl
  refine ⟨_, hwrite, by simp, rfl, rfl, fun k => ?_⟩
  have hget : (s.setSched { s.sched with
      active := s.sched.staged, refused := false, engines := s.sched.engines.map (fun e => (e.1, e.2.keep s.sched.active)) }).engSched k =
      (s.engSched k).keep s.sched.active := Tab.get_map s.sched.engines {} (EngSched.keep s.sched.active) k
  refine ⟨?_, fun hopen f => ?_⟩
  · rw [hget, EngSched.keep]
    split <;> rfl
  · rw [State.schedFn, hget, EngSched.keep, if_pos hopen]
    rfl

/-- A write of the physical function in debug mode, and outside it. -/
theorem execGroupCommit {t : TileIx} {v : Word} (hr : s.regsAnswer 0 = true) (hrel : s.released = true) :
    exec (.drnCustCommit 0 t v) s = .next (s.writeCustCommit t v) ∧ exec (.tgtCommit 0 t v) s = .next (s.writeTgtCommit t v) ∧
    ∀ f : Fn, exec (.vxeKeyCommit 0 t f v) s = .next (s.writeKeyCommit t f v) := by
  have hcond : (decide ((0 : Fn).val = 0) && s.regsAnswer 0 && s.released) = true := by rw [hr, hrel]; rfl
  refine ⟨?_, ?_, fun f => ?_⟩
  · exact congrArg Host.Outcome.next (if_pos hcond)
  · exact congrArg Host.Outcome.next (if_pos hcond)
  · exact congrArg Host.Outcome.next (if_pos hcond)

/-- Settles O20. -/
theorem groupsAreCommitted : Obligations.GroupsAreCommitted := by
  unfold Obligations.GroupsAreCommitted
  refine ⟨fun t f v s hr hrel hd i hi => ?_, fun t v s hr hrel hd hv => ⟨fun hfin hrise => ?_, fun hbad => ?_⟩, fun t v s hr hrel hd hv => ?_, fun t s => ?_,
    fun t f v s hr hrel hd hv => ?_, fun v s hr hv => ⟨fun hslice hsusp => ?_, fun hbad => ?_⟩⟩
  · have hdenied : ∀ g : State → State, s.debugWrite g = s.denied := fun g => if_neg (by rw [hd]; exact Bool.false_ne_true)
    obtain ⟨hcust, htgt, hkey⟩ := execGroupCommit (t := t) (v := v) hr hrel
    have hexec : exec i s = .next s.denied := by
      simp only [List.mem_cons, List.not_mem_nil, or_false] at hi
      rcases hi with rfl | rfl | rfl
      · rw [hcust, State.writeCustCommit, hdenied]
      · rw [htgt, State.writeTgtCommit, hdenied]
      · rw [hkey f, State.writeKeyCommit, hdenied]
    exact ⟨_, hexec, (s.keeper_setKprCause (by decide)).1, (s.keeper_setKprCause (by decide)).2, by simp [State.denied]⟩
  · have hexec := (execGroupCommit (t := t) (v := v) hr hrel).1
    simp only [State.writeCustCommit, State.debugWrite, hd, hv, if_true] at hexec
    exact ⟨_, hexec, by simp, s.commitCust_commits t ((CustSt.passes_iff _).2 ⟨hfin, hrise⟩)⟩
  · have hexec := (execGroupCommit (t := t) (v := v) hr hrel).1
    simp only [State.writeCustCommit, State.debugWrite, hd, hv, if_true] at hexec
    rw [hexec, s.commitCust_refuses t]
    rw [← Bool.not_eq_true, CustSt.passes_iff]
    rintro ⟨hfin, hrise⟩
    rcases hbad with ⟨w, hw, hwbad⟩ | ⟨x, hx, hxbad⟩
    · rw [hfin w hw] at hwbad
      cases hwbad
    · rw [hrise x hx] at hxbad
      cases hxbad
  · have hexec := (execGroupCommit (t := t) (v := v) hr hrel).2.1
    simp only [State.writeTgtCommit, State.debugWrite, hd, hv, if_true] at hexec
    refine ⟨_, hexec, by simp, fun hvalid => ?_, fun hvalid => ?_⟩
    · rw [State.target_setTarget_same, TargetSt.commit, if_pos hvalid]
      obtain ⟨hkeep, htake⟩ := TargetSt.settle_eq { s.target t with committed := some (s.target t).staged, refused := false }
      refine ⟨TargetSt.refused_settle _, fun hbusy => ?_, fun hidle => ?_⟩
      · rw [hkeep (.inl hbusy)]
        exact ⟨rfl, rfl⟩
      · obtain ⟨hactive, hnone, -⟩ := htake _ rfl hidle
        exact ⟨hactive, hnone⟩
    · rw [State.target_setTarget_same, TargetSt.commit, if_neg (by rw [hvalid]; exact Bool.false_ne_true)]
  · have hexec : exec (.tcfgApply t) s = .next (s.setTarget t (s.target t).settle) := rfl
    obtain ⟨hkeep, htake⟩ := TargetSt.settle_eq (s.target t)
    refine ⟨_, hexec, by simp, fun k hk => State.target_setTarget_other _ _ hk, fun h => ?_, fun c hc hb => ?_⟩
    · rw [State.target_setTarget_same, hkeep h]
    · rw [State.target_setTarget_same]
      obtain ⟨hactive, hnone, hslots⟩ := htake c hc hb
      exact ⟨hactive, hnone, hslots⟩
  · have hexec := (execGroupCommit (t := t) (v := v) hr hrel).2.2 f
    simp only [State.writeKeyCommit, State.debugWrite, hd, hv, if_true] at hexec
    exact ⟨_, hexec, by simp, s.commitStaged_commits t f.isLt⟩
  · obtain ⟨u, hu, h⟩ := s.writeSchedCommit_commits hv (s.schedOk_iff.2 ⟨hslice, hsusp⟩)
    exact ⟨u, (congrArg Host.Outcome.next (if_pos (by rw [hr]; rfl))).trans (congrArg _ hu), h⟩
  · have hbad' : s.schedOk = false := by
      rw [← Bool.not_eq_true, State.schedOk_iff]
      rintro ⟨hslice, hsusp⟩
      rcases hbad with ⟨f, hf, hs⟩ | hs
      · have := hslice f hf
        omega
      · rw [hs] at hsusp
        cases hsusp
    refine (congrArg Host.Outcome.next (if_pos (by rw [hr]; rfl))).trans (congrArg _ ?_)
    simp only [State.writeSchedCommit, hv, hbad', Bool.not_true, Bool.not_false, Bool.false_eq_true, if_false, if_true]

end
end Sys2Proof.Machine
end

section
namespace Sys2Proof.Machine
open Sys2Proof
section
variable {s t u : State} {f n v : Nat}

/-! ### O21: the event ring, the heartbeat, stopwatch reads and unmasking -/

theorem State.onlyMailbox_releaseHeld (n f : Nat) : ∀ s : State, s.onlyMailbox (State.releaseHeld n f s) f := by
  induction n with
  | zero => exact fun s => s.onlyMailbox_refl f
  | succ n ih =>
    intro s
    rw [State.releaseHeld]
    split
    · exact s.onlyMailbox_refl f
    split
    · exact s.onlyMailbox_refl f
    · exact State.onlyMailbox_trans (State.onlyMailbox_trans (s.onlyMailbox_setMbox f _) (State.onlyMailbox_raise _ f _)) (ih _)

/-- Held events that entered the ring of b: k of them, the oldest first. -/
def Mailbox.released (b c : Mailbox) (k : Nat) : Prop :=
  c.cons = b.cons ∧ c.lost = b.lost ∧ c.held = b.held.drop k ∧ c.prod = if k = 0 then b.prod else (b.prod + k) % 64

theorem Mailbox.released_refl (b : Mailbox) : b.released b 0 := ⟨rfl, rfl, rfl, rfl⟩

theorem Mailbox.released_cons {b c : Mailbox} {e : Event} {r : List Event} {k : Nat} (hb : b.held = e :: r) (ring : Tab Event) (cause : BitVec 6)
    (h : ({ b with held := r, ring := ring, prod := (b.prod + 1) % 64, cause := cause } : Mailbox).released c k) : b.released c (k + 1) := by
  obtain ⟨hcons, hlost, hheld, hprod⟩ := h
  refine ⟨hcons, hlost, by rw [hheld, hb, List.drop_succ_cons], ?_⟩
  rw [hprod, if_neg (Nat.succ_ne_zero k)]
  split <;> simp only [] <;> omega

/-- The places of the ring that are free, one being kept empty. -/
def Mailbox.free (b : Mailbox) : Nat := (b.cons + 63 - b.prod % 64) % 64

/-- Held events enter the ring until none is held or the ring is full. -/
theorem State.releaseHeld_releases (f : Nat) (n : Nat) : ∀ s : State, (s.mbox f).cons < 64 → (s.mbox f).free < n →
    ∃ k, (s.mbox f).released ((State.releaseHeld n f s).mbox f) k ∧
      (((State.releaseHeld n f s).mbox f).held = [] ∨ (((State.releaseHeld n f s).mbox f).prod + 1) % 64 = (s.mbox f).cons) := by
  induction n with
  | zero => exact fun _ _ h => absurd h (Nat.not_lt_zero _)
  | succ n ih =>
    intro s hcons hfree
    rw [State.releaseHeld]
    split
    next hheld => exact ⟨0, Mailbox.released_refl _, .inl hheld⟩
    next e r hheld =>
      split
      next hfull => exact ⟨0, Mailbox.released_refl _, .inr hfull⟩
      next hroom =>
        have hmbox : ∀ b v, ((s.setMbox f b).raise f v).mbox f = b := fun b v => by rw [State.mbox_raise, State.mbox_setMbox_same]
        obtain ⟨k, hk, hstop⟩ := ih ((s.setMbox f { s.mbox f with
          held := r, ring := (s.mbox f).ring.set (s.mbox f).prod e, prod := ((s.mbox f).prod + 1) % 64, cause := (s.mbox f).cause ||| 2 }).raise f (eventVector e)) (by rw [hmbox]; exact hcons) (by
            rw [hmbox]
            simp only [Mailbox.free] at hfree ⊢
            omega)
        rw [hmbox] at hk hstop
        exact ⟨k + 1, Mailbox.released_cons hheld _ _ hk, hstop⟩

theorem execMbxEvtConsWrite_eq {f : Fn} (h : s.regsAnswer f = true) (v : Nat) : exec (.mbxEvtConsWrite f v) s = .next (s.writeCons f v) :=
  congrArg Host.Outcome.next (if_pos h)

theorem State.writeCons_forward (s : State) (h0 : 0 < (v % 64 + 64 - (s.mbox f).cons) % 64)
    (hw : (v % 64 + 64 - (s.mbox f).cons) % 64 ≤ ((s.mbox f).prod + 64 - (s.mbox f).cons) % 64) : s.writeCons f v =
      if s.keeper.kbusy then s.setMbox f { s.mbox f with cons := v % 64 } else State.releaseHeld 256 f (s.setMbox f { s.mbox f with cons := v % 64 }) := by
  have hcond : ((v % 64 + 64 - (s.mbox f).cons) % 64 = 0 ||
      decide (((s.mbox f).prod + 64 - (s.mbox f).cons) % 64 < (v % 64 + 64 - (s.mbox f).cons) % 64)) = false := by
    simp only [Bool.or_eq_false_iff, decide_eq_false_iff_not]
    omega
  exact if_neg (by rw [hcond]; exact Bool.false_ne_true)

theorem mbxEvtConsWrite_takes {f : Fn} {w : Nat} (hr : s.regsAnswer f = true) (hn : n = (v % 64 + 64 - (s.mbox f).cons) % 64)
    (hw : w = ((s.mbox f).prod + 64 - (s.mbox f).cons) % 64) :
    (n = 0 ∨ w < n → ∃ t, exec (.mbxEvtConsWrite f v) s = .next t ∧ (t.mbox f).cause.getLsbD 5 = true ∧
      t.mbox f = { s.mbox f with cause := (t.mbox f).cause } ∧ s.onlyMailbox t f) ∧
    (0 < n → n ≤ w → s.keeper.kbusy = true → exec (.mbxEvtConsWrite f v) s = .next (s.setMbox f { s.mbox f with cons := v % 64 })) ∧
    (0 < n → n ≤ w → s.keeper.kbusy = false → ∃ t k, exec (.mbxEvtConsWrite f v) s = .next t ∧ s.onlyMailbox t f ∧
      (t.mbox f).cons = v % 64 ∧ (t.mbox f).lost = (s.mbox f).lost ∧ (t.mbox f).held = (s.mbox f).held.drop k ∧
      (k = 0 → (t.mbox f).prod = (s.mbox f).prod) ∧ (0 < k → (t.mbox f).prod = ((s.mbox f).prod + k) % 64) ∧
      ((t.mbox f).held = [] ∨ ((t.mbox f).prod + 1) % 64 = v % 64)) := by
  subst hn hw
  rw [execMbxEvtConsWrite_eq hr]
  refine ⟨fun hbad => ?_, fun h0 hle hb => ?_, fun h0 hle hb => ?_⟩
  · have hcond : ((v % 64 + 64 - (s.mbox f).cons) % 64 = 0 ||
        decide (((s.mbox f).prod + 64 - (s.mbox f).cons) % 64 < (v % 64 + 64 - (s.mbox f).cons) % 64)) = true := by
      simpa only [Bool.or_eq_true, decide_eq_true_eq] using hbad
    have hcause : s.writeCons f v = s.setCause f 5 2 := if_pos hcond
    rw [hcause]
    exact ⟨_, rfl, s.cause_setCause f 2 (by decide), by rw [State.mbox_setCause], s.onlyMailbox_setCause f 5 2⟩
  · rw [s.writeCons_forward h0 hle, if_pos hb]
  · rw [s.writeCons_forward h0 hle, if_neg (by rw [hb]; exact Bool.false_ne_true)]
    have hmbox := s.mbox_setMbox_same f { s.mbox f with cons := v % 64 }
    obtain ⟨k, hk, hstop⟩ := State.releaseHeld_releases f 256 (s.setMbox f { s.mbox f with cons := v % 64 })
      (by rw [hmbox]; exact Nat.mod_lt _ (by decide)) (Nat.lt_of_lt_of_le (Nat.mod_lt _ (by decide)) (by decide))
    rw [hmbox] at hk hstop
    obtain ⟨hcons, hlost, hheld, hprod⟩ := hk
    refine ⟨_, k, rfl, State.onlyMailbox_trans (s.onlyMailbox_setMbox f _) (State.onlyMailbox_releaseHeld 256 f _), hcons, hlost, hheld,
      fun h => ?_, fun h => ?_, hstop⟩
    · rw [hprod, if_pos h]
    · rw [hprod, if_neg (Nat.pos_iff_ne_zero.1 h)]

/-- An unmasked vector's message goes out, is withheld in D3hot, or stays pending under the function's mask. -/
theorem State.unmask_unmasks (s : State) (v : Nat) (hf : s.fnExists f = true) (hr : (s.fnSt f).resetting = false) :
    (((s.unmask f v).fnSt f).msix.get {} v).masked = false ∧
      (((s.unmask f v).fnSt f).msix.get {} v).pending = (((s.fnSt f).msix.get {} v).pending && (s.fnSt f).fmask) ∧ s.onlyChanges (s.unmask f v) [.fnp, .outbox] ∧
      (((s.fnSt f).msix.get {} v).pending = false ∨ (s.fnSt f).fmask = true → (s.unmask f v).outbox = s.outbox) ∧
      (((s.fnSt f).msix.get {} v).pending = true → (s.fnSt f).fmask = false → (s.fnSt f).d3hot = false → (s.unmask f v).outbox =
        .msix f v ((s.fnSt f).msix.get {} v).addr ((s.fnSt f).msix.get {} v).data :: s.outbox) := by
  unfold State.unmask
  extract_lets e x s₁
  have hst : s₁.fnSt f = { e with msix := e.msix.set v { x with masked := false, pending := x.pending && e.fmask } } := s.fnSt_setFnSt_same _ _
  have hmsix : (s₁.fnSt f).msix.get {} v = { x with masked := false, pending := x.pending && e.fmask } := by
    rw [hst]
    exact Tab.get_set_same _ _ _ _
  split
  next hsend =>
    obtain ⟨hp, hm⟩ := Bool.and_eq_true_iff.1 hsend
    have hex : (!s₁.fnExists f || (s₁.fnSt f).resetting) = false := by
      rw [hst]
      simp only [Bool.or_eq_false_iff, Bool.not_eq_false']
      exact ⟨hf, hr⟩
    have hmask : e.fmask = false := by simpa using hm
    have hopen : (((s₁.fnSt f).msix.get {} v).masked || (s₁.fnSt f).fmask) = false := by
      rw [hmsix, hst]
      exact hmask
    have hd3 : (s₁.fnSt f).d3hot = e.d3hot := by rw [hst]
    have hdata : ((s₁.fnSt f).msix.get {} v).addr = x.addr ∧ ((s₁.fnSt f).msix.get {} v).data = x.data := by
      rw [hmsix]
      exact ⟨rfl, rfl⟩
    unfold State.raise
    simp only [hex, hopen, hd3, hdata, Bool.false_eq_true, if_false]
    split
    next hcold =>
      refine ⟨?_, ?_, by simp [s₁], fun _ => rfl, fun _ _ h => ?_⟩
      · rw [State.fnSt_setFnSt_same, hmsix]
      · rw [State.fnSt_setFnSt_same, hmsix]
      · exact absurd (h.symm.trans hcold) Bool.false_ne_true
    next =>
      refine ⟨congrArg Msix.masked hmsix, congrArg Msix.pending hmsix, by simp [s₁], fun h => ?_, fun _ _ _ => rfl⟩
      rcases h with h | h
      · exact absurd (h.symm.trans hp) Bool.false_ne_true
      · exact absurd (hmask.symm.trans h) Bool.false_ne_true
  next hkeep =>
    refine ⟨congrArg Msix.masked hmsix, congrArg Msix.pending hmsix, by simp [s₁], fun _ => rfl, fun hp hm => ?_⟩
    exact absurd (by rw [hp, hm]; rfl) hkeep

/-- Settles O21. -/
theorem eventsAndMessages : Obligations.EventsAndMessages := by
  unfold Obligations.EventsAndMessages
  refine ⟨fun f v n w s hr hn hw => mbxEvtConsWrite_takes hr hn hw, fun s hk hup => ?_, fun s hk => ?_, fun u s hr => ?_, fun f v s hlit hf hr => ?_⟩
  · have hcond : ((s.keeper.up || s.keeper.recovery) && !s.keeper.kbusy) = true := by rcases hup with h | h <;> simp [h, hk]
    exact congrArg Host.Outcome.next (if_pos hcond)
  · exact congrArg Host.Outcome.next (if_neg (by rw [hk, Bool.not_true, Bool.and_false]; exact Bool.false_ne_true))
  · exact congrArg Host.Outcome.next (if_pos hr)
  · have hexec : exec (.msixVectorUnmask f v) s = .next (s.unmask f v) := congrArg Host.Outcome.next (if_pos (by rw [hlit, hf, hr]; rfl))
    exact ⟨_, hexec, s.unmask_unmasks v hf hr⟩

end
end Sys2Proof.Machine
end

section
namespace Sys2Proof.Machine
open Sys2Proof
section
variable {s t u : State} {f : Fn} {v : Word} {bar o size : Nat}

/-! ### O22: register writes through the windows -/

theorem State.regsAnswer_iff (s : State) (f : Nat) : s.regsAnswer f = true ↔
    s.pwr.hubLit = true ∧ s.fnExists f = true ∧ (s.fnSt f).resetting = false ∧ (s.fnSt f).d3hot = false := by
  simp [State.regsAnswer, and_assoc]

/-- An aligned 32-bit write through a function's BARs. -/
def State.writeBar (s : State) (f bar o : Nat) (v : Word) : State :=
  match bar with
  | 0 => s.writeBar0 f o v
  | 2 => if f = 0 then s.writeBar2 o v else s
  | 4 => if o < 1024 then s.writeMsix f o v else s
  | _ => s

/-- A write through a BAR that answers. -/
theorem execRegisterWrite_bar (h : s.regsAnswer f = true) (h8 : bar ≠ 8) (h9 : bar ≠ 9) (v : Word) : exec (.registerWrite f bar o size v) s =
    .next (if size != 4 || o % 4 != 0 then s else s.writeBar f bar o v) := by
  obtain ⟨hlit, hf, -, -⟩ := (s.regsAnswer_iff f).1 h
  have hexec : exec (.registerWrite f bar o size v) s = execRegisterWrite f bar o size v s := rfl
  simp only [execRegisterWrite, hlit, hf, h, h8, h9, Bool.not_true, Bool.or_self, Bool.false_or, Bool.false_eq_true, if_false] at hexec
  exact hexec

theorem execRegisterWrite_unaligned (h : s.regsAnswer f = true) (h8 : bar ≠ 8) (h9 : bar ≠ 9) (hbad : size ≠ 4 ∨ o % 4 ≠ 0) (v : Word) :
    exec (.registerWrite f bar o size v) s = .next s := by
  rw [execRegisterWrite_bar h h8 h9, if_pos (by simpa using hbad)]

theorem execRegisterWrite_aligned (h : s.regsAnswer f = true) (h8 : bar ≠ 8) (h9 : bar ≠ 9) (ho : o % 4 = 0) (v : Word) :
    exec (.registerWrite f bar o 4 v) s = .next (s.writeBar f bar o v) := by
  rw [execRegisterWrite_bar h h8 h9, if_neg (by simp [ho])]

theorem State.writeBar0_cause (s : State) (f : Nat) (v : Word) : s.writeBar0 f (0x100000 + f * 0x4000 + 0x18) v =
    s.setMbox f { s.mbox f with cause := (s.mbox f).cause &&& ~~~(BitVec.ofNat 6 v.toNat) } :=
  (if_neg (by omega)).trans (if_pos rfl)

theorem State.writeBar0_keeper (s : State) (v : Word) :
    s.writeBar0 0 4 v = s.setKeeper { s.keeper with cause := s.keeper.cause &&& ~~~(BitVec.ofNat 4 v.toNat) } := rfl

/-- SLICE of a function is staged. -/
theorem State.writeBar2_slice (s : State) {g : Nat} (hg : g < 17) (v : Word) : s.writeBar2 (0x800000 + 16 * g) v =
    s.setSched { s.sched with staged := s.sched.staged.set g { s.stagedFn g with slice := v.toNat % 2 ^ 20 } } := by
  have hblock : (0x800000 + 16 * g) / 0x100000 = 8 := by omega
  have hoff : (0x800000 + 16 * g) % 0x100000 = 16 * g := by omega
  have hfn : 16 * g / 16 = g := by omega
  have hreg : 16 * g % 16 / 4 = 0 := by omega
  simp only [State.writeBar2, hblock, hoff, State.writeSched, if_pos (show 16 * g < 17 * 16 by omega), hreg, hfn]
  rfl

theorem State.readBar2_slice (s : State) {g : Nat} (hg : g < 17) : s.readBar2 (0x800000 + 16 * g) = (s.stagedFn g).slice := by
  have hblock : (0x800000 + 16 * g) / 0x100000 = 8 := by omega
  have hoff : (0x800000 + 16 * g) % 0x100000 = 16 * g := by omega
  have hfn : 16 * g / 16 = g := by omega
  have hreg : 16 * g % 16 / 4 = 0 := by omega
  simp only [State.readBar2, hblock, hoff, State.readSched, if_pos (show 16 * g < 17 * 16 by omega), hreg, hfn]

/-- The data of a vector is written. -/
theorem State.writeMsix_data (s : State) (f : Nat) {i : Nat} (hi : i < 64) (v : Word) : s.writeBar f 4 (16 * i + 8) v =
    s.setFnSt f { s.fnSt f with msix := (s.fnSt f).msix.set i { (s.fnSt f).msix.get {} i with data := v } } := by
  have hindex : (16 * i + 8) / 16 = i := by omega
  have hreg : (16 * i + 8) % 16 / 4 = 2 := by omega
  simp only [State.writeBar, if_pos (show 16 * i + 8 < 1024 by omega), State.writeMsix, hindex, hreg]

theorem State.readBar2_bnd (s : State) {k i : Nat} (hk : k < 4) (hi : i < 15) :
    s.readBar2 (0x400800 + k * 0x10000 + 4 * i) = ((s.custSt k).bnd.getD i 0).toNat := by
  have hblock : (0x400800 + k * 0x10000 + 4 * i) / 0x100000 = 4 := by omega
  have htile : (0x400800 + k * 0x10000 + 4 * i) % 0x100000 / 0x10000 = k := by omega
  have hoff : (0x400800 + k * 0x10000 + 4 * i) % 0x100000 % 0x10000 = 0x800 + 4 * i := by omega
  have hnot : ¬0x800 + 4 * i < 84 * 16 := by omega
  have hin : (decide (0x800 ≤ 0x800 + 4 * i) && decide (0x800 + 4 * i < 0x83C)) = true := by simp; omega
  have hindex : (0x800 + 4 * i - 0x800) / 4 = i := by omega
  simp only [State.readBar2, hblock, htile, hoff, hk, if_true, State.readDrn, hnot, if_false, hin, hindex]

/-- A boundary of CUST is staged in debug mode. -/
theorem State.writeBar2_bnd (s : State) {k i : Nat} (hk : k < 4) (hi : i < 15) (hrel : s.released = true) (hd : s.keeper.debug = true) (v : Word) :
    s.writeBar2 (0x400800 + k * 0x10000 + 4 * i) v = s.stageBnd k i v := by
  have hblock : (0x400800 + k * 0x10000 + 4 * i) / 0x100000 = 4 := by omega
  have htile : (0x400800 + k * 0x10000 + 4 * i) % 0x100000 / 0x10000 = k := by omega
  have hoff : (0x400800 + k * 0x10000 + 4 * i) % 0x100000 % 0x10000 = 0x800 + 4 * i := by omega
  have hnot : ¬0x800 + 4 * i < 84 * 16 := by omega
  have hin : (decide (0x800 ≤ 0x800 + 4 * i) && decide (0x800 + 4 * i < 0x83C)) = true := by simp; omega
  have hindex : (0x800 + 4 * i - 0x800) / 4 = i := by omega
  simp only [State.writeBar2, hblock, htile, hoff, hrel, hk, decide_true, Bool.and_self, if_true, State.writeDrn, hnot, if_false, hin, State.debugWrite, hd,
    hindex]

/-- Settles O22. -/
theorem registerWritesTakeEffect : Obligations.RegisterWritesTakeEffect := by
  unfold Obligations.RegisterWritesTakeEffect
  intro f v s h
  obtain ⟨hlit, hf, hr, -⟩ := (s.regsAnswer_iff f).1 h
  have hopen : ¬((!s.pwr.hubLit || !s.fnExists f) = true) := by rw [hlit, hf]; decide
  refine ⟨fun bar o size h8 h9 hbad => execRegisterWrite_unaligned h h8 h9 hbad v, fun o hne => ?_, ?_, fun h0 => ?_, fun h0 g hg => ?_, fun i hi => ?_,
    fun hv => ?_, fun h0 hv => ?_, fun h0 g hg => ?_, fun h0 hrel hd k i hi hlen => ?_⟩
  · by_cases ho : o % 4 = 0
    · rw [execRegisterWrite_aligned h (by decide) (by decide) ho]
      exact congrArg Host.Outcome.next (if_neg fun h0 => hne (Fin.ext h0))
    · exact execRegisterWrite_unaligned h (by decide) (by decide) (.inr ho) v
  · rw [execRegisterWrite_aligned h (by decide) (by decide) (by omega)]
    exact congrArg _ (s.writeBar0_cause f v)
  · subst h0
    rw [execRegisterWrite_aligned h (by decide) (by decide) (by decide)]
    exact congrArg _ (s.writeBar0_keeper v)
  · subst h0
    rw [execRegisterWrite_aligned h (by decide) (by decide) (by omega)]
    exact congrArg _ (s.writeBar2_slice hg v)
  · have hexec := execRegisterWrite_aligned (o := 16 * i + 8) h (bar := 4) (by decide) (by decide) (by omega) v
    have hmsix : s.writeBar f 4 (16 * i + 8) v = s.setFnSt f { s.fnSt f with
        msix := (s.fnSt f).msix.set i { (s.fnSt f).msix.get {} i with data := v } } := s.writeMsix_data f hi v
    rw [hmsix] at hexec
    refine ⟨_, hexec, by simp, ?_, fun j hj => ?_⟩
    · rw [State.fnSt_setFnSt_same, Tab.get_set_same]
    · rw [State.fnSt_setFnSt_same, Tab.get_set_other _ _ _ hj]
  · refine congrArg Host.Outcome.next ((if_neg hopen).trans ((if_neg (by decide)).trans ((if_pos rfl).trans ((if_pos ?_).trans ?_))))
    · rw [hr]
      rfl
    · rw [bitOf_toNat, hv, State.writeFmask]
      exact if_pos rfl
  · refine congrArg Host.Outcome.next ((if_neg hopen).trans ((if_pos rfl).trans (if_pos ?_)))
    rw [h0, decide_eq_true hv]
    rfl
  · subst h0
    refine ⟨_, (execRegisterWrite_aligned h (by decide) (by decide) (by omega) v).trans (congrArg _ (s.writeBar2_slice hg v)), ?_, rfl⟩
    rw [State.readBar2_slice _ hg, State.stagedFn, State.setSched_sched, Tab.get_set_same]
  · subst h0
    refine ⟨_, (execRegisterWrite_aligned h (by decide) (by decide) (by omega) v).trans (congrArg _ (s.writeBar2_bnd k.isLt hi hrel hd v)), ?_, ?_, by simp⟩
    · rw [State.readBar2_bnd _ k.isLt hi, State.stageBnd, State.custSt_setCust_same]
      simp [hlen, hi]
    · rw [State.stageBnd, State.custSt_setCust_same]

end
end Sys2Proof.Machine
end

/-! # Arbiters, links, light and fog (O24 to O28) -/

section
namespace Sys2Proof.Machine
open Sys2Proof
section
variable {s t u : State} {a b : Arb} {n i : Nat} {v : Word}

/-! ### O24: grants are taken away -/

theorem Arb.mem_waiters_iff (hi : i < 48) : i ∈ a.waiters ↔ (a.req i).waiting = true := by
  refine ⟨Arb.waiting_of_mem_waiters, fun h => List.mem_filter.2 ⟨?_, h⟩⟩
  simp only [List.mem_map, List.mem_range]
  exact ⟨(i + 47 - a.owner % 48) % 48, by omega, by omega⟩

theorem Arb.lt_of_mem_waiters (h : i ∈ a.waiters) : i < 48 := by
  obtain ⟨hmem, -⟩ := List.mem_filter.1 h
  obtain ⟨k, -, rfl⟩ := List.mem_map.1 hmem
  exact Nat.mod_lt _ (by decide)

/-- A slot as a committed group leaves it differs in its priorities alone. -/
theorem Arb.applyPri_keeps (n : Nat) (a : Arb) : (a.applyPri n).stagedLim = a.stagedLim ∧ ∀ i,
    ((a.applyPri n).req i).waiting = (a.req i).waiting ∧ ((a.applyPri n).req i).masked = (a.req i).masked ∧
      ((a.applyPri n).req i).lost = (a.req i).lost := by
  cases hp : a.pending with
  | none =>
    rw [Arb.applyPri, hp]
    exact ⟨rfl, fun _ => ⟨rfl, rfl, rfl⟩⟩
  | some x =>
    obtain ⟨b, hb, happ⟩ := Arb.applyPri_of_pending (n := n) hp
    rw [happ]
    refine ⟨(congrArg Arb.stagedLim hb.head :), fun i => ?_⟩
    have hreq : ({ b with starveLim := x.1, pending := none } : Arb).req i = b.req i := rfl
    rw [hreq]
    by_cases hi : i ∈ List.range 48
    · rw [hb.mem i hi, Arb.priReq]
      split <;> exact ⟨rfl, rfl, rfl⟩
    · rw [hb.notMem i hi]
      exact ⟨rfl, rfl, rfl⟩

/-- A round leaves the staged limit and a slot that does not wait, but for its base of a committed group. -/
theorem Arb.round_keeps (n : Nat) (a : Arb) : (a.round n).1.stagedLim = a.stagedLim ∧ ∀ i, i ∉ a.waiters →
    ((a.round n).1.req i).waiting = (a.req i).waiting ∧ ((a.round n).1.req i).masked = (a.req i).masked ∧
      ((a.round n).1.req i).lost = (a.req i).lost := by
  obtain ⟨hlim, hslot⟩ := Arb.applyPri_keeps n a
  by_cases hw : a.waiters = []
  · rw [Arb.round_of_no_waiters hw]
    exact ⟨rfl, fun _ _ => ⟨rfl, rfl, rfl⟩⟩
  · obtain ⟨w, hchoose, -⟩ := Arb.exists_choose (a := a.applyPri n) (by rwa [Arb.applyPri_waiters])
    obtain ⟨c, hc, hround⟩ := Arb.round_of_choose hchoose
    refine ⟨?_, fun i hi => ?_⟩
    · rw [hround]
      exact (congrArg Arb.stagedLim hc.head).trans hlim
    · obtain ⟨-, -, -, -, -, -, -, -, -, hrest⟩ := Arb.round_grants (n := n) rfl hw
      rw [hrest i (by rwa [Arb.applyPri_waiters])]
      exact hslot i

theorem Arb.held_round (n : Nat) (h : a.waiters ≠ []) : (a.round n).1.held = true := by
  obtain ⟨-, -, -, hheld, -⟩ := Arb.round_grants (n := n) rfl h
  exact hheld

/-! ARB_BREAK_POINT -/

/-- The arbiter once its owner's grant is taken away, m saying that the owner is masked. -/
def Arb.broken (a : Arb) (m : Bool) : Arb :=
  { a.setReq a.owner { a.req a.owner with waiting := !m, masked := m, lost := if m then 0 else (a.req a.owner).lost } with held := false }

theorem Arb.req_broken_owner (a : Arb) (m : Bool) : (a.broken m).req a.owner =
    { a.req a.owner with waiting := !m, masked := m, lost := if m then 0 else (a.req a.owner).lost } := Arb.req_setReq_same _ _ _

theorem Arb.req_broken_other (a : Arb) (m : Bool) (h : i ≠ a.owner) : (a.broken m).req i = a.req i := Arb.req_setReq_other _ _ h

/-- A masked owner does not wait, and no one else begins to. -/
theorem Arb.waiters_broken_masked (h : a.waiters = []) : (a.broken true).waiters = [] := by
  rw [List.eq_nil_iff_forall_not_mem] at h ⊢
  intro i hi
  have hlt := Arb.lt_of_mem_waiters hi
  have hwait := Arb.waiting_of_mem_waiters hi
  by_cases ho : i = a.owner
  · rw [ho, Arb.req_broken_owner] at hwait
    cases hwait
  · rw [Arb.req_broken_other _ _ ho] at hwait
    exact h i ((Arb.mem_waiters_iff hlt).2 hwait)

theorem execArbBreakPoint_eq (n : Fin 43) (masked preempted : Bool) {m : Bool} (hm : m = (masked || s.slotMasked n (s.arbAt n).owner (s.arbAt n).ownerFn)) :
    exec (.arbBreakPoint n masked preempted) s =
      .next (if (s.arbAt n).held && ((s.arbAt n).freeze || m || preempted) then s.arbSettle n ((s.arbAt n).broken m) else s) := by
  subst hm
  rfl

theorem arbBreakPoint_breaks (n : Fin 43) (masked preempted : Bool) {m : Bool} (hm : m = (masked || s.slotMasked n (s.arbAt n).owner (s.arbAt n).ownerFn)) :
    ((s.arbAt n).held = false → exec (.arbBreakPoint n masked preempted) s = .next s) ∧
    ((s.arbAt n).freeze = false → m = false → preempted = false → exec (.arbBreakPoint n masked preempted) s = .next s) ∧
    ((s.arbAt n).held = true → (s.arbAt n).freeze = true →
      ∃ t, exec (.arbBreakPoint n masked preempted) s = .next t ∧ (t.arbAt n).held = false ∧ s.onlyChanges t [.arb] ∧
        ((t.arbAt n).req (s.arbAt n).owner).waiting = !m ∧ ((t.arbAt n).req (s.arbAt n).owner).masked = m ∧
        ((t.arbAt n).req (s.arbAt n).owner).cur = ((s.arbAt n).req (s.arbAt n).owner).cur) ∧
    ((s.arbAt n).held = true → (s.arbAt n).freeze = false → m = true →
      ∃ t, exec (.arbBreakPoint n masked preempted) s = .next t ∧ s.onlyChanges t [.keeper, .arb, .fnp, .outbox] ∧
        ((t.arbAt n).req (s.arbAt n).owner).waiting = false ∧ ((t.arbAt n).req (s.arbAt n).owner).masked = true ∧
        ((t.arbAt n).req (s.arbAt n).owner).lost = 0 ∧ ((s.arbAt n).waiters = [] → (t.arbAt n).held = false)) ∧
    ((s.arbAt n).held = true → (s.arbAt n).freeze = false → m = false → preempted = true → (s.arbAt n).owner < 48 →
      ∃ t, exec (.arbBreakPoint n masked preempted) s = .next t ∧ s.onlyChanges t [.keeper, .arb, .fnp, .outbox] ∧
        (t.arbAt n).held = true) := by
  rw [execArbBreakPoint_eq n masked preempted hm]
  have hreq := (s.arbAt n).req_broken_owner m
  refine ⟨fun hh => ?_, fun hf h₁ h₂ => ?_, fun hh hf => ?_, fun hh hf h₁ => ?_, fun hh hf h₁ h₂ hlt => ?_⟩
  · rw [hh]
    rfl
  · rw [hf, h₁, h₂]
    simp
  · have hfrozen : s.arbSettle n ((s.arbAt n).broken m) = s.setArbAt n ((s.arbAt n).broken m) := if_pos (by
      rw [Bool.or_eq_true]
      exact .inr hf)
    rw [hh, hf, Bool.true_or, Bool.true_or, Bool.and_true, if_pos rfl, hfrozen]
    refine ⟨_, rfl, ?_, s.only_setArbAt n _, ?_, ?_, ?_⟩
    · rw [State.arbAt_setArbAt_same]
      rfl
    · rw [State.arbAt_setArbAt_same, hreq]
    · rw [State.arbAt_setArbAt_same, hreq]
    · rw [State.arbAt_setArbAt_same, hreq]
  · rw [hh, hf, h₁, Bool.false_or, Bool.true_or, Bool.and_true, if_pos rfl]
    have hround := s.arbSettle_round (a := (s.arbAt n).broken true) n rfl hf
    have hsilent : (s.arbAt n).owner ∉ ((s.arbAt n).broken true).waiters := fun hmem => by
      have := Arb.waiting_of_mem_waiters hmem
      rw [Arb.req_broken_owner] at this
      cases this
    obtain ⟨hwait, hmask, hlost⟩ := (Arb.round_keeps n ((s.arbAt n).broken true)).2 _ hsilent
    rw [Arb.req_broken_owner] at hwait hmask hlost
    refine ⟨_, rfl, s.only_arbSettle n _, ?_, ?_, ?_, fun hnone => ?_⟩
    · rw [hround, hwait]
      rfl
    · rw [hround, hmask]
    · rw [hround, hlost]
      rfl
    · rw [hround, Arb.round_of_no_waiters (Arb.waiters_broken_masked hnone)]
      rfl
  · rw [hh, hf, h₁, h₂, Bool.or_true, Bool.and_true, if_pos rfl]
    refine ⟨_, rfl, s.only_arbSettle n _, ?_⟩
    rw [s.arbSettle_round (a := (s.arbAt n).broken false) n rfl hf]
    refine Arb.held_round n (List.ne_nil_of_mem ((Arb.mem_waiters_iff hlt).2 ?_))
    rw [Arb.req_broken_owner]
    rfl

/-! ARB_COMMIT and ARB_FREEZE -/

theorem State.endRound_eq (s : State) (n : Nat) (x : Arb × Bool) : (s.endRound n x).arbAt n = x.1 := by
  rw [State.endRound_arbAt, State.arbAt_setArbAt_same]

/-- The arbiter as a write of ARB_CTRL sets it. -/
def State.arbCtrl (s : State) (n : Nat) (v : Word) : Arb :=
  { s.arbAt n with freeze := bitOf v.toNat 31, stagedLim := if s.keeperOwns then (s.arbAt n).stagedLim else bitsOf v.toNat 15 0 }

/-- The state in which a write of ARB_CTRL acts: REGDENY where the Keeper owns the limit. -/
def State.ctrlDenied (s : State) (n : Nat) (v : Word) : State :=
  if s.keeperOwns && bitsOf v.toNat 15 0 != (s.arbAt n).stagedLim then s.denied else s

theorem State.writeArbCtrl_eq (s : State) (n : Nat) (v : Word) : s.writeArbCtrl n v =
    if (s.arbAt n).freeze && !bitOf v.toNat 31 && !(s.arbAt n).held then (s.ctrlDenied n v).endRound n ((s.arbCtrl n v).round n)
    else (s.ctrlDenied n v).setArbAt n (s.arbCtrl n v) := rfl

theorem bitsOf_low (x : Nat) : bitsOf x 15 0 = x % 65536 := rfl

theorem arbCommit_commits {n : Fin 43} (hr : s.regsAnswer 0 = true) (hrel : s.released = true) :
    exec (.arbCommit 0 n v) s = .next (s.writeArbCommit n v) ∧ exec (.arbFreeze 0 n v) s = .next (s.writeArbCtrl n v) := by
  have hcond : (decide ((0 : Fn).val = 0) && s.regsAnswer 0 && s.released) = true := by rw [hr, hrel]; rfl
  exact ⟨congrArg Host.Outcome.next (if_pos hcond), congrArg Host.Outcome.next (if_pos hcond)⟩

theorem State.cause_setKprCause (s : State) {bit i : Nat} (h : s.keeper.cause.getLsbD i = true) :
    (s.setKprCause bit).keeper.cause.getLsbD i = true := by
  have hraise : ∀ u : State, (u.raise 0 3).keeper = u.keeper := fun u => State.same_of_but (p := .keeper) (by simp)
  unfold State.setKprCause
  split
  · exact h
  · rw [hraise]
    simp [h]

theorem State.cause_endRound (s : State) (n : Nat) (x : Arb × Bool) (h : s.keeper.cause.getLsbD i = true) :
    (s.endRound n x).keeper.cause.getLsbD i = true := by
  unfold State.endRound
  simp only []
  split
  · exact State.cause_setKprCause _ h
  · exact h

theorem State.only_ctrlDenied (s : State) (n : Nat) (v : Word) : s.onlyChanges (s.ctrlDenied n v) [.keeper, .fnp, .outbox] := by
  unfold State.ctrlDenied
  split
  · simp [State.denied]
  · simp

theorem State.writeArbCtrl_sets (s : State) (n : Nat) (v : Word) :
    s.onlyChanges (s.writeArbCtrl n v) [.keeper, .arb, .fnp, .outbox] ∧ ((s.writeArbCtrl n v).arbAt n).freeze = v.getLsbD 31 ∧
      ((s.writeArbCtrl n v).arbAt n).stagedLim = (if s.keeperOwns then (s.arbAt n).stagedLim else v.toNat % 65536) ∧
      (s.keeperOwns = true → v.toNat % 65536 ≠ (s.arbAt n).stagedLim → (s.writeArbCtrl n v).keeper.cause.getLsbD 2 = true) ∧
      (v.getLsbD 31 = true ∨ (s.arbAt n).freeze = false ∨ (s.arbAt n).held = true ∨ (s.arbAt n).waiters = [] →
        ((s.writeArbCtrl n v).arbAt n).held = (s.arbAt n).held) ∧
      (v.getLsbD 31 = false → (s.arbAt n).freeze = true → (s.arbAt n).waiters ≠ [] → ((s.writeArbCtrl n v).arbAt n).held = true) := by
  have hdenied : s.keeperOwns = true → v.toNat % 65536 ≠ (s.arbAt n).stagedLim → (s.ctrlDenied n v).keeper.cause.getLsbD 2 = true := fun hown hne => by
    rw [State.ctrlDenied, if_pos (by rw [hown, bitsOf_low]; simpa using hne)]
    exact (s.keeper_setKprCause (by decide)).1
  have hwaiters : (s.arbCtrl n v).waiters = (s.arbAt n).waiters := rfl
  have honly := State.onlyChanges_mono (qs := [.keeper, .arb, .fnp, .outbox]) (s.only_ctrlDenied n v) (by decide)
  rw [State.writeArbCtrl_eq]
  split
  next hthaw =>
    simp only [Bool.and_eq_true, Bool.not_eq_true'] at hthaw
    obtain ⟨⟨hf, hv⟩, hh⟩ := hthaw
    rw [bitOf_toNat] at hv
    rw [State.endRound_eq]
    refine ⟨State.onlyChanges_trans honly (State.only_endRound _ n _), ?_, ?_, fun hown hne => State.cause_endRound _ _ _ (hdenied hown hne), fun h => ?_,
      fun _ _ hw => Arb.held_round n hw⟩
    · exact (Arb.freeze_round _ _).trans (bitOf_toNat v 31)
    · exact (Arb.round_keeps _ _).1
    · have hnone : (s.arbCtrl n v).waiters = [] := by
        rw [hv, hf, hh] at h
        simpa [hwaiters] using h
      rw [Arb.round_of_no_waiters hnone]
      rfl
  next hkeep =>
    rw [State.arbAt_setArbAt_same]
    refine ⟨State.onlyChanges_trans honly (State.onlyChanges_mono (State.only_setArbAt _ n _) (by decide)), bitOf_toNat v 31, rfl, hdenied, fun _ => rfl,
      fun hv hf hw => ?_⟩
    rw [hf, bitOf_toNat, hv] at hkeep
    have hheld : (s.arbAt n).held = true := by simpa using hkeep
    exact hheld

/-! STARVED -/

/-- One loser of a round aged, and whether a STARVED bit was set. -/
def Arb.ageStep (lim : Nat) (x : Arb × Bool) (i : Nat) : Arb × Bool :=
  let r := x.1.req i
  let lost := min 8191 (r.lost + 1)
  let starve := lim != 0 && decide (lim ≤ lost)
  (x.1.setReq i { r with cur := min 15 (r.cur + 1), lost := lost, starved := r.starved || starve }, x.2 || (starve && !r.starved))

theorem Arb.hit_ageSteps_of_hit (lim : Nat) (l : List Nat) : ∀ x : Arb × Bool, x.2 = true → (l.foldl (Arb.ageStep lim) x).2 = true := by
  induction l with
  | nil => exact fun _ h => h
  | cons i l ih => exact fun x h => ih _ (by rw [Arb.ageStep, h]; rfl)

/-- A loser that starves for the first time is a hit. -/
theorem Arb.hit_ageSteps {lim : Nat} {l : List Nat} (hi : i ∈ l) (h0 : lim ≠ 0) : ∀ x : Arb × Bool, lim ≤ min 8191 ((x.1.req i).lost + 1) →
    (x.1.req i).starved = false → (l.foldl (Arb.ageStep lim) x).2 = true := by
  induction l with
  | nil => exact fun _ _ _ => absurd hi List.not_mem_nil
  | cons j l ih =>
    intro x hlim hs
    rw [List.foldl_cons]
    by_cases hj : i = j
    · subst hj
      refine Arb.hit_ageSteps_of_hit _ _ _ ?_
      simp only [Arb.ageStep, hs, decide_eq_true hlim, bne_iff_ne.2 h0, Bool.not_false, Bool.and_self, Bool.or_true]
    · have hreq : (Arb.ageStep lim x j).1.req i = x.1.req i := Arb.req_setReq_other _ _ hj
      exact ih ((List.mem_cons.1 hi).resolve_left hj) _ (by rwa [hreq]) (by rwa [hreq])

theorem Arb.hit_round {w : Nat} (h : (a.applyPri n).choose = some w) :
    (a.round n).2 = (((a.applyPri n).waiters.filter (fun i => i != w)).foldl (Arb.ageStep (a.applyPri n).starveLim) (a.applyPri n, false)).2 := by
  rw [Arb.round, h]
  rfl

theorem Arb.applyPri_of_none (h : a.pending = none) : a.applyPri n = a := by rw [Arb.applyPri, h]

/-- Beside the slots the asking changes nothing of the arbiter. -/
theorem State.arbAsked_head (s : State) (n : Nat) (reqs : List (Nat × Nat)) (masked : List Nat) :
    ∃ l, s.arbAsked n false reqs masked = { s.arbAt n with reqs := l } :=
  ⟨_, (Arb.slotsChanged_present (s.arbAt n) _ _).head⟩

/-- Settles O24. -/
theorem grantsAreTakenAway : Obligations.GrantsAreTakenAway := by
  unfold Obligations.GrantsAreTakenAway
  refine ⟨⟨fun n masked preempted m s hm => arbBreakPoint_breaks n masked preempted hm, fun n v s hr hrel => ⟨fun hown hv => ?_, fun hown hv => ?_,
    fun hown => ?_, fun hown hv => ?_, ⟨_, (arbCommit_commits hr hrel).2, s.writeArbCtrl_sets n v⟩⟩⟩, fun n reqs masked s a w x hp hh hf ha hw hx hne => ?_⟩
  · rw [(arbCommit_commits hr hrel).1, State.writeArbCommit, hown, hv]
    rfl
  · rw [(arbCommit_commits hr hrel).1, State.writeArbCommit, hown, hv]
    rfl
  · rw [(arbCommit_commits hr hrel).1, State.writeArbCommit, hown]
    exact ⟨_, rfl, (s.keeper_setKprCause (by decide)).1, State.same_of_but (p := .arb) (by simp [State.denied])⟩
  · rw [(arbCommit_commits hr hrel).2, State.writeArbCtrl_eq, bitOf_toNat, hv, Bool.not_true, Bool.and_false, Bool.false_and, if_neg Bool.false_ne_true,
      State.ctrlDenied, hown, Bool.false_and, if_neg Bool.false_ne_true, State.arbCtrl, bitOf_toNat, hv, hown, if_neg Bool.false_ne_true, bitsOf_low]
  · obtain ⟨l, hl⟩ := s.arbAsked_head n reqs masked
    rw [← ha] at hl
    have hnone : a.applyPri n = a := Arb.applyPri_of_none (by rw [hl]; exact hp)
    have hround := s.arbSettle_round (a := a) n (by rw [hl]; exact hh) (by rw [hl]; exact hf)
    obtain ⟨c, hc, hgrant⟩ := Arb.round_of_choose (a := a) (n := n) (by rwa [hnone])
    have hhit := Arb.hit_round (a := a) (n := n) (by rwa [hnone])
    rw [hnone] at hc hhit
    have hloser : x ∈ a.waiters.filter (· != w) := List.mem_filter.2 ⟨hx, bne_iff_ne.2 hne⟩
    have hreq : ((s.arbSettle n a).arbAt n).req x = Arb.agedReq a.starveLim (a.req x) := by
      rw [hround, hgrant, ← hc.mem x hloser]
      exact Arb.req_setReq_other c _ hne
    refine ⟨s.arbSettle n a, by rw [exec_arbRound, ha], fun h0 => ?_, fun h0 hlt => ?_, fun h0 hle hmax => ⟨?_, fun hs => ?_⟩⟩
    · rw [hreq, Arb.agedReq, h0]
      simp
    · have hle : ¬a.starveLim ≤ min 8191 ((a.req x).lost + 1) := by omega
      rw [hreq, Arb.agedReq, decide_eq_false hle]
      simp
    · have hle : a.starveLim ≤ min 8191 ((a.req x).lost + 1) := by omega
      rw [hreq, Arb.agedReq, decide_eq_true hle, bne_iff_ne.2 h0]
      simp
    · have hle : a.starveLim ≤ min 8191 ((a.req x).lost + 1) := by omega
      have hset : (a.round n).2 = true := hhit.trans (Arb.hit_ageSteps hloser h0 (a, false) hle hs)
      have hidle : (a.held || a.freeze) = false := by
        rw [hl]
        exact Bool.or_eq_false_iff.2 ⟨hh, hf⟩
      rw [State.arbSettle, if_neg (by rw [hidle]; exact Bool.false_ne_true), State.endRound, if_pos hset]
      exact (State.keeper_setKprCause _ (by decide)).1

end
end Sys2Proof.Machine
end

section
namespace Sys2Proof.Machine
open Sys2Proof
section
variable {s t u : State} {p q : Nat} {o : TrainObs} {k : Packet}

/-! ### What health events leave of the links -/

/-- The links but for the fog, which is all that health events change of them. -/
def LinkPart.noFog (l : LinkPart) : LinkPart := { l with windows := [], fog := [], leadFog := [], fogDropped := 0 }

theorem State.noFog_fogMerge (s : State) (code subject : Nat) (wit : List Nat) (cnt : Nat) : (s.fogMerge code subject wit cnt).link.noFog = s.link.noFog := by
  unfold State.fogMerge
  simp only []
  split
  · split <;> rfl
  · rfl

theorem State.noFog_fogNote (s : State) (code subject : Nat) : (s.fogNote code subject).link.noFog = s.link.noFog := by
  unfold State.fogNote
  split
  · rfl
  · simp only []
    rw [State.noFog_fogMerge]
    rfl

theorem State.noFog_healthEvent (s : State) (code tile unit addr count : Nat) : (s.healthEvent code tile unit addr count).link.noFog = s.link.noFog := by
  have hlog : ∀ (u : State) e, (u.logHealth e).link = u.link := fun u e => State.same_of_but (p := .link) (by simp)
  have hpost : ∀ (u : State) f c q d, (u.post f c q d).link = u.link := fun u f c q d => State.same_of_but (p := .link) (by simp)
  have hcause : ∀ (u : State) b, (u.setKprCause b).link = u.link := fun u b => State.same_of_but (p := .link) (by simp)
  unfold State.healthEvent
  extract_lets e s₁ s₂ s₃ s₄
  have h₃ : s₃.link = s.link := by simp only [s₃, s₂, s₁, hcause, hpost, hlog]
  have h₄ : s₄.link = s.link := by
    simp only [s₄]
    split <;> exact h₃
  split
  · rw [State.noFog_fogNote, h₄]
  · rw [h₄]

@[simp] theorem State.ports_healthEvent (s : State) (code tile unit addr count : Nat) :
    (s.healthEvent code tile unit addr count).link.ports = s.link.ports :=
  (congrArg LinkPart.ports (s.noFog_healthEvent code tile unit addr count) :)

@[simp] theorem State.lasers_healthEvent (s : State) (code tile unit addr count : Nat) :
    (s.healthEvent code tile unit addr count).link.lasers = s.link.lasers :=
  (congrArg LinkPart.lasers (s.noFog_healthEvent code tile unit addr count) :)

@[simp] theorem State.moves_healthEvent (s : State) (code tile unit addr count : Nat) :
    (s.healthEvent code tile unit addr count).link.moves = s.link.moves :=
  (congrArg LinkPart.moves (s.noFog_healthEvent code tile unit addr count) :)

theorem State.port_of_ports (h : t.link.ports = s.link.ports) (p : Nat) : t.port p = s.port p := by rw [State.port, h, State.port]

@[simp] theorem State.port_healthEvent (s : State) (code tile unit addr count p : Nat) : (s.healthEvent code tile unit addr count).port p = s.port p :=
  State.port_of_ports (s.ports_healthEvent code tile unit addr count) p

@[simp] theorem State.laser_healthEvent (s : State) (code tile unit addr count i : Nat) : (s.healthEvent code tile unit addr count).laser i = s.laser i := by
  rw [State.laser, State.lasers_healthEvent, State.laser]

@[simp] theorem State.port_portEvent (s : State) (code p subject q : Nat) : (s.portEvent code p subject).port q = s.port q :=
  s.port_healthEvent _ _ _ _ _ q

@[simp] theorem State.port_setHealth (s : State) (h : HealthPart) (p : Nat) : (s.setHealth h).port p = s.port p := rfl

/-! ### Queues of one port -/

theorem State.port_pump_other (n p : Nat) (h : q ≠ p) : ∀ s : State, (State.pump n p s).port q = s.port q := by
  induction n with
  | zero => exact fun _ => rfl
  | succ n ih =>
    intro s
    rw [State.pump]
    split
    · rfl
    split
    · rw [ih, State.emit, State.port_send, State.port_setPort_other _ _ h, State.port_setPort_other _ _ h]
    · rfl

theorem State.port_enqueue_other (s : State) (k : Packet) (h : q ≠ p) : (s.enqueue p k).port q = s.port q := by
  rw [State.enqueue, State.port_pump_other _ _ h, State.port_setPort_other _ _ h]

theorem State.core_enqueue (s : State) (p : Nat) (k : Packet) (q : Nat) : ((s.enqueue p k).port q).core = (s.port q).core := by
  rw [State.enqueue, State.core_pump, State.core_setPort (by rfl)]

/-! ### O25: ports train -/

/-- An event posted or not changes no port. -/
theorem State.port_ite_portEvent (s : State) (b : Prop) [Decidable b] (code p subject q : Nat) :
    (if b then s.portEvent code p subject else s).port q = s.port q := by
  split
  · exact s.port_portEvent _ _ _ _
  · rfl

theorem State.port_ite_healthEvent (s : State) (b : Prop) [Decidable b] (code tile unit addr count q : Nat) :
    (if b then s.healthEvent code tile unit addr count else s).port q = s.port q := by
  split
  · exact s.port_healthEvent _ _ _ _ _ _
  · rfl

theorem State.core_trainFails (s : State) (p : Nat) (miscabled : Bool) (o : TrainObs) : ((s.trainFails p miscabled o).port p).state = .down ∧
    ((s.trainFails p miscabled o).port p).miscabled = miscabled := by
  have hdown : ∀ x : Port, x.miscabled = miscabled → (((s.setPort p x).portDown p).port p).state = .down ∧
      (((s.setPort p x).portDown p).port p).miscabled = miscabled := fun x hx => by
    refine ⟨State.state_portDown _ _, ?_⟩
    have := (congrArg Port.miscabled ((s.setPort p x).core_portDown p) :)
    rw [State.port_setPort_same] at this
    exact this.trans hx
  unfold State.trainFails
  simp only []
  split
  · exact hdown _ rfl
  · rw [State.port_ite_portEvent, State.port_ite_portEvent]
    exact hdown _ rfl

/-- A port as it comes up with its healthy lanes, nothing yet sent. -/
def Port.trained (x : Port) (o : TrainObs) (flip : Bool) : Port :=
  let healthy := trainHealthy o
  let rx := widthOf healthy.length
  let tx := widthOf (18 - o.peerDead.length)
  { x with
    state := (if rx = 16 && tx = 16 then .up else .degraded), txWide := tx, rxWide := rx, flipped := flip,
    reversed := healthy.any (fun h => h.1 % 9 != h.2 % 9), crossed := healthy.any (fun h => h.1 / 9 != h.2 / 9), miscabled := false, silent := false,
    peer := o.peerPos, peerPort := o.peerPort, txDead := laneMask o.peerDead,
    rxDead := laneMask ((List.range 18).filter (fun l => !(healthy.any (fun h => h.1 == l)))), rxmap := rxMapOf rx healthy,
    spareRx := healthy.length - 16, spareTx := 18 - o.peerDead.length - 16, retrains := x.retrains + 1, lastTrain := o.duration, txSeq := 0,
    rxSeq := 0, replay := [], txWait := [], resends := 0, serviced := false }

/-- A port that passes its checks comes up, and what it had not been acknowledged is queued again. -/
theorem State.train_trains {flip : Bool} (hlight : lightCheck p o = .go flip) (hrx : widthOf (trainHealthy o).length ≠ 0)
    (htx : widthOf (18 - o.peerDead.length) ≠ 0) (hpeer : s.neighbourOk p o = true) :
    ((s.train p o).port p).core = ((s.port p).trained o flip).core ∧ (∀ q, q ≠ p → (s.train p o).port q = s.port q) ∧
      ((s.port p).replay = [] → (s.port p).txWait = [] → (s.train p o).port p = (s.port p).trained o flip) := by
  have hpeer' : ∀ h, (s.setHealth h).neighbourOk p o = true := fun _ => hpeer
  have htrain : ∃ u : State, (∀ q, (s.train p o).port q = (((s.port p).replay ++ (s.port p).txWait).foldl (fun s k => s.enqueue p k) u).port q) ∧
      u.port p = (s.port p).trained o flip ∧ ∀ q, q ≠ p → u.port q = s.port q := by
    unfold State.train
    simp only [hlight]
    rw [if_neg (by simpa using ⟨hrx, htx⟩), hpeer', if_neg (by decide)]
    refine ⟨_, fun q => (State.port_ite_healthEvent _ _ _ _ _ _ _ q).trans (State.port_ite_portEvent _ _ _ _ _ q),
      (State.port_setHealth _ _ _).trans (State.port_setPort_same _ _ _), fun q hq => ?_⟩
    rw [State.port_setHealth, State.port_setPort_other _ _ hq, State.port_setHealth]
  obtain ⟨u, htrain, hstart, hrest⟩ := htrain
  refine ⟨?_, fun q hq => ?_, fun hr hw => ?_⟩
  · rw [htrain, State.foldl_keeps (fun s => (s.port p).core) (fun s k => s.core_enqueue p k p), hstart]
  · rw [htrain, State.foldl_keeps (fun s => s.port q) (fun s k => s.port_enqueue_other k hq), hrest q hq]
  · rw [htrain, hr, hw]
    exact hstart

theorem State.train_dark (h : lightCheck p o = .dark ∨ widthOf (trainHealthy o).length = 0 ∨ widthOf (18 - o.peerDead.length) = 0)
    (hne : lightCheck p o ≠ .miscabled) : ((s.train p o).port p).state = .down ∧ ((s.train p o).port p).miscabled = false := by
  unfold State.train
  simp only []
  split
  next hm => exact absurd hm hne
  next => exact State.core_trainFails _ _ _ _
  next flip hgo =>
    have hw : widthOf (trainHealthy o).length = 0 ∨ widthOf (18 - o.peerDead.length) = 0 := h.resolve_left (by rw [hgo]; nofun)
    rw [if_pos (by simpa using hw)]
    exact State.core_trainFails _ _ _ _

theorem State.train_miscabled (h : lightCheck p o = .miscabled ∨ ∃ flip, lightCheck p o = .go flip ∧ widthOf (trainHealthy o).length ≠ 0 ∧
    widthOf (18 - o.peerDead.length) ≠ 0 ∧ s.neighbourOk p o = false) : ((s.train p o).port p).state = .down ∧ ((s.train p o).port p).miscabled = true := by
  unfold State.train
  simp only []
  rcases h with hm | ⟨flip, hgo, hrx, htx, hpeer⟩
  · rw [hm]
    exact State.core_trainFails _ _ _ _
  · rw [hgo]
    simp only []
    have hpeer' : ∀ h, (s.setHealth h).neighbourOk p o = false := fun _ => hpeer
    rw [if_neg (by simpa using ⟨hrx, htx⟩), hpeer', if_pos (by rfl)]
    exact State.core_trainFails _ _ _ _

/-- LINK_TRAIN of a port in service, and LINK_TRAIN_RETRY of one that is DOWN, train it. -/
theorem exec_trains {i : Instr} {p : PortIx} (hramp : s.ramped = true) (hlight : s.hasLight = true) (hstrap : s.pwr.strapBad = false)
    (hi : i = .linkTrain p o ∧ (s.port p).serviced = false ∨ i = .linkTrainRetry p o ∧ (s.port p).state = .down) :
    exec i s = .next (s.train p o) := by
  rcases hi with ⟨rfl, hs⟩ | ⟨rfl, hs⟩
  · exact congrArg Host.Outcome.next (if_pos (by rw [hramp, hlight, hstrap, hs]; rfl))
  · exact congrArg Host.Outcome.next (if_pos (by rw [hramp, hlight, hstrap, hs]; rfl))

theorem laneSpared_spares (p : PortIx) (l : Fin 18) (hup : (s.port p).isUp = true) : ∃ t, exec (.laneSpared p l) s = .next t ∧
    (t.port p).rxDead = (s.port p).rxDead ||| BitVec.ofNat 18 (2 ^ l.val) ∧
    ((s.port p).spareRx = 0 → (t.port p).state = .training) ∧
    ((s.port p).spareRx ≠ 0 → (t.port p).state = (s.port p).state ∧ (t.port p).spareRx + 1 = (s.port p).spareRx ∧
      (l.val < (s.port p).rxmap.length → l.val < 16 → (s.port p).rxmap.getD 16 0xFF ≠ 0xFF →
        (t.port p).rxmap.getD l 0xFF = (s.port p).rxmap.getD 16 0xFF)) ∧
    ∀ q, q ≠ p.val → t.port q = s.port q := by
  have hexec : exec (.laneSpared p l) s = execLaneSpared p l s := rfl
  simp only [execLaneSpared, hup, Bool.not_true, Bool.false_eq_true, if_false] at hexec
  refine ⟨_, hexec, ?_, fun h0 => ?_, fun h0 => ⟨?_, ?_, fun hlen h16 hspare => ?_⟩, fun q hq => ?_⟩
  · rw [State.port_healthEvent, State.port_setHealth, State.port_setPort_same]
    split <;> rfl
  · rw [State.port_healthEvent, State.port_setHealth, State.port_setPort_same, if_pos h0]
  · rw [State.port_healthEvent, State.port_setHealth, State.port_setPort_same, if_neg h0]
  · rw [State.port_healthEvent, State.port_setHealth, State.port_setPort_same, if_neg h0]
    exact Nat.succ_pred_eq_of_ne_zero h0
  · rw [State.port_healthEvent, State.port_setHealth, State.port_setPort_same, if_neg h0]
    simp only [if_pos hspare]
    have hne : (16 : Nat) ≠ l.val := by omega
    simp [hne, hlen]
  · rw [State.port_healthEvent, State.port_setHealth, State.port_setPort_other _ _ hq]

/-- Settles O25. -/
theorem portsTrainAndDegrade : Obligations.PortsTrainAndDegrade := by
  unfold Obligations.PortsTrainAndDegrade
  refine ⟨fun p o i s hramp hlight hstrap hi => ⟨?_, fun hdark hne => ⟨_, exec_trains hramp hlight hstrap hi, State.train_dark hdark hne⟩,
    fun hbad => ⟨_, exec_trains hramp hlight hstrap hi, State.train_miscabled hbad⟩⟩, fun p l s hup => laneSpared_spares p l hup,
    fun p s hup hserv => ?_, fun k s m hm => ?_⟩
  · rintro flip rx tx hgo rfl rfl hrx htx hpeer
    obtain ⟨hcore, hother, hempty⟩ := State.train_trains hgo hrx htx hpeer
    refine ⟨_, exec_trains hramp hlight hstrap hi, ?_, (congrArg Port.rxWide hcore :), (congrArg Port.txWide hcore :), (congrArg Port.flipped hcore :),
      (congrArg Port.miscabled hcore :), (congrArg Port.silent hcore :), (congrArg Port.peer hcore :), (congrArg Port.rxSeq hcore :),
      (congrArg Port.rxmap hcore :), fun hr hw => ?_, hother⟩
    · refine (congrArg Port.state hcore :).trans ?_
      simp [Port.core, Port.trained]
    · rw [hempty hr hw]
      exact ⟨rfl, rfl⟩
  · have hexec : exec (.peerSilent p) s = execPeerSilent p s := rfl
    simp only [execPeerSilent, hup, hserv, Bool.not_true, Bool.or_self, Bool.false_eq_true, if_false] at hexec
    have hfail : ∀ (u : State) q, u.failFogged.port q = u.port q := fun u q => State.port_of_link (State.same_of_but (p := .link) (by simp)) q
    refine ⟨_, hexec, ?_, fun q hq => ?_⟩
    · rw [hfail, State.port_portEvent, State.port_setPort_same]
      simp only [hserv]
    · rw [hfail, State.port_portEvent, State.port_setPort_other _ _ hq]
  · have hexec : exec (.moveTimeout k) s = execMoveTimeout k s := rfl
    simp only [execMoveTimeout, hm] at hexec
    exact ⟨_, hexec, State.moves_healthEvent _ _ _ _ _ _, State.ports_healthEvent _ _ _ _ _ _⟩

end
end Sys2Proof.Machine
end

section
namespace Sys2Proof.Machine
open Sys2Proof
section
variable {s t u : State} {p q : Nat} {k : Packet}

/-! ### O26: packets are acknowledged -/

/-- Acknowledgements change the replay buffer and what waits, not what is received. -/
theorem State.rxSeq_acked (s : State) (p ackseq : Nat) : ((s.acked p ackseq).port p).rxSeq = (s.port p).rxSeq := by
  unfold State.acked
  simp only []
  split
  · rfl
  · refine (congrArg Port.rxSeq (State.core_pump _ _ _ _) :).trans ?_
    simp [Port.core]

theorem Port.ackSeq_of_rxSeq {x y : Port} (h : x.rxSeq = y.rxSeq) : x.ackSeq = y.ackSeq := by rw [Port.ackSeq, h, Port.ackSeq]

theorem State.rxSeq_accepted (s : State) (p : Nat) (k : Packet) (q : Nat) : ((s.accepted p k).port q).rxSeq = (s.port q).rxSeq := by
  unfold State.accepted State.keepData
  split
  · split
    · rfl
    · split <;> rfl
  · unfold State.sendVia
    split
    · rfl
    · exact (congrArg Port.rxSeq (State.core_enqueue _ _ _ _) :)

theorem State.acked_finds (s : State) (p ackseq : Nat) {i : Nat} (h : (s.port p).replay.findIdx? (fun k => k.seq == ackseq % 4096) = some i)
    (hw : (s.port p).txWait = []) : s.acked p ackseq = s.setPort p { s.port p with replay := (s.port p).replay.drop (i + 1), resends := 0 } := by
  simp only [State.acked, h, hw, State.pump, State.port_setPort_same, List.find?_nil, List.head?_nil, Option.or_none]

theorem linkPacketRx_answers (p : PortIx) (k : Packet) (hup : (s.port p).isUp = true) :
    (k.crcOk = false → ∃ t, exec (.linkPacketRx p k) s = .next t ∧ t.port p = { s.port p with crcErr := (s.port p).crcErr + 1 } ∧
      ∃ nak, t.outbox = .packet p nak :: s.outbox ∧ nak.kind = 4 ∧ nak.ackseq = (s.port p).ackSeq) ∧
    (k.crcOk = true → k.kind = 1 ∨ k.kind = 2 → (k.seq + 4096 - (s.port p).rxSeq) % 4096 = 0 →
      ∃ t, exec (.linkPacketRx p k) s = .next t ∧ (t.port p).rxSeq = ((s.port p).rxSeq + 1) % 4096) ∧
    (k.crcOk = true → k.kind = 1 ∨ k.kind = 2 → (k.seq + 4096 - (s.port p).rxSeq) % 4096 ≠ 0 →
      ∃ t a, exec (.linkPacketRx p k) s = .next t ∧ (t.port p).rxSeq = (s.port p).rxSeq ∧ t.outbox.head? = some (.packet p a) ∧
        a.kind = (if (k.seq + 4096 - (s.port p).rxSeq) % 4096 < 2048 then 4 else 3) ∧ a.ackseq = (s.port p).ackSeq) := by
  have hrx := s.rxSeq_acked p k.ackseq
  have hkind (h : k.kind = 1 ∨ k.kind = 2) : (decide (k.kind = kindData) || decide (k.kind = kindControl)) = true := by
    rw [Bool.or_eq_true, decide_eq_true_eq, decide_eq_true_eq]
    exact h
  have hexec : exec (.linkPacketRx p k) s = execLinkPacketRx p k s := rfl
  simp only [execLinkPacketRx, hup, Bool.not_true, Bool.false_eq_true, if_false, hrx] at hexec
  refine ⟨fun hcrc => ?_, fun hcrc hk h0 => ?_, fun hcrc hk h0 => ?_⟩
  · rw [hcrc] at hexec
    refine ⟨_, hexec, State.port_setPort_same _ _ _, _, rfl, rfl, ?_⟩
    rw [State.port_setPort_same]
    rfl
  · rw [hcrc, hkind hk, h0] at hexec
    refine ⟨_, hexec, ?_⟩
    rw [State.rxSeq_accepted]
    exact congrArg Port.rxSeq (State.port_setPort_same _ _ _)
  · rw [hcrc, hkind hk] at hexec
    simp only [Bool.not_true, Bool.false_eq_true, if_false, if_true, if_neg h0] at hexec
    by_cases hlt : (k.seq + 4096 - (s.port p).rxSeq) % 4096 < 2048
    · rw [if_pos hlt] at hexec
      exact ⟨_, _, hexec, hrx, rfl, (if_pos hlt).symm, Port.ackSeq_of_rxSeq hrx⟩
    · rw [if_neg hlt] at hexec
      exact ⟨_, _, hexec, hrx, rfl, (if_neg hlt).symm, Port.ackSeq_of_rxSeq hrx⟩

theorem State.sends_packets (f : Packet → Out) (l : List Packet) : ∀ s : State,
    (l.foldl (fun s k => s.send (f k)) s).outbox = (l.map f).reverse ++ s.outbox := by
  induction l with
  | nil => exact fun _ => rfl
  | cons k l ih =>
    intro s
    rw [List.foldl_cons, ih]
    simp [State.send]

theorem State.port_sends (f : Packet → Out) (l : List Packet) (s : State) (p : Nat) : (l.foldl (fun s k => s.send (f k)) s).port p = s.port p :=
  State.foldl_keeps (fun s => s.port p) (f := fun s k => s.send (f k)) (fun _ _ => rfl) l s

theorem nakRx_resends (p : PortIx) (q : Nat) (hup : (s.port p).isUp = true) (hu : u = s.acked p q) :
    ((u.port p).replay = [] → exec (.nakRx p q) s = .next u) ∧
    ((u.port p).replay ≠ [] → 8 ≤ (u.port p).resends → exec (.nakRx p q) s = .next
      (u.setPort p { u.port p with state := .training, resends := 0 })) ∧
    ((u.port p).replay ≠ [] → (u.port p).resends < 8 → ∃ t, exec (.nakRx p q) s = .next t ∧
      (t.port p).resends = (u.port p).resends + 1 ∧ (t.port p).resent = (u.port p).resent + (u.port p).replay.length ∧
      (t.port p).replay = (u.port p).replay ∧
      t.outbox = ((u.port p).replay.map (fun k => Out.packet p { k with ackseq := (u.port p).ackSeq })).reverse ++ u.outbox) := by
  subst hu
  have hexec : exec (.nakRx p q) s = execNakRx p q s := rfl
  simp only [execNakRx, hup, Bool.not_true, Bool.false_eq_true, if_false, List.isEmpty_iff] at hexec
  refine ⟨fun h => ?_, fun h h8 => ?_, fun h h8 => ?_⟩
  · rw [hexec, if_pos h]
  · rw [hexec, if_neg h, if_pos h8]
  · rw [if_neg h, if_neg (Nat.not_le.2 h8)] at hexec
    refine ⟨_, hexec, ?_⟩
    rw [State.port_sends, State.port_setPort_same, State.sends_packets]
    exact ⟨rfl, rfl, rfl, rfl⟩

/-- Settles O26. -/
theorem packetsAreAcknowledged : Obligations.PacketsAreAcknowledged := by
  unfold Obligations.PacketsAreAcknowledged
  refine ⟨fun p k s hup => linkPacketRx_answers p k hup, fun p q s hup => ⟨congrArg Host.Outcome.next (if_pos hup), fun i hi hw => ?_, fun hi => ?_⟩,
    fun p q s u hup hu => nakRx_resends p q hup hu, fun p s hup => ⟨_, congrArg Host.Outcome.next (if_pos hup), rfl, rfl⟩⟩
  · rw [s.acked_finds p q hi hw, State.port_setPort_same]
  · rw [State.acked]
    simp only [hi]

end
end Sys2Proof.Machine
end

section
namespace Sys2Proof.Machine
open Sys2Proof
section
variable {s t u : State} {p q i : Nat} {k : Packet}

/-! ### O27: light moves over -/

/-- The links but for the ports, which is all that sending changes of them. -/
def LinkPart.noPorts (l : LinkPart) : LinkPart := { l with ports := [] }

theorem State.noPorts_pump (n p : Nat) : ∀ s : State, (State.pump n p s).link.noPorts = s.link.noPorts := by
  induction n with
  | zero => exact fun _ => rfl
  | succ n ih =>
    intro s
    rw [State.pump]
    split
    · rfl
    split
    · rw [ih]
      rfl
    · rfl

theorem State.noPorts_sendTo (s : State) (k : Packet) : (s.sendTo k).link.noPorts = s.link.noPorts := by
  rw [State.sendTo, State.sendVia]
  split
  · rfl
  · rw [State.enqueue, State.noPorts_pump]
    rfl

theorem State.noPorts_portDown (s : State) (p : Nat) : (s.portDown p).link.noPorts = s.link.noPorts := by
  unfold State.portDown
  simp only []
  rw [State.foldl_keeps (fun s => s.link.noPorts) (fun s k => s.noPorts_sendTo k)]
  rfl

/-- One port down where it is not already. -/
def State.ensureDown (s : State) (p : Nat) : State := if (s.port p).state = .down then s else s.portDown p

theorem State.state_ensureDown (s : State) (p : Nat) : ((s.ensureDown p).port p).state = .down := by
  unfold State.ensureDown
  split
  · assumption
  · exact State.state_portDown _ _

theorem State.down_ensureDown (p : Nat) (h : (s.port q).state = .down) : ((s.ensureDown p).port q).state = .down := by
  by_cases hq : q = p
  · rw [hq]
    exact s.state_ensureDown p
  · unfold State.ensureDown
    split
    · exact h
    · exact (Port.state_of_core (s.core_portDown_other hq)).trans h

theorem State.down_ensureDowns (l : List Nat) : ∀ s : State, (s.port q).state = .down ∨ q ∈ l →
    ((l.foldl State.ensureDown s).port q).state = .down := by
  induction l with
  | nil => exact fun _ h => h.resolve_right List.not_mem_nil
  | cons p l ih =>
    intro s h
    refine ih _ ?_
    rcases h with h | h
    · exact .inl (State.down_ensureDown p h)
    rcases List.mem_cons.1 h with rfl | h
    · exact .inl (s.state_ensureDown q)
    · exact .inr h

theorem State.checkLight_eq (s : State) : s.checkLight = if s.hasLight then s else (List.range 6).foldl State.ensureDown s := rfl

theorem State.noPorts_checkLight (s : State) : s.checkLight.link.noPorts = s.link.noPorts := by
  rw [State.checkLight_eq]
  split
  · rfl
  · refine State.foldl_keeps (fun s => s.link.noPorts) (fun s p => ?_) _ s
    unfold State.ensureDown
    split
    · rfl
    · exact s.noPorts_portDown p

@[simp] theorem State.laser_checkLight (s : State) (i : Nat) : s.checkLight.laser i = s.laser i := by
  have h : s.checkLight.link.lasers = s.link.lasers := (congrArg LinkPart.lasers s.noPorts_checkLight :)
  rw [State.laser, h, State.laser]

theorem State.hasLight_iff (s : State) (i : Fin 2) : s.hasLight = ((s.laser i).lit || (s.laser (1 - i.val)).lit) := by
  match i with
  | 0 => rfl
  | 1 => exact Bool.or_comm _ _

theorem laserFailover_changes (i : Fin 2) (hlit : (s.laser i).lit = true) : ∃ t, exec (.laserFailover i) s = .next t ∧ (t.laser i).state = 2 ∧
    ((s.laser (1 - i.val)).lit = true → (t.laser (1 - i.val)).full = true ∧ t.link.ports = s.link.ports) ∧
    ((s.laser (1 - i.val)).lit = false → ∀ p < 6, (t.port p).state = .down) := by
  have hne : 1 - i.val ≠ i.val := by omega
  have hexec : exec (.laserFailover i) s = execLaserFailover i s := rfl
  simp only [execLaserFailover, hlit, Bool.not_true, Bool.false_eq_true, if_false, State.laser_setLaser_other _ _ hne] at hexec
  have hdark : ({ s.laser i with state := 2, full := false, percent := 0 } : Laser).lit = false := rfl
  cases ho : (s.laser (1 - i.val)).lit with
  | true =>
    rw [ho, if_pos rfl] at hexec
    refine ⟨_, hexec, ?_, fun _ => ⟨?_, ?_⟩, nofun⟩
    · rw [State.laser_checkLight, State.laser_healthEvent, State.laser_setLaser_other _ _ hne.symm, State.laser_setLaser_same]
    · rw [State.laser_checkLight, State.laser_healthEvent, State.laser_setLaser_same]
    · have hlight : (((s.setLaser i { s.laser i with state := 2, full := false, percent := 0 }).setLaser (1 - i.val)
          { s.laser (1 - i.val) with full := true }).healthEvent 0x116 0xFF i 0x3FF 1).hasLight = true := by
        rw [State.hasLight_iff _ i, State.laser_healthEvent, State.laser_healthEvent, State.laser_setLaser_same, Bool.or_eq_true]
        exact .inr ho
      rw [State.checkLight_eq, if_pos hlight, State.ports_healthEvent]
      rfl
  | false =>
    rw [ho, if_neg Bool.false_ne_true] at hexec
    have hlight : ((s.setLaser i { s.laser i with state := 2, full := false, percent := 0 }).healthEvent 0x116 0xFF i 0x3FF 1).hasLight = false := by
      rw [State.hasLight_iff _ i, State.laser_healthEvent, State.laser_healthEvent, State.laser_setLaser_same, State.laser_setLaser_other _ _ hne, ho, hdark]
      rfl
    refine ⟨_, hexec, ?_, nofun, fun _ p hp => ?_⟩
    · rw [State.laser_checkLight, State.laser_healthEvent, State.laser_setLaser_same]
    · rw [State.checkLight_eq, if_neg (by rw [hlight]; exact Bool.false_ne_true)]
      exact State.down_ensureDowns _ _ (.inr (List.mem_range.2 hp))

theorem laserSourceFitted_fits (i : Fin 2) (hlit : (s.laser i).lit = false) : ∃ t, exec (.laserSourceFitted i) s = .next t ∧ (t.laser i).state = 0 ∧
    (t.laser i).percent = 100 ∧ (t.laser i).full = !(s.laser (1 - i.val)).lit ∧
    ((s.laser (1 - i.val)).lit = true → (t.laser (1 - i.val)).full = false) ∧ t.link.ports = s.link.ports := by
  have hne : 1 - i.val ≠ i.val := by omega
  have hexec : exec (.laserSourceFitted i) s = execLaserSourceFitted i s := rfl
  simp only [execLaserSourceFitted, hlit, Bool.false_eq_true, if_false, State.laser_setLaser_other _ _ hne] at hexec
  cases ho : (s.laser (1 - i.val)).lit with
  | true =>
    rw [ho, if_pos rfl] at hexec
    refine ⟨_, hexec, ?_⟩
    rw [State.laser_healthEvent, State.laser_healthEvent, State.ports_healthEvent, State.laser_setLaser_other _ _ hne.symm, State.laser_setLaser_same,
      State.laser_setLaser_same]
    exact ⟨rfl, rfl, rfl, fun _ => rfl, rfl⟩
  | false =>
    rw [ho, if_neg Bool.false_ne_true] at hexec
    refine ⟨_, hexec, ?_⟩
    rw [State.laser_healthEvent, State.ports_healthEvent, State.laser_setLaser_same]
    exact ⟨rfl, rfl, rfl, nofun, rfl⟩

/-- Settles O27. -/
theorem lightMovesOver : Obligations.LightMovesOver := by
  unfold Obligations.LightMovesOver
  refine ⟨fun i k s h0 => ?_, fun i s hlit => laserFailover_changes i hlit, fun i s hlit => laserSourceFitted_fits i hlit⟩
  have hne : 1 - i.val ≠ i.val := by omega
  have hexec : exec (.laserLow i k) s = .next ((s.setLaser i { s.laser i with state := 1, percent := k }).healthEvent 0x117 0xFF i 0x3FF 1) :=
    congrArg Host.Outcome.next (if_pos h0)
  refine ⟨_, hexec, ?_, ?_⟩
  · rw [State.laser_healthEvent, State.laser_setLaser_same]
  · rw [State.laser_healthEvent, State.laser_setLaser_other _ _ hne]

end
section
variable {s t u : State} {c x n : Nat} {wit : List Nat} {es : List FogEntry} {e : FogEntry}

/-! ### O28: fog is merged -/

@[simp] theorem mem_unionNat (y : Nat) (xs : List Nat) : ∀ ys : List Nat, y ∈ unionNat xs ys ↔ y ∈ xs ∨ y ∈ ys := by
  induction xs with
  | nil => simp [unionNat]
  | cons x xs ih =>
    intro ys
    have hcons : unionNat (x :: xs) ys = unionNat xs (insertNat x ys) := rfl
    rw [hcons, ih, mem_insertNat, List.mem_cons]
    exact or_left_comm.trans (or_assoc (a := y = x)).symm

/-- A report of a new key opens an entry. -/
theorem fogHolds_fogMergeInto_new (h : ∀ e ∈ es, e.code = c → e.subject ≠ x) (wit : List Nat) (n now : Nat) :
    fogHolds (fogMergeInto es c x wit n now) c x n wit := by
  have hany : es.any (fun e => e.code == c && e.subject == x) = false := by
    rw [List.any_eq_false]
    intro e he
    simpa using h e he
  unfold fogMergeInto
  rw [if_neg (by rw [hany]; exact Bool.false_ne_true)]
  exact ⟨_, List.mem_append_right _ (List.mem_singleton_self _), rfl, rfl, rfl, by simp⟩

/-- A report of a known key is added to its entries. -/
theorem fogHolds_fogMergeInto_known (he : e ∈ es) (hc : e.code = c) (hx : e.subject = x) (wit : List Nat) (n now : Nat) :
    fogHolds (fogMergeInto es c x wit n now) c x (e.count + n) (wit ++ e.witnesses) := by
  have hkey : (e.code == c && e.subject == x) = true := by simp [hc, hx]
  unfold fogMergeInto
  rw [if_pos (List.any_eq_true.2 ⟨e, he, hkey⟩)]
  exact ⟨_, List.mem_map.2 ⟨e, he, if_pos hkey⟩, hc, hx, rfl, by simp⟩

/-- Entries of other keys stay. -/
theorem mem_fogMergeInto_other (he : e ∈ es) (h : e.code ≠ c ∨ e.subject ≠ x) (wit : List Nat) (n now : Nat) :
    e ∈ fogMergeInto es c x wit n now := by
  have hkey : ¬((e.code == c && e.subject == x) = true) := by
    simp only [Bool.and_eq_true, beq_iff_eq]
    rcases h with h | h
    · exact fun hh => h hh.1
    · exact fun hh => h hh.2
  unfold fogMergeInto
  split
  · exact List.mem_map.2 ⟨e, he, if_neg hkey⟩
  · exact List.mem_append_left _ he

@[simp] theorem State.link_failFogged (s : State) : s.failFogged.link = s.link := State.same_of_but (p := .link) (by simp)

theorem State.fogMerge_here (hl : s.isLead = false) : (s.fogMerge c x wit n).link = { s.link with fog := fogMergeInto s.link.fog c x wit n (s.watch 4) } := by
  unfold State.fogMerge
  simp only [hl, Bool.false_eq_true, if_false]
  rfl

/-- The Lead marks an entry whose subject every neighbour reports silent (R416). -/
def fogMarked (tb : Option SizeTable) (es : List FogEntry) : List FogEntry :=
  match tb with
  | none => es
  | some t => es.map (fun e => if fogFailed t e then { e with failed := true } else e)

theorem exists_mem_fogMarked (tb : Option SizeTable) (h : e ∈ es) : ∃ b, { e with failed := b } ∈ fogMarked tb es := by
  cases tb with
  | none => exact ⟨e.failed, h⟩
  | some t =>
    by_cases hf : fogFailed t e = true
    · exact ⟨true, List.mem_map.2 ⟨e, h, if_pos hf⟩⟩
    · exact ⟨e.failed, List.mem_map.2 ⟨e, h, if_neg hf⟩⟩

theorem fogHolds_fogMarked (tb : Option SizeTable) (h : fogHolds es c x n wit) : fogHolds (fogMarked tb es) c x n wit := by
  obtain ⟨e, he, hc, hx, hn, hw⟩ := h
  obtain ⟨b, hb⟩ := exists_mem_fogMarked tb he
  exact ⟨_, hb, hc, hx, hn, hw⟩

theorem failed_of_mem_fogMarked {tb : SizeTable} (he : e ∈ fogMarked (some tb) es) (hf : fogFailed tb e = true) : e.failed = true := by
  obtain ⟨y, -, rfl⟩ := List.mem_map.1 he
  split
  · rfl
  next hy => exact absurd (by rwa [if_neg hy] at hf) hy

theorem State.fogMerge_lead (hl : s.isLead = true) : (s.fogMerge c x wit n).link =
    if !(s.link.leadFog.any (fun e => e.code == c && e.subject == x)) && decide (s.link.leadFog.length ≥ 256) then
      { s.link with fogDropped := s.link.fogDropped + 1 }
    else { s.link with leadFog := fogMarked s.link.table (fogMergeInto s.link.leadFog c x wit n (s.watch 4)) } := by
  unfold State.fogMerge
  simp only [hl, if_true]
  split
  · rfl
  · cases htb : s.link.table with
    | none => simp only [State.setLink_link, fogMarked]
    | some tb => simp only [State.setLink_link, fogMarked]

theorem execFogReport_eq (c x : Nat) (wit : List Nat) (n : Nat) (s : State) : exec (.fogReport c x wit n) s =
    if s.keeper.kbusy then .next (s.owe (.fogReport c x wit n)) else .next ((s.fogMerge c x wit n).failFogged) := rfl

theorem fogReport_merges (hb : s.keeper.kbusy = false) (hl : s.isLead = false) :
    ∃ t, exec (.fogReport c x wit n) s = .next t ∧ t.link.leadFog = s.link.leadFog ∧
      ((∀ e ∈ s.link.fog, e.code = c → e.subject ≠ x) → fogHolds t.link.fog c x n wit) ∧
      (∀ e ∈ s.link.fog, e.code = c → e.subject = x → fogHolds t.link.fog c x (e.count + n) (wit ++ e.witnesses)) ∧
      (∀ e ∈ s.link.fog, e.code ≠ c ∨ e.subject ≠ x → e ∈ t.link.fog) := by
  rw [execFogReport_eq, hb, if_neg Bool.false_ne_true]
  refine ⟨_, rfl, ?_⟩
  rw [State.link_failFogged, State.fogMerge_here hl]
  exact ⟨rfl, fun h => fogHolds_fogMergeInto_new h _ _ _, fun e he hc hx => fogHolds_fogMergeInto_known he hc hx _ _ _,
    fun e he h => mem_fogMergeInto_other he h _ _ _⟩

theorem fogReport_merges_lead (hb : s.keeper.kbusy = false) (hl : s.isLead = true) :
    (s.link.leadFog.length < 256 ∨ (∃ e ∈ s.link.leadFog, e.code = c ∧ e.subject = x) →
      ∃ t, exec (.fogReport c x wit n) s = .next t ∧ t.link.fog = s.link.fog ∧ t.link.fogDropped = s.link.fogDropped ∧
        ((∀ e ∈ s.link.leadFog, e.code = c → e.subject ≠ x) → fogHolds t.link.leadFog c x n wit) ∧
        (∀ e ∈ s.link.leadFog, e.code = c → e.subject = x → fogHolds t.link.leadFog c x (e.count + n) (wit ++ e.witnesses)) ∧
        (∀ e ∈ s.link.leadFog, e.code ≠ c ∨ e.subject ≠ x → ∃ b, { e with failed := b } ∈ t.link.leadFog) ∧
        (∀ tb, s.link.table = some tb → ∀ e ∈ t.link.leadFog, fogFailed tb e = true → e.failed = true)) ∧
    (256 ≤ s.link.leadFog.length → (∀ e ∈ s.link.leadFog, e.code = c → e.subject ≠ x) →
      ∃ t, exec (.fogReport c x wit n) s = .next t ∧ t.link.fogDropped = s.link.fogDropped + 1 ∧ t.link.leadFog = s.link.leadFog) := by
  rw [execFogReport_eq, hb, if_neg Bool.false_ne_true]
  refine ⟨fun hroom => ⟨_, rfl, ?_⟩, fun hfull hnew => ⟨_, rfl, ?_⟩⟩
  · have hkeep : (!(s.link.leadFog.any (fun e => e.code == c && e.subject == x)) && decide (s.link.leadFog.length ≥ 256)) = false := by
      rcases hroom with h | ⟨e, he, hc, hx⟩
      · rw [decide_eq_false (by omega), Bool.and_false]
      · rw [List.any_eq_true.2 ⟨e, he, by simp [hc, hx]⟩]
        rfl
    rw [State.link_failFogged, State.fogMerge_lead hl, hkeep, if_neg Bool.false_ne_true]
    refine ⟨rfl, rfl, fun h => fogHolds_fogMarked _ (fogHolds_fogMergeInto_new h _ _ _), fun e he hc hx =>
      fogHolds_fogMarked _ (fogHolds_fogMergeInto_known he hc hx _ _ _), fun e he h => exists_mem_fogMarked _ (mem_fogMergeInto_other he h _ _ _),
      fun tb htb e he hf => ?_⟩
    rw [htb] at he
    exact failed_of_mem_fogMarked he hf
  · have hany : s.link.leadFog.any (fun e => e.code == c && e.subject == x) = false := by
      rw [List.any_eq_false]
      intro e he
      simpa using hnew e he
    rw [State.link_failFogged, State.fogMerge_lead hl, hany, decide_eq_true hfull, Bool.not_false, Bool.and_self, if_pos rfl]
    exact ⟨rfl, rfl⟩

theorem State.ancestor_present (s : State) (tb : SizeTable) (n : Nat) : ∀ m, s.ancestor tb n m = 0 ∨ tb.present.has (s.ancestor tb n m) = true := by
  induction n with
  | zero => exact fun _ => .inl rfl
  | succ n ih =>
    intro m
    rw [State.ancestor]
    split
    next h =>
      simp only [Bool.or_eq_true, decide_eq_true_eq, Bool.and_eq_true] at h
      exact h.imp_right And.left
    next => exact ih _

theorem fogWindowExpiry_reports {w : FogWindow} (hw : s.link.windows.find? (fun w => w.code == c && w.subject == x) = some w) :
    ∃ t, exec (.fogWindowExpiry c x) s = .next t ∧ t.link.windows = s.link.windows.filter (fun y => !(y.code == c && y.subject == x)) ∧
      (w.count = 0 → t.link.fog = s.link.fog ∧ t.link.leadFog = s.link.leadFog) ∧
      (w.count ≠ 0 → s.isLead = false → (∀ e ∈ s.link.fog, e.code = c → e.subject ≠ x) →
        fogHolds t.link.fog c x w.count [s.moduleId]) ∧
      (w.count ≠ 0 → s.isLead = false → ∀ e ∈ s.link.fog, e.code = c → e.subject = x →
        fogHolds t.link.fog c x (e.count + w.count) (s.moduleId :: e.witnesses)) := by
  have hexec : exec (.fogWindowExpiry c x) s = execFogWindowExpiry c x s := rfl
  simp only [execFogWindowExpiry, hw] at hexec
  have hwindows : ∀ (u : State) wit n, (u.fogMerge c x wit n).link.windows = u.link.windows := by
    intro u wit n
    cases hl : u.isLead with
    | false => rw [State.fogMerge_here hl]
    | true =>
      rw [State.fogMerge_lead hl]
      split <;> rfl
  by_cases h0 : w.count = 0
  · rw [if_pos h0] at hexec
    exact ⟨_, hexec, rfl, fun _ => ⟨rfl, rfl⟩, fun h => absurd h0 h, fun h => absurd h0 h⟩
  · rw [if_neg h0] at hexec
    refine ⟨_, hexec, ?_, fun h => absurd h h0, fun _ hl hnew => ?_, fun _ hl e he hc hx => ?_⟩
    · rw [State.link_failFogged, hwindows]
      rfl
    · rw [State.link_failFogged, State.fogMerge_here]
      · exact fogHolds_fogMergeInto_new hnew _ _ _
      · exact hl
    · rw [State.link_failFogged, State.fogMerge_here]
      · exact fogHolds_fogMergeInto_known he hc hx _ _ _
      · exact hl

/-- Settles O28. -/
theorem fogIsMerged : Obligations.FogIsMerged := by
  unfold Obligations.FogIsMerged
  refine ⟨fun c x n wit s hb => ?_, fun c x n wit s hb hl => fogReport_merges hb hl, fun c x n wit s hb hl => fogReport_merges_lead hb hl,
    fun c x s h => ?_, fun c x s e h => ?_, fun c x s h => ?_, fun c x s w hw => fogWindowExpiry_reports hw⟩
  · rw [execFogReport_eq, if_pos hb]
  · have hexec : exec (.fogHoldExpiry c x) s = execFogHoldExpiry c x s := rfl
    simpa only [execFogHoldExpiry, h] using hexec
  · have hexec : exec (.fogHoldExpiry c x) s = execFogHoldExpiry c x s := rfl
    simp only [execFogHoldExpiry, h] at hexec
    refine ⟨_, hexec, fun tb htb => ?_⟩
    rw [htb]
    exact s.ancestor_present tb 32 s.moduleId
  · have hexec : exec (.fogWindowExpiry c x) s = execFogWindowExpiry c x s := rfl
    simpa only [execFogWindowExpiry, h] using hexec

end
end Sys2Proof.Machine
end

/-! # Power, the start and the resets (O29 to O33) -/

section
namespace Sys2Proof.Machine
open Sys2Proof
section
variable {s t u : State} {i j n : Nat}

/-! ### Inputs, tiles and galleries -/

@[simp] theorem State.input_setInput_same (s : State) (i : Nat) (v : Input) : (s.setInput i v).input i = v := Tab.get_set_same _ _ _ _

theorem State.input_setInput_other (s : State) (v : Input) (h : j ≠ i) : (s.setInput i v).input j = s.input j := Tab.get_set_other _ _ _ h

@[simp] theorem State.tilePwr_setTilePwr_same (s : State) (i : Nat) (v : TilePwr) : (s.setTilePwr i v).tilePwr i = v := Tab.get_set_same _ _ _ _

theorem State.tilePwr_setTilePwr_other (s : State) (v : TilePwr) (h : j ≠ i) : (s.setTilePwr i v).tilePwr j = s.tilePwr j := Tab.get_set_other _ _ _ h

@[simp] theorem State.pwr_healthEvent (s : State) (code tile unit addr count : Nat) : (s.healthEvent code tile unit addr count).pwr = s.pwr :=
  State.same_of_but (p := .pwr) (by simp)

@[simp] theorem State.run_healthEvent (s : State) (code tile unit addr count : Nat) : (s.healthEvent code tile unit addr count).run = s.run :=
  State.same_of_but (p := .run) (by simp)

@[simp] theorem State.arr_healthEvent (s : State) (code tile unit addr count : Nat) : (s.healthEvent code tile unit addr count).arr = s.arr :=
  State.same_of_but (p := .arr) (by simp)

theorem State.input_of_pwr (h : t.pwr = s.pwr) (i : Nat) : t.input i = s.input i := by rw [State.input, h, State.input]

theorem State.tilePwr_of_pwr (h : t.pwr = s.pwr) (i : Nat) : t.tilePwr i = s.tilePwr i := by rw [State.tilePwr, h, State.tilePwr]

@[simp] theorem State.input_healthEvent (s : State) (code tile unit addr count i : Nat) : (s.healthEvent code tile unit addr count).input i = s.input i :=
  State.input_of_pwr (State.pwr_healthEvent _ _ _ _ _ _) i

@[simp] theorem State.tilePwr_healthEvent (s : State) (code tile unit addr count i : Nat) :
    (s.healthEvent code tile unit addr count).tilePwr i = s.tilePwr i :=
  State.tilePwr_of_pwr (State.pwr_healthEvent _ _ _ _ _ _) i

/-- A run is stopped where it is active, and nothing else of it changes. -/
theorem State.stop_stopRun (s : State) (why : StopReason) (h : s.run.active = true) : (s.stopRun why).run.stop ≠ none := by
  unfold State.stopRun
  split
  · nofun
  next hno =>
    intro hnone
    rw [h, hnone] at hno
    exact hno rfl

/-! ### O29: power comes and goes -/

/-- What an input reads once it has left OK or changed its fault. -/
def Input.out (x : Input) (st : InState) (dv : Nat) : Input :=
  { x with
    state := st, deciVolts := dv, retries := if st == .open_ then 0 else x.retries, latchedOff := x.latchedOff && !(st == .open_),
    faults := if x.state = .ok then x.faults + 1 else x.faults }

theorem State.input_inputOut (s : State) (i : Nat) (st : InState) (dv : Nat) : (s.inputOut i st dv).input i = (s.input i).out st dv ∧
    ∀ j, j ≠ i → (s.inputOut i st dv).input j = s.input j := by
  unfold State.inputOut
  simp only []
  split
  next hok =>
    have hev : ∀ (b : Bool) (v : Input) k, (if b then (s.setInput i v).healthEvent 0x120 0xFF i 0 st.code else s.setInput i v).input k =
        (s.setInput i v).input k := fun b v k => by
      cases b
      · rfl
      · rw [if_pos rfl, State.input_healthEvent]
    refine ⟨?_, fun j hj => ?_⟩
    · rw [hev, State.input_setInput_same, Input.out, if_pos hok]
    · rw [hev, State.input_setInput_other _ _ hj]
  next hok =>
    refine ⟨?_, fun j hj => State.input_setInput_other _ _ hj⟩
    rw [State.input_setInput_same, Input.out, if_neg hok]

theorem State.input_inputBack (s : State) (i dv : Nat) : (s.inputBack i dv).input i = { s.input i with state := .ok, deciVolts := dv, retries := 0 } := by
  unfold State.inputBack
  simp only []
  split
  · rw [State.input_healthEvent, State.input_setInput_same]
  · exact State.input_setInput_same _ _ _

theorem inputFault_isolates (i : Fin 2) (c dv : Nat) (h1 : 1 ≤ c) (h5 : c ≤ 5) (hok : (s.input i).state = .ok) :
    ∃ t, exec (.inputFault i c dv) s = .next t ∧ (t.input i).state.code = c ∧ (t.input i).faults = (s.input i).faults + 1 ∧
      (t.input i).deciVolts = dv ∧ t.input (1 - i.val) = s.input (1 - i.val) := by
  have hcode : (InState.ofCode c).code = c := by
    interval_cases c <;> rfl
  have hne : InState.ofCode c ≠ .ok := fun h => by
    rw [h] at hcode
    exact absurd hcode (by rw [InState.code]; omega)
  have hexec : exec (.inputFault i c dv) s = .next (s.inputOut i (InState.ofCode c) dv) :=
    congrArg Host.Outcome.next (if_pos (by simp [h1, h5, hok, hne]))
  obtain ⟨hin, hother⟩ := s.input_inputOut i (InState.ofCode c) dv
  refine ⟨_, hexec, ?_, ?_, ?_, hother _ (by omega)⟩
  · rw [hin]
    exact hcode
  · rw [hin, Input.out]
    exact if_pos hok
  · rw [hin, Input.out]

theorem powerLoss_stops (hlit : s.pwr.hubLit = true) (h0 : (s.input 0).state ≠ .ok) (h1 : (s.input 1).state ≠ .ok) :
    exec .powerLoss s = .next s.powerDown := by
  have hfed : s.fed = false := by
    rw [State.fed, beq_eq_false_iff_ne.2 h0, beq_eq_false_iff_ne.2 h1]
    rfl
  exact congrArg Host.Outcome.next (if_pos (by rw [hlit, hfed]; rfl))

/-! Regulator phases -/

/-- A setting aimed at: the tile's target is set, its temperature and setting stay. -/
theorem State.tilePwr_aim (s : State) (i v : Nat) : (s.aim i v).tilePwr i = { s.tilePwr i with target := s.boundSetting i v }.settle :=
  State.tilePwr_setTilePwr_same _ _ _

theorem State.tilePwr_aim_other (s : State) (v : Nat) (h : j ≠ i) : (s.aim i v).tilePwr j = s.tilePwr j := State.tilePwr_setTilePwr_other _ _ h

theorem State.limited_aim (s : State) (i v : Nat) : (s.aim i v).pwr.limited = s.pwr.limited := rfl

theorem State.boundSetting_eq (s : State) (i v : Nat) : s.boundSetting i v = if i ∈ s.pwr.limited then 5 else max 5 (min 25 v) := by
  unfold State.boundSetting
  by_cases h : i ∈ s.pwr.limited <;> simp [h]

@[simp] theorem State.gallery_setGallery_same (s : State) (t g : Nat) (v : GallerySt) : (s.setGallery t g v).gallery t g = v := Tab.get_set_same _ _ _ _

theorem State.gallery_setGallery_other (s : State) {t g h : Nat} (v : GallerySt) (hne : h ≠ g) : (s.setGallery t g v).gallery t h = s.gallery t h :=
  Tab.get_set_other _ _ _ (by omega)

theorem State.gated_gateUpper (s : State) (t : Nat) {g : Nat} (h5 : 5 ≤ g) (h10 : g < 10) : ((s.gateUpper t).gallery t g).gated = true := by
  unfold State.gateUpper
  simp only [List.foldl_cons, List.foldl_nil]
  interval_cases g <;> simp [State.gallery_setGallery_other]

/-- The second phase of a rail is lost: a core rail holds its tile at 0.65 V and five galleries, another stops the run. -/
theorem State.limitRail_limits (s : State) (r : Nat) : r ∈ (s.limitRail r).pwr.limited ∧ (s.limitRail r).pwr.phases = s.pwr.phases ∧
    (s.limitRail r).pwr.phaseOut = s.pwr.phaseOut ∧
    (r < 4 → ((s.limitRail r).tilePwr r).target = 5 ∧ ∀ g, 5 ≤ g → g < 10 → ((s.limitRail r).gallery r g).gated = true) ∧
    (4 ≤ r → s.run.active = true → (s.limitRail r).run.stop ≠ none) := by
  unfold State.limitRail
  extract_lets p s₁ s₂
  have hpwr : s₂.pwr = s₁.pwr := State.pwr_healthEvent _ _ _ _ _ _
  have hin : r ∈ s₁.pwr.limited := by simp [s₁, p]
  have hgate : ∀ u : State, (u.gateUpper r).pwr = u.pwr := fun u => State.same_of_but (p := .pwr) (by simp)
  by_cases hr : r < 4
  · rw [if_pos hr]
    refine ⟨?_, ?_, ?_, fun _ => ⟨?_, fun g h5 h10 => State.gated_gateUpper _ _ h5 h10⟩, fun h => absurd hr (by omega)⟩
    · rw [hgate, State.limited_aim, hpwr]
      exact hin
    · rw [hgate]
      exact (congrArg PwrPart.phases hpwr :)
    · rw [hgate]
      exact (congrArg PwrPart.phaseOut hpwr :)
    · rw [State.tilePwr_of_pwr (hgate _), State.tilePwr_aim, TilePwr.settle]
      exact (State.boundSetting_eq _ _ _).trans (by rw [hpwr, if_pos hin])
  · rw [if_neg hr]
    have hstop : (s₂.stopRun .health).pwr = s₁.pwr := (State.same_of_but (p := .pwr) (by simp) : (s₂.stopRun .health).pwr = s₂.pwr).trans hpwr
    rw [hstop]
    refine ⟨hin, rfl, rfl, fun h => absurd h hr, fun _ hact => State.stop_stopRun _ _ ?_⟩
    rw [State.run_healthEvent]
    exact hact

theorem phaseFailed_sheds {r k : Nat} (hlit : s.pwr.hubLit = true) (hr : r ≤ 11) (hk : k < phasesOf r) (hin : r * 16 + k ∉ s.pwr.phaseOut) :
    ∃ t, exec (.phaseFailed r k) s = .next t ∧ t.phasesLost r = s.phasesLost r + 1 ∧ r * 16 + k ∈ t.pwr.phaseOut ∧
      (s.phasesLost r = 1 → r ∈ t.pwr.limited ∧ (r < 4 → (t.tilePwr r).target = 5 ∧ ∀ g, 5 ≤ g → g < 10 → (t.gallery r g).gated = true) ∧
        (4 ≤ r → s.run.active = true → t.run.stop ≠ none)) ∧
      (s.phasesLost r ≠ 1 → t.pwr.limited = s.pwr.limited) := by
  have hexec : exec (.phaseFailed r k) s = execPhaseFailed r k s := rfl
  simp only [execPhaseFailed, hlit, hr, hk, List.contains_eq_mem, hin, decide_true, decide_false, Bool.and_self, Bool.not_false, if_true] at hexec
  have hlost : (s.shedPhase r k).phasesLost r = s.phasesLost r + 1 := Tab.get_upd_same _ _ _ _
  have hout : r * 16 + k ∈ (s.shedPhase r k).pwr.phaseOut := by simp [State.shedPhase]
  rw [hlost] at hexec
  by_cases h1 : s.phasesLost r = 1
  · rw [if_pos (by omega)] at hexec
    refine ⟨_, hexec, ?_⟩
    generalize hu : (s.shedPhase r k).healthEvent 0x122 (railTile r) (r * 16 + k) 0 (s.phasesLost r + 1) = u
    have hpwr : u.pwr = (s.shedPhase r k).pwr := hu ▸ State.pwr_healthEvent _ _ _ _ _ _
    have hrun : u.run = s.run := hu ▸ State.run_healthEvent _ _ _ _ _ _
    obtain ⟨hlim, hphases, hphaseOut, htile, hrail⟩ := u.limitRail_limits r
    refine ⟨?_, ?_, fun _ => ⟨hlim, htile, fun h4 hact => hrail h4 (by rw [hrun, hact])⟩, fun h => absurd h1 h⟩
    · rw [State.phasesLost, hphases, hpwr]
      exact hlost
    · rw [hphaseOut, hpwr]
      exact hout
  · rw [if_neg (by omega)] at hexec
    refine ⟨_, hexec, ?_, ?_, fun h => absurd h h1, fun _ => ?_⟩
    · rw [State.phasesLost, State.pwr_healthEvent]
      exact hlost
    · rw [State.pwr_healthEvent]
      exact hout
    · rw [State.pwr_healthEvent]
      rfl

theorem phaseFitted_joins {r k : Nat} (hlit : s.pwr.hubLit = true) (hin : r * 16 + k ∈ s.pwr.phaseOut) : ∃ t, exec (.phaseFitted r k) s = .next t ∧
    t.phasesLost r = s.phasesLost r - 1 ∧ r * 16 + k ∉ t.pwr.phaseOut ∧ (s.phasesLost r ≤ 2 → r ∉ t.pwr.limited) := by
  have hexec : exec (.phaseFitted r k) s = execPhaseFitted r k s := rfl
  simp only [execPhaseFitted, hlit, List.contains_eq_mem, hin, decide_true, Bool.and_self, if_true] at hexec
  refine ⟨_, hexec, ?_, ?_, fun h2 => ?_⟩
  · rw [State.phasesLost, State.pwr_healthEvent]
    split <;> exact Tab.get_set_same _ _ _ _
  · rw [State.pwr_healthEvent]
    split <;> simp
  · rw [State.pwr_healthEvent, if_pos (by omega)]
    simp

/-- Settles O29. -/
theorem powerComesAndGoes : Obligations.PowerComesAndGoes := by
  unfold Obligations.PowerComesAndGoes
  refine ⟨⟨fun i c dv s h1 h5 hok => inputFault_isolates i c dv h1 h5 hok, fun i dv s hne hl hlo hhi => ?_, fun i s hshort hl => ⟨?_, ?_⟩, fun i s hne => ?_,
    fun s hlit h0 h1 => ⟨_, powerLoss_stops hlit h0 h1, rfl, rfl, rfl, rfl, rfl, rfl, ?_, rfl, rfl⟩⟩,
    fun r k s hlit hr hk hin => phaseFailed_sheds hlit hr hk hin, fun r k s hlit hin => phaseFitted_joins hlit hin⟩
  · have hexec : exec (.inputRestored i dv) s = .next (s.inputBack i dv) :=
      congrArg Host.Outcome.next (if_pos (by simp [hne, hl, hlo, hhi]))
    refine ⟨_, hexec, ?_⟩
    rw [State.input_inputBack]
    exact ⟨rfl, rfl, rfl⟩
  · have hexec : exec (.shortRetry i true) s = .next (s.inputBack i (s.input i).deciVolts) :=
      congrArg Host.Outcome.next (if_pos (by simp [hshort, hl]))
    refine ⟨_, hexec, ?_⟩
    rw [State.input_inputBack]
  · exact congrArg Host.Outcome.next (if_pos (by simp [hshort, hl]))
  · have hexec : exec (.inputSenseOpen i) s = .next (s.inputOut i .open_ (s.input i).deciVolts) :=
      congrArg Host.Outcome.next (if_neg (by simp [hne]))
    refine ⟨_, hexec, ?_⟩
    rw [(s.input_inputOut i _ _).1]
    exact ⟨rfl, Bool.and_false _⟩
  · exact State.same_of_but (p := .health) (by simp)

end
end Sys2Proof.Machine
end

section
namespace Sys2Proof.Machine
open Sys2Proof
section
variable {s t u : State} {i j n : Nat}

/-! ### O30: voltage follows temperature -/

/-- The four tiles' power states set in turn, each from its own state. -/
theorem State.tilePwr_foldl_tiles (s : State) (f : State → Nat → State) (g : Nat → TilePwr → TilePwr) (lim : List Nat)
    (hf : ∀ u k, u.pwr.limited = lim → (f u k).pwr.limited = lim ∧ (f u k).tilePwr k = g k (u.tilePwr k) ∧ ∀ j, j ≠ k → (f u k).tilePwr j = u.tilePwr j)
    (l : List Nat) (hl : l.Nodup) (h : s.pwr.limited = lim) :
    (l.foldl f s).pwr.limited = lim ∧ (∀ k ∈ l, (l.foldl f s).tilePwr k = g k (s.tilePwr k)) ∧ ∀ k, k ∉ l → (l.foldl f s).tilePwr k = s.tilePwr k := by
  induction l generalizing s with
  | nil => exact ⟨h, nofun, fun _ _ => rfl⟩
  | cons x l ih =>
    obtain ⟨hlim, hsame, hother⟩ := hf s x h
    obtain ⟨hx, hl⟩ := List.nodup_cons.1 hl
    obtain ⟨hlim, hin, hout⟩ := ih (f s x) hl hlim
    refine ⟨hlim, fun k hk => ?_, fun k hk => ?_⟩
    · by_cases hkx : k = x
      · subst hkx
        exact (hout k hx).trans hsame
      · rw [List.foldl_cons, hin k ((List.mem_cons.1 hk).resolve_left hkx), hother k hkx]
    · rw [List.mem_cons, not_or] at hk
      exact (hout k hk.2).trans (hother k hk.1)

/-- A least value found by a left fold is one of the values, and none is less. -/
theorem foldl_min_least (f : Nat → Nat) (l : List Nat) : ∀ e, l.foldl (fun b k => min b (f k)) e ≤ e ∧
    (∀ k ∈ l, l.foldl (fun b k => min b (f k)) e ≤ f k) ∧
    (l.foldl (fun b k => min b (f k)) e = e ∨ ∃ k ∈ l, l.foldl (fun b k => min b (f k)) e = f k) := by
  induction l with
  | nil => exact fun e => ⟨le_refl e, nofun, .inl rfl⟩
  | cons x l ih =>
    intro e
    obtain ⟨hle, hall, hone⟩ := ih (min e (f x))
    refine ⟨hle.trans (min_le_left _ _), fun k hk => ?_, ?_⟩
    · rcases List.mem_cons.1 hk with rfl | hk
      · exact hle.trans (min_le_right _ _)
      · exact hall k hk
    · rcases hone with hone | ⟨k, hk, hone⟩
      · rcases min_choice e (f x) with h | h
        · exact .inl (hone.trans h)
        · exact .inr ⟨x, List.mem_cons_self, hone.trans h⟩
      · exact .inr ⟨k, List.mem_cons_of_mem _ hk, hone⟩

theorem State.aim_sets (u : State) (k v : Nat) (lim : List Nat) (h : u.pwr.limited = lim) : (u.aim k v).pwr.limited = lim ∧
    (u.aim k v).tilePwr k = { u.tilePwr k with target := if k ∈ lim then 5 else max 5 (min 25 v) }.settle ∧
    ∀ j, j ≠ k → (u.aim k v).tilePwr j = u.tilePwr j := by
  refine ⟨h, ?_, fun j hj => State.tilePwr_aim_other _ _ hj⟩
  rw [State.tilePwr_aim, State.boundSetting_eq, h]

theorem voltageStep_steps (k : TileIx) {x : TilePwr} {v : Nat} (hx : x = s.tilePwr k) (hlit : x.lit = true) (hne : x.vset ≠ x.target)
    (hv : v = if x.vset < x.target then x.vset + 1 else x.vset - 1) :
    exec (.voltageStep k) s = .next (if s.inStep k v then s.setTilePwr k { x with vset := v }.settle else s) := by
  subst hx hv
  have hexec : exec (.voltageStep k) s = execVoltageStep k s := rfl
  rw [hexec]
  simp only [execVoltageStep, hlit, bne_iff_ne.2 hne, Bool.and_self, Bool.true_and]

theorem powerCap_caps {w : Nat} (vs : List Nat) (hramp : s.ramped = true) (hw : 1600 < w) : ∃ u, exec (.powerCap w vs) s = .next u ∧
    ∀ k < 4, (u.tilePwr k).vset = (s.tilePwr k).vset ∧
      (u.tilePwr k).target = if k ∈ s.pwr.limited then 5 else max 5 (min 25 (min (s.tilePwr k).target (vs.getD k 0))) := by
  have hexec : exec (.powerCap w vs) s = execPowerCap w vs s := rfl
  simp only [execPowerCap, hramp, hw, decide_true, Bool.and_self, if_true] at hexec
  refine ⟨_, hexec, fun k hk => ?_⟩
  obtain ⟨-, hin, -⟩ := s.tilePwr_foldl_tiles (fun s k => s.aim k (min (s.tilePwr k).target (vs.getD k 0)))
    (fun k x => { x with target := if k ∈ s.pwr.limited then 5 else max 5 (min 25 (min x.target (vs.getD k 0))) }.settle) s.pwr.limited
    (fun u k h => u.aim_sets k _ _ h) (List.range 4) (by decide) rfl
  rw [State.tilePwr_healthEvent, hin k (List.mem_range.2 hk)]
  exact ⟨rfl, rfl⟩

theorem thermalSpread_levels {ts : List Nat} (hramp : s.ramped = true) (hspread : ts.foldl min 1000 + 30 < ts.foldl max 0) :
    ∃ u low, exec (.thermalSpread ts) s = .next u ∧ (∀ k < 4, low ≤ (s.tilePwr k).vset) ∧ (low = 25 ∨ ∃ k < 4, low = (s.tilePwr k).vset) ∧
      (∀ k < 4, (u.tilePwr k).tj = ts.getD k 0 ∧ (u.tilePwr k).target = if k ∈ s.pwr.limited then 5 else max 5 (min 25 low)) ∧
      (ts.foldl min 1000 + 40 < ts.foldl max 0 → s.run.active = true → u.run.stop ≠ none) := by
  have hexec : exec (.thermalSpread ts) s = execThermalSpread ts s := rfl
  have h30 : 30 < ts.foldl max 0 - ts.foldl min 1000 := by omega
  simp only [execThermalSpread, hramp, h30, decide_true, Bool.and_self, if_true] at hexec
  generalize hu : (List.range 4).foldl (fun s k => s.setTilePwr k { s.tilePwr k with tj := ts.getD k 0 }.settle) s = u at hexec
  obtain ⟨hlim, htemp, -⟩ := s.tilePwr_foldl_tiles (fun s k => s.setTilePwr k { s.tilePwr k with tj := ts.getD k 0 }.settle)
    (fun k x => { x with tj := ts.getD k 0 }.settle) s.pwr.limited
    (fun u k h => ⟨h, State.tilePwr_setTilePwr_same _ _ _, fun j hj => State.tilePwr_setTilePwr_other _ _ hj⟩) (List.range 4) (by decide) rfl
  rw [hu] at hlim htemp
  have hvset : ∀ k < 4, (u.tilePwr k).vset = (s.tilePwr k).vset := fun k hk => by
    rw [htemp k (List.mem_range.2 hk)]
    rfl
  obtain ⟨-, hle, hone⟩ := foldl_min_least (fun k => (u.tilePwr k).vset) (List.range 4) 25
  generalize (List.range 4).foldl (fun b k => min b (u.tilePwr k).vset) 25 = low at hexec hle hone
  obtain ⟨-, hin, -⟩ := u.tilePwr_foldl_tiles (fun s k => s.aim k low)
    (fun k x => { x with target := if k ∈ s.pwr.limited then 5 else max 5 (min 25 low) }.settle) s.pwr.limited
    (fun u k h => u.aim_sets k _ _ h) (List.range 4) (by decide) hlim
  have hrun : ((List.range 4).foldl (fun s k => s.aim k low) u).run = s.run := by
    rw [← hu]
    exact State.same_of_but (p := .run) (by simp)
  refine ⟨_, low, hexec, fun k hk => ?_, ?_, fun k hk => ?_, fun h40 hact => ?_⟩
  · rw [← hvset k hk]
    exact hle k (List.mem_range.2 hk)
  · rcases hone with h | ⟨k, hk, h⟩
    · exact .inl h
    · exact .inr ⟨k, List.mem_range.1 hk, h.trans (hvset k (List.mem_range.1 hk))⟩
  · rw [State.tilePwr_of_pwr (State.same_of_but (p := .pwr) (by simp) : _ = ((List.range 4).foldl (fun s k => s.aim k low) u).pwr),
      hin k (List.mem_range.2 hk), htemp k (List.mem_range.2 hk)]
    exact ⟨rfl, rfl⟩
  · rw [if_pos (by omega)]
    refine State.stop_stopRun _ _ ?_
    rw [State.run_healthEvent, hrun]
    exact hact

@[simp] theorem State.pwr_postHold (s : State) (k : Nat) : (s.postHold k).pwr = s.pwr := State.pwr_healthEvent _ _ _ _ _ _

/-- Settles O30. -/
theorem voltageFollowsTemperature : Obligations.VoltageFollowsTemperature := by
  unfold Obligations.VoltageFollowsTemperature
  refine ⟨fun k s x v hx hlit hne hv => ⟨fun hstep => ?_, fun hstep => ?_⟩, fun k c v s hlit => ?_, fun w vs s hramp hw => powerCap_caps vs hramp hw,
    fun ts s hramp hspread => thermalSpread_levels hramp hspread, fun k c s hlit hhold hc => ?_, fun k c s hhold hc => ?_, fun s hlit => ?_⟩
  · rw [voltageStep_steps k hx hlit hne hv, if_pos hstep]
    rfl
  · rw [voltageStep_steps k hx hlit hne hv, if_neg (by rw [hstep]; decide)]
  · have hexec : exec (.junctionTemperatureChange k c v) s = .next ((s.setTilePwr k { s.tilePwr k with tj := c }).aim k v) :=
      congrArg Host.Outcome.next (if_pos hlit)
    refine ⟨_, hexec, by simp, ?_⟩
    rw [State.tilePwr_aim, State.tilePwr_setTilePwr_same]
    exact ⟨rfl, rfl, State.boundSetting_eq _ _ _, rfl, rfl⟩
  · have hexec : exec (.thermalHold k c) s = .next (s.setTilePwr k { s.tilePwr k with tj := c, hold := true, holdFrom := s.watch k }.settle) :=
      congrArg Host.Outcome.next (if_pos (by simp [hlit, hhold, hc]))
    refine ⟨_, hexec, by simp, ?_⟩
    rw [State.tilePwr_setTilePwr_same]
    exact ⟨rfl, rfl, rfl⟩
  · have hexec : exec (.thermalHoldRelease k c) s =
        .next ((s.postHold k).setTilePwr k { s.tilePwr k with tj := c, hold := false }.settle) :=
      congrArg Host.Outcome.next (if_pos (by simp [hhold, hc]))
    refine ⟨_, hexec, ?_, ?_, State.same_of_but (p := .mem) (by simp), State.same_of_but (p := .arr) (by simp)⟩
    · rw [State.tilePwr_setTilePwr_same]
      rfl
    · rw [State.tilePwr_setTilePwr_same]
      rfl
  · have hexec : exec .hubOvertemp s = execHubOvertemp s := rfl
    simp only [execHubOvertemp, hlit, if_true] at hexec
    refine ⟨_, hexec, rfl, rfl, rfl, ?_, ?_⟩
    · rw [State.input_setInput_other _ _ (by decide), State.input_setInput_same]
    · rw [State.input_setInput_same]

end
end Sys2Proof.Machine
end

section
namespace Sys2Proof.Machine
open Sys2Proof
section
variable {s t u : State} {i j n : Nat}

/-! ### What an event leaves of the Keeper and of the health record -/

/-- The Keeper but for what an event changes: mailboxes, cause and deferred events. -/
def Keeper.core (k : Keeper) : Keeper := { k with cause := 0, mbox := [], deferred := [] }

/-- The health record but for its log. -/
def HealthPart.core (h : HealthPart) : HealthPart := { h with nlog := 0, loghead := 0, log := [] }

theorem State.keeper_raise (s : State) (f v : Nat) : (s.raise f v).keeper = s.keeper := State.same_of_but (p := .keeper) (by simp)

@[simp] theorem State.core_setCause (s : State) (f bit v : Nat) : (s.setCause f bit v).keeper.core = s.keeper.core := by
  unfold State.setCause
  simp only []
  split
  · rfl
  · rw [State.keeper_raise]
    rfl

@[simp] theorem State.core_setKprCause (s : State) (bit : Nat) : (s.setKprCause bit).keeper.core = s.keeper.core := by
  unfold State.setKprCause
  split
  · rfl
  · rw [State.keeper_raise]
    rfl

@[simp] theorem State.core_setMbox (s : State) (f : Nat) (m : Mailbox) : (s.setMbox f m).keeper.core = s.keeper.core := rfl

@[simp] theorem State.core_deliver (s : State) (f : Nat) (e : Event) : (s.deliver f e).keeper.core = s.keeper.core := by
  unfold State.deliver
  simp only []
  split
  · rfl
  · split
    · split
      · exact State.core_setCause _ _ _ _
      · rfl
    · rw [State.keeper_raise]
      rfl

@[simp] theorem State.core_post (s : State) (f code seq : Nat) (data : List Byte) : (s.post f code seq data).keeper.core = s.keeper.core := by
  unfold State.post
  simp only []
  split
  · rfl
  · exact State.core_deliver _ _ _

@[simp] theorem State.core_healthEvent (s : State) (code tile unit addr count : Nat) :
    (s.healthEvent code tile unit addr count).keeper.core = s.keeper.core := by
  have hfog : ∀ (u : State) x y, (u.fogNote x y).keeper = u.keeper := fun u x y => State.same_of_but (p := .keeper) (by simp)
  have hlog : ∀ (u : State) e, (u.logHealth e).keeper = u.keeper := fun u e => State.same_of_but (p := .keeper) (by simp)
  unfold State.healthEvent
  extract_lets e s₁ s₂ s₃ s₄
  have h₃ : s₃.keeper.core = s.keeper.core := by
    simp only [s₃, s₂, s₁, State.core_setKprCause, State.core_post, hlog]
  have h₄ : s₄.keeper.core = s.keeper.core := by
    simp only [s₄]
    split <;> exact h₃
  split
  · rw [hfog, h₄]
  · exact h₄

@[simp] theorem State.healthCore_healthEvent (s : State) (code tile unit addr count : Nat) :
    (s.healthEvent code tile unit addr count).health.core = s.health.core := by
  have hfog : ∀ (u : State) x y, (u.fogNote x y).health = u.health := fun u x y => State.same_of_but (p := .health) (by simp)
  have hpost : ∀ (u : State) f c q d, (u.post f c q d).health = u.health := fun u f c q d => State.same_of_but (p := .health) (by simp)
  have hcause : ∀ (u : State) b, (u.setKprCause b).health = u.health := fun u b => State.same_of_but (p := .health) (by simp)
  unfold State.healthEvent
  extract_lets e s₁ s₂ s₃ s₄
  have h₃ : s₃.health.core = s.health.core := by
    simp only [s₃, s₂, s₁, hcause, hpost]
    rfl
  have h₄ : s₄.health.core = s.health.core := by
    simp only [s₄]
    split <;> exact h₃
  split
  · rw [hfog, h₄]
  · exact h₄

/-! ### O31: the start begins -/

/-- The hub lit: its stopwatch at 0, the start counted. -/
def State.hubOn (s : State) : State :=
  let s := s.setPwr { s.pwr with hubLit := true, start := .waitToken, hot := false, watches := s.pwr.watches.set 4 0 }
  s.setHealth { s.health with powerons := s.health.powerons + 1 }

/-- A slot's image passes its check. -/
def bootPasses (b : BootCheck) (i : Bool) : Bool := if i then b.slot1 else b.slot0

/-- The input faults found at the start reported. -/
def State.reportInputs (s : State) : State :=
  if s.keeper.recovery then s
  else ([0, 1] : List Nat).foldl (fun s i =>
    let st := (s.input i).state
    if st == .ok || st == .open_ then s else s.healthEvent 0x120 0xFF i 0 st.code) s

theorem State.reportInputs_keeps {α : Type} (φ : State → α) (h : ∀ (u : State) c a b d e, φ (u.healthEvent c a b d e) = φ u) (s : State) :
    φ s.reportInputs = φ s := by
  unfold State.reportInputs
  split
  · rfl
  · refine State.foldl_keeps φ (fun u i => ?_) _ _
    simp only []
    split
    · rfl
    · exact h _ _ _ _ _ _

theorem State.core_reportInputs (s : State) : s.reportInputs.keeper.core = s.keeper.core :=
  State.reportInputs_keeps (fun u => u.keeper.core) (fun u c a b d e => u.core_healthEvent c a b d e) s

theorem State.sec_reportInputs (s : State) : s.reportInputs.sec = s.sec :=
  State.reportInputs_keeps (fun u => u.sec) (fun u c a b d e => u.sec_healthEvent c a b d e) s

theorem State.pwr_bootKeeper (s : State) (b : BootCheck) : (s.bootKeeper b).pwr = s.pwr := State.same_of_but (p := .pwr) (by simp)

theorem State.mem_bootKeeper (s : State) (b : BootCheck) : (s.bootKeeper b).mem = s.mem := State.same_of_but (p := .mem) (by simp)

/-- A slot's image checked. -/
def State.checkSlot (s : State) (b : BootCheck) (i : Bool) : State := s.setFwSlot i { s.fwSlot i with ok := bootPasses b i }

theorem State.bootKeeper_first (b : BootCheck) (h : bootPasses b s.sec.bootSlot = true) : s.bootKeeper b =
    ((s.checkSlot b s.sec.bootSlot).setKeeper { s.keeper with up := true, slot := s.sec.bootSlot }).reportInputs :=
  congrArg State.reportInputs (if_pos h)

theorem State.bootKeeper_second (b : BootCheck) (h : bootPasses b s.sec.bootSlot = false) (h' : bootPasses b (!s.sec.bootSlot) = true) :
    ∃ u : State, s.bootKeeper b = (u.healthEvent 0x130 0xFF (b2n (!s.sec.bootSlot)) 0 0).reportInputs ∧ u.health = s.health ∧
      u.keeper = { s.keeper with up := true, slot := !s.sec.bootSlot } ∧ u.sec.bootSlot = !s.sec.bootSlot :=
  ⟨_, congrArg State.reportInputs ((if_neg (by simpa [bootPasses] using h)).trans (if_pos h')), rfl, rfl, rfl⟩

theorem State.bootKeeper_recovery (b : BootCheck) (h : bootPasses b s.sec.bootSlot = false) (h' : bootPasses b (!s.sec.bootSlot) = false) :
    s.bootKeeper b = (((s.checkSlot b s.sec.bootSlot).checkSlot b (!s.sec.bootSlot)).setKeeper
      { s.keeper with recovery := true, isOpen := true }).reportInputs :=
  congrArg State.reportInputs ((if_neg (by simpa [bootPasses] using h)).trans (if_neg (by simpa [bootPasses] using h')))

/-- The Keeper after its boot from its slot. -/
theorem State.core_bootKeeper_first (b : BootCheck) (h : bootPasses b s.sec.bootSlot = true) :
    (s.bootKeeper b).keeper.core = { s.keeper with up := true, slot := s.sec.bootSlot }.core := by
  rw [State.bootKeeper_first b h, State.core_reportInputs]
  rfl

/-- The Keeper after its boot from the other slot, which then is the slot to boot from. -/
theorem State.core_bootKeeper_second (b : BootCheck) (h : bootPasses b s.sec.bootSlot = false) (h' : bootPasses b (!s.sec.bootSlot) = true) :
    (s.bootKeeper b).keeper.core = { s.keeper with up := true, slot := !s.sec.bootSlot }.core ∧ (s.bootKeeper b).sec.bootSlot = !s.sec.bootSlot := by
  obtain ⟨u, hu, -, hkeeper, hslot⟩ := State.bootKeeper_second b h h'
  rw [hu, State.core_reportInputs, State.core_healthEvent, hkeeper, State.sec_reportInputs, State.sec_healthEvent]
  exact ⟨rfl, hslot⟩

/-- The Keeper in recovery mode: no image passed its check. -/
theorem State.core_bootKeeper_recovery (b : BootCheck) (h : bootPasses b s.sec.bootSlot = false) (h' : bootPasses b (!s.sec.bootSlot) = false) :
    (s.bootKeeper b).keeper.core = { s.keeper with recovery := true, isOpen := true }.core := by
  rw [State.bootKeeper_recovery b h h', State.core_reportInputs]
  rfl

theorem State.healthCore_bootKeeper (s : State) (b : BootCheck) : (s.bootKeeper b).health.core = s.health.core := by
  have hreport : ∀ u : State, u.reportInputs.health.core = u.health.core :=
    State.reportInputs_keeps (fun u => u.health.core) (fun u c a b d e => u.healthCore_healthEvent c a b d e)
  by_cases h : bootPasses b s.sec.bootSlot = true
  · rw [State.bootKeeper_first b h, hreport]
    rfl
  · rw [Bool.not_eq_true] at h
    by_cases h' : bootPasses b (!s.sec.bootSlot) = true
    · obtain ⟨u, hu, hhealth, -⟩ := State.bootKeeper_second b h h'
      rw [hu, hreport, State.healthCore_healthEvent, hhealth]
    · rw [State.bootKeeper_recovery b h (Bool.not_eq_true _ ▸ h'), hreport]
      rfl

theorem modulePowerOn_boots {c : Nat} (b : BootCheck) (hoff : s.pwr.hubLit = false) (hfed : s.fed = true) (hcool : s.pwr.hot = true → c ≤ 90) :
    exec (.modulePowerOn c b) s = .next (s.hubOn.bootKeeper b) := by
  refine congrArg Host.Outcome.next (if_pos ?_)
  rw [hoff, hfed]
  cases hhot : s.pwr.hot
  · rfl
  · simpa using hcool hhot

theorem modulePowerOn_starts {c : Nat} (b : BootCheck) (hoff : s.pwr.hubLit = false) (hfed : s.fed = true) (hcool : s.pwr.hot = true → c ≤ 90) :
    ∃ t, exec (.modulePowerOn c b) s = .next t ∧ t.pwr.hubLit = true ∧ t.pwr.start = .waitToken ∧ t.pwr.hot = false ∧ t.watch 4 = 0 ∧
      t.health.powerons = s.health.powerons + 1 ∧ t.mem = s.mem ∧
      (bootPasses b s.sec.bootSlot = true → t.keeper.up = true ∧ t.keeper.slot = s.sec.bootSlot) ∧
      (bootPasses b s.sec.bootSlot = false → bootPasses b (!s.sec.bootSlot) = true → t.keeper.up = true ∧ t.keeper.slot = (!s.sec.bootSlot) ∧
        t.sec.bootSlot = !s.sec.bootSlot) ∧
      (bootPasses b s.sec.bootSlot = false → bootPasses b (!s.sec.bootSlot) = false → t.keeper.recovery = true ∧ t.keeper.isOpen = true) := by
  have hpwr := s.hubOn.pwr_bootKeeper b
  refine ⟨_, modulePowerOn_boots b hoff hfed hcool, by rw [hpwr]; rfl, by rw [hpwr]; rfl, by rw [hpwr]; rfl, ?_,
    (congrArg HealthPart.powerons (s.hubOn.healthCore_bootKeeper b) :), s.hubOn.mem_bootKeeper b, fun h => ?_, fun h h' => ?_, fun h h' => ?_⟩
  · rw [State.watch, hpwr]
    exact Tab.get_set_same _ _ _ _
  · have hcore := State.core_bootKeeper_first (s := s.hubOn) b h
    exact ⟨(congrArg Keeper.up hcore :), (congrArg Keeper.slot hcore :)⟩
  · obtain ⟨hcore, hslot⟩ := State.core_bootKeeper_second (s := s.hubOn) b h h'
    exact ⟨(congrArg Keeper.up hcore :), (congrArg Keeper.slot hcore :), hslot⟩
  · have hcore := State.core_bootKeeper_recovery (s := s.hubOn) b h h'
    exact ⟨(congrArg Keeper.recovery hcore :), (congrArg Keeper.isOpen hcore :)⟩

/-! The ramp and the straps -/

/-- One tile's supply up: its stopwatch at 0, its setting 15. -/
def State.lightTile (s : State) (t : Nat) : State :=
  let s := s.setPwr { s.pwr with watches := s.pwr.watches.set t 0 }
  s.setTilePwr t ({ (s.tilePwr t) with lit := true, vset := 15, held := 15, target := s.boundSetting t 15 } : TilePwr).settle

/-- A tile whose supply has come up. -/
def State.tileUp (s : State) (k : Nat) : Prop := (s.tilePwr k).lit = true ∧ (s.tilePwr k).vset = 15 ∧ s.watch k = 0

theorem State.tileUp_lightTile (s : State) (k : Nat) : (s.lightTile k).tileUp k := by
  have hsame : (s.lightTile k).tilePwr k = _ := State.tilePwr_setTilePwr_same _ _ _
  rw [State.tileUp, hsame]
  exact ⟨rfl, rfl, Tab.get_set_same _ _ _ _⟩

theorem State.tileUp_lightTile_other {k : Nat} (h : s.tileUp k) (hj : k ≠ j) : (s.lightTile j).tileUp k := by
  have hother : (s.lightTile j).tilePwr k = s.tilePwr k := State.tilePwr_setTilePwr_other _ _ hj
  have hwatch : (s.lightTile j).watch k = s.watch k := Tab.get_set_other _ _ _ hj
  rw [State.tileUp, hother, hwatch]
  exact h

theorem State.tileUp_foldl_lightTile {k : Nat} (l : List Nat) (s : State) (h : k ∈ l ∨ s.tileUp k) : (l.foldl State.lightTile s).tileUp k := by
  induction l generalizing s with
  | nil => exact h.resolve_left List.not_mem_nil
  | cons x l ih =>
    refine ih _ ?_
    by_cases hx : k = x
    · subst hx
      exact .inr (s.tileUp_lightTile k)
    · exact h.imp (fun h => (List.mem_cons.1 h).resolve_left hx) (State.tileUp_lightTile_other · hx)

theorem State.tileUp_ramp (s : State) {k : Nat} (hk : k < 4) : s.ramp.tileUp k := by
  have h := State.tileUp_foldl_lightTile (List.range 4) s (.inl (List.mem_range.2 hk))
  have heq : s.ramp = ((List.range 4).foldl State.lightTile s).setPwr
      { ((List.range 4).foldl State.lightTile s).pwr with tokenOut := true, start := .strapWindow, meaning := .strap } := rfl
  rw [heq]
  generalize (List.range 4).foldl State.lightTile s = u at h
  exact h

theorem ramp_starts (s : State) : s.onlyChanges s.ramp [.pwr] ∧ s.ramp.pwr.start = .strapWindow ∧ s.ramp.pwr.meaning = .strap ∧
    s.ramp.pwr.tokenOut = true ∧ ∀ k < 4, (s.ramp.tilePwr k).lit = true ∧ (s.ramp.tilePwr k).vset = 15 ∧ s.ramp.watch k = 0 :=
  ⟨by simp, rfl, rfl, rfl, fun _ hk => s.tileUp_ramp hk⟩

/-- Bits set one by one are the bits chosen. -/
theorem testBit_foldl_two_pow (p : Nat → Bool) (n : Nat) : ((List.range n).filter p).foldl (fun x i => x + 2 ^ i) 0 < 2 ^ n ∧
    ∀ i < n, (((List.range n).filter p).foldl (fun x i => x + 2 ^ i) 0).testBit i = p i := by
  induction n with
  | zero => exact ⟨Nat.one_pos, nofun⟩
  | succ n ih =>
    obtain ⟨hlt, hbit⟩ := ih
    rw [List.range_succ, List.filter_append, List.foldl_append, Nat.pow_succ]
    cases hp : p n
    · rw [List.filter_cons_of_neg (by simp [hp]), List.filter_nil, List.foldl_nil]
      refine ⟨by omega, fun i hi => ?_⟩
      rcases Nat.lt_succ_iff_lt_or_eq.1 hi with hi | rfl
      · exact hbit i hi
      · exact (Nat.testBit_lt_two_pow hlt).trans hp.symm
    · rw [List.filter_cons_of_pos hp, List.filter_nil, List.foldl_cons, List.foldl_nil, Nat.add_comm]
      refine ⟨by omega, fun i hi => ?_⟩
      rcases Nat.lt_succ_iff_lt_or_eq.1 hi with hi | rfl
      · rw [Nat.testBit_two_pow_add_gt hi]
        exact hbit i hi
      · rw [Nat.testBit_two_pow_add_eq, Nat.testBit_lt_two_pow hlt, hp]
        rfl

/-- The power part after straps that are not valid. -/
def State.strapsRefused (s : State) (mv : List Nat) : PwrPart :=
  { s.pwr with
    strapBad := true, lead := false, position := 0,
    pinFault := s.pwr.pinFault |||
      BitVec.ofNat 8 (((List.range 8).filter (fun i => (strapLevel (mv.getD i 0)).isNone)).foldl (fun n i => n + 2 ^ i) 0) }

theorem strapSample_reads (mv : List Nat) (h : s.pwr.start = .strapWindow) : ∃ t, exec (.strapSample mv) s = .next t ∧ t.pwr.start = .strapped ∧
    (strapValid mv = true → t.pwr.strapBad = false ∧ t.moduleId = strapWord mv % 1024 ∧ t.isLead = (strapWord mv).testBit 10) ∧
    (strapValid mv = false → t.pwr.strapBad = true ∧ t.moduleId = 0 ∧ t.isLead = false ∧
      ∀ i < 8, strapLevel (mv.getD i 0) = none → t.pwr.pinFault.getLsbD i = true) := by
  have hexec : exec (.strapSample mv) s = .next ((s.sampleStraps mv).setPwr { (s.sampleStraps mv).pwr with start := .strapped }) :=
    congrArg Host.Outcome.next (if_pos h)
  refine ⟨_, hexec, rfl, fun hv => ?_, fun hv => ?_⟩
  · rw [State.sampleStraps, if_pos hv]
    exact ⟨rfl, rfl, rfl⟩
  · have hpwr : (s.sampleStraps mv).pwr = s.strapsRefused mv := by
      rw [State.sampleStraps, if_neg (by rw [hv]; decide)]
      exact State.pwr_healthEvent _ _ _ _ _ _
    refine ⟨(congrArg PwrPart.strapBad hpwr :), (congrArg PwrPart.position hpwr :), (congrArg PwrPart.lead hpwr :), fun i hi hnone => ?_⟩
    refine (congrArg (fun p => p.pinFault.getLsbD i) hpwr :).trans ?_
    rw [State.strapsRefused, BitVec.getLsbD_or, BitVec.getLsbD_ofNat, (testBit_foldl_two_pow _ 8).2 i hi, hnone]
    simp [hi]

/-- Settles O31. -/
theorem theStartBegins : Obligations.TheStartBegins := by
  unfold Obligations.TheStartBegins
  refine ⟨fun c b s pass hoff hfed hcool hpass => ?_, fun i s h => ?_, fun s h => ?_, fun mv s h => strapSample_reads mv h⟩
  · have hpass : pass = bootPasses b := hpass
    subst hpass
    obtain ⟨t, hexec, hlit, hstart, hhot, hwatch, hons, hmem, hfirst, hsecond, hnone⟩ := modulePowerOn_starts b hoff hfed hcool
    have hfail : b.slot0 = false → b.slot1 = false → ∀ i, bootPasses b i = false := fun h0 h1 i => by
      cases i
      · exact h0
      · exact h1
    exact ⟨t, hexec, hlit, hstart, hhot, hwatch, hons, hmem, hfirst, hsecond, fun h0 h1 => hnone (hfail h0 h1 _) (hfail h0 h1 _)⟩
  · rcases h with ⟨rfl, hs⟩ | ⟨rfl, hs⟩
    · exact ⟨s.ramp, congrArg Host.Outcome.next (if_pos hs), ramp_starts s⟩
    · exact ⟨s.ramp, congrArg Host.Outcome.next (if_pos hs), ramp_starts s⟩
  · have hexec : exec .tokenFallback s = .next ((s.setPwr { s.pwr with start := .fallback, tokFall := true }).healthEvent 0x129 0xFF 0 0 fallbackDelay) :=
      congrArg Host.Outcome.next (if_pos h)
    refine ⟨_, hexec, ?_⟩
    rw [State.pwr_healthEvent]
    exact ⟨rfl, rfl⟩

end
end Sys2Proof.Machine
end

section
namespace Sys2Proof.Machine
open Sys2Proof
section
variable {s t u : State} {i j n : Nat}

/-! ### O32: the start ends -/

/-- Memory without a range reads 0 there and what it did elsewhere. -/
theorem Mem.read_without (m : Mem) (lo hi a : Nat) : Mem.read (Mem.without m lo hi) a = if lo ≤ a ∧ a < hi then 0 else Mem.read m a := by
  induction m with
  | nil => exact (ite_self 0).symm
  | cons e r ih =>
    obtain ⟨k, v⟩ := e
    rw [Mem.without] at ih ⊢
    rw [List.filter_cons, Mem.read]
    by_cases hk : a = k
    · subst hk
      by_cases hin : lo ≤ a ∧ a < hi
      · rw [if_neg (by simp; omega), ih, if_pos hin, if_pos hin]
      · rw [if_pos (by simp; omega), if_neg hin, Mem.read, if_pos rfl, if_pos rfl]
    · rw [if_neg hk, ← ih]
      split
      · rw [Mem.read, if_neg hk]
      · rfl

theorem State.mem_clearEngines (s : State) (a : Nat) :
    Mem.read s.clearEngines.mem a = if 0x40000000000 ≤ a ∧ a < 0x40040000000 then 0 else Mem.read s.mem a :=
  Mem.read_without _ _ _ _

theorem galleryWake_wakes (k : TileIx) (g : Fin 10) (f : Fn) (w : Nat) (hrel : s.released = true) (hgated : (s.gallery k g).gated = true)
    (hlim : k.val ∈ s.pwr.limited → g.val < 5) : ∃ t, exec (.galleryWake k g f w) s = .next t ∧ s.onlyChanges t [.arr, .fnp] ∧
      t.gallery k g = { s.gallery k g with gated := false, woken := true } ∧
      (t.fnp.acct.get {} f).switch = satAdd64 (s.fnp.acct.get {} f).switch w := by
  have hcond : (s.released && (s.gallery k g).gated && !(s.pwr.limited.contains k.val && decide (5 ≤ g.val))) = true := by
    rw [hrel, hgated, Bool.true_and, Bool.true_and, Bool.not_eq_true', Bool.and_eq_false_iff]
    by_cases hk : k.val ∈ s.pwr.limited
    · exact .inr (decide_eq_false (by have := hlim hk; omega))
    · exact .inl (by simpa using hk)
  refine ⟨_, congrArg Host.Outcome.next (if_pos hcond), by simp, State.gallery_setGallery_same _ _ _ _, ?_⟩
  exact (congrArg FnAcct.switch (Tab.get_upd_same s.fnp.acct {} f.val (fun a => { a with switch := satAdd64 a.switch w })) :)

/-! The built-in test -/

/-- One tile's results of the built-in test. -/
def State.bistTile (s : State) (e : BistTile × Nat) : State :=
  match e with
  | (x, t) =>
    if t < 4 then
      let s := (x.mismatches.filter (· < 84)).foldl (fun s p => s.countMismatch t p 1) s
      let h := s.health
      let s := s.setHealth { h with bistProposed := h.bistProposed.set t x.proposed, bistAccepted := h.bistAccepted.set t x.accepted }
      if x.tokensOk then s
      else (s.setHealth { s.health with badTiles := insertNat t s.health.badTiles }).healthEvent 0x10F t t 0 0
    else s

/-- The results of a tile are recorded. -/
def State.bistHolds (s : State) (x : BistTile) (k : Nat) : Prop :=
  s.health.bistAccepted.get 0 k = x.accepted ∧ (x.tokensOk = false → k ∈ s.health.badTiles)

/-- The two tables the built-in test fills, after one tile's results. -/
theorem State.bistTile_tables (s : State) (x : BistTile) (k : Nat) (hk : k < 4) :
    (s.bistTile (x, k)).health.bistAccepted = s.health.bistAccepted.set k x.accepted ∧
    (s.bistTile (x, k)).health.badTiles = if x.tokensOk then s.health.badTiles else insertNat k s.health.badTiles := by
  unfold State.bistTile
  simp only [hk, if_true]
  have hcore : (((x.mismatches.filter (· < 84)).foldl (fun s p => s.countMismatch k p 1) s).health.bistAccepted,
      ((x.mismatches.filter (· < 84)).foldl (fun s p => s.countMismatch k p 1) s).health.badTiles) = (s.health.bistAccepted, s.health.badTiles) :=
    State.foldl_keeps (fun u => (u.health.bistAccepted, u.health.badTiles)) (f := fun u p => u.countMismatch k p 1) (fun u p => rfl) _ s
  generalize (x.mismatches.filter (· < 84)).foldl (fun s p => s.countMismatch k p 1) s = u at hcore
  obtain ⟨hacc, hbad⟩ := Prod.mk.inj hcore
  rw [← hacc, ← hbad]
  split
  · exact ⟨rfl, rfl⟩
  · have h := State.healthCore_healthEvent ((u.setHealth { u.health with
        bistProposed := u.health.bistProposed.set k x.proposed, bistAccepted := u.health.bistAccepted.set k x.accepted }).setHealth
      { u.health with bistProposed := u.health.bistProposed.set k x.proposed, bistAccepted := u.health.bistAccepted.set k x.accepted,
                      badTiles := insertNat k u.health.badTiles }) 0x10F k k 0 0
    exact ⟨(congrArg HealthPart.bistAccepted h :), (congrArg HealthPart.badTiles h :)⟩

theorem State.bistHolds_bistTile (s : State) (x : BistTile) {k : Nat} (hk : k < 4) : (s.bistTile (x, k)).bistHolds x k := by
  obtain ⟨hacc, hbad⟩ := s.bistTile_tables x k hk
  rw [State.bistHolds, hacc, hbad]
  refine ⟨Tab.get_set_same _ _ _ _, fun h => ?_⟩
  rw [h]
  exact (mem_insertNat _ _ _).2 (.inl rfl)

theorem State.bistHolds_bistTile_other {x : BistTile} {k : Nat} (h : s.bistHolds x k) (y : BistTile) (hj : k ≠ j) : (s.bistTile (y, j)).bistHolds x k := by
  by_cases hlt : j < 4
  · obtain ⟨hacc, hbad⟩ := s.bistTile_tables y j hlt
    rw [State.bistHolds, hacc, hbad, Tab.get_set_other _ _ _ hj]
    refine ⟨h.1, fun hx => ?_⟩
    split
    · exact h.2 hx
    · exact (mem_insertNat _ _ _).2 (.inr (h.2 hx))
  · rw [State.bistTile, if_neg hlt]
    exact h

theorem State.bistHolds_foldl (l : List (BistTile × Nat)) {x : BistTile} {k : Nat} (hk : k < 4) : ∀ s : State, (l.map Prod.snd).Nodup →
    ((x, k) ∈ l ∨ (s.bistHolds x k ∧ k ∉ l.map Prod.snd)) → (l.foldl State.bistTile s).bistHolds x k := by
  induction l with
  | nil => exact fun s _ h => (h.resolve_left List.not_mem_nil).1
  | cons e l ih =>
    intro s hnodup h
    rw [List.map_cons, List.nodup_cons] at hnodup
    rw [List.mem_cons, List.map_cons, List.mem_cons, not_or] at h
    rw [List.foldl_cons]
    rcases h with (rfl | hin) | ⟨hs, hne, hnot⟩
    · exact ih _ hnodup.2 (.inr ⟨s.bistHolds_bistTile x hk, hnodup.1⟩)
    · exact ih _ hnodup.2 (.inl hin)
    · exact ih _ hnodup.2 (.inr ⟨State.bistHolds_bistTile_other hs e.1 hne, hnot⟩)

theorem builtInTest_records (r : List BistTile) (hrel : s.released = true) (hup : s.keeper.up = true) (hopen : s.keeper.isOpen = false)
    (hwoken : s.allWoken = true) : ∃ t, exec (.builtInTest r) s = .next t ∧ t.pwr.bistDone = true ∧
      ∀ k x, k < 4 → r[k]? = some x → t.health.bistAccepted.get 0 k = x.accepted ∧ (x.tokensOk = false → k ∈ t.health.badTiles) := by
  have hexec : exec (.builtInTest r) s = .next ((r.zipIdx.foldl State.bistTile s).setPwr { (r.zipIdx.foldl State.bistTile s).pwr with bistDone := true }) :=
    congrArg Host.Outcome.next (if_pos (by rw [hrel, hup, hopen, hwoken]; rfl))
  exact ⟨_, hexec, rfl, fun k x hk hx =>
    State.bistHolds_foldl _ hk s (List.nodup_zipIdx_map_snd r) (.inl (List.mk_mem_zipIdx_iff_getElem?.2 hx))⟩

/-! The mailboxes open -/

@[simp] theorem State.deferred_deliver (s : State) (f : Nat) (e : Event) : (s.deliver f e).keeper.deferred = s.keeper.deferred := by
  unfold State.deliver
  simp only []
  split
  · rfl
  · split
    · split
      · unfold State.setCause
        simp only []
        split
        · rfl
        · rw [State.keeper_raise]
          rfl
      · rfl
    · rw [State.keeper_raise]
      rfl

/-- Where the mailboxes are open and no restart runs, an event defers nothing. -/
theorem State.deferred_healthEvent (s : State) (code tile unit addr count : Nat) (hb : s.keeper.kbusy = false) (ho : s.keeper.isOpen = true) :
    (s.healthEvent code tile unit addr count).keeper.deferred = s.keeper.deferred := by
  have hfog : ∀ (u : State) x y, (u.fogNote x y).keeper = u.keeper := fun u x y => State.same_of_but (p := .keeper) (by simp)
  have hlog : ∀ (u : State) e, (u.logHealth e).keeper = u.keeper := fun u e => State.same_of_but (p := .keeper) (by simp)
  have hcause : ∀ u : State, (u.setKprCause 1).keeper.deferred = u.keeper.deferred := fun u =>
    (congrArg Keeper.deferred (u.keeper_setKprCause (bit := 1) (by decide)).2 :)
  unfold State.healthEvent
  extract_lets e s₁ s₂ s₃ s₄
  have hk₁ : s₁.keeper = s.keeper := hlog _ _
  have h₃ : s₃.keeper.deferred = s.keeper.deferred := by
    rw [hcause, ← hk₁]
    unfold s₂ State.post
    rw [if_neg (by rw [hk₁, hb, ho]; decide), State.deferred_deliver]
  have h₄ : s₄.keeper.deferred = s.keeper.deferred := by
    simp only [s₄]
    split <;> exact h₃
  split
  · rw [hfog, h₄]
  · exact h₄

/-- The state in which the mailboxes open, before the events owed are delivered. -/
def State.opened (s : State) : State :=
  let v := s.fwSlot s.keeper.slot
  let s := s.setKeeper { s.keeper with isOpen := true, fwmaj := v.maj, fwmin := v.min, deferred := [] }
  (s.setSec { s.sec with bootSlot := s.keeper.slot }).setPwr { s.pwr with start := .opened }

/-- The counter raised: it follows the running image, nothing else of the security part changes, and no event is deferred. -/
theorem State.raiseCounter_raises (s : State) (h64 : s.sec.counter ≤ 64) : s.raiseCounter.keeper.core = s.keeper.core ∧
    s.raiseCounter.pwr = s.pwr ∧
    s.raiseCounter.sec = { s.sec with counter := max s.sec.counter (min 64 (s.fwSlot s.keeper.slot).svn) } ∧
    (s.keeper.kbusy = false → s.keeper.isOpen = true → s.raiseCounter.keeper.deferred = s.keeper.deferred) := by
  unfold State.raiseCounter
  simp only []
  by_cases hlt : s.sec.counter < (s.fwSlot s.keeper.slot).svn
  · rw [if_pos hlt, Nat.max_eq_right (by omega)]
    split
    · exact ⟨State.core_healthEvent _ _ _ _ _ _, State.pwr_healthEvent _ _ _ _ _ _, State.sec_healthEvent _ _ _ _ _ _,
        fun hb ho => State.deferred_healthEvent _ _ _ _ _ _ hb ho⟩
    · exact ⟨rfl, rfl, rfl, fun _ _ => rfl⟩
  · rw [if_neg hlt, Nat.max_eq_left (by omega)]
    exact ⟨rfl, rfl, rfl, fun _ _ => rfl⟩

theorem mailboxesOpen_opens (hrel : s.released = true) (hup : s.keeper.up = true) (hopen : s.keeper.isOpen = false) (hbist : s.pwr.bistDone = true)
    (h64 : s.sec.counter ≤ 64) : ∃ t, exec .mailboxesOpen s = .next t ∧ t.keeper.isOpen = true ∧ t.pwr.start = .opened ∧
      (s.keeper.kbusy = false → t.keeper.deferred = []) ∧
      t.keeper.fwmaj = (s.fwSlot s.keeper.slot).maj ∧ t.keeper.fwmin = (s.fwSlot s.keeper.slot).min ∧
      t.sec.bootSlot = s.keeper.slot ∧ t.sec.counter = max s.sec.counter (min 64 (s.fwSlot s.keeper.slot).svn) := by
  have hexec : exec .mailboxesOpen s = .next (s.keeper.deferred.foldl (fun s e => s.deliver e.fn e) s.opened).raiseCounter :=
    congrArg Host.Outcome.next (if_pos (by rw [hrel, hup, hopen, hbist]; rfl))
  refine ⟨_, hexec, ?_⟩
  have hcore := State.foldl_keeps (fun u => u.keeper.core) (f := fun u (e : Event) => u.deliver e.fn e) (fun u e => u.core_deliver _ _) s.keeper.deferred s.opened
  have hdef := State.foldl_keeps (fun u => u.keeper.deferred) (f := fun u (e : Event) => u.deliver e.fn e) (fun u e => u.deferred_deliver _ _) s.keeper.deferred s.opened
  have hpwr := State.foldl_keeps (fun u => u.pwr) (f := fun u (e : Event) => u.deliver e.fn e)
    (fun u e => State.same_of_but (p := .pwr) (by simp)) s.keeper.deferred s.opened
  have hsec := State.foldl_keeps (fun u => u.sec) (f := fun u (e : Event) => u.deliver e.fn e)
    (fun u e => State.same_of_but (p := .sec) (by simp)) s.keeper.deferred s.opened
  generalize s.keeper.deferred.foldl (fun s e => s.deliver e.fn e) s.opened = u at *
  have hslot : u.fwSlot u.keeper.slot = s.fwSlot s.keeper.slot := by
    rw [State.fwSlot, hsec, show u.keeper.slot = s.keeper.slot from (congrArg Keeper.slot hcore :)]
    rfl
  have hcounter : u.sec.counter = s.sec.counter := (congrArg SecPart.counter hsec :)
  obtain ⟨hkeeper, hpwr', hsec', hdef'⟩ := u.raiseCounter_raises (by rw [hcounter]; exact h64)
  have hk := hkeeper.trans hcore
  refine ⟨(congrArg Keeper.isOpen hk :), ?_, fun hb => ?_, (congrArg Keeper.fwmaj hk :), (congrArg Keeper.fwmin hk :), ?_, ?_⟩
  · rw [hpwr', hpwr]
    rfl
  · rw [hdef' ((congrArg Keeper.kbusy hcore :).trans hb) (congrArg Keeper.isOpen hcore :), hdef]
    rfl
  · rw [hsec', hsec]
    rfl
  · rw [hsec', hslot, hcounter]

/-! Beacon pins -/

/-- Setting a bit that is set changes nothing. -/
theorem or_two_pow_of_getLsbD {w : Nat} {v : BitVec w} {b : Nat} (h : v.getLsbD b = true) : v ||| BitVec.ofNat w (2 ^ b) = v := by
  refine BitVec.eq_of_getLsbD_eq fun i hi => ?_
  rw [BitVec.getLsbD_or, BitVec.getLsbD_ofNat, Nat.testBit_two_pow]
  by_cases hb : b = i
  · subst hb
    rw [h, Bool.true_or]
  · rw [decide_eq_false hb, Bool.and_false, Bool.or_false]

/-- A pin flagged: its bit of PINFAULT is set, and the control copies stay as they were. -/
theorem State.flagPin_flags (s : State) (p : Nat) : (s.flagPin p).pwr = { s.pwr with pinFault := s.pwr.pinFault ||| BitVec.ofNat 8 (2 ^ p) } := by
  unfold State.flagPin
  split
  next hset =>
    rw [or_two_pow_of_getLsbD hset]
  next => exact State.pwr_healthEvent _ _ _ _ _ _

theorem beaconPinFault_flags (p : Fin 8) (hlit : s.pwr.hubLit = true) :
    (∃ t, exec (.beaconPinFault p false) s = .next t ∧ t.pwr.pinFault = s.pwr.pinFault ||| BitVec.ofNat 8 (2 ^ p.val) ∧ t.pwr.cdis = s.pwr.cdis) ∧
    (p.val < 4 → ∃ t, exec (.beaconPinFault p true) s = .next t ∧
      t.pwr.pinFault = s.pwr.pinFault ||| BitVec.ofNat 8 (3 * 2 ^ (p.val / 2 * 2))) := by
  have hlit' : (!s.pwr.hubLit) = false := by rw [hlit]; rfl
  constructor
  · have hexec : exec (.beaconPinFault p false) s = execBeaconPinFault p false s := rfl
    simp only [execBeaconPinFault, hlit', Bool.false_and, Bool.not_false, Bool.true_and, Bool.false_eq_true, if_false] at hexec
    refine ⟨_, hexec, ?_, ?_⟩
    · rw [State.flagPin_flags]
      split <;> rfl
    · rw [State.flagPin_flags]
      split <;> rfl
  · intro hp
    have hexec : exec (.beaconPinFault p true) s = execBeaconPinFault p true s := rfl
    simp only [execBeaconPinFault, hlit', Bool.true_and, hp, decide_true, Bool.false_eq_true, if_false, if_true] at hexec
    refine ⟨_, hexec, ?_⟩
    have htwo : ∀ k < 2, BitVec.ofNat 8 (2 ^ (k * 2)) ||| BitVec.ofNat 8 (2 ^ (k * 2 + 1)) = BitVec.ofNat 8 (3 * 2 ^ (k * 2)) := by decide
    rw [State.flagPin_flags, State.flagPin_flags, BitVec.or_assoc, htwo _ (by omega)]

/-- Settles O32. -/
theorem theStartEnds : Obligations.TheStartEnds := by
  unfold Obligations.TheStartEnds
  refine ⟨fun s hstart hup => ?_, fun k g f w s hrel hgated hlim => galleryWake_wakes k g f w hrel hgated hlim, fun k g s hrel hidle => ?_,
    fun r s hrel hup hopen hwoken => builtInTest_records r hrel hup hopen hwoken,
    fun s hrel hup hopen hbist h64 => mailboxesOpen_opens hrel hup hopen hbist h64, fun p s hlit => beaconPinFault_flags p hlit⟩
  · have hexec : exec .moduleResetRelease s = .next s.releaseReset := congrArg Host.Outcome.next (if_pos (by simp [hstart, hup]))
    exact ⟨_, hexec, rfl, rfl, rfl, rfl, rfl, rfl, rfl, rfl, s.mem_clearEngines⟩
  · refine congrArg Host.Outcome.next (if_pos ?_)
    rw [hrel, Bool.true_and, List.all_eq_true]
    intro x hx
    rw [hidle x (List.mem_range.1 hx)]
    rfl

end
end Sys2Proof.Machine
end

section
namespace Sys2Proof.Machine
open Sys2Proof
section
variable {s t u : State} {i j n : Nat}

/-! ### O33: what each reset clears and leaves -/

@[simp] theorem State.numVfs_setFnSt (s : State) (f : Nat) (e : FnSt) : (s.setFnSt f e).fnp.numVfs = s.fnp.numVfs := rfl

@[simp] theorem State.numVfs_raise (s : State) (f v : Nat) : (s.raise f v).fnp.numVfs = s.fnp.numVfs := by
  unfold State.raise
  simp only []
  split
  · rfl
  · split
    · rfl
    · split <;> rfl

@[simp] theorem State.numVfs_setKprCause (s : State) (bit : Nat) : (s.setKprCause bit).fnp.numVfs = s.fnp.numVfs := by
  unfold State.setKprCause
  split
  · rfl
  · exact State.numVfs_raise _ _ _

@[simp] theorem State.numVfs_deliver (s : State) (f : Nat) (e : Event) : (s.deliver f e).fnp.numVfs = s.fnp.numVfs := by
  unfold State.deliver
  simp only []
  split
  · rfl
  · split
    · split
      · unfold State.setCause
        simp only []
        split
        · rfl
        · exact State.numVfs_raise _ _ _
      · rfl
    · exact State.numVfs_raise _ _ _

@[simp] theorem State.numVfs_healthEvent (s : State) (code tile unit addr count : Nat) :
    (s.healthEvent code tile unit addr count).fnp.numVfs = s.fnp.numVfs := by
  have hfog : ∀ (u : State) x y, (u.fogNote x y).fnp = u.fnp := fun u x y => State.same_of_but (p := .fnp) (by simp)
  have hlog : ∀ (u : State) e, (u.logHealth e).fnp = u.fnp := fun u e => State.same_of_but (p := .fnp) (by simp)
  have hpost : ∀ (u : State) f c q d, (u.post f c q d).fnp.numVfs = u.fnp.numVfs := fun u f c q d => by
    unfold State.post
    simp only []
    split
    · rfl
    · exact State.numVfs_deliver _ _ _
  unfold State.healthEvent
  extract_lets e s₁ s₂ s₃ s₄
  have h₃ : s₃.fnp.numVfs = s.fnp.numVfs := by simp only [s₃, s₂, s₁, State.numVfs_setKprCause, hpost, hlog]
  have h₄ : s₄.fnp.numVfs = s.fnp.numVfs := by
    simp only [s₄]
    split <;> exact h₃
  split
  · rw [hfog, h₄]
  · exact h₄

/-- What every reset of the module leaves: nothing of the Keeper's work and of the engines, memory but for the scratchpads. -/
structure State.ResetOf (s t : State) : Prop where
  pair : t.pair = {}
  prog : t.prog = {}
  run : t.run = {}
  serve : t.serve = {}
  regions : t.tier.regions = []
  numVfs : t.fnp.numVfs = s.fnp.numVfs
  sessions : t.sec.sessions = []
  map : t.arr.map = s.arr.map
  tgt : t.tgt = []
  eng : t.eng = {}
  mem : ∀ a, Mem.read t.mem a = if 0x40000000000 ≤ a ∧ a < 0x40040000000 then 0 else Mem.read s.mem a

theorem State.ResetOf.of_frame (h : s.ResetOf t) (hbut : t.onlyChanges u [.keeper, .fnp, .link, .pwr, .health, .outbox])
    (hvfs : u.fnp.numVfs = t.fnp.numVfs) : s.ResetOf u where
  pair := (State.same_of_but (p := .pair) (State.onlyChanges_mono hbut (by decide))).trans h.pair
  prog := (State.same_of_but (p := .prog) (State.onlyChanges_mono hbut (by decide))).trans h.prog
  run := (State.same_of_but (p := .run) (State.onlyChanges_mono hbut (by decide))).trans h.run
  serve := (State.same_of_but (p := .serve) (State.onlyChanges_mono hbut (by decide))).trans h.serve
  regions := (congrArg TierPart.regions (State.same_of_but (p := .tier) (State.onlyChanges_mono hbut (by decide))) :).trans h.regions
  numVfs := hvfs.trans h.numVfs
  sessions := (congrArg SecPart.sessions (State.same_of_but (p := .sec) (State.onlyChanges_mono hbut (by decide))) :).trans h.sessions
  map := (congrArg ArrPart.map (State.same_of_but (p := .arr) (State.onlyChanges_mono hbut (by decide))) :).trans h.map
  tgt := (State.same_of_but (p := .tgt) (State.onlyChanges_mono hbut (by decide))).trans h.tgt
  eng := (State.same_of_but (p := .eng) (State.onlyChanges_mono hbut (by decide))).trans h.eng
  mem a := (congrArg (Mem.read · a) (State.same_of_but (p := .mem) (State.onlyChanges_mono hbut (by decide))) :).trans (h.mem a)

theorem State.numVfs_reportInputs (s : State) : s.reportInputs.fnp.numVfs = s.fnp.numVfs :=
  State.reportInputs_keeps (fun u => u.fnp.numVfs) (fun u c a b d e => u.numVfs_healthEvent c a b d e) s

/-- A boot changes neither the number of functions nor the sessions. -/
theorem State.bootKeeper_keeps (s : State) (b : BootCheck) : (s.bootKeeper b).fnp.numVfs = s.fnp.numVfs ∧
    (s.bootKeeper b).sec.sessions = s.sec.sessions := by
  by_cases h : bootPasses b s.sec.bootSlot = true
  · rw [State.bootKeeper_first b h, State.numVfs_reportInputs, State.sec_reportInputs]
    exact ⟨rfl, rfl⟩
  · rw [Bool.not_eq_true] at h
    by_cases h' : bootPasses b (!s.sec.bootSlot) = true
    · have hboot : s.bootKeeper b = ((((((s.checkSlot b s.sec.bootSlot).checkSlot b (!s.sec.bootSlot)).setKeeper
          { s.keeper with up := true, slot := !s.sec.bootSlot })).setSec
            { ((s.checkSlot b s.sec.bootSlot).checkSlot b (!s.sec.bootSlot)).sec with bootSlot := !s.sec.bootSlot }).healthEvent
              0x130 0xFF (b2n (!s.sec.bootSlot)) 0 0).reportInputs :=
        congrArg State.reportInputs ((if_neg (by simpa [bootPasses] using h)).trans (if_pos h'))
      rw [hboot, State.numVfs_reportInputs, State.sec_reportInputs, State.numVfs_healthEvent, State.sec_healthEvent]
      exact ⟨rfl, rfl⟩
    · rw [State.bootKeeper_recovery b h (Bool.not_eq_true _ ▸ h'), State.numVfs_reportInputs, State.sec_reportInputs]
      exact ⟨rfl, rfl⟩

theorem State.resetOf_cleared (s : State) : s.ResetOf s.clearEngines.clearKeeper.clearLinks :=
  ⟨rfl, rfl, rfl, rfl, rfl, rfl, rfl, rfl, rfl, rfl, s.mem_clearEngines⟩

theorem State.ResetOf.bootKeeper (h : s.ResetOf t) (b : BootCheck) : s.ResetOf (t.bootKeeper b) where
  pair := (State.same_of_but (p := .pair) (by simp)).trans h.pair
  prog := (State.same_of_but (p := .prog) (by simp)).trans h.prog
  run := (State.same_of_but (p := .run) (by simp)).trans h.run
  serve := (State.same_of_but (p := .serve) (by simp)).trans h.serve
  regions := (congrArg TierPart.regions (State.same_of_but (s := t) (t := t.bootKeeper b) (p := .tier) (by simp)) :).trans h.regions
  numVfs := (t.bootKeeper_keeps b).1.trans h.numVfs
  sessions := (t.bootKeeper_keeps b).2.trans h.sessions
  map := (congrArg ArrPart.map (State.same_of_but (s := t) (t := t.bootKeeper b) (p := .arr) (by simp)) :).trans h.map
  tgt := (State.same_of_but (p := .tgt) (by simp)).trans h.tgt
  eng := (State.same_of_but (p := .eng) (by simp)).trans h.eng
  mem a := (congrArg (Mem.read · a) (t.mem_bootKeeper b) :).trans (h.mem a)

theorem State.ResetOf.releaseReset (h : s.ResetOf t) : s.ResetOf t.releaseReset where
  pair := h.pair
  prog := h.prog
  run := h.run
  serve := by
    have hserve : t.releaseReset.serve = { t.serve with samp := [] } := rfl
    rw [hserve, h.serve]
  regions := h.regions
  numVfs := h.numVfs
  sessions := h.sessions
  map := h.map
  tgt := rfl
  eng := rfl
  mem a := by
    refine (t.mem_clearEngines a).trans ?_
    rw [h.mem a]
    split <;> rfl

theorem State.ResetOf.setPwr (h : s.ResetOf t) (p : PwrPart) : s.ResetOf (t.setPwr p) := h.of_frame (by simp) rfl

theorem State.resetOf_warmReset (s : State) (b : BootCheck) : s.ResetOf (s.warmReset b) := by
  have hboot := s.resetOf_cleared.bootKeeper b
  unfold State.warmReset
  generalize s.clearEngines.clearKeeper.clearLinks.bootKeeper b = u at hboot
  have hready : s.ResetOf (let v := u.setPwr { u.pwr with start := .strapped, bistDone := true }; if v.keeper.up then v.releaseReset else v) := by
    simp only []
    split
    · exact (hboot.setPwr _).releaseReset
    · exact hboot.setPwr _
  simp only []
  split
  · exact hready
  · exact hready
  · exact hready
  · exact hboot

theorem State.ResetOf.sampleStraps (h : s.ResetOf t) (mv : List Nat) : s.ResetOf (t.sampleStraps mv) := by
  refine h.of_frame (by simp) ?_
  unfold State.sampleStraps
  simp only []
  split
  · rfl
  · exact State.numVfs_healthEvent _ _ _ _ _ _

/-- A host reset ends in the state the shared part leaves, with the straps sampled again. -/
theorem hostReset_resets (mv : List Nat) (b : BootCheck) (hlit : s.pwr.hubLit = true) :
    ∃ t, exec (.hostReset mv b) s = .next t ∧ s.clearConfig.ResetOf t ∧ t.sec.counter = s.sec.counter := by
  have hexec : exec (.hostReset mv b) s = execHostReset mv b s := rfl
  simp only [execHostReset, hlit, Bool.not_true, Bool.false_eq_true, if_false] at hexec
  have hreset := s.clearConfig.resetOf_warmReset b
  have hcounter : (s.clearConfig.warmReset b).sec.counter = s.sec.counter := State.counter_warmReset _ _
  generalize s.clearConfig.warmReset b = u at hexec hreset hcounter
  have hstraps : (u.sampleStraps mv).sec.counter = s.sec.counter :=
    (congrArg SecPart.counter (State.same_of_but (s := u) (t := u.sampleStraps mv) (p := .sec) (by simp)) :).trans hcounter
  refine ⟨_, hexec, ?_⟩
  split
  · exact ⟨hreset.sampleStraps mv, hstraps⟩
  · exact ⟨(hreset.sampleStraps mv).of_frame (by simp) rfl, hstraps⟩
  · exact ⟨hreset, hcounter⟩

/-- A reset keeps the straps. -/
theorem State.straps_warmReset (s : State) (b : BootCheck) : (s.warmReset b).moduleId = s.moduleId ∧ (s.warmReset b).isLead = s.isLead := by
  have hpwr : (s.clearEngines.clearKeeper.clearLinks.bootKeeper b).pwr = s.pwr := State.pwr_bootKeeper _ _
  have hpos := congrArg PwrPart.position hpwr
  have hlead := congrArg PwrPart.lead hpwr
  unfold State.warmReset
  generalize s.clearEngines.clearKeeper.clearLinks.bootKeeper b = u at hpos hlead
  have hready : (let v := u.setPwr { u.pwr with start := .strapped, bistDone := true }; if v.keeper.up then v.releaseReset else v).moduleId = s.moduleId ∧
      (let v := u.setPwr { u.pwr with start := .strapped, bistDone := true }; if v.keeper.up then v.releaseReset else v).isLead = s.isLead := by
    simp only []
    split
    · exact ⟨hpos, hlead⟩
    · exact ⟨hpos, hlead⟩
  simp only []
  split
  · exact hready
  · exact hready
  · exact hready
  · exact ⟨hpos, hlead⟩

theorem pwrHotreset_resets (b : BootCheck) (hlit : s.pwr.hubLit = true) : ∃ t, exec (.pwrHotreset 0 0x4C4B4854 b) s = .next t ∧ s.ResetOf t ∧
    t.sec.counter = s.sec.counter ∧ t.moduleId = s.moduleId ∧ t.isLead = s.isLead := by
  have hexec : exec (.pwrHotreset 0 0x4C4B4854 b) s = _ := congrArg Host.Outcome.next (if_pos (by rw [hlit]; rfl))
  refine ⟨_, hexec, ?_⟩
  have hreset := s.resetOf_warmReset b
  have hcounter := s.counter_warmReset b
  have hstraps := s.straps_warmReset b
  simp only []
  generalize s.warmReset b = u at hreset hcounter hstraps
  split
  · generalize b2n (List.any s.fnp.fns (fun e => e.2.resetting)) = c
    have hpwr := u.pwr_healthEvent 0x12A 0xFF 0 0 c
    refine ⟨hreset.of_frame (by simp) (State.numVfs_healthEvent _ _ _ _ _ _), (congrArg SecPart.counter (State.sec_healthEvent _ _ _ _ _ _) :).trans hcounter, ?_⟩
    rw [State.moduleId, State.isLead, hpwr]
    exact hstraps
  · exact ⟨hreset, hcounter, hstraps⟩

/-! A tile's reset -/

/-- What a tile reset keeps of an array. -/
def ArraySt.remains (a : ArraySt) : ArraySt := { retiring := a.retiring, retired := a.retired, mismatches := a.mismatches, kept := a.kept }

theorem State.keptArray (s : State) (x : Nat) : s.arr.kept.arrays.get {} x = (s.arr.arrays.get {} x).remains :=
  Tab.get_map s.arr.arrays {} ArraySt.remains x

theorem Tab.get_del_same {α : Type} (t : Tab α) (d : α) (k : Nat) : (t.del k).get d k = d := by
  rw [Tab.get_eq, Tab.find?_del_same]
  rfl

theorem Tab.get_del_other {α : Type} (t : Tab α) (d : α) {k j : Nat} (h : j ≠ k) : (t.del k).get d j = t.get d j := by
  rw [Tab.get_eq, Tab.find?_del_other _ h, ← Tab.get_eq]

/-- The arrays of a tile after its reset, in a table of arrays whose tile has been replaced. -/
theorem get_resetArrays (arrays kept : Tab ArraySt) (k p : Nat) (hp : p < 84) (hkept : ∀ x, kept.get {} x = (arrays.get {} x).remains) :
    Tab.get (arrays.map (fun e => if k * 84 ≤ e.1 && e.1 < k * 84 + 84 then (e.1, (kept.get {} e.1)) else e)) {} (k * 84 + p) =
      (arrays.get {} (k * 84 + p)).remains := by
  have hmap : arrays.map (fun e => if k * 84 ≤ e.1 && e.1 < k * 84 + 84 then (e.1, (kept.get {} e.1)) else e) =
      arrays.map (fun e => (e.1, if k * 84 ≤ e.1 && e.1 < k * 84 + 84 then kept.get {} e.1 else e.2)) := by
    refine List.map_congr_left fun e _ => ?_
    split <;> rfl
  rw [hmap, Tab.get_eq, Tab.find?_map arrays (fun x v => if k * 84 ≤ x && x < k * 84 + 84 then kept.get {} x else v), ← hkept]
  cases hfind : arrays.find? (k * 84 + p) with
  | none =>
    rw [hkept, Tab.get_eq, hfind]
    rfl
  | some v =>
    rw [Option.map_some, if_pos (by simp [hp]), Option.getD_some]

theorem tileReset_clears (k : TileIx) (hrel : s.released = true) (hup : s.keeper.up = true) (hidle : s.tileBusy k = false) :
    ∃ t, exec (.tileReset k) s = .next t ∧
    t.target k = {} ∧ (∀ j, j ≠ k.val → t.target j = s.target j) ∧ t.custSt k = {} ∧ t.arr.map = s.arr.map ∧
    (∀ p < 84, (t.array k p).tiles = [] ∧ (t.array k p).leases = [] ∧ (t.array k p).retired = (s.array k p).retired) ∧
    ∀ a, Mem.read t.mem a = if spadBase k ≤ a ∧ a < spadBase k + 0x10000000 then 0 else Mem.read s.mem a := by
  have hexec : exec (.tileReset k) s = _ := congrArg Host.Outcome.next (if_pos (by rw [hrel, hup, hidle]; rfl))
  refine ⟨_, hexec, Tab.get_del_same _ _ _, fun j hj => Tab.get_del_other _ _ hj, Tab.get_del_same _ _ _, rfl, fun p hp => ?_,
    Mem.read_without _ _ _⟩
  have harray := get_resetArrays s.arr.arrays s.arr.kept.arrays k p hp s.keptArray
  exact ⟨(congrArg ArraySt.tiles harray :), (congrArg ArraySt.leases harray :), (congrArg ArraySt.retired harray :)⟩

end
end Sys2Proof.Machine
end

section
namespace Sys2Proof.Machine
open Sys2Proof
section
variable {s t u : State} {i j n : Nat}

/-! ### A function fenced -/

/-- A program stopped by a fault. -/
def Prog.stopped (p : Prog) : Prog := { p with state := .faulted, heldQs := [] }

theorem State.progAt_faultStop (s : State) (h j : Nat) :
    (s.faultStop h).progAt j = if j = h then (s.progAt h).map Prog.stopped else s.progAt j := by
  have hdrop : ∀ u : State, (u.dropWork h).prog = u.prog := fun u => State.same_of_but (p := .prog) (by simp)
  have hrun : ∀ (u : State) r, (u.setRun r).prog = u.prog := fun _ _ => rfl
  unfold State.faultStop State.progAt
  split
  next hnone =>
    rw [hnone, Option.map_none]
    split
    next hj => rw [hj, hnone]
    next => rfl
  next p hp =>
    simp only []
    have hprogs : (s.setProg { s.prog with progs := s.prog.progs.set h { p with state := .faulted, heldQs := [] } }).prog.progs.find? j =
        if j = h then (s.prog.progs.find? h).map Prog.stopped else s.prog.progs.find? j := by
      split
      next hj =>
        rw [hj, hp]
        exact Tab.find?_set_same _ _ _
      next hj => exact Tab.find?_set_other _ _ hj
    split
    · split
      · rw [hrun, hdrop]
        exact hprogs
      · rw [hrun, hdrop]
        exact hprogs
    · rw [hdrop]
      exact hprogs

theorem State.stepRuns_faultStop (s : State) (h j : Nat) : (s.faultStop h).stepRuns j = s.stepRuns j := by
  have hserve : (s.faultStop h).serve = s.serve := State.same_of_but (p := .serve) (by simp)
  rw [State.stepRuns, hserve, State.stepRuns]

/-- A program of a fenced function stops, unless its serving step runs. -/
def State.fenceProg (s : State) (h : Nat) : State := if s.stepRuns h then s else s.faultStop h

theorem State.stepRuns_fenceProg (s : State) (h j : Nat) : (s.fenceProg h).stepRuns j = s.stepRuns j := by
  unfold State.fenceProg
  split
  · rfl
  · exact State.stepRuns_faultStop _ _ _

theorem State.progAt_fenceProg (s : State) (h j : Nat) :
    (s.fenceProg h).progAt j = if j = h ∧ s.stepRuns j = false then (s.progAt j).map Prog.stopped else s.progAt j := by
  unfold State.fenceProg
  by_cases hj : j = h
  · subst hj
    cases hr : s.stepRuns j
    · rw [if_neg Bool.false_ne_true, State.progAt_faultStop, if_pos rfl, if_pos ⟨rfl, rfl⟩]
    · rw [if_pos rfl, if_neg (by simp)]
  · simp only [hj, false_and, if_false]
    split
    · rfl
    · rw [State.progAt_faultStop, if_neg hj]

theorem State.progAt_fenceProgs (l : List Nat) (j : Nat) : ∀ s : State, (l.foldl State.fenceProg s).progAt j =
    if j ∈ l ∧ s.stepRuns j = false then (s.progAt j).map Prog.stopped else s.progAt j := by
  induction l with
  | nil => exact fun s => (if_neg (fun h => nomatch h.1)).symm
  | cons x l ih =>
    intro s
    rw [List.foldl_cons, ih, State.stepRuns_fenceProg, State.progAt_fenceProg]
    by_cases hr : s.stepRuns j = false
    · by_cases hx : j = x
      · subst hx
        simp only [hr, and_true, if_true, List.mem_cons, true_or, Option.map_map]
        have hidem : Prog.stopped ∘ Prog.stopped = Prog.stopped := rfl
        rw [hidem, ite_self]
      · simp [hr, hx]
    · simp [hr]

/-- What the hub does at once to a function it fences. -/
def State.fenced (s : State) (f : Fn) : State :=
  let s := s.setFnSt f { resetting := true }
  (s.setMbox f { s.mbox f with latched := none, dbpend := false }).maskFn f.val

theorem State.fence_eq (s : State) (f : Fn) : s.fence f =
    if f.val = 0 || !s.fnExists f || (s.fnSt f).resetting then s else (s.handlesOf f).foldl State.fenceProg (s.fenced f) := rfl

/-- Stopping programs changes no other part than their own, the engines' and the run's. -/
theorem State.onlyChanges_fenceProgs (l : List Nat) (s : State) : s.onlyChanges (l.foldl State.fenceProg s) [.arr, .tgt, .eng, .prog, .run] := by
  induction l generalizing s with
  | nil => exact State.onlyChanges_refl _ _
  | cons x l ih =>
    refine State.onlyChanges_trans ?_ (ih _)
    unfold State.fenceProg
    split <;> simp

/-- A request of a function that waits is masked. -/
def ArbReq.maskFor (f : Nat) (r : ArbReq) : ArbReq := if r.fn == f && r.waiting then { r with waiting := false, masked := true, lost := 0 } else r

/-- An arbiter whose waiting requests of a function are masked. -/
def Arb.maskFor (f : Nat) (a : Arb) : Arb := { a with reqs := a.reqs.map (fun e => (e.1, e.2.maskFor f)) }

theorem State.req_maskFn (s : State) (f n i : Nat) : ((s.maskFn f).arbAt n).req i = (((s.arbAt n).req i)).maskFor f := by
  have harb : (s.maskFn f).arbAt n = (s.arbAt n).maskFor f := Tab.get_map s.arb {} (Arb.maskFor f) n
  rw [harb]
  have hzero : ({} : ArbReq).maskFor f = {} := by
    rw [ArbReq.maskFor, if_neg]
    simp
  have hget := Tab.get_map (s.arbAt n).reqs {} (ArbReq.maskFor f) i
  rw [hzero] at hget
  exact hget

theorem functionLevelReset_fences (f : Fn) (hlit : s.pwr.hubLit = true) (h0 : f ≠ 0) (hex : s.fnExists f = true) (hres : (s.fnSt f).resetting = false) :
    ∃ t, exec (.functionLevelReset f) s = .next t ∧ t.fnSt f = { resetting := true } ∧ (∀ g, g ≠ f.val → t.fnSt g = s.fnSt g) ∧
      (t.mbox f).latched = none ∧ t.mem = s.mem ∧
      (∀ h p, s.progAt h = some p → p.fn = f →
        (s.stepRuns h = false → t.progAt h = some { p with state := .faulted, heldQs := [] }) ∧
        (s.stepRuns h = true → t.progAt h = some p)) ∧
      ∀ n i, ((s.arbAt n).req i).fn = f.val → ((s.arbAt n).req i).waiting = true →
        ((t.arbAt n).req i).waiting = false ∧ ((t.arbAt n).req i).masked = true ∧ ((t.arbAt n).req i).lost = 0 := by
  have hne : f.val ≠ 0 := fun h => h0 (Fin.ext h)
  have hexec : exec (.functionLevelReset f) s = .next ((s.handlesOf f).foldl State.fenceProg (s.fenced f)) := by
    refine congrArg Host.Outcome.next ((if_pos hlit).trans ?_)
    rw [State.fence_eq, if_neg]
    simp [hne, hex, hres]
  have honly := State.onlyChanges_fenceProgs (s.handlesOf f) (s.fenced f)
  have hprog := fun h => State.progAt_fenceProgs (s.handlesOf f) h (s.fenced f)
  refine ⟨_, hexec, ?_⟩
  generalize (s.handlesOf f).foldl State.fenceProg (s.fenced f) = t at honly hprog
  have hfnp : t.fnp = (s.fenced f).fnp := State.same_of_but (p := .fnp) (State.onlyChanges_mono honly (by decide))
  have hkeeper : t.keeper = (s.fenced f).keeper := State.same_of_but (p := .keeper) (State.onlyChanges_mono honly (by decide))
  have hmem : t.mem = (s.fenced f).mem := State.same_of_but (p := .mem) (State.onlyChanges_mono honly (by decide))
  have harb : t.arb = (s.fenced f).arb := State.same_of_but (p := .arb) (State.onlyChanges_mono honly (by decide))
  refine ⟨?_, fun g hg => ?_, ?_, hmem, fun h p hp hfn => ?_, fun n i hfn hwait => ?_⟩
  · rw [State.fnSt, hfnp]
    exact Tab.get_set_same _ _ _ _
  · rw [State.fnSt, hfnp]
    exact Tab.get_set_other _ _ _ hg
  · rw [State.mbox, hkeeper]
    exact (congrArg Mailbox.latched (Tab.get_set_same s.keeper.mbox {} { s.mbox f with latched := none, dbpend := false } f.val) :)
  · have hin : h ∈ s.handlesOf f := List.mem_map.2 ⟨(h, p), List.mem_filter.2 ⟨Tab.mem_of_find? hp, beq_iff_eq.2 hfn⟩, rfl⟩
    have hsame : (s.fenced f).progAt h = some p := hp
    have hruns : (s.fenced f).stepRuns h = s.stepRuns h := rfl
    rw [hprog h, hsame, hruns]
    refine ⟨fun hr => ?_, fun hr => ?_⟩
    · rw [if_pos ⟨hin, hr⟩]
      rfl
    · rw [if_neg (fun hc => by rw [hr] at hc; exact Bool.noConfusion hc.2)]
  · have hreq : (t.arbAt n).req i = ((s.arbAt n).req i).maskFor f := by
      rw [State.arbAt, harb]
      exact State.req_maskFn _ _ _ _
    rw [hreq, ArbReq.maskFor, if_pos (by simp [hfn, hwait])]
    exact ⟨rfl, rfl, rfl⟩

theorem State.fence_keeps (s : State) (f : Fn) : (s.fence f).fnSt 0 = s.fnSt 0 ∧ (s.fence f).mem = s.mem ∧ (s.fence f).fnp.numVfs = s.fnp.numVfs ∧
    ∀ g : Nat, (g = f.val ∧ f ≠ 0 ∧ s.fnExists f = true) ∨ (s.fnSt g).resetting = true → ((s.fence f).fnSt g).resetting = true := by
  rw [State.fence_eq]
  split
  next hc =>
    refine ⟨rfl, rfl, rfl, fun g hg => hg.elim (fun ⟨hgf, h0, hex⟩ => ?_) id⟩
    subst hgf
    have hne : f.val ≠ 0 := fun h => h0 (Fin.ext h)
    simpa [hne, hex] using hc
  next hc =>
    have hne : f.val ≠ 0 := by
      rintro h
      simp [h] at hc
    have honly := State.onlyChanges_fenceProgs (s.handlesOf f) (s.fenced f)
    generalize (s.handlesOf f).foldl State.fenceProg (s.fenced f) = t at honly
    have hfnp : t.fnp = (s.fenced f).fnp := State.same_of_but (p := .fnp) (State.onlyChanges_mono honly (by decide))
    have hmem : t.mem = (s.fenced f).mem := State.same_of_but (p := .mem) (State.onlyChanges_mono honly (by decide))
    rw [State.fnSt, hfnp]
    refine ⟨Tab.get_set_other _ _ _ (by omega), hmem, rfl, fun g hg => ?_⟩
    rw [State.fnSt, hfnp]
    by_cases hgf : g = f.val
    · rw [hgf]
      exact (congrArg FnSt.resetting (Tab.get_set_same s.fnp.fns {} { resetting := true } f.val) :)
    · refine (congrArg FnSt.resetting (Tab.get_set_other s.fnp.fns {} { resetting := true } hgf) :).trans ?_
      exact hg.resolve_left (fun h => hgf h.1)

theorem State.fences_keep (l : List Fn) : ∀ s : State, (l.foldl (fun s f => s.fence f) s).fnSt 0 = s.fnSt 0 ∧
    (l.foldl (fun s f => s.fence f) s).mem = s.mem ∧
    ∀ g : Fn, g ≠ 0 → s.fnExists g = true → g ∈ l ∨ (s.fnSt g).resetting = true → ((l.foldl (fun s f => s.fence f) s).fnSt g).resetting = true := by
  induction l with
  | nil => exact fun s => ⟨rfl, rfl, fun g _ _ h => h.resolve_left List.not_mem_nil⟩
  | cons f l ih =>
    intro s
    obtain ⟨hzero, hmem, hvfs, hreset⟩ := s.fence_keeps f
    obtain ⟨hzero', hmem', hreset'⟩ := ih (s.fence f)
    refine ⟨hzero'.trans hzero, hmem'.trans hmem, fun g hg hex h => ?_⟩
    have hex' : (s.fence f).fnExists g = true := by
      rw [State.fnExists, hvfs]
      exact hex
    refine hreset' g hg hex' ?_
    by_cases hgf : g = f
    · subst hgf
      exact .inr (hreset g (.inl ⟨rfl, hg, hex⟩))
    · exact h.imp (fun h => (List.mem_cons.1 h).resolve_left hgf) (fun h => hreset g (.inr h))

end
end Sys2Proof.Machine
end

section
namespace Sys2Proof.Machine
open Sys2Proof
section
variable {s t u : State} {i j n : Nat}

/-! ### A function's resources cleared -/

/-- A function in D0 with no message withheld. -/
def State.awake (s : State) (f : Nat) : Prop := (s.fnSt f).d3hot = false ∧ (s.fnSt f).withheld = []

/-- A message of a function in D0 is not withheld. -/
theorem State.awake_raise (f v : Nat) (h : s.awake f) : (s.raise f v).awake f := by
  obtain ⟨hd, hw⟩ := h
  unfold State.raise
  simp only [hd, Bool.false_eq_true, if_false]
  split
  · exact ⟨hd, hw⟩
  · split
    · rw [State.awake, State.fnSt_setFnSt_same]
      exact ⟨rfl, hw⟩
    · exact ⟨hd, hw⟩

theorem State.awake_raises (f : Nat) (l : List Nat) : ∀ s : State, s.awake f → (l.foldl (fun s v => s.raise f v) s).awake f := by
  induction l with
  | nil => exact fun _ h => h
  | cons v l ih => exact fun s h => ih _ (State.awake_raise f v h)

theorem State.stepRuns_iff (s : State) (h : Nat) : s.stepRuns h = true ↔ ∃ e ∈ s.serve.groups, e.2.prog = h ∧ e.2.plan.isSome = true := by
  rw [State.stepRuns, List.any_eq_true]
  simp only [Bool.and_eq_true, beq_iff_eq]

/-- Cutting steps starts none. -/
theorem State.stepRuns_cutSteps (s : State) (w : GroupSt → Bool) (gone : List Nat) (h : Nat) (hrun : (s.cutSteps w gone).stepRuns h = true) :
    s.stepRuns h = true := by
  have hkeys : ∀ u : State, ((List.range 4).foldl State.keysSettle u).serve = u.serve := fun u => State.same_of_but (p := .serve) (by simp)
  rw [State.stepRuns_iff] at hrun ⊢
  obtain ⟨e, he, hprog, hplan⟩ := hrun
  rw [State.cutSteps, hkeys] at he
  obtain ⟨e₀, he₀, rfl⟩ := List.mem_map.1 he
  refine ⟨e₀, he₀, hprog, ?_⟩
  revert hplan
  simp only []
  split
  · exact fun h => absurd h (by decide)
  · rw [Option.isSome_map]
    exact id

/-- Retiring a program whose step does not run starts no step. -/
theorem State.stepRuns_retireProg (s : State) (h j : Nat) (hr : s.stepRuns h = false) (hrun : (s.retireProg h).stepRuns j = true) :
    s.stepRuns j = true := by
  have hshrunk : ∀ (u : State) f n, (u.shrinkWindow f n).serve = u.serve := fun u f n => State.same_of_but (p := .serve) (by simp)
  have hdrop : (s.dropWork h).serve = s.serve := State.same_of_but (p := .serve) (by simp)
  unfold State.retireProg at hrun
  split at hrun
  · exact hrun
  simp only [State.stepRuns_iff, State.setServe_serve, State.setProg_serve, hshrunk, State.setTier_serve] at hrun
  obtain ⟨e, he, hprog, hplan⟩ := hrun
  obtain ⟨e₀, he₀, rfl⟩ := List.mem_map.1 he
  have hcut : ∀ k, e₀.2.prog = k → e₀.2.plan.isSome = true → s.stepRuns k = true := fun k hk hplan => by
    have h := State.stepRuns_cutSteps (s.dropWork h) (fun x => x.prog == h) [] k ((State.stepRuns_iff _ k).2 ⟨e₀, he₀, hk, hplan⟩)
    rwa [State.stepRuns, hdrop] at h
  revert hprog hplan
  simp only []
  split
  next hh =>
    intro _ hplan
    rw [hcut h hh hplan] at hr
    cases hr
  next => exact fun hprog hplan => hcut j hprog hplan

/-- Where no step runs with a program, its reset retires it. -/
theorem State.resetProg_of_idle (s : State) (h : Nat) (hr : s.stepRuns h = false) : s.resetProg h = s.retireProg h := by
  unfold State.resetProg
  split
  next g x hfind =>
    have hin := List.mem_of_find?_eq_some hfind
    have hp := List.find?_some hfind
    rw [Bool.and_eq_true, beq_iff_eq] at hp
    rw [(State.stepRuns_iff s h).2 ⟨_, hin, hp.1, hp.2⟩] at hr
    cases hr
  next => rfl

theorem State.resetProgs_of_idle (l : List Nat) : ∀ s : State, (∀ h ∈ l, s.stepRuns h = false) →
    l.foldl (fun s h => s.resetProg h) s = l.foldl (fun s h => s.retireProg h) s := by
  induction l with
  | nil => exact fun _ _ => rfl
  | cons x l ih =>
    intro s hidle
    have hx := hidle x List.mem_cons_self
    rw [List.foldl_cons, List.foldl_cons, State.resetProg_of_idle _ _ hx]
    refine ih _ fun h hh => ?_
    rw [← Bool.not_eq_true]
    intro hrun
    have hno := hidle h (List.mem_cons_of_mem _ hh)
    rw [State.stepRuns_retireProg _ _ _ hx hrun] at hno
    cases hno

/-- What a command sets of a tile's key registers: one staged, then all in force. -/
def KeySt.commits (j : Nat) (v : DWord) (k k' : KeySt) : Prop := k'.staged = k.staged.set j v ∧ k'.active = k.staged.set j v

/-- One key of a function set and committed at a tile. -/
def State.setKey (s : State) (f j : Nat) (v : DWord) (t : Nat) : State :=
  let k := s.keySt t f
  (s.setKeySt t f { k with staged := k.staged.set j v }).commitStaged t f

theorem State.keySt_commitStaged_other (s : State) {t g f : Nat} (hg : g ≠ t) :
    ((s.commitStaged t f).keySt g f).staged = (s.keySt g f).staged ∧ ((s.commitStaged t f).keySt g f).active = (s.keySt g f).active := by
  have hne : g * 17 + f ≠ t * 17 + f := by omega
  have h := State.active_keysSettle (s.setKeySt t f { s.keySt t f with active := (s.keySt t f).staged, pending := true, units := List.range 9 }) t g f
  rw [State.keySt_setKeySt_other _ _ hne] at h
  exact ⟨h.2, h.1⟩

theorem State.commits_setKey (s : State) (f j : Nat) (v : DWord) (t : Nat) (hf : f < 17) :
    (s.keySt t f).commits j v ((s.setKey f j v t).keySt t f) := by
  obtain ⟨hactive, hstaged, -, -⟩ := State.commitStaged_commits (s.setKeySt t f { s.keySt t f with staged := (s.keySt t f).staged.set j v }) t hf
  rw [State.keySt_setKeySt_same] at hactive hstaged
  exact ⟨hstaged, hactive⟩

theorem State.keySt_setKey_other (s : State) (f j : Nat) (v : DWord) {t g : Nat} (hg : g ≠ t) :
    ((s.setKey f j v t).keySt g f).staged = (s.keySt g f).staged ∧ ((s.setKey f j v t).keySt g f).active = (s.keySt g f).active := by
  have hne : g * 17 + f ≠ t * 17 + f := by omega
  have h := State.keySt_commitStaged_other (s.setKeySt t f { s.keySt t f with staged := (s.keySt t f).staged.set j v }) (f := f) hg
  rw [State.keySt_setKeySt_other _ _ hne] at h
  exact h

/-- A key set at a list of tiles is in force at each of them. -/
theorem State.commits_setKeys (f j : Nat) (v : DWord) (hf : f < 17) (l : List Nat) (hl : l.Nodup) {g : Nat} : ∀ s : State,
    (g ∈ l → (s.keySt g f).commits j v ((l.foldl (fun s t => s.setKey f j v t) s).keySt g f)) ∧
    (g ∉ l → ((l.foldl (fun s t => s.setKey f j v t) s).keySt g f).staged = (s.keySt g f).staged ∧
      ((l.foldl (fun s t => s.setKey f j v t) s).keySt g f).active = (s.keySt g f).active) := by
  induction l with
  | nil => exact fun s => ⟨nofun, fun _ => ⟨rfl, rfl⟩⟩
  | cons x l ih =>
    intro s
    obtain ⟨hx, hl⟩ := List.nodup_cons.1 hl
    obtain ⟨hin, hout⟩ := ih hl (s.setKey f j v x)
    rw [List.foldl_cons]
    refine ⟨fun hg => ?_, fun hg => ?_⟩
    · by_cases hgx : g = x
      · subst hgx
        obtain ⟨hstaged, hactive⟩ := hout hx
        obtain ⟨hstaged', hactive'⟩ := s.commits_setKey f j v g hf
        exact ⟨hstaged.trans hstaged', hactive.trans hactive'⟩
      · have h := hin ((List.mem_cons.1 hg).resolve_left hgx)
        rw [KeySt.commits, (s.keySt_setKey_other f j v hgx).1] at h
        exact h
    · rw [List.mem_cons, not_or] at hg
      obtain ⟨hstaged, hactive⟩ := hout hg.2
      obtain ⟨hstaged', hactive'⟩ := s.keySt_setKey_other f j v hg.1
      exact ⟨hstaged.trans hstaged', hactive.trans hactive'⟩

theorem State.commits_commitKey (s : State) (f j : Nat) (v : DWord) (hf : f < 17) {g : Nat} (hg : g < 4) :
    (s.keySt g f).commits j v ((s.commitKey f j v).keySt g f) :=
  (State.commits_setKeys f j v hf (List.range 4) List.nodup_range s).1 (List.mem_range.2 hg)

/-- Four entries set to 0 read 0. -/
theorem getD_cleared (l : List DWord) {k : Nat} (hk : k < 4) : ((((l.set 0 0).set 1 0).set 2 0).set 3 0).getD k 0 = 0 := by
  have hset : ∀ (l : List DWord) (j : Nat), l.getD k 0 = 0 ∨ j = k → (l.set j 0).getD k 0 = 0 := fun l j h => by
    rw [List.getD_eq_getElem?_getD, List.getElem?_set]
    split
    · split <;> rfl
    next hj => exact (List.getD_eq_getElem?_getD).symm.trans (h.resolve_right hj)
  rcases (by omega : k = 0 ∨ k = 1 ∨ k = 2 ∨ k = 3) with rfl | rfl | rfl | rfl
  · exact hset _ _ (.inl (hset _ _ (.inl (hset _ _ (.inl (hset _ _ (.inr rfl)))))))
  · exact hset _ _ (.inl (hset _ _ (.inl (hset _ _ (.inr rfl)))))
  · exact hset _ _ (.inl (hset _ _ (.inr rfl)))
  · exact hset _ _ (.inr rfl)

/-- The keys of a function cleared at every tile. -/
theorem State.keys_cleared (s : State) (f : Nat) (hf : f < 17) {g k : Nat} (hg : g < 4) (hk : k < 4) :
    ((((List.range 4).foldl (fun s j => s.commitKey f j 0) s).keySt g f).active.getD k 0) = 0 := by
  obtain ⟨hs0, -⟩ := s.commits_commitKey f 0 0 hf hg
  obtain ⟨hs1, -⟩ := (s.commitKey f 0 0).commits_commitKey f 1 0 hf hg
  obtain ⟨hs2, -⟩ := ((s.commitKey f 0 0).commitKey f 1 0).commits_commitKey f 2 0 hf hg
  obtain ⟨-, ha3⟩ := (((s.commitKey f 0 0).commitKey f 1 0).commitKey f 2 0).commits_commitKey f 3 0 hf hg
  have hfold : (List.range 4).foldl (fun s j => s.commitKey f j 0) s =
      (((s.commitKey f 0 0).commitKey f 1 0).commitKey f 2 0).commitKey f 3 0 := by
    have hrange : List.range 4 = [0, 1, 2, 3] := rfl
    rw [hrange, List.foldl_cons, List.foldl_cons, List.foldl_cons, List.foldl_cons, List.foldl_nil]
  rw [hfold, ha3, hs2, hs1, hs0]
  exact getD_cleared _ hk

theorem State.acct_closeAccount (s : State) (f : Nat) :
    (s.closeAccount f).fnp.acct.get {} f = { closes := satAdd64 (s.fnp.acct.get {} f).closes 1 } :=
  Tab.get_set_same _ _ _ _

theorem State.closed_closeAccount (s : State) (f : Nat) : ((s.closeAccount f).fnp.closed.find? f).isSome = true := by
  unfold State.closeAccount
  simp only [State.setFnp_fnp, Tab.find?_set_same, Option.isSome_some]

/-- Events 7 and 8 of a function's reset, where no step runs with a program of it. -/
theorem State.clearFunction_clears (s : State) (f : Fn) (hidle : ∀ h ∈ s.handlesOf f, s.stepRuns h = false) :
    (s.clearFunction f).mbox f = {} ∧ (∀ i r, (s.clearFunction f).tier.regions.find? i = some r → r.fn ≠ f) ∧
    (∀ o ∈ (s.clearFunction f).keeper.ops, o.fn ≠ f) ∧ (∀ j < 4, ∀ k < 4, ((s.clearFunction f).keySt j f).active.getD k 0 = 0) ∧
    ((s.clearFunction f).fnp.acct.get {} f) = { closes := satAdd64 (s.fnp.acct.get {} f).closes 1 } ∧
    ((s.clearFunction f).fnp.closed.find? f).isSome = true := by
  unfold State.clearFunction
  rw [State.resetProgs_of_idle _ _ hidle]
  extract_lets u kept c u₁ w u₂ p u₃ u₄ k u₅
  have hprogs : u.handlesOf f = [] := by
    rw [State.handlesOf, State.progs_retires, List.map_eq_nil_iff, List.filter_filter, List.filter_eq_nil_iff]
    intro e he hkeep
    rw [Bool.and_eq_true, beq_iff_eq, Bool.not_eq_true'] at hkeep
    have hin : e.1 ∈ s.handlesOf f := List.mem_map.2 ⟨e, List.mem_filter.2 ⟨he, beq_iff_eq.2 hkeep.1⟩, rfl⟩
    rw [List.contains_iff_mem.2 hin] at hkeep
    cases hkeep.2
  have hkept : kept = [] := by
    rw [show kept = (u.handlesOf f).flatMap _ from rfl, hprogs, List.flatMap_nil]
  have htier : u₄.tier = u₁.tier := State.same_of_but (p := .tier) (by simp [u₄, u₃, p, u₂])
  have hfnp : u₄.fnp = s.fnp := State.same_of_but (p := .fnp) (by simp [u₄, u₃, u₂, u₁, u])
  have hkeys : ∀ g < 4, ∀ x < 4, (u₄.keySt g f).active.getD x 0 = 0 := fun g hg x hx => u₃.keys_cleared f f.isLt hg hx
  clear_value u₄
  refine ⟨Tab.get_del_same _ _ _, fun i r hfind => ?_, fun o ho => ?_, hkeys, ?_, u₅.closed_closeAccount f⟩
  · have hin : (i, r) ∈ u₄.tier.regions := Tab.mem_of_find? hfind
    rw [htier] at hin
    have hfilter := (List.mem_filter.1 hin).2
    rw [hkept] at hfilter
    simpa using hfilter
  · have hfilter := (List.mem_filter.1 (show o ∈ k.ops.filter (fun o => o.fn != f) from ho)).2
    simpa using hfilter
  · rw [← hfnp]
    exact u₅.acct_closeAccount f

theorem flrKeeperClear_clears (f : Fn) (hres : (s.fnSt f).resetting = true) (hup : s.keeper.up = true) (hbusy : s.keeper.kbusy = false)
    (hgrant : s.ownsGrant f = false) (hidle : ∀ e ∈ s.prog.progs, e.2.fn = f → s.stepRuns e.1 = false) :
    ∃ t, exec (.flrKeeperClear f) s = .next t ∧ (t.fnSt f).resetting = false ∧ t.mbox f = {} ∧
      (∀ i r, t.tier.regions.find? i = some r → r.fn ≠ f) ∧ (∀ o ∈ t.keeper.ops, o.fn ≠ f) ∧
      (∀ j < 4, ∀ k < 4, (t.keySt j f).active.getD k 0 = 0) ∧
      (t.fnp.acct.get {} f) = { closes := satAdd64 (s.fnp.acct.get {} f).closes 1 } ∧ (t.fnp.closed.find? f).isSome = true := by
  have hexec : exec (.flrKeeperClear f) s = _ := congrArg Host.Outcome.next (if_pos (by rw [hres, hup, hbusy, hgrant]; rfl))
  have hhandles : ∀ h ∈ s.handlesOf f, s.stepRuns h = false := fun h hh => by
    obtain ⟨e, he, rfl⟩ := List.mem_map.1 hh
    rw [List.mem_filter, beq_iff_eq] at he
    exact hidle e he.1 he.2
  have hclear := s.clearFunction_clears f hhandles
  refine ⟨_, hexec, ?_⟩
  generalize s.clearFunction f = u at hclear
  obtain ⟨hmbox, hregions, hops, hkeys, hacct, hclosed⟩ := hclear
  exact ⟨(congrArg FnSt.resetting (State.fnSt_setFnSt_same _ _ _) :), hmbox, hregions, hops, hkeys, hacct, hclosed⟩

/-- Settles O33. -/
theorem resetsClear : Obligations.ResetsClear := by
  unfold Obligations.ResetsClear
  refine ⟨⟨fun mv b s hlit => ?_, fun f v b s => ⟨fun h => ?_, fun hlit => ?_⟩, fun k s hrel hup hidle => tileReset_clears k hrel hup hidle⟩,
    fun f s hlit h0 hex hres => functionLevelReset_fences f hlit h0 hex hres, fun s hlit => ?_, fun f s hgrant => ?_,
    fun f s hres hup hbusy hgrant hidle => flrKeeperClear_clears f hres hup hbusy hgrant hidle, fun f s hlit hex => ⟨?_, ?_⟩⟩
  · obtain ⟨t, hexec, h, hcounter⟩ := hostReset_resets (s := s) mv b hlit
    exact ⟨t, hexec, h.pair, h.prog, h.run, h.serve, h.regions, h.numVfs, h.sessions, hcounter, h.map, h.tgt, h.eng, h.mem⟩
  · refine congrArg Host.Outcome.next (if_neg ?_)
    rw [Bool.and_eq_true, Bool.and_eq_true, decide_eq_true_iff, decide_eq_true_iff]
    rintro ⟨⟨-, hf⟩, hv⟩
    exact h.elim (fun hf' => hf' (Fin.ext hf)) (fun hv' => hv' hv)
  · obtain ⟨t, hexec, h, hcounter, hid, hlead⟩ := pwrHotreset_resets (s := s) b hlit
    exact ⟨t, hexec, h.pair, h.prog, h.run, h.serve, h.numVfs, hid, hlead, hcounter, h.tgt, h.eng, h.mem⟩
  · have hexec : exec .vfEnableClear s = .next ((List.finRange 17).foldl (fun s f => s.fence f) s) := congrArg Host.Outcome.next (if_pos hlit)
    obtain ⟨hzero, hmem, hreset⟩ := State.fences_keep (List.finRange 17) s
    exact ⟨_, hexec, fun f hf hex => hreset f hf hex (.inl (List.mem_finRange f)), hzero, hmem⟩
  · refine congrArg Host.Outcome.next (if_neg ?_)
    rw [hgrant]
    simp
  · have hcond : (!s.pwr.hubLit || !s.fnExists f) = false := by rw [hlit, hex]; rfl
    have hexec : exec (.functionPowerState f true) s = execFunctionPowerState f true s := rfl
    rw [hexec]
    simp only [execFunctionPowerState, hcond, Bool.false_eq_true, if_false, if_true]
  · have hcond : (!s.pwr.hubLit || !s.fnExists f) = false := by rw [hlit, hex]; rfl
    have hexec : exec (.functionPowerState f false) s = execFunctionPowerState f false s := rfl
    simp only [execFunctionPowerState, hcond, Bool.false_eq_true, if_false] at hexec
    have hkeep := State.awake_raises f (s.fnSt f).withheld (s.setFnSt f { s.fnSt f with d3hot := false, withheld := [] })
      (by rw [State.awake, State.fnSt_setFnSt_same]; exact ⟨rfl, rfl⟩)
    exact ⟨_, hexec, hkeep.1, hkeep.2, by simp⟩

end
end Sys2Proof.Machine
end

/-! # The Keeper restarts, turns end, sessions (O34 to O37) -/

section
namespace Sys2Proof.Machine
open Sys2Proof
section
variable {s t u : State} {i j n : Nat}

/-! ### What an event leaves of the mailboxes -/

/-- A mailbox that has taken no other doorbell and has kept KRESTART. -/
def Mailbox.keeps (m m' : Mailbox) : Prop := m'.latched = m.latched ∧ (m.cause.getLsbD 3 = true → m'.cause.getLsbD 3 = true)

theorem Mailbox.keeps_refl (m : Mailbox) : m.keeps m := ⟨rfl, id⟩

theorem Mailbox.keeps_trans {a b c : Mailbox} (h : a.keeps b) (h' : b.keeps c) : a.keeps c := ⟨h'.1.trans h.1, fun hc => h'.2 (h.2 hc)⟩

theorem Mailbox.keeps_cause (m m' : Mailbox) (v : BitVec 6) (hl : m'.latched = m.latched) (hc : m'.cause = m.cause ||| v) : m.keeps m' := by
  refine ⟨hl, fun h => ?_⟩
  rw [hc, BitVec.getLsbD_or, h, Bool.true_or]

/-- Every mailbox keeps its doorbell and KRESTART. -/
def State.boxesKeep (s t : State) : Prop := ∀ f, (s.mbox f).keeps (t.mbox f)

theorem State.boxesKeep_refl (s : State) : s.boxesKeep s := fun f => (s.mbox f).keeps_refl

theorem State.boxesKeep_trans (h : s.boxesKeep t) (h' : t.boxesKeep u) : s.boxesKeep u := fun f => Mailbox.keeps_trans (h f) (h' f)

theorem State.boxesKeep_of_keeper (h : t.keeper = s.keeper) : s.boxesKeep t := fun f => by
  rw [State.mbox, State.mbox, h]
  exact Mailbox.keeps_refl _

theorem State.boxesKeep_setMbox (s : State) (f : Nat) (m : Mailbox) (h : (s.mbox f).keeps m) : s.boxesKeep (s.setMbox f m) := fun g => by
  by_cases hg : g = f
  · subst hg
    have hsame : (s.setMbox g m).mbox g = m := Tab.get_set_same _ _ _ _
    rw [hsame]
    exact h
  · have hother : (s.setMbox f m).mbox g = s.mbox g := Tab.get_set_other _ _ _ hg
    rw [hother]
    exact Mailbox.keeps_refl _

theorem State.boxesKeep_raise (s : State) (f v : Nat) : s.boxesKeep (s.raise f v) := State.boxesKeep_of_keeper (s.keeper_raise f v)

theorem State.boxesKeep_setCause (s : State) (f bit v : Nat) : s.boxesKeep (s.setCause f bit v) := by
  unfold State.setCause
  simp only []
  split
  · exact State.boxesKeep_refl _
  · refine State.boxesKeep_trans (State.boxesKeep_setMbox _ _ _ ?_) (State.boxesKeep_raise _ _ _)
    exact Mailbox.keeps_cause _ _ _ rfl rfl

theorem Mailbox.put_keeps (m : Mailbox) (e : Event) : m.keeps (m.put e) := by
  unfold Mailbox.put
  split
  · split <;> exact ⟨rfl, id⟩
  · exact ⟨rfl, id⟩

theorem State.boxesKeep_deliver (s : State) (f : Nat) (e : Event) : s.boxesKeep (s.deliver f e) := by
  unfold State.deliver
  simp only []
  have hput := State.boxesKeep_setMbox s f _ ((s.mbox f).put_keeps e)
  split
  · exact State.boxesKeep_refl _
  · split
    · split
      · exact State.boxesKeep_trans hput (State.boxesKeep_setCause _ _ _ _)
      · exact hput
    · refine State.boxesKeep_trans (State.boxesKeep_trans hput (State.boxesKeep_setMbox _ _ _ ?_)) (State.boxesKeep_raise _ _ _)
      have hsame : (s.setMbox f ((s.mbox f).put e)).mbox f = (s.mbox f).put e := Tab.get_set_same _ _ _ _
      rw [hsame]
      exact Mailbox.keeps_cause _ _ _ rfl rfl

theorem State.boxesKeep_post (s : State) (f code seq : Nat) (data : List Byte) : s.boxesKeep (s.post f code seq data) := by
  unfold State.post
  simp only []
  split
  · exact fun _ => Mailbox.keeps_refl _
  · exact State.boxesKeep_deliver _ _ _

theorem State.boxesKeep_setKprCause (s : State) (bit : Nat) : s.boxesKeep (s.setKprCause bit) := by
  unfold State.setKprCause
  split
  · exact State.boxesKeep_refl _
  · exact State.boxesKeep_trans (fun _ => Mailbox.keeps_refl _) (State.boxesKeep_raise _ _ _)

theorem State.boxesKeep_healthEvent (s : State) (code tile unit addr count : Nat) : s.boxesKeep (s.healthEvent code tile unit addr count) := by
  have hfog : ∀ (u : State) x y, u.boxesKeep (u.fogNote x y) := fun u x y =>
    State.boxesKeep_of_keeper (State.same_of_but (p := .keeper) (by simp))
  have hlog : ∀ (u : State) e, u.boxesKeep (u.logHealth e) := fun u e => State.boxesKeep_of_keeper (State.same_of_but (p := .keeper) (by simp))
  unfold State.healthEvent
  extract_lets e s₁ s₂ s₃ s₄
  have h₃ : s.boxesKeep s₃ :=
    State.boxesKeep_trans (State.boxesKeep_trans (hlog _ _) (State.boxesKeep_post _ _ _ _ _)) (State.boxesKeep_setKprCause _ _)
  have h₄ : s.boxesKeep s₄ := by
    simp only [s₄]
    split <;> exact h₃
  split
  · exact State.boxesKeep_trans h₄ (hfog _ _ _)
  · exact h₄

theorem State.boxesKeep_foldl {α : Type} (f : State → α → State) (hf : ∀ (s : State) x, s.boxesKeep (f s x)) (l : List α) : ∀ s : State, s.boxesKeep (l.foldl f s) := by
  induction l with
  | nil => exact State.boxesKeep_refl
  | cons x l ih => exact fun s => State.boxesKeep_trans (hf s x) (ih _)

theorem State.boxesKeep_releaseHeld (n f : Nat) : ∀ s : State, s.boxesKeep (State.releaseHeld n f s) := by
  induction n with
  | zero => exact State.boxesKeep_refl
  | succ n ih =>
    intro s
    unfold State.releaseHeld
    simp only []
    split
    · exact State.boxesKeep_refl _
    · split
      · exact State.boxesKeep_refl _
      · refine State.boxesKeep_trans (State.boxesKeep_trans (State.boxesKeep_setMbox _ _ _ ?_) (State.boxesKeep_raise _ _ _)) (ih _)
        exact Mailbox.keeps_cause _ _ _ rfl rfl

theorem State.core_releaseHeld (n f : Nat) : ∀ s : State, (State.releaseHeld n f s).keeper.core = s.keeper.core := by
  induction n with
  | zero => exact fun _ => rfl
  | succ n ih =>
    intro s
    unfold State.releaseHeld
    simp only []
    split
    · rfl
    · split
      · rfl
      · rw [ih, State.keeper_raise]
        rfl

/-! ### O34: the Keeper restarts -/

/-- What the reopening leaves as it was: all but the mailboxes' messages, the Keeper, the fused counter and the health record. -/
theorem State.openLatched_of_none (f : Nat) (h : (s.mbox f).latched = none) : s.openLatched f = s := by
  unfold State.openLatched
  simp only [h]
  split <;> rfl

theorem State.openLatcheds_of_none (l : List Nat) (h : ∀ f, (s.mbox f).latched = none) : l.foldl (fun s f => s.openLatched f) s = s := by
  induction l with
  | nil => rfl
  | cons f l ih =>
    rw [List.foldl_cons, State.openLatched_of_none f (h f)]
    exact ih

theorem State.stopHeld_of_none (h : ∀ e ∈ s.prog.progs, e.2.heldQs = []) : s.stopHeld = s := by
  have hnone : s.prog.progs.filter (fun (e : Nat × Prog) => !e.2.heldQs.isEmpty) = [] := by
    refine List.filter_eq_nil_iff.2 fun e he => ?_
    rw [h e he]
    decide
  unfold State.stopHeld
  rw [hnone]
  rfl

theorem State.core_raiseCounter (s : State) : s.raiseCounter.keeper.core = s.keeper.core := by
  unfold State.raiseCounter
  simp only []
  split
  · split
    · exact State.core_healthEvent _ _ _ _ _ _
    · rfl
  · rfl

theorem State.bootSlot_raiseCounter (s : State) : s.raiseCounter.sec.bootSlot = s.sec.bootSlot := by
  unfold State.raiseCounter
  simp only []
  split
  · split
    · rw [State.sec_healthEvent]
      rfl
    · rfl
  · rfl

theorem State.boxesKeep_raiseCounter (s : State) : s.boxesKeep s.raiseCounter := by
  unfold State.raiseCounter
  simp only []
  split
  · split
    · refine State.boxesKeep_trans ?_ (State.boxesKeep_healthEvent _ _ _ _ _ _)
      exact State.boxesKeep_of_keeper rfl
    · exact State.boxesKeep_of_keeper rfl
  · exact State.boxesKeep_refl _

/-- A mailbox of a restarted Keeper: its held events released, KRESTART raised. -/
def State.restartBox (s : State) (f : Nat) : State := (State.releaseHeld 256 f s).setCause f 3 2

theorem State.boxesKeep_restartBox (s : State) (f : Nat) : s.boxesKeep (s.restartBox f) := by
  unfold State.restartBox
  generalize hu : State.releaseHeld 256 f s = u
  exact State.boxesKeep_trans (hu ▸ State.boxesKeep_releaseHeld 256 f s) (State.boxesKeep_setCause u f 3 2)

theorem State.core_restartBox (s : State) (f : Nat) : (s.restartBox f).keeper.core = s.keeper.core := by
  rw [State.restartBox, State.core_setCause, State.core_releaseHeld]

theorem State.cause_restartBox (s : State) (f : Nat) : ((s.restartBox f).mbox f).cause.getLsbD 3 = true := by
  unfold State.restartBox
  generalize State.releaseHeld 256 f s = u
  exact State.cause_setCause u f 2 (by decide)

theorem State.cause_restartBoxes (l : List Nat) {f : Nat} (hf : f ∈ l) : ∀ s : State,
    ((l.foldl State.restartBox s).mbox f).cause.getLsbD 3 = true := by
  induction l with
  | nil => cases hf
  | cons x l ih =>
    intro s
    rcases List.mem_cons.1 hf with rfl | hf
    · exact (State.boxesKeep_foldl _ State.boxesKeep_restartBox l (s.restartBox f) f).2 (s.cause_restartBox f)
    · exact ih hf _

/-- The release and the slot the Keeper runs recorded, the activation's entry answered. -/
def State.recordRelease (s : State) : State :=
  let v := s.fwSlot s.keeper.slot
  let k := s.keeper
  let s := s.setKeeper { k with fwmaj := v.maj, fwmin := v.min, ops := k.ops.filter (fun o => o.kind != .fwActivate) }
  s.setSec { s.sec with bootSlot := s.keeper.slot }

/-- The reopening up to the latched doorbells. -/
def State.reopenBoxes (s : State) : State := s.recordRelease.functions.foldl State.restartBox s.recordRelease

/-- The events that tell a restart, and the fused counter raised. -/
def State.tellRestart (s : State) (why : Restart) (failed : Bool) (seq bad : Nat) (data : List Byte) : State :=
  let s := if why = .memError then s.setKprCause 3 else s
  let s := if failed then s.healthEvent 0x131 0xFF bad 0 0 else s
  (s.functions.foldl (fun s f => s.post f 9 (if f = 0 then seq else 0) data) s).raiseCounter

theorem State.tellRestart_keeps (s : State) (why : Restart) (failed : Bool) (seq bad : Nat) (data : List Byte) :
    s.onlyChanges (s.tellRestart why failed seq bad data) [.keeper, .fnp, .link, .sec, .health, .outbox] ∧
    (s.tellRestart why failed seq bad data).keeper.core = s.keeper.core ∧ (s.tellRestart why failed seq bad data).sec.bootSlot = s.sec.bootSlot ∧
    s.boxesKeep (s.tellRestart why failed seq bad data) := by
  unfold State.tellRestart
  extract_lets s₁ s₂
  have hcore₁ : s₁.keeper.core = s.keeper.core := by
    unfold s₁
    split
    · exact State.core_setKprCause _ _
    · rfl
  have hcore₂ : s₂.keeper.core = s₁.keeper.core := by
    unfold s₂
    split
    · exact State.core_healthEvent _ _ _ _ _ _
    · rfl
  have hsec : s₂.sec = s.sec := State.same_of_but (p := .sec) (by simp [s₂, s₁])
  have hboxes₁ : s.boxesKeep s₁ := by
    unfold s₁
    split
    · exact State.boxesKeep_setKprCause _ _
    · exact State.boxesKeep_refl _
  have hboxes₂ : s₁.boxesKeep s₂ := by
    unfold s₂
    split
    · exact State.boxesKeep_healthEvent _ _ _ _ _ _
    · exact State.boxesKeep_refl _
  have hposts := State.foldl_keeps (fun u => (u.keeper.core, u.sec)) (f := fun u (f : Nat) => u.post f 9 (if f = 0 then seq else 0) data)
    (fun u f => Prod.ext (u.core_post _ _ _ _) (State.same_of_but (p := .sec) (by simp))) s₂.functions s₂
  have hboxes₃ := State.boxesKeep_foldl (fun u (f : Nat) => u.post f 9 (if f = 0 then seq else 0) data) (fun u f => u.boxesKeep_post _ _ _ _) s₂.functions s₂
  refine ⟨by simp [s₂, s₁], ?_, ?_, ?_⟩
  · rw [State.core_raiseCounter, (Prod.mk.inj hposts).1, hcore₂, hcore₁]
  · rw [State.bootSlot_raiseCounter, (Prod.mk.inj hposts).2, hsec]
  · exact State.boxesKeep_trans (State.boxesKeep_trans (State.boxesKeep_trans hboxes₁ hboxes₂) hboxes₃) (State.boxesKeep_raiseCounter _)

theorem State.onlyChanges_reopenBoxes (s : State) : s.onlyChanges s.reopenBoxes [.keeper, .fnp, .sec, .outbox] := by
  unfold State.reopenBoxes State.restartBox State.recordRelease
  simp

theorem State.boxesKeep_reopenBoxes (s : State) : s.boxesKeep s.reopenBoxes := by
  have hrecord : s.boxesKeep s.recordRelease := fun _ => Mailbox.keeps_refl _
  exact State.boxesKeep_trans hrecord (State.boxesKeep_foldl _ State.boxesKeep_restartBox _ _)

/-- The reopening once no doorbell is latched and no program is held. -/
theorem State.reopen_eq (s : State) (why : Restart) (failed : Bool) (hlatch : ∀ f, (s.mbox f).latched = none)
    (hheld : ∀ e ∈ s.prog.progs, e.2.heldQs = []) : ∃ seq bad data, s.reopen why failed = s.reopenBoxes.tellRestart why failed seq bad data := by
  have hopen : (List.range 17).foldl (fun s f => s.openLatched f) s.reopenBoxes = s.reopenBoxes :=
    State.openLatcheds_of_none _ fun f => (s.boxesKeep_reopenBoxes f).1.trans (hlatch f)
  have heq : s.reopen why failed = (((List.range 17).foldl (fun s f => s.openLatched f) s.reopenBoxes).tellRestart why failed
      (((s.findOp .fwActivate).map (·.seq)).getD 0) (b2n (!s.reopenBoxes.keeper.slot)) (s.reopenBoxes.restartedData (why == .memError))).stopHeld :=
    rfl
  rw [hopen] at heq
  refine ⟨_, _, _, heq.trans (State.stopHeld_of_none ?_)⟩
  have hprog : ∀ seq bad data, (s.reopenBoxes.tellRestart why failed seq bad data).prog = s.prog := fun seq bad data =>
    State.same_of_but (p := .prog) (State.onlyChanges_trans (State.onlyChanges_mono s.onlyChanges_reopenBoxes (by decide))
      (State.onlyChanges_mono (State.tellRestart_keeps _ _ _ _ _ _).1 (by decide)))
  rw [hprog]
  exact hheld

/-- What the reopening leaves. -/
theorem State.reopen_opens (s : State) (why : Restart) (failed : Bool) (hlatch : ∀ f, (s.mbox f).latched = none)
    (hheld : ∀ e ∈ s.prog.progs, e.2.heldQs = []) :
    s.onlyChanges (s.reopen why failed) [.keeper, .fnp, .link, .sec, .health, .outbox] ∧
    (s.reopen why failed).keeper.core = s.recordRelease.keeper.core ∧
    (s.reopen why failed).sec.bootSlot = s.keeper.slot ∧
    ∀ f ≤ s.fnp.numVfs, ((s.reopen why failed).mbox f).cause.getLsbD 3 = true := by
  obtain ⟨seq, bad, data, heq⟩ := s.reopen_eq why failed hlatch hheld
  obtain ⟨honly, hcore, hslot, hboxes⟩ := s.reopenBoxes.tellRestart_keeps why failed seq bad data
  have hrelease := State.foldl_keeps (fun u => (u.keeper.core, u.sec)) (f := State.restartBox)
    (fun u f => Prod.ext (u.core_restartBox f) (State.same_of_but (p := .sec) (by simp [State.restartBox]))) s.recordRelease.functions s.recordRelease
  rw [heq]
  refine ⟨State.onlyChanges_trans (State.onlyChanges_mono s.onlyChanges_reopenBoxes (by decide)) honly, ?_, ?_, fun f hf => ?_⟩
  · exact hcore.trans (Prod.mk.inj hrelease).1
  · exact hslot.trans (congrArg SecPart.bootSlot (Prod.mk.inj hrelease).2 :)
  · exact (hboxes f).2 (State.cause_restartBoxes _ (List.mem_range.2 (Nat.lt_succ_of_le hf)) _)

end
end Sys2Proof.Machine
end

section
namespace Sys2Proof.Machine
open Sys2Proof
section
variable {s t u : State} {i j n : Nat}

/-- The Keeper out of its restart, before its journal is looked for. -/
def State.restarted (s : State) : State :=
  s.setKeeper { s.keeper with kbusy := false, coreReset := false, restart := none, activateFailed := false }

theorem State.readJournal_eq (howed : s.keeper.owed = []) : s.readJournal = s.keeper.deferred.foldl (fun s e => s.deliver e.fn e)
    (s.setKeeper { s.keeper with deferred := [], owed := [] }) := by
  unfold State.readJournal
  simp only [howed, List.foldl_nil]

theorem State.readJournal_keeps (howed : s.keeper.owed = []) : s.onlyChanges s.readJournal [.keeper, .fnp, .outbox] ∧
    s.readJournal.keeper.core = s.keeper.core ∧ s.boxesKeep s.readJournal ∧ s.readJournal.fnp.numVfs = s.fnp.numVfs := by
  rw [State.readJournal_eq howed]
  refine ⟨by simp, ?_, ?_, ?_⟩
  · rw [State.foldl_keeps (fun u => u.keeper.core) (f := fun u (e : Event) => u.deliver e.fn e) (fun u e => u.core_deliver _ _)]
    simp only [Keeper.core, State.setKeeper_keeper, howed]
  · have hstart : s.boxesKeep (s.setKeeper { s.keeper with deferred := [], owed := [] }) := fun _ => Mailbox.keeps_refl _
    exact State.boxesKeep_trans hstart (State.boxesKeep_foldl (fun u (e : Event) => u.deliver e.fn e) (fun u e => u.boxesKeep_deliver _ _) _ _)
  · rw [State.foldl_keeps (fun u => u.fnp.numVfs) (f := fun u (e : Event) => u.deliver e.fn e) (fun u e => u.numVfs_deliver _ _)]
    rfl

/-! A journal that is lost -/

theorem Tab.mem_set {α : Type} {t : Tab α} {k : Nat} {v : α} {e : Nat × α} (h : e ∈ t.set k v) : e = (k, v) ∨ e ∈ t := by
  induction t with
  | nil => exact .inl (List.mem_singleton.1 h)
  | cons x t ih =>
    obtain ⟨k', v'⟩ := x
    rw [Tab.set] at h
    split at h
    · exact (List.mem_cons.1 h).imp_right (List.mem_cons_of_mem _)
    · split at h
      · exact List.mem_cons.1 h
      · rcases List.mem_cons.1 h with rfl | h
        · exact .inr List.mem_cons_self
        · exact (ih h).imp_right (List.mem_cons_of_mem _)

/-- No program is held. -/
def State.unheld (s : State) : Prop := ∀ e ∈ s.prog.progs, e.2.heldQs = []

theorem State.unheld_of_prog (hp : t.prog = s.prog) (h : s.unheld) : t.unheld := by
  rw [State.unheld, hp]
  exact h

/-- What an end of the run leaves of the Keeper's own registers. -/
structure State.Quiet (s t : State) : Prop where
  core : { t.keeper.core with ops := [] } = { s.keeper.core with ops := [] }
  noOps : s.keeper.ops = [] → t.keeper.ops = []
  boxes : s.boxesKeep t
  vfs : t.fnp.numVfs = s.fnp.numVfs
  held : s.unheld → t.unheld

theorem State.Quiet.refl (s : State) : s.Quiet s := ⟨rfl, id, s.boxesKeep_refl, rfl, id⟩

theorem State.Quiet.trans (h : s.Quiet t) (h' : t.Quiet u) : s.Quiet u :=
  ⟨h'.core.trans h.core, fun hs => h'.noOps (h.noOps hs), State.boxesKeep_trans h.boxes h'.boxes, h'.vfs.trans h.vfs,
    fun hs => h'.held (h.held hs)⟩

theorem State.Quiet.of_frame (hk : t.keeper = s.keeper) (hf : t.fnp.numVfs = s.fnp.numVfs) (hh : s.unheld → t.unheld) : s.Quiet t :=
  ⟨by rw [hk], fun h => by rw [hk, h], State.boxesKeep_of_keeper hk, hf, hh⟩

theorem State.Quiet.post (s : State) (f code seq : Nat) (data : List Byte) : s.Quiet (s.post f code seq data) := by
  refine ⟨by rw [State.core_post], fun h => by rw [State.ops_post, h], s.boxesKeep_post _ _ _ _, ?_,
    State.unheld_of_prog (State.same_of_but (p := .prog) (by simp))⟩
  unfold State.post
  simp only []
  split
  · rfl
  · exact State.numVfs_deliver _ _ _

theorem State.Quiet.foldl {α : Type} (f : State → α → State) (hf : ∀ (s : State) x, s.Quiet (f s x)) (l : List α) : ∀ s : State, s.Quiet (l.foldl f s) := by
  induction l with
  | nil => exact State.Quiet.refl
  | cons x l ih => exact fun s => (hf s x).trans (ih _)

theorem State.Quiet.dropOps (s : State) (p : LongOp → Bool) : s.Quiet (s.setKeeper { s.keeper with ops := s.keeper.ops.filter p }) :=
  ⟨rfl, fun h => by rw [State.setKeeper_keeper, h, List.filter_nil], fun _ => Mailbox.keeps_refl _, rfl, id⟩

theorem State.Quiet.opDone (s : State) (o : LongOp) (code : Nat) : s.Quiet (s.opDone o code) :=
  (State.Quiet.dropOps s _).trans (State.Quiet.post _ _ _ _ _)

theorem State.Quiet.reqDone (s : State) (j : Nat) (q : Req) : s.Quiet (s.reqDone j q) := by
  unfold State.reqDone
  split
  · exact State.Quiet.refl _
  · exact State.Quiet.post _ _ _ _ _

theorem State.Quiet.leave (s : State) (j : Nat) (q : Req) : s.Quiet (s.leave j q) := by
  have htrim : ∀ u : State, (u.trimPages q 0).1.fnp = u.fnp := fun u => State.same_of_but (p := .fnp) (by simp)
  refine State.Quiet.of_frame (State.same_of_but (p := .keeper) (by simp)) ?_ (State.unheld_of_prog (State.same_of_but (p := .prog) (by simp)))
  unfold State.leave
  simp only []
  split <;> exact (congrArg FnPart.numVfs (htrim s) :)

theorem State.Quiet.leaveAll (s : State) : s.Quiet s.leaveAll.1 := by
  unfold State.leaveAll
  simp only []
  refine State.Quiet.trans (State.Quiet.foldl (fun u (e : Nat × Req) => u.leave e.1 e.2) (fun u e => State.Quiet.leave u _ _)
    (s.serve.reqs.filter (fun e => e.2.status.terminal)) s) ?_
  exact State.Quiet.of_frame (State.same_of_but (p := .keeper) (by simp)) (congrArg FnPart.numVfs (State.same_of_but (p := .fnp) (by simp)))
    (State.unheld_of_prog (State.same_of_but (p := .prog) (by simp)))

theorem State.Quiet.settleTable (s : State) : s.Quiet s.settleTable := by
  unfold State.settleTable
  split
  · split
    · unfold State.tableInForce
      refine State.Quiet.trans ?_ (State.Quiet.opDone _ _ _)
      exact State.Quiet.of_frame rfl rfl id
    · exact State.Quiet.refl _
  · exact State.Quiet.refl _

theorem State.Quiet.endRun (s : State) (why : StopReason) : s.Quiet (s.endRun why) := by
  unfold State.endRun
  extract_lets f h data s₁ s₂ s₃ p s₄ seq k s₅ r s₆ reqs c s₇
  have h₃ : s.onlyChanges s₃ [.arr, .tgt, .eng] := by simp [s₃, s₂, s₁]
  clear_value s₃
  have hmatch : s₃.onlyChanges s₄ [.prog] := by
    unfold s₄
    split
    · split <;> simp
    · simp
  have hheld : s.unheld → s₄.unheld := fun hs => by
    have hs₃ : s₃.unheld := State.unheld_of_prog (State.same_of_but (p := .prog) (State.onlyChanges_mono h₃ (by decide))) hs
    unfold s₄
    split
    next p hp =>
      split
      · intro e he
        rcases Tab.mem_set he with rfl | he
        · exact (hs₃ (h, p) (Tab.mem_of_find? hp) :)
        · exact hs₃ e he
      · exact hs₃
    next => exact hs₃
  have hs₄ : s.Quiet s₄ := by
    have hbut : s.onlyChanges s₄ [.arr, .tgt, .eng, .prog] := 
      State.onlyChanges_trans (State.onlyChanges_mono h₃ (by decide)) (State.onlyChanges_mono hmatch (by decide))
    exact State.Quiet.of_frame (State.same_of_but (p := .keeper) (State.onlyChanges_mono hbut (by decide)))
      (congrArg FnPart.numVfs (State.same_of_but (p := .fnp) (State.onlyChanges_mono hbut (by decide)))) hheld
  clear_value s₄
  have hs₅ : s₄.Quiet s₅ := State.Quiet.dropOps s₄ _
  have hs₇ : s₅.Quiet s₇ := State.Quiet.of_frame rfl rfl id
  have hleave : s₇.Quiet s₇.leaveAll.1 := State.Quiet.leaveAll s₇
  clear_value s₇
  generalize s₇.leaveAll = d at hleave
  obtain ⟨d, gone⟩ := d
  have hdone : d.Quiet (gone.foldl (fun s e => s.reqDone e.1 e.2) d) := State.Quiet.foldl _ (fun u e => State.Quiet.reqDone u _ _) _ _
  simp only []
  generalize gone.foldl (fun s e => s.reqDone e.1 e.2) d = v at hdone
  have hbefore : s.Quiet v := (((hs₄.trans hs₅).trans hs₇).trans hleave).trans hdone
  refine State.Quiet.trans ?_ (State.Quiet.settleTable _)
  have hlead : v.Quiet (v.setLead { v.lead with reports := [], seconds := [], readies := [], decision := .none_, early := [] }) :=
    State.Quiet.of_frame rfl rfl id
  have hpost := (hbefore.trans hlead).trans (State.Quiet.post _ 0 2 seq data)
  split
  · exact hpost
  · exact hpost.trans (State.Quiet.post _ _ _ _ _)

/-! The journal lost -/

/-- The state the loss of the journal leaves to the boundary: no work owed, the pairing at rest, every request ended. -/
def State.forgotten (s : State) : State :=
  let k := s.keeper
  let mbox := k.mbox.map (fun (e : Nat × Mailbox) => (e.1, { e.2 with held := [] }))
  let s := s.setKeeper { k with ops := [], deferred := [], owed := [], mbox := mbox }
  let pair : Pairing := match s.pair.state with
    | .loading => {}
    | .unloading => { s.pair with state := .resident }
    | _ => { s.pair with heldTeacher := none, heldStudent := none }
  let reqs := s.serve.reqs.map (fun (e : Nat × Req) => (e.1, if e.2.status.terminal then e.2 else { e.2 with status := .aborted }))
  ((s.setPair pair).setServe { s.serve with reqs := reqs }).cutSteps (fun _ => true) []

/-- Its requests and its losses told. -/
def State.forget (s : State) : State :=
  let s := s.forgotten.leaveAll.2.foldl (fun s e => s.reqDone e.1 e.2) s.forgotten.leaveAll.1
  s.functions.foldl (fun s f => s.post f 0x0A 0 []) s

theorem State.loseJournal_eq (s : State) : s.loseJournal = if !s.forget.run.active then s.forget
    else if s.forget.run.markApplied then s.forget.endRun .stateLost else s.forget.setRun { s.forget.run with stop := some .stateLost } := by
  unfold State.forget State.loseJournal State.forgotten
  simp only [] <;> (generalize State.leaveAll _ = d; cases d; rfl)

theorem State.mbox_emptied (s : State) (f : Nat) :
    Tab.get (s.keeper.mbox.map (fun (e : Nat × Mailbox) => (e.1, { e.2 with held := [] }))) {} f = { s.mbox f with held := [] } :=
  Tab.get_map s.keeper.mbox {} (fun m : Mailbox => { m with held := [] }) f

/-- What the lost journal leaves of the Keeper: no long operation and no work owed. -/
def Keeper.forgets (k : Keeper) : Keeper := { k.core with ops := [], owed := [] }

/-- The pairing whose moves and refreshes are forgotten. -/
def Pairing.forgets (p : Pairing) : Pairing :=
  match p.state with
  | .loading => {}
  | .unloading => { p with state := .resident }
  | _ => { p with heldTeacher := none, heldStudent := none }

/-- A request that has ended, or ends because it is forgotten. -/
def Req.forgets (q : Req) : Req := if q.status.terminal then q else { q with status := .aborted }

theorem Pairing.forgets_of_resident {p : Pairing} (h : p.state = .resident) : p.forgets = { p with heldTeacher := none, heldStudent := none } := by
  unfold Pairing.forgets
  rw [h]

theorem Req.terminal_forgets (q : Req) : q.forgets.status.terminal = true := by
  unfold Req.forgets
  split
  · assumption
  · rfl

theorem State.forgotten_keeps (s : State) : s.forgotten.keeper.core = s.keeper.forgets ∧ s.boxesKeep s.forgotten ∧ s.forgotten.fnp = s.fnp ∧
    s.forgotten.prog = s.prog ∧ s.forgotten.run = s.run ∧ s.forgotten.pair = s.pair.forgets ∧
    s.forgotten.serve.reqs = s.serve.reqs.map (fun e => (e.1, e.2.forgets)) := by
  unfold State.forgotten
  extract_lets k mbox s₁ pair reqs
  have hkeeper : ∀ u : State, (u.cutSteps (fun _ => true) []).keeper = u.keeper := fun u => State.same_of_but (p := .keeper) (by simp)
  have hrun : ∀ u : State, (u.cutSteps (fun _ => true) []).run = u.run := fun u => State.same_of_but (p := .run) (by simp)
  have hprog : ∀ u : State, (u.cutSteps (fun _ => true) []).prog = u.prog := fun u => State.same_of_but (p := .prog) (by simp)
  have hfnp : ∀ u : State, (u.cutSteps (fun _ => true) []).fnp = u.fnp := fun u => State.same_of_but (p := .fnp) (by simp)
  have hpair : ∀ u : State, (u.cutSteps (fun _ => true) []).pair = u.pair := fun u => State.same_of_but (p := .pair) (by simp)
  rw [hkeeper, hrun, hprog, hfnp, hpair, State.reqs_cutSteps]
  refine ⟨rfl, fun f => ?_, rfl, rfl, rfl, rfl, rfl⟩
  unfold State.mbox
  rw [hkeeper]
  refine ⟨(congrArg Mailbox.latched (s.mbox_emptied f) :), fun h => ?_⟩
  exact (congrArg (fun m => m.cause.getLsbD 3) (s.mbox_emptied f) :).trans h

/-- Requests that have all ended leave their table empty. -/
theorem State.reqs_leaveAll_of_terminal (h : ∀ e ∈ s.serve.reqs, e.2.status.terminal = true) : s.leaveAll.1.serve.reqs = [] := by
  have hleaves : ∀ (l : List (Nat × Req)) (u : State), (l.foldl (fun s e => s.leave e.1 e.2) u).serve.reqs =
      u.serve.reqs.filter (fun e => !(l.map (·.1)).contains e.1) := by
    intro l
    induction l with
    | nil => intro u; simp
    | cons x l ih =>
      intro u
      rw [List.foldl_cons, ih, State.reqs_leave, Tab.del, List.filter_filter]
      congr 1
      funext e
      by_cases he : e.1 = x.1
      · simp [he]
      · simp [he, bne, Bool.and_comm]
  unfold State.leaveAll
  simp only [State.reqs_cutSteps, hleaves]
  rw [List.filter_eq_nil_iff]
  intro e he
  have hin : e ∈ s.serve.reqs.filter (fun e => e.2.status.terminal) := List.mem_filter.2 ⟨he, h e he⟩
  simp only [Bool.not_eq_true', Bool.not_eq_false, List.contains_iff_mem]
  exact List.mem_map.2 ⟨e, hin, rfl⟩

/-- What the loss of the journal leaves before the run's end. -/
theorem State.forget_keeps (s : State) : s.forgotten.Quiet s.forget ∧ s.forget.run = s.run ∧ s.forget.pair = s.pair.forgets ∧ s.forget.serve.reqs = [] := by
  obtain ⟨-, -, -, -, hrun, hpair, hreqs⟩ := s.forgotten_keeps
  have hempty : s.forgotten.leaveAll.1.serve.reqs = [] := by
    refine State.reqs_leaveAll_of_terminal fun e he => ?_
    rw [hreqs] at he
    obtain ⟨e₀, -, rfl⟩ := List.mem_map.1 he
    exact e₀.2.terminal_forgets
  have hquiet := State.Quiet.leaveAll s.forgotten
  have honly : s.forgotten.onlyChanges s.forgotten.leaveAll.1 [.mem, .eng, .serve, .fnp] := by simp
  unfold State.forget
  extract_lets u
  have hdone : s.forgotten.leaveAll.1.Quiet u := State.Quiet.foldl (fun s (e : Nat × Req) => s.reqDone e.1 e.2) (fun v e => State.Quiet.reqDone v _ _) _ _
  have hposts : u.Quiet (u.functions.foldl (fun s f => s.post f 0x0A 0 []) u) := State.Quiet.foldl _ (fun v f => State.Quiet.post v _ _ _ _) _ _
  have hchange : s.forgotten.leaveAll.1.onlyChanges (u.functions.foldl (fun s f => s.post f 0x0A 0 []) u) [.keeper, .fnp, .outbox] := by
    simp [u]
  refine ⟨(hquiet.trans hdone).trans hposts, ?_, ?_, ?_⟩
  · exact (State.same_of_but (p := .run) (State.onlyChanges_trans (State.onlyChanges_mono honly (by decide)) (State.onlyChanges_mono hchange (by decide)))).trans hrun
  · exact (State.same_of_but (p := .pair) (State.onlyChanges_trans (State.onlyChanges_mono honly (by decide)) (State.onlyChanges_mono hchange (by decide)))).trans hpair
  · exact (congrArg ServePart.reqs (State.same_of_but (p := .serve) (State.onlyChanges_mono hchange (by decide))) :).trans hempty

/-- An end of the run leaves an empty request table empty. -/
theorem State.reqs_endRun (why : StopReason) (h : s.serve.reqs = []) : (s.endRun why).serve.reqs = [] := by
  unfold State.endRun
  extract_lets f hd data s₁ s₂ s₃ p s₄ seq k s₅ r s₆ reqs c s₇
  have h₃ : s₃.serve = s.serve := State.same_of_but (p := .serve) (by simp [s₃, s₂, s₁])
  clear_value s₃
  have h₄ : s₄.serve = s.serve := by
    unfold s₄
    split
    · split <;> exact h₃
    · exact h₃
  clear_value s₄
  have h₇ : s₇.serve.reqs = [] := by
    have h₆ : s₆.serve = s.serve := by simp only [s₆, s₅, State.setRun_serve, State.setKeeper_serve, h₄]
    have hreqs : reqs = [] := by
      unfold reqs
      rw [h₆, h, List.map_nil]
    exact hreqs
  clear_value s₇
  have hleave : s₇.leaveAll.1.serve.reqs = [] := State.reqs_leaveAll_of_terminal fun e he => by
    rw [h₇] at he
    cases he
  generalize s₇.leaveAll = d at hleave
  obtain ⟨d, gone⟩ := d
  simp only []
  have hserve : ∀ t : State, d.onlyChanges t [.keeper, .run, .lead, .fnp, .link, .outbox] → t.serve.reqs = [] := fun t ht =>
    (congrArg ServePart.reqs (State.same_of_but (p := .serve) (State.onlyChanges_mono ht (by decide))) :).trans hleave
  refine hserve _ ?_
  split <;> simp

/-- The loss of the journal. -/
theorem State.loseJournal_keeps (s : State) : s.forgotten.Quiet s.loseJournal ∧ s.loseJournal.pair = s.pair.forgets ∧ s.loseJournal.serve.reqs = [] ∧
    (s.run.active = true → s.run.markApplied = false → s.loseJournal.run.stop = some .stateLost) := by
  obtain ⟨hquiet, hrun, hpair, hreqs⟩ := s.forget_keeps
  rw [State.loseJournal_eq]
  generalize s.forget = v at hquiet hrun hpair hreqs
  rw [hrun]
  cases hact : s.run.active
  · simp only [Bool.not_false, if_true]
    exact ⟨hquiet, hpair, hreqs, nofun⟩
  · simp only [Bool.not_true, Bool.false_eq_true, if_false]
    cases hmark : s.run.markApplied
    · simp only [Bool.false_eq_true, if_false]
      exact ⟨hquiet.trans (State.Quiet.of_frame rfl rfl id), hpair, hreqs, fun _ _ => rfl⟩
    · simp only [if_true]
      exact ⟨hquiet.trans (State.Quiet.endRun _ _), (State.same_of_but (p := .pair) (by simp)).trans hpair, State.reqs_endRun _ hreqs, nofun⟩

/-- What the Keeper does when its journal has been looked for. -/
theorem keeperRestartComplete_reopens (why : Restart) (c0 c1 : Bool) (hr : s.keeper.restart = some why) (hcore : s.keeper.coreReset = true) :
    exec (.keeperRestartComplete c0 c1) s =
      .next ((if c0 || c1 then s.restarted.readJournal else s.restarted.loseJournal).reopen why s.keeper.activateFailed) := by
  have hexec : exec (.keeperRestartComplete c0 c1) s = execKeeperRestartComplete c0 c1 s := rfl
  rw [hexec]
  simp only [execKeeperRestartComplete, hr, hcore, Bool.not_true, Bool.false_eq_true, if_false]
  rfl

/-- The Keeper's registers after a restart, from what it was before. -/
def State.RestartOf (s t : State) : Prop :=
  t.keeper.kbusy = false ∧ t.keeper.restart = none ∧ t.keeper.coreReset = false ∧
      t.keeper.slot = s.keeper.slot ∧ t.keeper.fwmaj = (s.fwSlot s.keeper.slot).maj ∧ t.sec.bootSlot = s.keeper.slot ∧
      (∀ f ≤ s.fnp.numVfs, (t.mbox f).cause.getLsbD 3 = true)

theorem State.keeper_recordRelease (s : State) : s.recordRelease.keeper = { s.keeper with
    fwmaj := (s.fwSlot s.keeper.slot).maj, fwmin := (s.fwSlot s.keeper.slot).min, ops := s.keeper.ops.filter (fun o => o.kind != OpKind.fwActivate) } := rfl

/-- A reopened Keeper, where what came before left its registers, its slots and its mailboxes as they were. -/
theorem State.restartOf_reopen (why : Restart) (failed : Bool) (hlatch : ∀ f, (s.mbox f).latched = none) (hboxes : s.boxesKeep u)
    (hcore : { u.keeper.core with ops := [], owed := [] } = { s.restarted.keeper.core with ops := [], owed := [] }) (hsec : u.sec = s.sec)
    (hvfs : u.fnp.numVfs = s.fnp.numVfs) (hheld : u.unheld) : s.RestartOf (u.reopen why failed) := by
  obtain ⟨-, hk, hslot, hcause⟩ := u.reopen_opens why failed (fun f => (hboxes f).1.trans (hlatch f)) hheld
  rw [State.keeper_recordRelease] at hk
  generalize u.reopen why failed = t at hk hslot hcause ⊢
  have huslot : u.keeper.slot = s.keeper.slot := (congrArg Keeper.slot hcore :)
  have hfw : u.fwSlot u.keeper.slot = s.fwSlot s.keeper.slot := by rw [State.fwSlot, hsec, huslot, State.fwSlot]
  refine ⟨(congrArg Keeper.kbusy hk :).trans (congrArg Keeper.kbusy hcore :), (congrArg Keeper.restart hk :).trans (congrArg Keeper.restart hcore :),
    (congrArg Keeper.coreReset hk :).trans (congrArg Keeper.coreReset hcore :), (congrArg Keeper.slot hk :).trans huslot,
    (congrArg Keeper.fwmaj hk :).trans (congrArg FwSlot.maj hfw), hslot.trans huslot, fun f hf => hcause f (by rw [hvfs]; exact hf)⟩

theorem restart_readsJournal (why : Restart) (failed : Bool) (hlatch : ∀ f, (s.mbox f).latched = none) (howed : s.keeper.owed = []) (hheld : s.unheld) :
    s.RestartOf (s.restarted.readJournal.reopen why failed) ∧ s.onlyChanges (s.restarted.readJournal.reopen why failed) [.keeper, .fnp, .link, .sec, .health, .outbox] ∧
    (s.restarted.readJournal.reopen why failed).keeper.ops = s.keeper.ops.filter (fun o => o.kind != .fwActivate) := by
  obtain ⟨honly, hcore, hboxes, hvfs⟩ := State.readJournal_keeps (s := s.restarted) howed
  have hstart : s.onlyChanges s.restarted [.keeper] := by simp [State.restarted]
  have hread : s.onlyChanges s.restarted.readJournal [.keeper, .fnp, .outbox] :=
    State.onlyChanges_trans (State.onlyChanges_mono hstart (by decide)) honly
  generalize s.restarted.readJournal = u at *
  have huheld : u.unheld := State.unheld_of_prog (State.same_of_but (p := .prog) (State.onlyChanges_mono hread (by decide))) hheld
  have hsboxes : s.boxesKeep u := hboxes
  obtain ⟨hchange, hk, -, -⟩ := u.reopen_opens why failed (fun f => (hsboxes f).1.trans (hlatch f)) huheld
  refine ⟨State.restartOf_reopen why failed hlatch hsboxes (by rw [hcore]) (State.same_of_but (p := .sec) (State.onlyChanges_mono hread (by decide))) hvfs huheld,
    State.onlyChanges_trans (State.onlyChanges_mono hread (by decide)) hchange, ?_⟩
  have hops : u.keeper.ops = s.keeper.ops := (congrArg Keeper.ops hcore :)
  exact (congrArg Keeper.ops hk :).trans (congrArg (List.filter (fun o : LongOp => o.kind != OpKind.fwActivate)) hops)

theorem restart_losesJournal (why : Restart) (failed : Bool) (hlatch : ∀ f, (s.mbox f).latched = none) (hheld : s.unheld) :
    s.RestartOf (s.restarted.loseJournal.reopen why failed) ∧ (s.restarted.loseJournal.reopen why failed).keeper.ops = [] ∧
    (s.restarted.loseJournal.reopen why failed).serve.reqs = [] ∧ (s.restarted.loseJournal.reopen why failed).pair = s.pair.forgets ∧
    (s.run.active = true → s.run.markApplied = false → (s.restarted.loseJournal.reopen why failed).run.stop = some .stateLost) := by
  obtain ⟨hfcore, hfboxes, hffnp, hfprog, -, -, -⟩ := s.restarted.forgotten_keeps
  obtain ⟨hquiet, hpair, hreqs, hstop⟩ := s.restarted.loseJournal_keeps
  have hsec : s.restarted.loseJournal.sec = s.sec := State.same_of_but (p := .sec) (by simp [State.restarted])
  have hfheld : s.restarted.forgotten.unheld := State.unheld_of_prog hfprog hheld
  generalize s.restarted.forgotten = v at *
  generalize s.restarted.loseJournal = u at *
  have huheld := hquiet.held hfheld
  have hboxes : s.boxesKeep u := State.boxesKeep_trans hfboxes hquiet.boxes
  obtain ⟨hchange, hk, -, -⟩ := u.reopen_opens why failed (fun f => (hboxes f).1.trans (hlatch f)) huheld
  have hops : u.keeper.ops = [] := hquiet.noOps (congrArg Keeper.ops hfcore :)
  refine ⟨State.restartOf_reopen why failed hlatch hboxes ?_ hsec (hquiet.vfs.trans (congrArg FnPart.numVfs hffnp)) huheld, ?_, ?_, ?_, fun hact hmark => ?_⟩
  · refine (congrArg (fun k => { k with owed := [] }) hquiet.core :).trans ?_
    rw [hfcore]
    rfl
  · exact (congrArg Keeper.ops hk :).trans (congrArg (List.filter (fun o : LongOp => o.kind != OpKind.fwActivate)) hops)
  · exact (congrArg ServePart.reqs (State.same_of_but (p := .serve) (State.onlyChanges_mono hchange (by decide))) :).trans hreqs
  · exact (State.same_of_but (p := .pair) (State.onlyChanges_mono hchange (by decide))).trans hpair
  · exact (congrArg Run.stop (State.same_of_but (p := .run) (State.onlyChanges_mono hchange (by decide))) :).trans (hstop hact hmark)

/-- Settles O34. -/
theorem theKeeperRestarts : Obligations.TheKeeperRestarts := by
  unfold Obligations.TheKeeperRestarts
  refine ⟨fun s hup hbusy => ?_, fun why s hr hbusy hcore => ?_, fun s hcore hr hfail => ?_, fun why c0 c1 s hr hcore hlatch howed hheld => ?_⟩
  · exact congrArg Host.Outcome.next (if_pos (by rw [hup, hbusy]; rfl))
  · have hexec : exec .keeperRestart s = execKeeperRestart s := rfl
    have hcond : (!s.keeper.kbusy || s.keeper.coreReset) = false := by rw [hbusy, hcore]; rfl
    rw [hexec]
    simp only [execKeeperRestart, hr, hcond, Bool.false_eq_true, if_false]
    cases why <;> rfl
  · exact congrArg Host.Outcome.next (if_pos (by rw [hcore, hr, hfail]; rfl))
  · have hexec := keeperRestartComplete_reopens why c0 c1 hr hcore
    cases hcopy : c0 || c1
    · rw [hcopy, if_neg Bool.false_ne_true] at hexec
      obtain ⟨⟨hb, hres, hcr, hs, hmaj, hboot, hcause⟩, hops, hreqs, hpair, hstop⟩ := restart_losesJournal why s.keeper.activateFailed hlatch hheld
      refine ⟨_, hexec, hb, hres, hcr, hs, hmaj, hboot, hcause, fun h => ?_, fun _ _ => ⟨hops, hreqs, fun hp => ?_, hstop⟩⟩
      · rcases h with h | h <;> simp [h] at hcopy
      · rw [hpair, Pairing.forgets_of_resident hp]
        exact ⟨hp, rfl⟩
    · rw [hcopy, if_pos rfl] at hexec
      obtain ⟨⟨hb, hres, hcr, hs, hmaj, hboot, hcause⟩, honly, hops⟩ := restart_readsJournal why s.keeper.activateFailed hlatch howed hheld
      refine ⟨_, hexec, hb, hres, hcr, hs, hmaj, hboot, hcause, fun _ => ⟨?_, ?_, ?_, ?_, ?_, ?_, hops⟩, fun h0 h1 => ?_⟩
      · exact State.same_of_but (p := .run) (State.onlyChanges_mono honly (by decide))
      · exact State.same_of_but (p := .pair) (State.onlyChanges_mono honly (by decide))
      · exact State.same_of_but (p := .prog) (State.onlyChanges_mono honly (by decide))
      · exact State.same_of_but (p := .serve) (State.onlyChanges_mono honly (by decide))
      · exact State.same_of_but (p := .tier) (State.onlyChanges_mono honly (by decide))
      · exact State.same_of_but (p := .mem) (State.onlyChanges_mono honly (by decide))
      · rw [h0, h1] at hcopy
        cases hcopy

end
end Sys2Proof.Machine
end

section
namespace Sys2Proof.Machine
open Sys2Proof
section
variable {s t u : State} {i j n : Nat}

/-! ### Windows move, turns stay -/

/-- What the scheduler decides by: the engines' turns and the functions' registers in force. -/
def Sched.turns (x : Sched) : Tab EngSched × Tab SchedFn := (x.engines, x.active)

theorem State.turns_saveWindow (s : State) (t g : Nat) (f : Fn) : (s.saveWindow t g f).sched.turns = s.sched.turns := by
  have hfold : ∀ u : State, u.sched = s.sched → (u.setAway t g (insertNat f.val (u.awayFrom t g))).sched.turns = s.sched.turns := fun u hu => by
    rw [State.setAway, State.setSched_sched, hu]
    rfl
  unfold State.saveWindow
  exact hfold _ (State.same_of_but (p := .sched) (by simp))

theorem State.turns_restoreWindow (s : State) (t g : Nat) (f : Fn) : (s.restoreWindow t g f).sched.turns = s.sched.turns := by
  have hfold : ∀ u : State, u.sched = s.sched → (u.setAway t g ((u.awayFrom t g).filter (fun x => x != f.val))).sched.turns = s.sched.turns := fun u hu => by
    rw [State.setAway, State.setSched_sched, hu]
    rfl
  unfold State.restoreWindow
  exact hfold _ (State.same_of_but (p := .sched) (by simp))

theorem State.turns_moveWindow (s : State) (t g : Nat) (f : Fn) (old : Window) : (s.moveWindow t g f old).sched.turns = s.sched.turns := by
  have hgal : ∀ (u : State) y, (u.setGallery t g y).sched = u.sched := fun u y => rfl
  have hdrained : ∀ (u : State) a b, (u.moveDrained t g f a b).sched = u.sched := fun u a b => State.same_of_but (p := .sched) (by simp)
  unfold State.moveWindow
  split
  · rfl
  · simp only []
    split
    · rw [State.turns_restoreWindow, hdrained, hgal, State.turns_saveWindow, hgal]
    · rw [hdrained, hgal, State.turns_saveWindow, hgal]

theorem State.turns_settleMove (s : State) (t g : Nat) (f : Fn) : (s.settleMove t g f).sched.turns = s.sched.turns := by
  unfold State.settleMove
  split
  · exact State.turns_moveWindow _ _ _ _ _
  · rfl

theorem State.turns_admitTurn (s : State) (t g : Nat) (f : Fn) : (s.admitTurn t g f).sched.turns = s.sched.turns := by
  unfold State.admitTurn
  simp only []
  split
  · rw [State.turns_restoreWindow, State.foldl_keeps (fun u => u.sched.turns) (fun u h => u.turns_saveWindow t g h), State.turns_settleMove]
  · exact State.turns_settleMove _ _ _ _

theorem State.engSched_of_turns (h : t.sched.turns = s.sched.turns) (k : Nat) : t.engSched k = s.engSched k :=
  congrArg (fun x : Tab EngSched × Tab SchedFn => Tab.get x.1 {} k) h

theorem State.active_of_turns (h : t.sched.turns = s.sched.turns) : t.sched.active = s.sched.active := congrArg Prod.snd h

@[simp] theorem State.engSched_setEngSched_same (s : State) (k : Nat) (v : EngSched) : (s.setEngSched k v).engSched k = v := Tab.get_set_same _ _ _ _

/-! ### O35: turns are charged -/

/-- What time charged leaves of a function's account: its overruns, preemptions and energy. -/
def FnAcct.counts (a : FnAcct) : Nat × Nat × Nat := (a.overrun, a.preempts, a.energy)

/-- The counts of a function's account. -/
def State.counts (s : State) (f : Nat) : Nat × Nat × Nat := (s.fnp.acct.get {} f).counts

theorem State.counts_charge (s : State) (f k : Nat) (g : FnAcct → FnAcct) (hg : ∀ a, (g a).counts = a.counts) : (s.charge k g).counts f = s.counts f := by
  by_cases hf : f = k
  · subst hf
    exact (congrArg FnAcct.counts (Tab.get_upd_same s.fnp.acct {} f g)).trans (hg _)
  · exact congrArg FnAcct.counts (Tab.get_upd_other s.fnp.acct {} {} g hf)

theorem State.counts_chargeRec (s : State) (f k : Nat) (g : FnAcct → FnAcct) (hg : ∀ a, (g a).counts = a.counts) :
    (s.chargeRec k g).counts f = s.counts f := by
  unfold State.chargeRec
  split
  · rfl
  · exact State.counts_charge _ _ _ _ hg

theorem State.counts_chargeTime (s : State) (e : EngRef) (k n f : Nat) : (s.chargeTime e k n).counts f = s.counts f := by
  have hstep : (s.chargeStep (if e.kind = 10 then 4 else e.tile.val) k n (fun n a => a.addTime (timeClass e.kind) n)).counts f = s.counts f := by
    unfold State.chargeStep
    split
    · exact State.counts_charge _ _ _ _ (fun _ => rfl)
    · exact State.foldl_keeps (fun u => u.counts f) (f := fun u (x : Nat × Nat) => u.chargeRec x.1 (fun a => a.addTime (timeClass e.kind) x.2))
        (fun u x => u.counts_chargeRec _ _ _ (fun _ => rfl)) _ s
  unfold State.chargeTime
  simp only []
  split
  · exact hstep
  · exact (State.foldl_keeps (fun u => u.counts f) (f := fun u (x : Nat × Nat) => u.chargeTo x.1 (fun a => a.addTime e.kind x.2)) (fun u x => rfl) _ _).trans hstep

/-- Time charged leaves the functions as they are. -/
theorem State.functions_chargeTime (s : State) (e : EngRef) (k n : Nat) :
    (s.chargeTime e k n).fnp.fns = s.fnp.fns ∧ (s.chargeTime e k n).fnp.numVfs = s.fnp.numVfs := by
  have hrec : ∀ (u : State) j g, ((u.chargeRec j g).fnp.fns, (u.chargeRec j g).fnp.numVfs) = (u.fnp.fns, u.fnp.numVfs) := fun u j g => by
    unfold State.chargeRec
    split <;> rfl
  have hstep : ∀ g, ((s.chargeStep (if e.kind = 10 then 4 else e.tile.val) k n g).fnp.fns,
      (s.chargeStep (if e.kind = 10 then 4 else e.tile.val) k n g).fnp.numVfs) = (s.fnp.fns, s.fnp.numVfs) := fun g => by
    unfold State.chargeStep
    split
    · rfl
    · exact State.foldl_keeps (fun u => (u.fnp.fns, u.fnp.numVfs)) (f := fun u (x : Nat × Nat) => u.chargeRec x.1 (g x.2)) (fun u x => hrec u _ _) _ s
  unfold State.chargeTime
  simp only []
  split
  · exact Prod.mk.inj (hstep _)
  · exact Prod.mk.inj ((State.foldl_keeps (fun u => (u.fnp.fns, u.fnp.numVfs)) (f := fun u (x : Nat × Nat) => u.chargeTo x.1 (fun a => a.addTime e.kind x.2))
      (fun u x => rfl) _ _).trans (hstep _))

theorem acct_charge_same (s : State) (f : Nat) (g : FnAcct → FnAcct) : (s.charge f g).fnp.acct.get {} f = g (s.fnp.acct.get {} f) := Tab.get_upd_same _ _ _ _

/-- The functions an engine may pass to. -/
def State.able (s : State) (ready : List Nat) : List Nat :=
  ready.filter (fun g => s.fnExists g && !(s.fnSt g).resetting && !(s.sched.active.get {} g).suspend)

/-- A charged turn that ends: its overrun enters the deficit. -/
def State.turnOver (s : State) (e : EngRef) (f elapsed overrun : Nat) : State :=
  let s := (s.chargeTime e f elapsed).charge f (fun a => { a with overrun := satAdd64 a.overrun overrun })
  let x := s.engSched (engCode e)
  s.setEngSched (engCode e) { x with deficit := x.deficit.upd 0 f (· + overrun) }

theorem turnEnd_passes (e : EngRef) (el d w : Nat) (ready : List Nat) {f : Nat} (hrel : s.released = true) (hbusy : s.keeper.kbusy = false)
    (hcur : (s.engSched (engCode e)).current = some f) :
    exec (.turnEnd e el ready d w) s = .next ((s.turnOver e f el d).passTurn e (s.readyOn e ready) w) := by
  have hexec : exec (.turnEnd e el ready d w) s = execTurnEnd e el ready d w s := rfl
  have hkeep : (s.chargeTime e f el).keeper = s.keeper := State.same_of_but (p := .keeper) (by simp)
  rw [hexec]
  simp only [execTurnEnd, hrel, hcur, hkeep, hbusy, Bool.not_true, Bool.false_eq_true, if_false]
  rfl

/-- The state in which the engine passes on: the outgoing window has moved, and no turn has. -/
def State.movedOn (s : State) (e : EngRef) : State :=
  match (if e.kind ≤ 1 then (s.engSched (engCode e)).current else none) with
  | some f => s.settleMove e.tile e.num (Fin.ofNat 17 f)
  | none => s

theorem State.movedOn_keeps (s : State) (e : EngRef) : (s.movedOn e).sched.turns = s.sched.turns ∧ (s.movedOn e).fnp = s.fnp := by
  unfold State.movedOn
  split
  · exact ⟨State.turns_settleMove _ _ _ _, State.same_of_but (p := .fnp) (by simp)⟩
  · exact ⟨rfl, rfl⟩

/-- The places a scheduler passes over before it gives up. -/
def State.passFuel (s : State) (x : EngSched) : Nat := ((List.range 17).map (fun f => x.deficit.get 0 f / s.sliceOf f + 1)).sum

theorem State.able_movedOn (s : State) (e : EngRef) (ready : List Nat) : (s.movedOn e).able ready = s.able ready := by
  obtain ⟨hturns, hfnp⟩ := s.movedOn_keeps e
  rw [State.able, State.active_of_turns hturns]
  unfold State.fnExists State.fnSt
  rw [hfnp]
  rfl

theorem State.sliceOf_movedOn (s : State) (e : EngRef) (f : Nat) : (s.movedOn e).sliceOf f = s.sliceOf f := by
  rw [State.sliceOf, State.active_of_turns (s.movedOn_keeps e).1, State.sliceOf]

/-- A function's turn begins, where the engine's state was x and its deficits are d. -/
def State.beginTurn (s : State) (e : EngRef) (x : EngSched) (w f : Nat) (d : Tab Nat) : State :=
  let s := (s.setEngSched (engCode e) { x with deficit := d }).startTurn (engCode e) f
  let s := if x.current = some f then s else s.charge f (fun a => { a with switch := satAdd64 a.switch w })
  if e.kind ≤ 1 then s.admitTurn e.tile e.num (Fin.ofNat 17 f) else s

/-- What the engine does with the function picked, where its state was x. -/
def State.takeTurn (s : State) (e : EngRef) (x : EngSched) (w : Nat) : Option (Nat × Tab Nat) → State
  | none => s.setEngSched (engCode e) { x with current := none, length := 0, group := none }
  | some (f, d) => s.beginTurn e x w f d

theorem State.passTurn_eq (s : State) (e : EngRef) (ready : List Nat) (w : Nat) {o : Option (Nat × Tab Nat)}
    (h : pickTurn (s.movedOn e).sliceOf ((s.movedOn e).able ready) ((s.movedOn e).passFuel (s.engSched (engCode e))) (s.engSched (engCode e)).last
      (s.engSched (engCode e)).deficit = o) : s.passTurn e ready w = (s.movedOn e).takeTurn e (s.engSched (engCode e)) w o := by
  unfold State.passTurn
  extract_lets k x v able fuel
  have hpick : pickTurn v.sliceOf able fuel x.last x.deficit = o := h
  rw [hpick]
  cases o <;> rfl

theorem State.engSched_beginTurn (s : State) (e : EngRef) (x : EngSched) (w g : Nat) {n : Nat} (hlt : x.deficit.get 0 g < s.sliceOf g) (hn : s.sliceOf g = n) :
    (s.beginTurn e x w g x.deficit).engSched (engCode e) =
      { x with last := g, current := some g, length := n - x.deficit.get 0 g, deficit := x.deficit.set g 0, group := none } := by
  unfold State.beginTurn
  extract_lets v v'
  have hv : v.engSched (engCode e) = { x with
      last := g, current := some g, length := n - x.deficit.get 0 g, deficit := x.deficit.set g 0, group := none } := by
    unfold v State.startTurn
    simp only [State.engSched_setEngSched_same]
    have hmod := Nat.mod_eq_of_lt hlt
    rw [hn] at hmod
    have hslice : ∀ y, ((s.setEngSched (engCode e) y).sched.active.get {} g).slice * 100 = n := fun _ => hn
    rw [hslice, hmod]
  have hv' : v'.engSched (engCode e) = v.engSched (engCode e) := by
    unfold v'
    split <;> rfl
  split
  · rw [State.engSched_of_turns (State.turns_admitTurn _ _ _ _), hv', hv]
  · rw [hv', hv]

/-- With no function to serve the engine idles. -/
theorem State.passTurn_idles (s : State) (e : EngRef) (ready : List Nat) (w : Nat) (h : s.able ready = []) :
    s.passTurn e ready w = (s.movedOn e).setEngSched (engCode e) { s.engSched (engCode e) with current := none, length := 0, group := none } := by
  have hnext : ∀ last, nextReady last [] = none := fun last => by
    rw [nextReady, List.find?_eq_none]
    simp
  have hpick : ∀ slice n last d, pickTurn slice [] n last d = none := fun slice n last d => by
    cases n
    · rfl
    · rw [pickTurn, hnext]
  refine (s.passTurn_eq e ready w (o := none) ?_).trans rfl
  rw [State.able_movedOn, h, hpick]

/-- The next ready function whose deficit is below its slice takes the engine. -/
theorem State.passTurn_starts (s : State) (e : EngRef) (ready : List Nat) (w : Nat) {g : Nat}
    (hnext : nextReady (s.engSched (engCode e)).last (s.able ready) = some g) (hlt : (s.engSched (engCode e)).deficit.get 0 g < s.sliceOf g) :
    (s.passTurn e ready w).engSched (engCode e) = { s.engSched (engCode e) with
      last := g, current := some g, length := s.sliceOf g - (s.engSched (engCode e)).deficit.get 0 g,
      deficit := (s.engSched (engCode e)).deficit.set g 0, group := none } := by
  have hfuel : ∃ m, (s.movedOn e).passFuel (s.engSched (engCode e)) = m + 1 := by
    refine Nat.exists_eq_succ_of_ne_zero ?_
    rw [State.passFuel, List.range_succ, List.map_append, List.sum_append, List.map_singleton, List.sum_singleton]
    exact Nat.succ_ne_zero _
  obtain ⟨m, hm⟩ := hfuel
  have hpick : pickTurn (s.movedOn e).sliceOf ((s.movedOn e).able ready) ((s.movedOn e).passFuel (s.engSched (engCode e)))
      (s.engSched (engCode e)).last (s.engSched (engCode e)).deficit = some (g, (s.engSched (engCode e)).deficit) := by
    rw [hm, pickTurn, State.able_movedOn, hnext]
    simp only [State.sliceOf_movedOn, hlt, if_true]
  rw [s.passTurn_eq e ready w hpick]
  exact (s.movedOn e).engSched_beginTurn e _ w g (by rw [State.sliceOf_movedOn]; exact hlt) (s.sliceOf_movedOn e g)

/-- What a charged turn leaves to the pass: the deficit and the overrun, and all that decides who is next. -/
theorem State.turnOver_keeps (s : State) (e : EngRef) (f el d : Nat) :
    (s.turnOver e f el d).engSched (engCode e) = { s.engSched (engCode e) with deficit := (s.engSched (engCode e)).deficit.upd 0 f (· + d) } ∧
    (∀ ready, (s.turnOver e f el d).able ready = s.able ready) ∧ (∀ g, (s.turnOver e f el d).sliceOf g = s.sliceOf g) ∧
    ((s.turnOver e f el d).fnp.acct.get {} f).overrun = satAdd64 (s.fnp.acct.get {} f).overrun d := by
  have hsched : (s.chargeTime e f el).sched = s.sched := State.same_of_but (p := .sched) (by simp)
  have hcounts := s.counts_chargeTime e f el f
  have hfns : (s.chargeTime e f el).fnp.fns = s.fnp.fns ∧ (s.chargeTime e f el).fnp.numVfs = s.fnp.numVfs := s.functions_chargeTime e f el
  unfold State.turnOver
  generalize s.chargeTime e f el = u at hsched hcounts hfns
  refine ⟨?_, fun ready => ?_, fun g => ?_, ?_⟩
  · simp only [State.engSched_setEngSched_same]
    have heng : (u.charge f (fun a => { a with overrun := satAdd64 a.overrun d })).engSched (engCode e) = s.engSched (engCode e) :=
      congrArg (fun x : Sched => Tab.get x.engines {} (engCode e)) hsched
    rw [heng]
  · have hactive : u.sched.active = s.sched.active := congrArg Sched.active hsched
    unfold State.able State.fnExists State.fnSt
    change ready.filter (fun g => decide (g ≤ u.fnp.numVfs) && !(Tab.get u.fnp.fns {} g).resetting && !(u.sched.active.get {} g).suspend) = _
    rw [hactive, hfns.1, hfns.2]
  · exact (congrArg (fun x : Sched => (Tab.get x.active {} g).slice * 100) hsched :)
  · exact (congrArg FnAcct.overrun (acct_charge_same u f (fun a => { a with overrun := satAdd64 a.overrun d })) :).trans
      (congrArg (satAdd64 · d) (Prod.mk.inj hcounts).1 :)

theorem preempt_counts (e : EngRef) (el : Nat) {f : Nat} (flr : Bool) (hcur : (s.engSched (engCode e)).current = some f) :
    ∃ t, exec (.preempt e el flr) s = .next t ∧ s.onlyChanges t [.arr, .fnp] ∧
      (t.fnp.acct.get {} f).preempts = if flr then (s.fnp.acct.get {} f).preempts else satAdd64 (s.fnp.acct.get {} f).preempts 1 := by
  have hexec : exec (.preempt e el flr) s = execPreempt e el flr s := rfl
  have hcounts := s.counts_chargeTime e f el f
  have hpre : ((s.chargeTime e f el).fnp.acct.get {} f).preempts = (s.fnp.acct.get {} f).preempts := (Prod.mk.inj (Prod.mk.inj hcounts).2).1
  have honly : s.onlyChanges (s.chargeTime e f el) [.arr, .fnp] := by simp
  simp only [execPreempt, hcur] at hexec
  generalize s.chargeTime e f el = u at hexec hpre honly
  have hdrop : ∀ v : State, (v.dropPanels e.tile e.num).fnp = v.fnp := fun v => State.same_of_but (p := .fnp) (by simp)
  refine ⟨_, hexec, ?_, ?_⟩
  · split <;> split <;> simp [honly]
  · have hacct : ∀ v : State, (if e.kind ≤ 1 then v.dropPanels e.tile e.num else v).fnp = v.fnp := fun v => by
      split
      · exact hdrop v
      · rfl
    rw [hacct, ← hpre]
    cases flr
    · exact (congrArg FnAcct.preempts (acct_charge_same u f (fun a => { a with preempts := satAdd64 a.preempts 1 })) :)
    · rfl

/-! Energy -/

/-- A total shared among one function is its own. -/
theorem shareOut_single (n f a : Nat) (ha : 0 < a) : shareOut n [(f, a)] = [(f, n)] := by
  have hpart : n * a / a = n := Nat.mul_div_cancel n ha
  simp [shareOut, Nat.ne_of_gt ha, hpart]

theorem shareOut_nil (n : Nat) : shareOut n [] = [] := rfl

theorem gather_single (f a : Nat) : gather [(f, a)] = [(f, a)] := by
  simp [gather, Tab.upd, Tab.get, Tab.set]

/-- The parts of the rails where one function's activity took one of them. -/
theorem parts_single (rails idle : List Nat) (f : Fn) (r a : Nat) (hr : r < rails.length) (ha : 0 < a) :
    (List.range rails.length).flatMap (fun x => shareOut (rails.getD x 0 - idle.getD x 0) (gather
      ((([{ fn := f, rail := r, activity := a }] : List EnergyShare).filter (fun y => y.rail == x && y.activity != 0)).map (fun y => (y.fn.val, y.activity))))) =
      [(f.val, rails.getD r 0 - idle.getD r 0)] := by
  have hone : ∀ x, shareOut (rails.getD x 0 - idle.getD x 0) (gather
      ((([{ fn := f, rail := r, activity := a }] : List EnergyShare).filter (fun y => y.rail == x && y.activity != 0)).map (fun y => (y.fn.val, y.activity)))) =
      if x = r then [(f.val, rails.getD r 0 - idle.getD r 0)] else [] := fun x => by
    by_cases hx : x = r
    · subst hx
      rw [if_pos rfl, List.filter_cons_of_pos (by simp [Nat.ne_of_gt ha]), List.filter_nil, List.map_singleton, gather_single, shareOut_single _ _ _ ha]
    · rw [if_neg hx, List.filter_cons_of_neg (by simp [Ne.symm hx]), List.filter_nil]
      rfl
  rw [List.flatMap_congr (fun x _ => hone x)]
  generalize rails.length = n at hr
  induction n with
  | zero => omega
  | succ n ih =>
    rw [List.range_succ, List.flatMap_append]
    by_cases hn : r = n
    · subst hn
      have hnil : (List.range r).flatMap (fun x => if x = r then [(f.val, rails.getD r 0 - idle.getD r 0)] else []) = [] := by
        refine List.flatMap_eq_nil_iff.2 fun x hx => if_neg ?_
        have := List.mem_range.1 hx
        omega
      rw [hnil]
      simp
    · rw [ih (by omega)]
      simp [Ne.symm hn]

/-- Energy charged to a function adds to its account. -/
theorem State.chargeEnergy_charges (s : State) (f n : Nat) : ((s.chargeEnergy f n).fnp.acct.get {} f).energy = satAdd64 (s.fnp.acct.get {} f).energy n ∧
    (s.chargeEnergy f n).fnp.unattributed = s.fnp.unattributed := by
  unfold State.chargeEnergy
  extract_lets u ws
  have hkeep := State.foldl_keeps (fun v => (v.fnp.acct, v.fnp.unattributed))
    (f := fun v (x : Nat × Nat) => v.chargeTo x.1 (fun a => { a with energy := satAdd64 a.energy x.2 })) (fun v x => rfl) (shareOut n ws) u
  obtain ⟨hacct, hun⟩ := Prod.mk.inj hkeep
  rw [hacct, hun]
  exact ⟨(congrArg FnAcct.energy (acct_charge_same s f (fun a => { a with energy := satAdd64 a.energy n })) :), rfl⟩

theorem energyTick_charges (rails inputs idle : List Nat) (f : Fn) {r a : Nat} (hup : s.keeper.up = true) (hbusy : s.keeper.kbusy = false)
    (hr : r < rails.length) (ha : 0 < a) : ∃ t, exec (.energyTick rails inputs idle [{ fn := f, rail := r, activity := a }]) s = .next t ∧ s.onlyChanges t [.fnp] ∧
      (t.fnp.acct.get {} f).energy = satAdd64 (s.fnp.acct.get {} f).energy (rails.getD r 0 - idle.getD r 0) ∧
      t.fnp.unattributed = satAdd64 s.fnp.unattributed (max inputs.sum rails.sum - (rails.getD r 0 - idle.getD r 0)) := by
  have hexec : exec (.energyTick rails inputs idle [{ fn := f, rail := r, activity := a }]) s =
      execEnergyTick rails inputs idle [{ fn := f, rail := r, activity := a }] s := rfl
  simp only [execEnergyTick, hup, hbusy, Bool.not_true, Bool.or_self, Bool.false_eq_true, if_false] at hexec
  rw [parts_single rails idle f r a hr ha, gather_single] at hexec
  simp only [List.foldl_cons, List.foldl_nil, List.map_singleton, List.sum_singleton] at hexec
  obtain ⟨henergy, hun⟩ := s.chargeEnergy_charges f (rails.getD r 0 - idle.getD r 0)
  refine ⟨_, hexec, by simp, henergy, ?_⟩
  rw [← hun]
  rfl

/-- Settles O35. -/
theorem turnsAreCharged : Obligations.TurnsAreCharged := by
  unfold Obligations.TurnsAreCharged
  refine ⟨fun e el d w f ready able s df hrel hbusy hcur hable hdf => ?_, fun e el f s hcur => ⟨?_, ?_⟩,
    fun rails inputs idle f r a s hup hbusy hr ha => energyTick_charges rails inputs idle f hup hbusy hr ha⟩
  · have hexec := turnEnd_passes e el d w ready hrel hbusy hcur
    obtain ⟨heng, hkeep, hslice, hover⟩ := s.turnOver_keeps e f el d
    rw [← hdf] at heng
    have hready : (s.turnOver e f el d).able (s.readyOn e ready) = able := (hkeep _).trans hable.symm
    generalize s.turnOver e f el d = u at hexec heng hkeep hslice hover hready
    refine ⟨fun hnone => ?_, fun g hnext hlt => ?_⟩
    · rw [u.passTurn_idles e _ w (hready.trans hnone)] at hexec
      refine ⟨_, hexec, ?_, ?_, ?_⟩
      · rw [State.engSched_setEngSched_same]
      · rw [State.engSched_setEngSched_same, heng]
      · rw [← hover, ← (u.movedOn_keeps e).2]
        rfl
    · have hstart := u.passTurn_starts e (s.readyOn e ready) w (g := g) (by rw [hready, heng]; exact hnext) (by rw [heng, hslice]; exact hlt)
      rw [heng, hslice] at hstart
      refine ⟨_, hexec, ?_⟩
      rw [hstart]
      exact ⟨rfl, rfl, rfl, Tab.get_set_same _ _ _ _, fun k hk => Tab.get_set_other _ _ _ hk⟩
  · obtain ⟨t, hexec, honly, hpre⟩ := preempt_counts e el false hcur
    exact ⟨t, hexec, honly, hpre⟩
  · obtain ⟨t, hexec, -, hpre⟩ := preempt_counts e el true hcur
    exact ⟨t, hexec, hpre⟩

end
end Sys2Proof.Machine
end

section
namespace Sys2Proof.Machine
open Sys2Proof
section
variable {s t u : State} {i j n : Nat}

/-! ### O36: the responder answers -/

/-- The responder is reached: the Keeper runs with its mailboxes open, and the version is one it knows. -/
theorem State.spdm_reaches (r : SpdmReq) (body : State → State) (hup : s.keeper.up = true) (hbusy : s.keeper.kbusy = false)
    (hrec : s.keeper.recovery = false) (hopen : s.keeper.isOpen = true) (hv : r.version = 0x12 ∨ r.version = 0x13) : s.spdm r body = body s := by
  unfold State.spdm
  simp only [hup, hbusy, hrec, hopen, Bool.not_true, Bool.false_and, Bool.or_self, Bool.false_eq_true, if_false]
  rw [if_neg]
  rcases hv with hv | hv <;> rw [hv] <;> decide

/-- One measurement asked for. -/
theorem getMeasurements_one (r : SpdmReq) (hup : s.keeper.up = true) (hbusy : s.keeper.kbusy = false)
    (hrec : s.keeper.recovery = false) (hopen : s.keeper.isOpen = true) (hv : r.version = 0x12 ∨ r.version = 0x13) (h1 : 1 ≤ r.index) (h7 : r.index ≤ 7) :
    exec (.getMeasurements r) s = .next (if r.signed then
      (s.answer (.measurements [(r.index, s.measurement r.index)] (some (s.signed (s.measurement r.index ++ r.nonce))))).useFree
      else s.answer (.measurements [(r.index, s.measurement r.index)] none)) := by
  refine congrArg Host.Outcome.next ((s.spdm_reaches r _ hup hbusy hrec hopen hv).trans ?_)
  have hone : r.index ≠ 0xFF := by omega
  have hin : ([r.index].any (fun i => decide (7 < i) || i == 0)) = false := by
    simp only [List.any_cons, List.any_nil, Bool.or_false, Bool.or_eq_false_iff, decide_eq_false_iff_not, beq_eq_false_iff_ne]
    omega
  simp only [hone, if_false, hin, Bool.false_eq_true, List.map_singleton, List.flatMap_singleton]

/-- Every measurement asked for. -/
theorem getMeasurements_all (r : SpdmReq) (hup : s.keeper.up = true) (hbusy : s.keeper.kbusy = false)
    (hrec : s.keeper.recovery = false) (hopen : s.keeper.isOpen = true) (hv : r.version = 0x12 ∨ r.version = 0x13) (hall : r.index = 0xFF)
    (hsigned : r.signed = false) :
    exec (.getMeasurements r) s = .next (s.answer (.measurements (([1, 2, 3, 4, 5, 6, 7] : List Nat).map (fun i => (i, s.measurement i))) none)) := by
  refine congrArg Host.Outcome.next ((s.spdm_reaches r _ hup hbusy hrec hopen hv).trans ?_)
  have hin : (([1, 2, 3, 4, 5, 6, 7] : List Nat).any (fun i => decide (7 < i) || i == 0)) = false := by decide
  simp only [hall, if_true, hin, hsigned, Bool.false_eq_true, if_false]

/-- Settles O36. -/
theorem theResponderAnswers : Obligations.TheResponderAnswers := by
  unfold Obligations.TheResponderAnswers
  intro r s hup hbusy hrec hopen
  have hreach : ∀ (q : SpdmReq) (body : State → State), q.version = 0x12 ∨ q.version = 0x13 → s.spdm q body = body s :=
    fun q body hv => s.spdm_reaches q body hup hbusy hrec hopen hv
  refine ⟨?_, fun c => ?_, fun hv => ⟨?_, fun hok => ?_, ?_, fun o n ho => ⟨_, ?_, rfl⟩, ⟨s.signed (daymarkChain ++ r.nonce), ?_⟩, fun h1 h7 hs => ?_,
    fun h1 h7 hs => ⟨s.signed (s.measurement r.index ++ r.nonce), ?_⟩,
    fun hall hs => ⟨_, getMeasurements_all r hup hbusy hrec hopen hv hall hs, rfl, fun x hx => ?_⟩⟩⟩
  · exact congrArg Host.Outcome.next (hreach _ _ (.inl rfl))
  · exact congrArg Host.Outcome.next (hreach _ _ (.inl rfl))
  · exact congrArg Host.Outcome.next (hreach r _ hv)
  · exact congrArg Host.Outcome.next ((hreach r _ hv).trans (if_pos hok))
  · exact congrArg Host.Outcome.next (hreach r _ hv)
  · exact congrArg Host.Outcome.next ((hreach r _ hv).trans (if_neg (by simpa using ho)))
  · exact congrArg Host.Outcome.next ((hreach r _ hv).trans (if_neg (by simp)))
  · rw [getMeasurements_one r hup hbusy hrec hopen hv h1 h7, hs, if_neg Bool.false_ne_true]
  · rw [getMeasurements_one r hup hbusy hrec hopen hv h1 h7, hs, if_pos rfl]
  · obtain ⟨i, -, rfl⟩ := List.mem_map.1 hx
    rfl

/-! ### O37: sessions and streams -/

/-- The session a request came in is one that is established. -/
theorem State.mem_of_inSession {r : SpdmReq} {x : Session} (h : s.inSession r = some x) : x ∈ s.sec.sessions := by
  obtain ⟨k, -, hfind⟩ := Option.bind_eq_some_iff.1 h
  exact List.mem_of_find?_eq_some hfind

/-- Flits lost end long operations and begin none. -/
theorem State.ops_flitsLost (s : State) (o : LongOp) : (s.flitsLost o).keeper.ops ⊆ s.keeper.ops ∧ (s.flitsLost o).sec = s.sec ∧
    (o.kind = .transfer → o ∉ (s.flitsLost o).keeper.ops) := by
  have hdone : ∀ u : State, u.keeper.ops = s.keeper.ops → (u.opDone o codeDescriptor).keeper.ops ⊆ s.keeper.ops := fun u hu => by
    rw [State.ops_opDone, hu]
    exact List.filter_subset_self _
  unfold State.flitsLost
  split
  next h => exact ⟨hdone _ rfl, (State.sec_opDone _ _ _).trans rfl, fun ht => by rw [h] at ht; cases ht⟩
  next h => exact ⟨hdone _ rfl, (State.sec_opDone _ _ _).trans rfl, fun ht => by rw [h] at ht; cases ht⟩
  next h => exact ⟨hdone _ rfl, (State.sec_opDone _ _ _).trans rfl, fun ht => by rw [h] at ht; cases ht⟩
  next => exact ⟨hdone _ rfl, State.sec_opDone _ _ _, fun _ => State.not_mem_ops_opDone _ _ _⟩
  next => exact ⟨hdone _ rfl, State.sec_opDone _ _ _, fun _ => State.not_mem_ops_opDone _ _ _⟩
  next h _ => exact ⟨List.Subset.refl _, rfl, fun ht => absurd ht h⟩

theorem State.ops_flitsLosts (l : List LongOp) : ∀ s : State, (l.foldl State.flitsLost s).keeper.ops ⊆ s.keeper.ops ∧
    (l.foldl State.flitsLost s).sec = s.sec ∧ ∀ o ∈ l, o.kind = .transfer → o ∉ (l.foldl State.flitsLost s).keeper.ops := by
  induction l with
  | nil => exact fun s => ⟨List.Subset.refl _, rfl, nofun⟩
  | cons x l ih =>
    intro s
    obtain ⟨hsub, hsec, hgone⟩ := s.ops_flitsLost x
    obtain ⟨hsub', hsec', hgone'⟩ := ih (s.flitsLost x)
    refine ⟨fun _ h => hsub (hsub' h), hsec'.trans hsec, fun o ho hk => ?_⟩
    rcases List.mem_cons.1 ho with rfl | ho
    · exact fun hin => hgone hk (hsub' hin)
    · exact hgone' o ho hk

/-- A stream of the link made Insecure. -/
def SecPart.insecure (x : SecPart) (cachemem : Bool) : SecPart :=
  if cachemem then { x with ideCm := { x.ideCm with secure := false } } else { x with ideIo := { x.ideIo with secure := false } }

theorem ideFault_insecures (c : Bool) (n : Nat) (hit : List (Nat × Nat)) (hkeyed : (if c then s.sec.ideCm else s.sec.ideIo).keyed = true) :
    ∃ t, exec (.ideFault c n hit) s = .next t ∧ t.sec = s.sec.insecure c ∧
      ∀ o ∈ s.keeper.ops, o.kind = .transfer → (o.fn.val, o.seq) ∈ hit → o ∉ t.keeper.ops := by
  have hexec : exec (.ideFault c n hit) s = _ := congrArg Host.Outcome.next (if_neg (by rw [hkeyed]; decide))
  refine ⟨_, hexec, ?_, fun o ho hk hin => ?_⟩
  · rw [State.sec_healthEvent, (State.ops_flitsLosts _ _).2.1]
    cases c <;> rfl
  · rw [State.ops_healthEvent]
    refine (State.ops_flitsLosts _ _).2.2 o (List.mem_filter.2 ⟨ho, ?_⟩) hk
    exact List.any_eq_true.2 ⟨_, hin, by simp⟩

/-- A key exchange opens a session that is not yet established. -/
theorem State.keyExchange_opens (s : State) (r : SpdmReq) (body : State) (id : Nat)
    (hbody : body = ((s.setSec { s.sec with sessions := s.sec.sessions ++ [{ id := id, secret := Config.sessionSecret s.fresh, established := false, updates := 0 }] }).answer
      (.keyExchangeRsp id (s.signed (daymarkChain ++ r.nonce)))).useFree) :
    ∃ x, body.sec.sessions = s.sec.sessions ++ [x] ∧ x.established = false ∧ (∃ sig, body.sec.response = some (.keyExchangeRsp x.id sig)) ∧
      s.onlyChanges body [.sec, .outbox, .fresh] := by
  subst hbody
  refine ⟨{ id := id, secret := Config.sessionSecret s.fresh, established := false, updates := 0 }, ?_, rfl,
    ⟨s.signed (daymarkChain ++ r.nonce), ?_⟩, by simp⟩
  · rw [State.sec_useFree]
    rfl
  · rw [State.sec_useFree]
    rfl

/-- Settles O37. -/
theorem sessionsAndStreams : Obligations.SessionsAndStreams := by
  unfold Obligations.SessionsAndStreams
  refine ⟨fun r s hup hbusy hrec hopen hv => ?_, fun n hit s hkeyed => ?_, fun n hit s hkeyed => ?_⟩
  · have hreach : ∀ body : State → State, s.spdm r body = body s := fun body => s.spdm_reaches r body hup hbusy hrec hopen hv
    refine ⟨fun hlt => ?_, fun hle => ?_, fun x hx hid hnew => ?_, fun x hx => ⟨?_, ?_, ?_, fun key => ?_, fun key => ?_⟩⟩
    · have hexec : exec (.keyExchange r) s = _ := congrArg Host.Outcome.next ((hreach _).trans (if_neg (by omega)))
      obtain ⟨x, h⟩ := s.keyExchange_opens r _ (if s.sec.sessions.any (fun x => x.id == 1) then 2 else 1) rfl
      exact ⟨_, x, hexec, h⟩
    · exact congrArg Host.Outcome.next ((hreach _).trans (if_pos hle))
    · have hany : (s.sec.sessions.any (fun x => some x.id == r.session && !x.established)) = true :=
        List.any_eq_true.2 ⟨x, hx, by rw [hid, hnew]; simp⟩
      have hexec : exec (.finish r) s = _ := congrArg Host.Outcome.next ((hreach _).trans (if_pos hany))
      exact ⟨_, hexec, rfl, List.mem_map.2 ⟨x, hx, if_pos (by rw [hid]; simp)⟩⟩
    · refine congrArg Host.Outcome.next ((hreach _).trans ?_)
      rw [hx]
      rfl
    · have hexec : exec (.endSession r) s = .next (s.spdm r _) := rfl
      rw [hreach] at hexec
      simp only [hx] at hexec
      refine ⟨_, hexec, rfl, fun y hy => ?_⟩
      have hne := (List.mem_filter.1 (show y ∈ s.sec.sessions.filter (fun y => y.id != x.id) from hy)).2
      simpa using hne
    · have hexec : exec (.keyUpdate r) s = .next (s.spdm r _) := rfl
      rw [hreach] at hexec
      simp only [hx] at hexec
      exact ⟨_, hexec, rfl, List.mem_map.2 ⟨x, State.mem_of_inSession hx, if_pos rfl⟩⟩
    · have hexec : exec (.ideKm r true key) s = _ := congrArg Host.Outcome.next ((hreach _).trans (if_neg (by rw [hx]; exact Bool.false_ne_true)))
      exact ⟨_, hexec, rfl, rfl⟩
    · have hexec : exec (.ideKm r false key) s = _ := congrArg Host.Outcome.next ((hreach _).trans (if_neg (by rw [hx]; exact Bool.false_ne_true)))
      exact ⟨_, hexec, rfl, rfl⟩
  · obtain ⟨t, hexec, hsec, hops⟩ := ideFault_insecures (s := s) false n hit hkeyed
    rw [SecPart.insecure, if_neg Bool.false_ne_true] at hsec
    exact ⟨t, hexec, by rw [hsec], by rw [hsec], hops⟩
  · obtain ⟨t, hexec, hsec, -⟩ := ideFault_insecures (s := s) true n hit hkeyed
    rw [SecPart.insecure, if_pos rfl] at hsec
    exact ⟨t, hexec, by rw [hsec], by rw [hsec]⟩

end
end Sys2Proof.Machine
end

/-! # The exchange, the decision and the commit (O38 to O43) -/

section
namespace Sys2Proof.Machine
open Sys2Proof
section
variable {s t u : State} {i j n : Nat}

/-! ### What the end of a command leaves -/

/-- A run but for the times of its phases. -/
def Run.untimed (r : Run) : Run := { r with phaseOn := [], phaseTime := [] }

@[simp] theorem State.untimed_phaseStop (s : State) (p : Phase) : (s.phaseStop p).run.untimed = s.run.untimed := by
  unfold State.phaseStop
  split <;> rfl

@[simp] theorem State.untimed_phaseStart (s : State) (p : Phase) : (s.phaseStart p).run.untimed = s.run.untimed := by
  unfold State.phaseStart
  split <;> rfl

@[simp] theorem State.untimed_settlePhases (s : State) : s.settlePhases.run.untimed = s.run.untimed := by
  unfold State.settlePhases
  split
  · rfl
  · simp only []
    split
    · rfl
    · split
      · split <;> simp
      · split <;> split <;> simp

theorem State.groups_setProgs (s : State) (v : Tab Prog) : (s.setProg { s.prog with progs := v }).prog.groups = s.prog.groups := rfl

theorem State.groups_settleProg (s : State) (h : Nat) : (s.settleProg h).prog.groups = s.prog.groups := by
  unfold State.settleProg
  split
  · rfl
  · split <;> rfl

theorem State.groups_took (s : State) (c : Src) (tile kind num : Nat) : (s.took c tile kind num).prog.groups = s.prog.groups := by
  have hturn : (s.serveTurn c tile kind num).prog = s.prog := State.same_of_but (p := .prog) (by simp)
  unfold State.took
  simp only []
  split
  · rw [hturn]
  · split
    · rw [hturn]
    · rw [State.groups_setProgs, hturn]

/-- A command that ends leaves the run but for its phases' times, and the parameter groups. -/
theorem State.finish_keeps (s : State) (c : Src) (tile kind num : Nat) : (s.finish c tile kind num).run.untimed = s.run.untimed ∧
    (s.finish c tile kind num).prog.groups = s.prog.groups := by
  have htook : (s.took c tile kind num).run = s.run := State.same_of_but (p := .run) (by simp)
  have hgroups := s.groups_took c tile kind num
  unfold State.finish State.cmdDone
  generalize s.took c tile kind num = u at htook hgroups
  split
  · exact ⟨by rw [htook], hgroups⟩
  next p hp =>
    simp only []
    have hphases : ∀ v : State, v.settlePhases.prog = v.prog := fun v => State.same_of_but (p := .prog) (by simp)
    have hprog : ∀ v : State, (v.settleProg c.handle).run = v.run := fun v => State.same_of_but (p := .run) (by simp)
    constructor
    · rw [hprog, State.untimed_settlePhases]
      exact congrArg Run.untimed htook
    · rw [State.groups_settleProg, hphases, State.groups_setProgs, hgroups]

/-! ### O38: collectives move data -/

theorem moves_of_noPorts (h : t.link.noPorts = s.link.noPorts) : t.link.moves = s.link.moves := (congrArg LinkPart.moves h :)

theorem inbox_of_noPorts (h : t.link.noPorts = s.link.noPorts) : t.link.inbox = s.link.inbox := (congrArg LinkPart.inbox h :)

theorem State.noPorts_sendBytes (s : State) (mv dest off : Nat) (bs : List Byte) : (s.sendBytes mv dest off bs).link.noPorts = s.link.noPorts := by
  unfold State.sendBytes
  exact State.foldl_keeps (fun u => u.link.noPorts) (fun u x => u.noPorts_sendTo _) _ s

/-- A move that is opened stands among the moves. -/
theorem State.mem_openMove (s : State) (mv dest len : Nat) : ∃ m ∈ (s.openMove mv dest len).link.moves, m.move = mv ∧ m.dest = dest := by
  unfold State.openMove
  split
  next h =>
    obtain ⟨m, hm, hk⟩ := List.any_eq_true.1 h
    have hkey := hk
    rw [Bool.and_eq_true, beq_iff_eq, beq_iff_eq] at hkey
    exact ⟨{ m with bytes := m.bytes + len }, List.mem_map.2 ⟨m, hm, if_pos hk⟩, hkey⟩
  next => exact ⟨_, List.mem_append_right _ (List.mem_singleton.2 rfl), rfl, rfl⟩

theorem send_opens (c : Src) (mv dest a off len : Nat) {x : Nat} (htake : s.collTakes c = true) (hplace : s.placeOf a = .here x)
    (hloc : localOk x len = true) : ∃ t, exec (.collectiveStep c (.send mv dest a off len)) s = .next t ∧ t.mem = s.mem ∧
      ∃ m ∈ t.link.moves, m.move = mv ∧ m.dest = dest := by
  have hexec : exec (.collectiveStep c (.send mv dest a off len)) s = execCollectiveStep c (.send mv dest a off len) s := rfl
  simp only [execCollectiveStep, htake, hplace, hloc, Bool.not_true, Bool.false_eq_true, if_false, if_true] at hexec
  refine ⟨_, hexec, State.same_of_but (p := .mem) (by simp), ?_⟩
  have hcharge : ∀ (u : State) w k, (((u.countBytes 4 c.fn x len w).addBytes 4 c.fn k len).finish c 0xFF 10 0).link = u.link := fun u w k =>
    State.same_of_but (p := .link) (by simp)
  rw [hcharge, moves_of_noPorts (State.noPorts_sendBytes _ _ _ _ _)]
  exact State.mem_openMove _ _ _ _

theorem recv_waits (c : Src) (mv src a off len : Nat) (fwd : Option Nat) {x : Nat} (htake : s.collTakes c = true) (hplace : s.placeOf a = .here x)
    (hloc : localOk x len = true) (hnone : s.received src mv off len = none) : exec (.collectiveStep c (.recv mv src a off len fwd)) s = .next s := by
  have hexec : exec (.collectiveStep c (.recv mv src a off len fwd)) s = execCollectiveStep c (.recv mv src a off len fwd) s := rfl
  simpa only [execCollectiveStep, htake, hplace, hloc, hnone, Bool.not_true, Bool.false_eq_true, if_false, if_true] using hexec

/-- What a receiving step does with the data that has arrived. -/
def State.takeIn (s : State) (c : Src) (mv src x off len : Nat) (data : List Byte) : State :=
  let s := ((s.setMem (Mem.writeN s.mem x data)).countBytes 4 c.fn x len true).addBytes 4 c.fn bytesWidunIn len
  (s.takeArrivals src mv off len).fetched x len

theorem recv_takes (c : Src) (mv src a off len : Nat) (fwd : Option Nat) {x : Nat} {data : List Byte} (htake : s.collTakes c = true)
    (hplace : s.placeOf a = .here x) (hloc : localOk x len = true) (hdata : s.received src mv off len = some data) :
    exec (.collectiveStep c (.recv mv src a off len fwd)) s = .next (match fwd with
      | none => (s.takeIn c mv src x off len data).finish c 0xFF 10 0
      | some k => (((((s.takeIn c mv src x off len data).openMove mv k len).sendBytes mv k off data).addBytes 4 c.fn bytesWidunOut len)).finish c 0xFF 10 0) := by
  have hexec : exec (.collectiveStep c (.recv mv src a off len fwd)) s = execCollectiveStep c (.recv mv src a off len fwd) s := rfl
  simp only [execCollectiveStep, htake, hplace, hloc, hdata, Bool.not_true, Bool.false_eq_true, if_false, if_true] at hexec
  rw [hexec]
  cases fwd <;> rfl

theorem State.takeIn_takes (s : State) (c : Src) (mv src x off len : Nat) (data : List Byte) :
    (s.takeIn c mv src x off len data).mem = Mem.writeN s.mem x data ∧ (s.takeIn c mv src x off len data).link.moves = s.link.moves ∧
    ∀ e ∈ (s.takeIn c mv src x off len data).link.inbox, e.src = src → e.move = mv → off ≤ e.off → e.off < off + len → e.data = [] := by
  unfold State.takeIn
  extract_lets u
  have hmem : u.mem = Mem.writeN s.mem x data := State.same_of_but (s := s.setMem (Mem.writeN s.mem x data)) (p := .mem) (by simp [u])
  have hlink : u.link = s.link := State.same_of_but (p := .link) (by simp [u])
  have hfetched : ((u.takeArrivals src mv off len).fetched x len).link = (u.takeArrivals src mv off len).link := State.same_of_but (p := .link) (by simp)
  have hports : (u.takeArrivals src mv off len).link.noPorts = (u.setLink { u.link with inbox := u.link.inbox.map (fun e =>
      if e.src == src && e.move == mv && decide (off ≤ e.off) && decide (e.off < off + len) then { e with data := [] } else e) }).link.noPorts :=
    State.noPorts_sendTo _ _
  refine ⟨(State.same_of_but (p := .mem) (by simp)).trans hmem, ?_, fun e he hsrc hmv hlo hhi => ?_⟩
  · rw [hfetched, moves_of_noPorts hports, ← hlink]
    rfl
  · rw [hfetched, inbox_of_noPorts hports] at he
    obtain ⟨e₀, -, rfl⟩ := List.mem_map.1 he
    split
    next => rfl
    next hno =>
      rw [if_neg hno] at hsrc hmv hlo hhi
      exact absurd (by simp [hsrc, hmv, hlo, hhi]) hno

/-! Contributions -/

theorem shards_of_untimed (h : t.run.untimed = s.run.untimed) (i : Nat) : t.shard i = s.shard i :=
  (congrArg (fun r : Run => Tab.get r.shards {} i) h :)

/-- A shard closed keeps what its owner contributed and when its stopwatch started. -/
theorem State.shard_closeShard (s : State) (i : Nat) (d : ShardDesc) : ((s.closeShard i d).shard i).own = (s.shard i).own ∧
    ((s.closeShard i d).shard i).ownNorms = (s.shard i).ownNorms ∧ ((s.closeShard i d).shard i).armed = (s.shard i).armed ∧
    ((s.closeShard i d).shard i).armedAt = (s.shard i).armedAt := by
  unfold State.closeShard
  extract_lets x own onTime fold folded vals m m' missing late miss s₁ s₂ s₃
  have hshard := Tab.get_set_same s₂.run.shards {} { x with closed := true, missed := missing } i
  exact ⟨(congrArg ShardSt.own hshard :), (congrArg ShardSt.ownNorms hshard :), (congrArg ShardSt.armed hshard :),
    (congrArg ShardSt.armedAt hshard :)⟩

theorem State.shard_tryClose (s : State) (i : Nat) (d : ShardDesc) : ((s.tryClose i d).shard i).own = (s.shard i).own ∧
    ((s.tryClose i d).shard i).ownNorms = (s.shard i).ownNorms ∧ ((s.tryClose i d).shard i).armed = (s.shard i).armed ∧
    ((s.tryClose i d).shard i).armedAt = (s.shard i).armedAt := by
  unfold State.tryClose
  simp only []
  split
  · exact s.shard_closeShard i d
  · exact ⟨rfl, rfl, rfl, rfl⟩

@[simp] theorem State.shard_setShard_same (s : State) (i : Nat) (v : ShardSt) : (s.setShard i v).shard i = v := Tab.get_set_same _ _ _ _

/-- The norms a single plane's own contribution brings. -/
def State.planeNorms (s : State) (d : ShardDesc) : List Word :=
  match s.prog.groups.find? d.group with
  | some g => if d.tiles.length = 1 then readNorms s.mem d g else []
  | none => []

/-- The state in which a contribution is formed: the shard has its own part. -/
def State.formed (s : State) (i : Nat) (d : ShardDesc) : State :=
  (s.phaseStop .learn).setShard i { (s.phaseStop .learn).shard i with own := some (s.ownContribution d), ownNorms := s.planeNorms d }

theorem State.contribute_eq (s : State) (i : Nat) (d : ShardDesc) (hidle : s.spanIdle = false) : s.contribute i d =
    if (s.formed i d).ownerOf d = (s.formed i d).moduleId then
      ((s.formed i d).setShard i { (s.formed i d).shard i with armed := true, armedAt := (s.formed i d).watch 4 }).tryClose i d
    else (s.formed i d).send (.contribution i ((s.formed i d).ownerOf d) (s.formed i d).run.step (s.ownContribution d) (s.planeNorms d) (s.formed i d).run.ovf) := by
  unfold State.contribute
  rw [hidle, if_neg Bool.false_ne_true]
  rfl

/-- Forming a contribution changes the shard's own part and a phase's time. -/
theorem State.formed_keeps (s : State) (i : Nat) (d : ShardDesc) : s.onlyChanges (s.formed i d) [.run] ∧
    ((s.formed i d).shard i).own = some (s.ownContribution d) ∧ ((s.formed i d).shard i).ownNorms = s.planeNorms d ∧
    (s.formed i d).run.step = s.run.step ∧ (s.formed i d).run.ovf = s.run.ovf ∧ (s.formed i d).run.absent = s.run.absent := by
  have hrun := s.untimed_phaseStop .learn
  unfold State.formed
  rw [State.shard_setShard_same]
  exact ⟨by simp, rfl, rfl, (congrArg Run.step hrun :), (congrArg Run.ovf hrun :), (congrArg Run.absent hrun :)⟩

/-- The parts of the state a shard's owner is found by. -/
theorem State.ownerOf_congr (d : ShardDesc) (hlink : t.link = s.link) (habs : t.run.absent = s.run.absent) : t.ownerOf d = s.ownerOf d := by
  unfold State.ownerOf
  rw [hlink, habs]

theorem State.contribute_forms (s : State) (i : Nat) (d : ShardDesc) (hidle : s.spanIdle = false) :
    ((s.contribute i d).shard i).own = some (s.ownContribution d) ∧ ((s.contribute i d).shard i).ownNorms = s.planeNorms d ∧
    (s.ownerOf d = s.moduleId → ((s.contribute i d).shard i).armed = true ∧ ((s.contribute i d).shard i).armedAt = s.watch 4) ∧
    (s.ownerOf d ≠ s.moduleId → (s.contribute i d).mem = s.mem ∧
      (s.contribute i d).outbox = .contribution i (s.ownerOf d) s.run.step (s.ownContribution d) (s.planeNorms d) s.run.ovf :: s.outbox) := by
  obtain ⟨honly, hown, hnorms, hstep, hovf, habs⟩ := s.formed_keeps i d
  rw [s.contribute_eq i d hidle]
  generalize s.formed i d = v at *
  have hlink : v.link = s.link := State.same_of_but (p := .link) (State.onlyChanges_mono honly (by decide))
  have hpwr : v.pwr = s.pwr := State.same_of_but (p := .pwr) (State.onlyChanges_mono honly (by decide))
  have hmem : v.mem = s.mem := State.same_of_but (p := .mem) (State.onlyChanges_mono honly (by decide))
  have hout : v.outbox = s.outbox := State.same_of_but (p := .outbox) (State.onlyChanges_mono honly (by decide))
  have hid : v.moduleId = s.moduleId := congrArg PwrPart.position hpwr
  have hwatch : v.watch 4 = s.watch 4 := congrArg (fun p : PwrPart => p.watches.get 0 4) hpwr
  rw [State.ownerOf_congr d hlink habs, hid, hwatch]
  by_cases howner : s.ownerOf d = s.moduleId
  · rw [if_pos howner]
    obtain ⟨h1, h2, h3, h4⟩ := (v.setShard i { v.shard i with armed := true, armedAt := s.watch 4 }).shard_tryClose i d
    rw [h1, h2, h3, h4, State.shard_setShard_same]
    exact ⟨hown, hnorms, fun _ => ⟨rfl, rfl⟩, fun h => absurd howner h⟩
  · rw [if_neg howner]
    refine ⟨hown, hnorms, fun h => absurd h howner, fun _ => ⟨hmem, ?_⟩⟩
    rw [← hout, ← hstep, ← hovf]
    rfl

theorem contribute_forms (c : Src) {i : Nat} {d : ShardDesc} (htake : s.collTakes c = true) (hd : s.shardDesc i = some d) (hact : s.run.active = true)
    (hrejoin : s.run.needRejoin = false) (hsilent : s.run.silent = false) (hidle : s.spanIdle = false) (hnone : (s.shard i).own = none) :
    ∃ t, exec (.collectiveStep c (.contribute i)) s = .next t ∧ (t.shard i).own = some (s.ownContribution d) ∧
        (∀ g, s.prog.groups.find? d.group = some g → d.tiles.length = 1 → (t.shard i).ownNorms = readNorms s.mem d g) ∧
        (s.ownerOf d = s.moduleId → (t.shard i).armed = true ∧ (t.shard i).armedAt = s.watch 4) ∧
        (s.ownerOf d ≠ s.moduleId → t.mem = s.mem ∧
          t.outbox = .contribution i (s.ownerOf d) s.run.step (s.ownContribution d) (t.shard i).ownNorms s.run.ovf :: s.outbox) := by
  have hexec : exec (.collectiveStep c (.contribute i)) s = execCollectiveStep c (.contribute i) s := rfl
  simp only [execCollectiveStep, htake, hd, Bool.not_true, Bool.false_eq_true, if_false] at hexec
  obtain ⟨huntimed, hgroups⟩ := s.finish_keeps c 0xFF 10 0
  have honly : s.onlyChanges (s.finish c 0xFF 10 0) [.prog, .run, .sched] := by simp
  generalize s.finish c 0xFF 10 0 = v at *
  have hlink : v.link = s.link := State.same_of_but (p := .link) (State.onlyChanges_mono honly (by decide))
  have hpwr : v.pwr = s.pwr := State.same_of_but (p := .pwr) (State.onlyChanges_mono honly (by decide))
  have hmem : v.mem = s.mem := State.same_of_but (p := .mem) (State.onlyChanges_mono honly (by decide))
  have hout : v.outbox = s.outbox := State.same_of_but (p := .outbox) (State.onlyChanges_mono honly (by decide))
  have hid : v.moduleId = s.moduleId := congrArg PwrPart.position hpwr
  have hwatch : v.watch 4 = s.watch 4 := congrArg (fun p : PwrPart => p.watches.get 0 4) hpwr
  have howner : v.ownerOf d = s.ownerOf d := State.ownerOf_congr d hlink (congrArg Run.absent huntimed :)
  have hidle' : v.spanIdle = false := by
    unfold State.spanIdle at hidle ⊢
    rw [hlink, hid]
    exact hidle
  have hown : v.ownContribution d = s.ownContribution d := by
    unfold State.ownContribution State.shardCols
    rw [hgroups, hmem]
  have hplane : v.planeNorms d = s.planeNorms d := by
    unfold State.planeNorms
    rw [hgroups, hmem]
  have hcond : (!v.run.active || v.run.needRejoin || v.run.silent || (v.shard i).own.isSome) = false := by
    have hactive : v.run.active = s.run.active := (congrArg Run.active huntimed :)
    have hneed : v.run.needRejoin = s.run.needRejoin := (congrArg Run.needRejoin huntimed :)
    have hsil : v.run.silent = s.run.silent := (congrArg Run.silent huntimed :)
    rw [shards_of_untimed huntimed, hnone, hactive, hneed, hsil, hact, hrejoin, hsilent]
    rfl
  rw [hcond, if_neg Bool.false_ne_true] at hexec
  obtain ⟨hforms, hnorms, harmed, hsent⟩ := v.contribute_forms i d hidle'
  refine ⟨_, hexec, hforms.trans (congrArg some hown), fun g hg hone => ?_, fun h => ?_, fun h => ?_⟩
  · rw [hnorms, hplane, State.planeNorms, hg]
    exact if_pos hone
  · obtain ⟨ha, hat⟩ := harmed (by rw [howner, hid]; exact h)
    exact ⟨ha, hat.trans hwatch⟩
  · obtain ⟨hm, ho⟩ := hsent (by rw [howner, hid]; exact h)
    refine ⟨hm.trans hmem, ?_⟩
    have hstep : v.run.step = s.run.step := (congrArg Run.step huntimed :)
    have hovf : v.run.ovf = s.run.ovf := (congrArg Run.ovf huntimed :)
    rw [ho, hnorms, howner, hown, hout, hstep, hovf]

/-! Reshards -/

/-- A reshard delivered to a tile, before its phase begins. -/
def State.deliverReshard (s : State) (i : Nat) (k : TileIx) (n : Nat) (p : Prog) (d : ReshardDesc) : State :=
  let x := s.run.reshards.get {} i
  let tiles := insertNat k x.tiles
  let s := s.setRun { s.run with reshards := s.run.reshards.set i { tiles := tiles, duration := max x.duration n } }
  let p := { p with delivered := p.delivered.upd 0 (i * 4 + k) (· + 1) }
  let s := s.setProg { s.prog with progs := s.prog.progs.set s.run.prog p }
  if d.tiles.all (fun k => tiles.contains k.val) then s.freeSources p d else s

/-- The receiving phase of a reshard begins. -/
def State.enterPhase (s : State) (phase : Nat) (k : TileIx) : State :=
  match phase with
  | 0 => s.startRollout k
  | 1 => if s.spanIdle then s else s.phaseStart .score
  | _ => s.settlePhases

theorem State.enterPhase_keeps (s : State) (phase : Nat) (k : TileIx) : s.onlyChanges (s.enterPhase phase k) [.run, .serve] ∧
    (s.enterPhase phase k).run.untimed = s.run.untimed := by
  unfold State.enterPhase
  split
  · exact ⟨by simp, (State.untimed_phaseStart _ _).trans rfl⟩
  · split
    · exact ⟨State.onlyChanges_refl _ _, rfl⟩
    · exact ⟨by simp, State.untimed_phaseStart _ _⟩
  · exact ⟨by simp, State.untimed_settlePhases _⟩

theorem reshardComplete_delivers {i n : Nat} {k : TileIx} {p : Prog} {d : ReshardDesc} (hbusy : s.keeper.kbusy = false) (hp : s.progAt s.run.prog = some p)
    (hd : p.img.reshards.find? (fun d => d.index == i) = some d) (hact : s.run.active = true) (ht : d.tiles.contains k = true) :
    exec (.reshardComplete i k n) s = .next (if s.reshardReady p d k then (s.deliverReshard i k n p d).enterPhase d.phase k else s) := by
  have hexec : exec (.reshardComplete i k n) s = execReshardComplete i k n s := rfl
  have hcond : (!s.run.active || !(d.tiles.contains k) || !s.reshardReady p d k) = !s.reshardReady p d k := by rw [hact, ht]; rfl
  simp only [execReshardComplete, hbusy, hp, hd, hcond, Bool.false_eq_true, if_false] at hexec
  rw [hexec]
  cases s.reshardReady p d k <;> rfl

theorem State.deliverReshard_delivers (s : State) (i : Nat) (k : TileIx) (n : Nat) (p : Prog) (d : ReshardDesc) :
    ((s.deliverReshard i k n p d).run.reshards.get {} i).tiles = insertNat k (s.run.reshards.get {} i).tiles ∧
    ((s.deliverReshard i k n p d).run.reshards.get {} i).duration = max (s.run.reshards.get {} i).duration n ∧
    (s.deliverReshard i k n p d).mem = s.mem ∧
    (s.deliverReshard i k n p d).progAt s.run.prog = some { p with delivered := p.delivered.upd 0 (i * 4 + k) (· + 1) } := by
  unfold State.deliverReshard
  extract_lets x tiles r u q pp v
  have hfree : ∀ w : State, (if d.tiles.all (fun k => tiles.contains k.val) then w.freeSources q d else w).run = w.run ∧
      (if d.tiles.all (fun k => tiles.contains k.val) then w.freeSources q d else w).mem = w.mem ∧
      (if d.tiles.all (fun k => tiles.contains k.val) then w.freeSources q d else w).prog = w.prog := fun w => by
    split <;> exact ⟨rfl, rfl, rfl⟩
  obtain ⟨hrun, hmem, hprog⟩ := hfree v
  have hreshard := Tab.get_set_same s.run.reshards {} { tiles := tiles, duration := max x.duration n } i
  rw [State.progAt, hrun, hmem, hprog]
  exact ⟨(congrArg ReshardSt.tiles hreshard :), (congrArg ReshardSt.duration hreshard :), rfl, Tab.find?_set_same _ _ _⟩

/-- Settles O38. -/
theorem collectivesMoveData : Obligations.CollectivesMoveData := by
  unfold Obligations.CollectivesMoveData
  refine ⟨fun c s htake => ⟨fun mv dest a off len x hplace hloc => send_opens c mv dest a off len htake hplace hloc,
    fun mv src a off len x fwd hplace hloc hnone => recv_waits c mv src a off len fwd htake hplace hloc hnone,
    fun mv src a off len x data hplace hloc hdata => ⟨?_, fun k => ?_⟩,
    fun i d hd hact hrejoin hsilent hidle hnone => contribute_forms c htake hd hact hrejoin hsilent hidle hnone,
    fun i d hd hact howner hclosed => ?_, fun m es hact hmirror => ?_⟩,
    fun i n k p d s hbusy hp hd hact ht => ⟨fun hready => ?_, fun hready => ?_⟩⟩
  · have hexec := recv_takes c mv src a off len none htake hplace hloc hdata
    obtain ⟨hmem, hmoves, hinbox⟩ := s.takeIn_takes c mv src x off len data
    generalize s.takeIn c mv src x off len data = u at hexec hmem hmoves hinbox
    have hlink : (u.finish c 0xFF 10 0).link = u.link := State.same_of_but (p := .link) (by simp)
    refine ⟨_, hexec, (State.same_of_but (p := .mem) (by simp)).trans hmem, ?_, ?_⟩
    · rw [hlink, hmoves]
    · rw [hlink]
      exact hinbox
  · have hexec := recv_takes c mv src a off len (some k) htake hplace hloc hdata
    obtain ⟨hmem, -, -⟩ := s.takeIn_takes c mv src x off len data
    generalize s.takeIn c mv src x off len data = u at hexec hmem
    have hlink : ∀ v : State, ((v.addBytes 4 c.fn bytesWidunOut len).finish c 0xFF 10 0).link = v.link := fun v => State.same_of_but (p := .link) (by simp)
    refine ⟨_, hexec, (State.same_of_but (s := u) (p := .mem) (by simp)).trans hmem, ?_⟩
    simp only []
    rw [hlink, moves_of_noPorts (State.noPorts_sendBytes _ _ _ _ _)]
    exact State.mem_openMove _ _ _ _
  · have hexec : exec (.collectiveStep c (.mirror i)) s = execCollectiveStep c (.mirror i) s := rfl
    simpa only [execCollectiveStep, htake, hd, hact, howner, hclosed, Bool.not_true, Bool.false_eq_true, if_false, beq_self_eq_true, Bool.and_self,
      if_true] using hexec
  · have hexec : exec (.collectiveStep c (.copies m es)) s = execCollectiveStep c (.copies m es) s := rfl
    simp only [execCollectiveStep, htake, hact, hmirror, Bool.not_true, Bool.false_eq_true, if_false, Bool.and_self, if_true] at hexec
    refine ⟨_, hexec, State.same_of_but (p := .mem) (by simp), fun e he hm hend => ?_⟩
    have hserve : ∀ v : State, (v.finish c 0xFF 10 0).serve = v.serve := fun v => State.same_of_but (p := .serve) (by simp)
    rw [hserve]
    exact List.mem_append_right _ (List.mem_filter.2 ⟨he, by simp [hm, hend]⟩)
  · rw [reshardComplete_delivers hbusy hp hd hact ht, hready, if_neg Bool.false_ne_true]
  · have hexec := reshardComplete_delivers (n := n) hbusy hp hd hact ht
    rw [hready, if_pos rfl] at hexec
    obtain ⟨htiles, hdur, hmem, hprog⟩ := s.deliverReshard_delivers i k n p d
    generalize s.deliverReshard i k n p d = u at hexec htiles hdur hmem hprog
    obtain ⟨honly, huntimed⟩ := u.enterPhase_keeps d.phase k
    have hreshards : (u.enterPhase d.phase k).run.reshards = u.run.reshards := (congrArg Run.reshards huntimed :)
    refine ⟨_, { p with delivered := p.delivered.upd 0 (i * 4 + k) (· + 1) }, hexec, ?_, ?_, ?_, ?_, Tab.get_upd_same p.delivered 0 (i * 4 + k) (· + 1)⟩
    · rw [hreshards, htiles]
      exact (mem_insertNat _ _ _).2 (.inl rfl)
    · rw [hreshards, hdur]
    · rw [State.same_of_but (p := .mem) (State.onlyChanges_mono honly (by decide)), hmem]
    · rw [State.progAt, State.same_of_but (p := .prog) (State.onlyChanges_mono honly (by decide))]
      exact hprog

end
end Sys2Proof.Machine
end

/-! ## O39: contributions arrive, and late ones are folded or dropped -/
section
namespace Sys2Proof.Machine
open Sys2Proof
section
variable {s t u : State} {i m k : Nat} {vals : List X32} {norms : List Word} {ovf : Bool} {d : ShardDesc}

/-- How long past the late limit of its step a contribution comes. -/
def State.latePast (s : State) (i k : Nat) : Nat := s.watch 4 - (s.armedIn (s.shard i) k + s.run.late)

/-- A contribution as it is kept with its shard. -/
def State.arrival (s : State) (i m k : Nat) (v : ShardVals) (late : Bool) : Contribution :=
  { module := m, step := k, vals := v.vals, norms := v.norms, late := late, past := if late then s.latePast i k else 0 }

/-- A late contribution noted with what became of it. -/
def State.noteLate (s : State) (i m k : Nat) (o : StragglerOutcome) : State :=
  s.setRun { s.run with stragglers := s.run.stragglers ++ [{ module := m, outcome := o, shard := i, past := some (s.latePast i k) }] }

/-- A contribution the owner takes in: on time or late, folded, or dropped. -/
def State.takeContribution (s : State) (i m k : Nat) (v : ShardVals) (ovf : Bool) (d : ShardDesc) : State :=
  if k = s.run.step then
    if (s.shard i).closed && ovf then (s.noteLate i m k .droppedOvf).lateOvf
    else (s.setShard i { s.shard i with arrived := (s.shard i).arrived ++ [s.arrival i m k v (s.shard i).closed] }).tryClose i d
  else if s.run.step < k then s
  else if ovf then (s.noteLate i m k .droppedOvf).lateOvf
  else if k + 1 = s.run.step && !(s.shard i).closed then
    s.setShard i { s.shard i with folded := (s.shard i).folded ++ [s.arrival i m k v true] }
  else s.noteLate i m k .dropped

theorem contributionArrival_takes (v : ShardVals) (hbehind : s.behind k = false) (hd : s.shardDesc i = some d) (hact : s.run.active = true)
    (howner : s.ownerOf d = s.moduleId) (hother : m ≠ s.moduleId) (hreplica : m ∈ d.replicas) (hpresent : m ∉ s.run.absent)
    (hnew : ∀ c ∈ (s.shard i).arrived ++ (s.shard i).folded, c.module = m → c.step ≠ k) :
    exec (.contributionArrival i m k v ovf) s = .next (s.takeContribution i m k v ovf d) := by
  have hknown : ((s.shard i).arrived ++ (s.shard i).folded).any (fun c => c.module == m && c.step == k) = false :=
    List.any_eq_false.2 fun c hc h => by
      simp only [Bool.and_eq_true, beq_iff_eq] at h
      exact hnew c hc h.1 h.2
  have hcond : (!s.run.active || s.ownerOf d != s.moduleId || m == s.moduleId || !(d.replicas.contains m) ||
      ((s.shard i).arrived ++ (s.shard i).folded).any (fun c => c.module == m && c.step == k) || s.run.absent.contains m) = false := by
    simp [hact, howner, hother, hreplica, hpresent, hknown]
  have hexec : exec (.contributionArrival i m k v ovf) s = execContributionArrival i m k v ovf s := rfl
  simp only [execContributionArrival, hbehind, hd, hcond, Bool.false_eq_true, if_false] at hexec
  rw [hexec]
  unfold State.takeContribution
  split
  · split <;> rfl
  · split
    · rfl
    · split
      · rfl
      · split <;> rfl

theorem behind_eq_false (h : k ≤ s.run.step) : s.behind k = false := by
  simp [State.behind, Nat.not_lt.2 h]

/-! The shard that takes it in -/

theorem State.arrived_tryClose (s : State) (i : Nat) (d : ShardDesc) : ((s.tryClose i d).shard i).arrived = (s.shard i).arrived := by
  unfold State.tryClose
  simp only []
  split
  · unfold State.closeShard
    extract_lets x own onTime fold folded vals m m' missing late miss s₁ s₂ s₃
    exact (congrArg ShardSt.arrived (Tab.get_set_same s₂.run.shards {} { x with closed := true, missed := missing } i) :)
  · rfl

theorem State.closed_closeShard (s : State) (i : Nat) (d : ShardDesc) : ((s.closeShard i d).shard i).closed = true := by
  unfold State.closeShard
  extract_lets x own onTime fold folded vals m m' missing late miss s₁ s₂ s₃
  exact (congrArg ShardSt.closed (Tab.get_set_same s₂.run.shards {} { x with closed := true, missed := missing } i) :)

theorem State.tryClose_waits (h : ((s.shard i).armed && !(s.shard i).closed) = false) : s.tryClose i d = s := by
  unfold State.tryClose
  simp [h]

theorem State.tryClose_closes (harmed : (s.shard i).armed = true)
    (hall : ∀ x ∈ s.contributors d, x = s.moduleId ∨ ∃ c ∈ (s.shard i).arrived, c.module = x ∧ c.late = false) :
    ((s.tryClose i d).shard i).closed = true := by
  have hhere : (s.contributors d).all (fun k => k == s.moduleId || (s.shard i).arrived.any (fun c => c.module == k && !c.late)) = true :=
    List.all_eq_true.2 fun x hx => by
      rcases hall x hx with hown | ⟨c, hc, hmod, hlate⟩
      · simp [hown]
      · exact Bool.or_eq_true_iff.2 (.inr (List.any_eq_true.2 ⟨c, hc, by simp [hmod, hlate]⟩))
  unfold State.tryClose
  simp only [harmed, hhere, Bool.true_and, Bool.and_true]
  cases hclosed : (s.shard i).closed
  · exact s.closed_closeShard i d
  · exact hclosed

/-! A late overflow, and a late contribution noted -/

theorem State.lateOvf_counts (s : State) : s.lateOvf.mem = s.mem ∧ s.lateOvf.run.shards = s.run.shards ∧
    s.lateOvf.run.stragglers = s.run.stragglers ∧ (s.run.reported = false → s.lateOvf.run.ovf = true) ∧
    (s.run.reported = true → s.lateOvf.run.updOvf = true) := by
  unfold State.lateOvf
  cases hrep : s.run.reported
  · exact ⟨rfl, rfl, rfl, fun _ => rfl, nofun⟩
  · refine ⟨?_, ?_, ?_, nofun, fun _ => ?_⟩ <;> (simp only [Bool.not_true, Bool.false_eq_true, if_false]; split <;> [rfl; (split <;> rfl)])

theorem State.takeContribution_dropsOvf (s : State) (i m k : Nat) (v : ShardVals) (d : ShardDesc) (h : k < s.run.step ∨ k = s.run.step ∧ (s.shard i).closed = true) :
    s.takeContribution i m k v true d = (s.noteLate i m k .droppedOvf).lateOvf := by
  unfold State.takeContribution
  rcases h with hlt | ⟨heq, hclosed⟩
  · rw [if_neg hlt.ne, if_neg hlt.not_gt, if_pos rfl]
  · rw [if_pos heq, hclosed]
    rfl

theorem State.takeContribution_drops (s : State) (i m k : Nat) (v : ShardVals) (d : ShardDesc)
    (h : k + 1 < s.run.step ∨ k + 1 = s.run.step ∧ (s.shard i).closed = true) :
    s.takeContribution i m k v false d = s.noteLate i m k .dropped := by
  have hlt : k < s.run.step := by omega
  have hfold : ¬ (decide (k + 1 = s.run.step) && !(s.shard i).closed) = true := by
    rcases h with hless | ⟨heq, hclosed⟩
    · simp [hless.ne]
    · simp [hclosed]
  unfold State.takeContribution
  rw [if_neg hlt.ne, if_neg hlt.not_gt, if_neg Bool.false_ne_true, if_neg hfold]

/-! The late limit -/

theorem State.closeShard_misses (s : State) (i : Nat) (d : ShardDesc) (hm : m ∈ s.contributors d) (hother : m ≠ s.moduleId)
    (hlate : ∀ c ∈ (s.shard i).arrived, c.module = m → c.late = true) :
    ∃ e ∈ (s.closeShard i d).run.stragglers, e.module = m ∧ e.outcome = .missed ∧ e.shard = i := by
  refine ⟨{ module := m, outcome := .missed, shard := i, past := none }, ?_, rfl, rfl, rfl⟩
  unfold State.closeShard
  extract_lets x own onTime fold folded vals mm mm' missing late miss s₁ s₂ s₃
  refine List.mem_append_right _ (List.mem_map.2 ⟨m, List.mem_filter.2 ⟨hm, ?_⟩, rfl⟩)
  have hown : ∀ c ∈ own, c.module ≠ m := fun c hc => by
    have hc : c.module = s.moduleId := by
      simp only [own] at hc
      split at hc
      · split at hc
        · exact (List.mem_singleton.1 hc) ▸ rfl
        · exact absurd hc List.not_mem_nil
      · exact absurd hc List.not_mem_nil
    exact fun h => hother (h.symm.trans hc)
  refine Bool.not_eq_true' _ ▸ List.any_eq_false.2 fun c hc h => ?_
  have hmod : c.module = m := beq_iff_eq.1 h
  rcases List.mem_append.1 hc with ho | ha
  · exact hown c ho hmod
  · obtain ⟨harr, hontime⟩ := List.mem_filter.1 ha
    simp [hlate c harr hmod] at hontime

theorem lateLimitExpiry_closes (hd : s.shardDesc i = some d) (hact : s.run.active = true) (howner : s.ownerOf d = s.moduleId)
    (harmed : (s.shard i).armed = true) (hopen : (s.shard i).closed = false) (hlate : s.run.late ≠ 0) (halone : s.alone = false) :
    exec (.lateLimitExpiry i) s = .next (s.closeShard i d) := by
  have hcond : (s.run.active && s.ownerOf d == s.moduleId && (s.shard i).armed && !(s.shard i).closed && s.run.late != 0 && !s.alone) = true := by
    simp [hact, howner, harmed, hopen, hlate, halone]
  have hexec : exec (.lateLimitExpiry i) s = execLateLimitExpiry i s := rfl
  simp only [execLateLimitExpiry, hd, hcond, if_true] at hexec
  exact hexec

/-- Settles O39. -/
theorem contributionsAreSummed : Obligations.ContributionsAreSummed := by
  unfold Obligations.ContributionsAreSummed
  refine ⟨fun i m k vals norms ovf d s hd hact howner hother hreplica hpresent hnew => ?_, fun i m k vals norms ovf s hbehind => ?_,
    fun i d s hd hact howner harmed hopen hlate halone => ⟨s.closeShard i d, lateLimitExpiry_closes hd hact howner harmed hopen hlate halone,
      s.closed_closeShard i d, fun m hm hother hall => s.closeShard_misses i d hm hother hall⟩⟩
  · have takes (hk : k ≤ s.run.step) := contributionArrival_takes (ovf := ovf) ⟨vals, norms⟩ (behind_eq_false hk) hd hact howner hother hreplica hpresent hnew
    refine ⟨fun hk hopen => ⟨_, takes hk.le, ?_⟩, fun hk hclosed hovf => ⟨_, takes hk.le, ?_⟩, fun hk hopen hovf => ⟨_, takes (by omega), ?_⟩,
      fun hlate hovf => ⟨_, ⟨m, .droppedOvf, i, some (s.latePast i k)⟩, takes (by omega), ?_⟩,
      fun hlate hovf => ⟨_, ⟨m, .dropped, i, some (s.latePast i k)⟩, takes (by omega), ?_⟩⟩
    · have htake : s.takeContribution i m k ⟨vals, norms⟩ ovf d = (s.setShard i { s.shard i with
          arrived := (s.shard i).arrived ++ [{ module := m, step := k, vals := vals, norms := norms, late := false, past := 0 }] }).tryClose i d := by
        unfold State.takeContribution
        rw [if_pos hk, hopen, Bool.false_and, if_neg Bool.false_ne_true]
        rfl
      rw [htake]
      refine ⟨?_, fun hunarmed => ?_, fun harmed hall => State.tryClose_closes ?_ fun x hx => ?_⟩
      · rw [State.arrived_tryClose, State.shard_setShard_same]
      · rw [State.tryClose_waits (by rw [State.shard_setShard_same]; exact Bool.and_eq_false_iff.2 (.inl hunarmed)), State.shard_setShard_same]
        exact ⟨rfl, hopen⟩
      · rw [State.shard_setShard_same]
        exact harmed
      · rw [State.shard_setShard_same]
        rcases hall x hx with hown | hnow | ⟨c, hc, hmod⟩
        · exact .inl hown
        · exact .inr ⟨_, List.mem_append_right _ (List.mem_singleton.2 rfl), hnow.symm, rfl⟩
        · exact .inr ⟨c, List.mem_append_left _ hc, hmod⟩
    · have htake : s.takeContribution i m k ⟨vals, norms⟩ ovf d = s.setShard i { s.shard i with
          arrived := (s.shard i).arrived ++ [s.arrival i m k ⟨vals, norms⟩ true] } := by
        unfold State.takeContribution
        rw [if_pos hk, hclosed, hovf, Bool.and_false, if_neg Bool.false_ne_true, State.tryClose_waits]
        rw [State.shard_setShard_same]
        simp [hclosed]
      rw [htake]
      refine ⟨rfl, s.arrival i m k ⟨vals, norms⟩ true, by rw [State.shard_setShard_same], rfl, rfl, rfl, ?_⟩
      exact congrArg (fun a => s.watch 4 - (a + s.run.late)) (if_pos hk)
    · have htake : s.takeContribution i m k ⟨vals, norms⟩ ovf d = s.setShard i { s.shard i with
          folded := (s.shard i).folded ++ [s.arrival i m k ⟨vals, norms⟩ true] } := by
        unfold State.takeContribution
        rw [if_neg (by omega), if_neg (by omega), hovf, if_neg Bool.false_ne_true, if_pos (by simp [hk, hopen])]
      rw [htake]
      exact ⟨rfl, _, by rw [State.shard_setShard_same], rfl, rfl⟩
    · rw [hovf, State.takeContribution_dropsOvf s i m k _ d hlate]
      obtain ⟨hmem, hshards, hstragglers, hopen, hreported⟩ := (s.noteLate i m k .droppedOvf).lateOvf_counts
      exact ⟨hmem, (congrArg (fun x => Tab.get x {} i) hshards :), hstragglers ▸ List.mem_append_right _ (List.mem_singleton.2 rfl),
        rfl, rfl, rfl, rfl, hopen, hreported⟩
    · rw [hovf, State.takeContribution_drops s i m k _ d hlate]
      exact ⟨rfl, rfl, List.mem_append_right _ (List.mem_singleton.2 rfl), rfl, rfl, rfl, rfl⟩
  · exact if_pos hbehind

end
end Sys2Proof.Machine
end

/-! ## O40: reports, prepasses, GO and READY of a step -/
section
namespace Sys2Proof.Machine
open Sys2Proof
section
variable {s t u : State} {m k : Nat}

theorem takes_of (d : Decision) (hact : s.run.active = true) (hk : k = s.run.step) (hrejoin : s.run.needRejoin = false)
    (hlead : s.isLead = true → s.lead.decision = d) : s.takes k d = true := by
  have hdecided : (!s.isLead || s.lead.decision == d) = true := by
    cases hl : s.isLead
    · rfl
    · simp [hlead hl]
  simp [State.takes, hact, hk, hrejoin, hdecided]

theorem stepIsHere (hact : s.run.active = true) (hk : k = s.run.step) : (!s.run.active || k != s.run.step) = false := by
  simp [hact, hk]

/-! What is sent and decided leaves the run as it is -/

@[simp] theorem State.run_decideSkip (s : State) : s.decideSkip.run = s.run := rfl

@[simp] theorem State.run_decideGo (s : State) (ps : List Word) : (s.decideGo ps).run = s.run := rfl

@[simp] theorem State.run_leadDecide (s : State) : s.leadDecide.run = s.run := by
  unfold State.leadDecide
  extract_lets ms partials
  split
  · split
    · rfl
    · split
      · rfl
      · split <;> rfl
  · split <;> rfl
  · rfl

/-- The update factor written and the update begun: the run keeps all but its times, and without an image nothing is written. -/
theorem State.startUpdate_keeps (s : State) (w : Word) (waits : Bool) :
    (if waits then s.writeUcb w else (s.writeUcb w).phaseStart .update).run.untimed = s.run.untimed ∧
    (s.runImage = none → (if waits then s.writeUcb w else (s.writeUcb w).phaseStart .update).mem = s.mem) := by
  have hnone : s.runImage = none → (s.writeUcb w).mem = s.mem := fun himage => by
    unfold State.writeUcb
    rw [himage]
    rfl
  cases waits
  · exact ⟨State.untimed_phaseStart _ _, fun himage => (State.same_of_but (s := s.writeUcb w) (p := .mem) (by simp)).trans (hnone himage)⟩
  · exact ⟨rfl, hnone⟩

/-! Decisions of the Lead -/

theorem List.all_has {α : Type} {tab : Tab α} {ms : List Nat} (h : ∀ m ∈ ms, tab.has m = true) : (!ms.all (fun m => tab.has m)) = false := by
  rw [List.all_eq_true.2 h]
  rfl

theorem leadDecide_decides (hnone : s.lead.decision = .none_) (hall : ∀ m ∈ s.expected, s.lead.reports.has m = true) :
    s.leadDecide = if List.any s.lead.reports (fun e => e.2.ovf) then s.decideSkip
      else if s.expected.any (fun m => ((s.lead.reports.find? m).map (·.fallback)).getD false) then
        (s.setLead { s.lead with decision := .prepass }).send (.prepass s.run.step)
      else s.decideGo (s.expected.map (fun m => ((s.lead.reports.find? m).map (·.part)).getD 0)) := by
  unfold State.leadDecide
  simp only [hnone, List.all_has hall, Bool.false_eq_true, if_false]

/-! A module's own report -/

theorem overflowReport_sends {o f second : Bool} {w : Word} (hbusy : s.keeper.kbusy = false) (hact : s.run.active = true) (hk : k = s.run.step)
    (hown : m = s.moduleId) (hlead : s.isLead = false) (hrejoin : s.run.needRejoin = false) (hsilent : s.run.silent = false)
    (hdone : s.exchangeDone = true) (hsecond : second = true → s.run.prepassGate = true ∧ s.prepassesDone = true) :
    exec (.overflowReport m k o w f second) s = .next (((s.phaseStop .learn).setRun { (s.phaseStop .learn).run with reported := true }).send
      (.report k s.run.ovf s.normPartial s.hasFallback second)) := by
  have hready : (true && (s.run.needRejoin || s.run.silent || !s.exchangeDone || (second && !(s.run.prepassGate && s.prepassesDone)))) = false := by
    cases second
    · simp [hrejoin, hsilent, hdone]
    · simp [hrejoin, hsilent, hdone, hsecond rfl]
  have hexec : exec (.overflowReport m k o w f second) s = execOverflowReport m k o w f second s := rfl
  have hself : (m == s.moduleId) = true := beq_iff_eq.2 hown
  have hlead' : ((s.phaseStop .learn).setRun { (s.phaseStop .learn).run with reported := true }).isLead = false :=
    (congrArg PwrPart.lead (State.same_of_but (s := s) (t := s.phaseStop .learn) (p := .pwr) (by simp))).trans hlead
  have hstep : ((s.phaseStop .learn).setRun { (s.phaseStop .learn).run with reported := true }).run.step = k :=
    (congrArg Run.step (State.untimed_phaseStop s .learn)).trans hk.symm
  simp only [execOverflowReport, hbusy, stepIsHere hact hk, hself, hready, hlead', hstep, Bool.false_eq_true, if_false, if_true] at hexec
  exact hexec

/-- Settles O40. -/
theorem theStepIsDecided : Obligations.TheStepIsDecided := by
  unfold Obligations.TheStepIsDecided
  refine ⟨fun m k o f second w s hbusy hact hk => ⟨fun hother hlead hhere => ?_, fun hown hlead hrejoin hsilent hdone hsecond => ?_⟩,
    fun s hnone hall => ?_, fun k s hbusy hact hk hrejoin hlead => ?_, fun k c w l s hbusy hact hk hrejoin hlead => ?_,
    fun m k o own mir s hbusy hact hk => ⟨fun hown hgate hdone hsilent hlead => ?_, fun hother hlead hhere => ?_, fun hother hlead => ?_⟩⟩
  · have hexec : exec (.overflowReport m k o w f second) s = execOverflowReport m k o w f second s := rfl
    have hself : (m == s.moduleId) = false := beq_eq_false_iff_ne.2 hother
    have habs : s.lead.absent.contains m = false := by simpa using hhere
    simp only [execOverflowReport, hbusy, stepIsHere hact hk, hself, hlead, habs, Bool.false_and, Bool.false_eq_true, if_false, if_true] at hexec
    rw [hexec]
    cases second <;> rfl
  · refine ⟨_, overflowReport_sends hbusy hact hk hown hlead hrejoin hsilent hdone hsecond, rfl, congrArg (List.cons _) (State.same_of_but (p := .outbox) (by simp)), ?_⟩
    simp
  · rw [leadDecide_decides hnone hall]
    refine ⟨fun ⟨e, he, hovf⟩ => ?_, fun hnot ⟨m, hm, r, hr, hfall⟩ => ?_, fun hnot hfull => ?_⟩
    · rw [if_pos (List.any_eq_true.2 ⟨e, he, hovf⟩)]
      exact ⟨rfl, rfl⟩
    · rw [if_neg (by simpa using hnot), if_pos (List.any_eq_true.2 ⟨m, hm, by rw [hr]; exact hfall⟩)]
      exact ⟨rfl, rfl⟩
    · rw [if_neg (by simpa using hnot), if_neg]
      · exact ⟨rfl, _, rfl⟩
      · refine fun h => ?_
        obtain ⟨m, hm, hfall⟩ := List.any_eq_true.1 h
        cases hr : s.lead.reports.find? m with
        | none => simp [hr] at hfall
        | some r => simp [hr, hfull m hm r hr] at hfall
  · have hexec : exec (.prepassRx k) s = execPrepassRx k s := rfl
    simp only [execPrepassRx, hbusy, takes_of .prepass hact hk hrejoin hlead, Bool.not_true, Bool.false_eq_true, if_false] at hexec
    cases hfall : s.hasFallback
    · cases hl : s.isLead
      · exact ⟨_, hexec.trans ((if_neg (Bool.eq_false_iff.1 hfall)).trans (if_neg (Bool.eq_false_iff.1 hl))), rfl, fun _ _ => rfl⟩
      · exact ⟨_, hexec.trans ((if_neg (Bool.eq_false_iff.1 hfall)).trans (if_pos hl)), State.run_leadDecide _, fun _ => nofun⟩
    · exact ⟨_, hexec.trans (if_pos hfall), rfl, nofun⟩
  · have hexec : exec (.goRx k w l c) s = execGoRx k w l c s := rfl
    simp only [execGoRx, hbusy, takes_of .go hact hk hrejoin hlead, behind_eq_false hk.le, Bool.not_true, Bool.false_eq_true, if_false] at hexec
    obtain ⟨huntimed, hmem⟩ := s.startUpdate_keeps (if s.isLead then s.lead.k else w) (s.run.snap.isSome || !s.run.snapDue.isEmpty)
    exact ⟨_, hexec, rfl, rfl, (congrArg Run.bank huntimed :), (congrArg Run.lscale huntimed :), hmem⟩
  · have hexec : exec (.readyRx m k o own mir) s = execReadyRx m k o own mir s := rfl
    have hself : (m == s.moduleId) = true := beq_iff_eq.2 hown
    simp only [execReadyRx, hbusy, stepIsHere hact hk, hself, hgate, hdone, hsilent, Bool.not_true, Bool.or_self, Bool.true_and, Bool.false_eq_true, if_false, if_true] at hexec
    exact ⟨_, hexec.trans (if_neg (Bool.eq_false_iff.1 hlead)), rfl, hk ▸ rfl⟩
  · have hexec : exec (.readyRx m k o own mir) s = execReadyRx m k o own mir s := rfl
    have hself : (m == s.moduleId) = false := beq_eq_false_iff_ne.2 hother
    have habs : s.lead.absent.contains m = false := by simpa using hhere
    simp only [execReadyRx, hbusy, stepIsHere hact hk, hself, hlead, habs, Bool.false_and, Bool.false_eq_true, if_false, if_true] at hexec
    exact hexec
  · have hexec : exec (.readyRx m k o own mir) s = execReadyRx m k o own mir s := rfl
    have hself : (m == s.moduleId) = false := beq_eq_false_iff_ne.2 hother
    simp only [execReadyRx, hbusy, stepIsHere hact hk, hself, hlead, Bool.false_and, Bool.false_eq_true, if_false] at hexec
    exact hexec

end
end Sys2Proof.Machine
end

/-! ## O42: the update boundary, and the loss scale -/
section
namespace Sys2Proof.Machine
open Sys2Proof
section
variable {s t u : State} {k : Nat}

/-- What the update boundary settles of a run. -/
def Run.marks (r : Run) : Bool × Option Nat × Option Nat × Word × Nat × Nat := (r.bank, r.last, r.committed, r.lscale, r.clean, r.commits)

/-- What the boundary settled stays: the run's marks, its shadow bank unwritten, and every engine's loss scale. -/
structure State.Settled (s t : State) : Prop where
  marks : t.run.marks = s.run.marks
  shadow : s.run.shadow = false → t.run.shadow = false
  scales : ∀ j, (t.target j).lscale = (s.target j).lscale

theorem State.Settled.refl (s : State) : s.Settled s := ⟨rfl, id, fun _ => rfl⟩

theorem State.Settled.trans (h : s.Settled t) (h' : t.Settled u) : s.Settled u :=
  ⟨h'.marks.trans h.marks, fun hs => h'.shadow (h.shadow hs), fun j => (h'.scales j).trans (h.scales j)⟩

theorem State.Settled.after (h : t.Settled u) (hs : s.Settled t) : s.Settled u := hs.trans h

theorem State.Settled.of_same (hrun : t.run = s.run) (htgt : t.tgt = s.tgt) : s.Settled t :=
  ⟨congrArg Run.marks hrun, fun h => (congrArg Run.shadow hrun :).trans h, fun j => congrArg TargetSt.lscale (State.target_of_tgt htgt j)⟩

theorem State.Settled.of_run (hmarks : t.run.marks = s.run.marks) (hshadow : t.run.shadow = s.run.shadow) (htgt : t.tgt = s.tgt) : s.Settled t :=
  ⟨hmarks, fun h => hshadow.trans h, fun j => congrArg TargetSt.lscale (State.target_of_tgt htgt j)⟩

theorem State.Settled.ite {c : Prop} [Decidable c] (ht : s.Settled t) (hu : s.Settled u) : s.Settled (if c then t else u) := by
  split
  · exact ht
  · exact hu

theorem State.Settled.foldl {α : Type} {f : State → α → State} (h : ∀ (s : State) (x : α), s.Settled (f s x)) (l : List α) : ∀ s : State, s.Settled (l.foldl f s) := by
  induction l with
  | nil => exact State.Settled.refl
  | cons x l ih => exact fun s => (h s x).trans (ih _)

/-- A state that differs in parts other than the run and the engines. -/
theorem State.Settled.of_only {ps : List Part} (h : s.onlyChanges t ps) (hps : Part.run ∉ ps ∧ Part.tgt ∉ ps) : s.Settled t :=
  .of_same (h .run hps.1) (h .tgt hps.2)

/-- A change of a run's times alone. -/
theorem State.Settled.of_untimed (h : t.run.untimed = s.run.untimed) (htgt : t.tgt = s.tgt) : s.Settled t :=
  .of_run (congrArg Run.marks h :) (congrArg Run.shadow h :) htgt

theorem State.settled_phaseStart (s : State) (p : Phase) : s.Settled (s.phaseStart p) :=
  .of_untimed (State.untimed_phaseStart s p) (State.same_of_but (p := .tgt) (by simp))

theorem State.settled_phaseStop (s : State) (p : Phase) : s.Settled (s.phaseStop p) :=
  .of_untimed (State.untimed_phaseStop s p) (State.same_of_but (p := .tgt) (by simp))

theorem State.settled_settlePhases (s : State) : s.Settled s.settlePhases :=
  .of_untimed (State.untimed_settlePhases s) (State.same_of_but (p := .tgt) (by simp))

theorem State.settled_post (s : State) (f code seq : Nat) (data : List Byte) : s.Settled (s.post f code seq data) :=
  .of_only (ps := [.keeper, .fnp, .outbox]) (by simp) (by decide)

theorem State.settled_healthEvent (s : State) (code tile unit addr count : Nat) : s.Settled (s.healthEvent code tile unit addr count) :=
  .of_only (ps := [.keeper, .fnp, .link, .health, .outbox]) (by simp) (by decide)

theorem State.settled_setRun (s : State) (r : Run) (hmarks : r.marks = s.run.marks) (hshadow : r.shadow = s.run.shadow) : s.Settled (s.setRun r) :=
  ⟨hmarks, fun h => hshadow.trans h, fun _ => rfl⟩

theorem State.Settled.setRun_ite {c : Prop} [Decidable c] {r r' : Run} (h : s.Settled (s.setRun r)) (h' : s.Settled (s.setRun r')) :
    s.Settled (s.setRun (if c then r else r')) := by
  split
  · exact h
  · exact h'

/-! Snapshots and reports -/

theorem State.settled_writeRing (s : State) (r : HostRing) : s.Settled (s.writeRing r) := .of_only (ps := [.hostMem]) (by simp) (by decide)

theorem State.settled_endSnap (s : State) (v : Nat) : s.Settled (s.endSnap v) := by
  unfold State.endSnap
  split
  · exact .refl s
  · extract_lets now s₁ ring ring' s₂ next r₀ run run' run'' s₃ s₄
    have hwait : run'.marks = run.marks ∧ run'.shadow = run.shadow := by
      simp only [run']
      split <;> exact ⟨rfl, rfl⟩
    have hlast : run''.marks = run'.marks ∧ run''.shadow = run'.shadow := by
      simp only [run'']
      split <;> exact ⟨rfl, rfl⟩
    have hend : s₂.Settled s₃ := s₂.settled_setRun run'' (hlast.1.trans hwait.1) (hlast.2.trans hwait.2)
    have hring : s.Settled s₂ := .of_only (ps := [.hostMem]) (by simp [s₂, s₁]) (by decide)
    exact ((hring.trans hend).trans (.ite (State.settled_phaseStart _ _) (.refl _))).trans (State.settled_post _ _ _ _ _)

theorem State.settled_abandonSnaps (s : State) : s.Settled s.abandonSnaps := State.Settled.foldl (fun s _ => s.settled_endSnap 2) _ s

theorem State.settled_snapDonePost (s : State) (seq : Option (Fn × Nat)) (code state step index : Nat) :
    s.Settled (s.snapDonePost seq code state step index) := State.settled_post _ _ _ _ _

theorem State.settled_startSnap (s : State) (ring : HostRing) (seq : Option (Fn × Nat)) (outside : Bool) : s.Settled (s.startSnap ring seq outside) := by
  unfold State.startSnap
  simp only []
  refine .ite ?_ ?_
  · refine State.Settled.trans (.ite ?_ ?_) (State.settled_snapDonePost _ _ _ _ _ _)
    · exact s.settled_writeRing _
    · exact (s.settled_writeRing _).trans (State.settled_setRun _ _ rfl rfl)
  · exact (State.Settled.of_only (t := s.setHostMem _) (ps := [.hostMem]) (by simp) (by decide)).trans
      (.setRun_ite (State.settled_setRun _ _ rfl rfl) (State.settled_setRun _ _ rfl rfl))

theorem State.settled_ringPut (s : State) (r : HostRing) (bs : List Byte) : s.Settled (s.ringPut r bs).1 :=
  .of_only (ps := [.hostMem]) (by simp) (by decide)

theorem State.settled_flushReports (n : Nat) : ∀ s : State, s.Settled (State.flushReports n s) := by
  induction n with
  | zero => exact .refl
  | succ n ih =>
    intro s
    unfold State.flushReports
    split
    · exact .refl s
    · split
      · exact .refl s
      · simp only []
        refine State.Settled.trans ?_ (ih _)
        refine .ite (.ite (.trans ?_ (State.settled_post _ _ _ _ _))
          (.trans (.trans ?_ (State.settled_post _ _ _ _ _)) (State.settled_post _ _ _ _ _))) ?_ <;>
        exact (s.settled_ringPut _ _).trans (State.settled_setRun _ _ rfl rfl)

theorem State.settled_putReport (s : State) (bs : List Byte) (event : Bool) : s.Settled (s.putReport bs event) := by
  unfold State.putReport
  simp only []
  refine .ite (.trans ?_ (State.settled_writeRing _ _)) (.trans ?_ (State.settled_flushReports _ _)) <;> exact s.settled_setRun _ rfl rfl

theorem State.settled_setLead (s : State) (l : Lead) : s.Settled (s.setLead l) := .of_same rfl rfl

theorem State.settled_writeSummary (s : State) : s.Settled s.writeSummary := by
  unfold State.writeSummary
  split
  · exact .refl s
  · simp only []
    exact (s.settled_setLead _).trans (State.settled_putReport _ _ _)

theorem State.settled_noteStepReport (s : State) (m step : Nat) (words : List Nat) : s.Settled (s.noteStepReport m step words) := by
  unfold State.noteStepReport
  simp only []
  exact .ite (.ite ((s.settled_setLead _).trans (State.settled_writeSummary _)) (s.settled_setLead _)) (.ite (s.settled_setLead _) (.refl s))

theorem State.settled_reportStep (s : State) (skip : Bool) (l : Word) (c : Nat) : s.Settled (s.reportStep skip l c) := by
  unfold State.reportStep
  simp only []
  exact (s.settled_putReport _ _).trans (.ite (((State.settled_writeSummary _).trans (State.settled_setLead _ _)).trans
    (State.Settled.foldl (fun s x => s.settled_noteStepReport _ _ _) _ _)) (.of_same rfl rfl))

/-! Engines keep their loss scale -/

/-- Every engine changed, its loss scale kept. -/
theorem State.scales_map (s : State) (f : Nat → TargetSt → TargetSt) (hf : ∀ k e, (f k e).lscale = e.lscale) (j : Nat) :
    (Tab.get (s.tgt.map (fun e => (e.1, f e.1 e.2))) {} j).lscale = (s.target j).lscale := by
  rw [State.target, Tab.get_eq, Tab.get_eq, Tab.find?_map]
  cases Tab.find? s.tgt j with
  | none => rfl
  | some e => exact hf j e

theorem State.settled_setTarget (s : State) (k : Nat) (e : TargetSt) (he : e.lscale = (s.target k).lscale) : s.Settled (s.setTarget k e) := by
  refine ⟨rfl, id, fun j => ?_⟩
  by_cases hj : j = k
  · rw [hj, State.target_setTarget_same, he]
  · rw [State.target_setTarget_other s e hj]

theorem State.settled_applyTeacher (s : State) (img : WeightImage) : s.Settled (s.applyTeacher img) := by
  unfold State.applyTeacher
  refine .trans ?_ (State.Settled.foldl (f := fun s t => s.setTarget t { s.target t with parity := !(s.target t).parity })
    (fun s t => s.settled_setTarget t _ rfl) _ _)
  exact .of_only (ps := [.mem, .pair]) (by simp) (by decide)

theorem State.settled_applyHeldTeacher (s : State) : s.Settled s.applyHeldTeacher := by
  unfold State.applyHeldTeacher
  split
  · exact .refl s
  · next h _ =>
    exact (s.settled_applyTeacher h.img).trans (.of_only (ps := [.pair, .keeper, .fnp, .outbox]) (by simp) (by decide))

theorem State.settled_applyHeld (s : State) : s.Settled s.applyHeld :=
  s.settled_applyHeldTeacher.trans (.of_only (ps := [.mem, .keeper, .pair, .fnp, .outbox]) (by unfold State.applyHeld; simp) (by decide))

/-- An engine at the start of a step. -/
def TargetSt.cleared (e : TargetSt) (now : Nat) : TargetSt :=
  { e.catchUp now with stat := {}, scoreStall := 0, learnWait := 0, badpos := 0, spilled := 0, propfall := 0, badlabel := 0,
                       sumKd := 0, sumRwd := 0, sumHard := 0, sumTotal := 0 }

theorem State.settled_clearStreams (s : State) : s.Settled s.clearStreams :=
  ⟨rfl, id, fun j => s.scales_map (fun k e => e.cleared (s.watch k)) (fun _ _ => rfl) j⟩

theorem State.settled_dropWork (s : State) (h : Nat) : s.Settled (s.dropWork h) := by
  unfold State.dropWork
  simp only []
  refine .trans ?_ (State.Settled.foldl (f := fun s t => ((s.custSettle t).settleWaits t).keysSettle t) (fun u t => ?_) _ _)
  · exact .of_only (ps := [.arr, .eng]) (by simp) (by decide)
  have hwaits : (u.custSettle t).Settled ((u.custSettle t).settleWaits t) := by
    unfold State.settleWaits
    extract_lets e waits
    exact .ite (.refl _) (State.settled_setTarget _ _ _ rfl)
  exact ((State.Settled.of_only (ps := [.arr]) (by simp) (by decide)).trans hwaits).trans (.of_only (ps := [.eng]) (by simp) (by decide))

theorem State.settled_retireProg (s : State) (h : Nat) : s.Settled (s.retireProg h) := by
  unfold State.retireProg
  split
  · exact .refl s
  · simp only []
    exact (s.settled_dropWork h).trans (.of_only (ps := [.arr, .prog, .serve, .tier, .sched, .eng]) (by simp) (by decide))

theorem State.settled_claimGroup (s : State) (h : Nat) : s.Settled (s.claimGroup h) := .of_only (ps := [.serve]) (by simp) (by decide)

/-! The run goes on, or ends -/

theorem State.settled_opDone (s : State) (o : LongOp) (code : Nat) : s.Settled (s.opDone o code) := .of_only (ps := [.keeper, .fnp, .outbox]) (by simp) (by decide)

theorem State.settled_tableInForce (s : State) (table : SizeTable) (f : Fn) (seq : Nat) : s.Settled (s.tableInForce table f seq) := by
  unfold State.tableInForce
  simp only []
  exact .after (State.settled_opDone _ _ _) (.after (State.settled_setRun _ _ rfl rfl) (.of_only (ps := [.link]) (by simp) (by decide)))

theorem State.settled_applyShrink (s : State) : s.Settled s.applyShrink := by
  unfold State.applyShrink
  split
  · exact .ite (s.settled_tableInForce _ _ _) (.refl s)
  · exact .refl s

theorem State.settled_settleTable (s : State) : s.Settled s.settleTable := by
  unfold State.settleTable
  split
  · exact .ite (s.settled_tableInForce _ _ _) (.refl s)
  · exact .refl s

theorem State.settled_roundOver (s : State) : s.Settled s.roundOver := .of_only (ps := [.eng, .prog, .tier]) (by simp) (by decide)

theorem State.settled_setProg (s : State) (v : ProgPart) : s.Settled (s.setProg v) := .of_only (ps := [.prog]) (by simp) (by decide)

theorem State.settled_setLink (s : State) (v : LinkPart) : s.Settled (s.setLink v) := .of_only (ps := [.link]) (by simp) (by decide)

theorem State.settled_applyReplace (s : State) : s.Settled s.applyReplace := by
  unfold State.applyReplace
  split
  · exact .refl s
  · simp only []
    split
    · exact .after (State.settled_setProg _ _) (.after (State.settled_setRun _ _ rfl rfl) (.after (State.settled_claimGroup _ _)
        (.after (State.settled_setRun _ _ rfl rfl) (.after (State.settled_retireProg _ _) (s.settled_setProg _)))))
    · exact .after (State.settled_claimGroup _ _) (.after (State.settled_setRun _ _ rfl rfl) (.after (State.settled_retireProg _ _) (s.settled_setProg _)))

theorem State.settled_noteAbsent (s : State) : s.Settled s.noteAbsent := by
  unfold State.noteAbsent
  refine State.Settled.foldl (fun s m => ?_) _ s
  simp only []
  refine .ite (.trans ?_ (State.settled_healthEvent _ _ _ _ _ _)) ?_ <;> exact s.settled_setRun _ rfl rfl

theorem State.settled_startRollouts (s : State) : s.Settled s.startRollouts :=
  State.Settled.foldl (fun s k => (State.Settled.of_only (ps := [.serve]) (by simp) (by decide)).trans (State.settled_phaseStart _ _)) _ s

/-- A run cleared for its next step, or for its end. -/
theorem State.settled_clearRun (s : State) (r : Run) (hmarks : r.marks = s.run.marks) (hshadow : r.shadow = false) : s.Settled (s.setRun r) :=
  ⟨hmarks, fun _ => hshadow, fun _ => rfl⟩

theorem State.settled_nextStep (s : State) (carry : Bool) : s.Settled (s.nextStep carry) := by
  unfold State.nextStep
  simp only []
  refine .after (State.settled_settlePhases _) (.after (State.settled_setLead _ _) (.after (State.settled_setLink _ _) (.ite (.after (State.settled_phaseStart _ _) ?_) ?_))) <;>
  exact .after (State.settled_noteAbsent _) (.ite (s.settled_clearRun _ rfl rfl) (.after (State.settled_startRollouts _) (s.settled_clearRun _ rfl rfl)))

theorem State.settled_setTgt (s : State) (f : Nat → TargetSt → TargetSt) (hf : ∀ k e, (f k e).lscale = e.lscale) :
    s.Settled (s.setTgt (s.tgt.map (fun e => (e.1, f e.1 e.2)))) := ⟨rfl, id, s.scales_map f hf⟩

theorem State.settled_leaveAll (s : State) : s.Settled s.leaveAll.1 := .of_only (ps := [.mem, .eng, .serve, .fnp]) (by simp) (by decide)

theorem State.settled_reqDone (s : State) (i : Nat) (q : Req) : s.Settled (s.reqDone i q) := .of_only (ps := [.keeper, .fnp, .outbox]) (by simp) (by decide)

theorem State.settled_commitKey (s : State) (f j : Nat) (v : DWord) : s.Settled (s.commitKey f j v) := .of_only (ps := [.eng]) (by simp) (by decide)

theorem State.settled_setServe (s : State) (v : ServePart) : s.Settled (s.setServe v) := .of_only (ps := [.serve]) (by simp) (by decide)

theorem State.settled_setKeeper (s : State) (v : Keeper) : s.Settled (s.setKeeper v) := .of_only (ps := [.keeper]) (by simp) (by decide)

/-- A run that has ended keeps its marks. -/
theorem State.settled_closeRun (s : State) : s.Settled (s.setRun { s.run.clearStep with
    active := false, stop := none, shards := [], phaseOn := [], snapAsked := [], needRejoin := false, fetch := [], fetchTop := none }) :=
  s.settled_clearRun _ rfl rfl

theorem State.settled_endRun (s : State) (why : StopReason) : s.Settled (s.endRun why) := by
  unfold State.endRun
  extract_lets f h data s₁ s₂ s₃ p₀ s₄ seq k₀ s₅ r s₆ reqs v s₇
  have hkeyed : s.Settled s₃ := .after (State.settled_commitKey _ _ _ _)
    (.after (s₁.settled_setTgt (fun k e => e.discard (s₁.watch k)) (fun _ _ => rfl)) (s.settled_dropWork h))
  have hready : s₃.Settled s₄ := by
    simp only [s₄]
    split
    · exact .ite (s₃.settled_setProg _) (.refl _)
    · exact .refl _
  have hrested : s₄.Settled s₇ := by
    have hrun : s₅.Settled s₆ := s₅.settled_closeRun
    exact .after (s₆.settled_setServe _) (.after hrun (s₄.settled_setKeeper _))
  refine .trans (hkeyed.trans (hready.trans hrested)) ?_
  clear_value s₇
  simp only []
  exact .after (State.settled_settleTable _) (.after (.ite (.refl _) (State.settled_post _ _ _ _ _)) (.after (State.settled_post _ _ _ _ _)
    (.after (State.settled_setLead _ _) (.after (State.Settled.foldl (fun (s : State) (e : Nat × Req) => s.settled_reqDone e.1 e.2) _ _) s₇.settled_leaveAll))))

/-! The boundary -/

theorem State.atBoundary_settles (s : State) (skip : Bool) (l : Word) (c : Nat) :
    (s.atBoundary skip l c).run.marks = (if skip then s.run.bank else !s.run.bank, some s.run.step, if skip then s.run.committed else some s.run.step,
      l, c, s.run.commits + b2n (!skip)) ∧
    (s.atBoundary skip l c).run.shadow = false ∧ ∀ j < 4, ((s.atBoundary skip l c).target j).lscale = l := by
  unfold State.atBoundary
  extract_lets old s₁ r carry s₂ why s₃ s₄ due r₄ s₅ s₆ s₇ s₈
  have huntimed : r.untimed = s.run.untimed := (State.untimed_phaseStop _ _).trans ((State.untimed_phaseStop _ _).trans (State.untimed_phaseStop _ _))
  have hmarks : s₂.run.marks = (if skip then s.run.bank else !s.run.bank, some s.run.step, if skip then s.run.committed else some s.run.step,
      l, c, s.run.commits + b2n (!skip)) := by
    have hbank : r.bank = s.run.bank := (congrArg Run.bank huntimed :)
    have hstep : r.step = s.run.step := (congrArg Run.step huntimed :)
    have hcommitted : r.committed = s.run.committed := (congrArg Run.committed huntimed :)
    have hcommits : r.commits = s.run.commits := (congrArg Run.commits huntimed :)
    rw [← hbank, ← hstep, ← hcommitted, ← hcommits]
    rfl
  have hsnaps : s₂.Settled s₃ := .ite s₂.settled_abandonSnaps (.refl s₂)
  have hrun : s₄.run = s₃.run := State.same_of_but (p := .run) (by simp [s₄])
  have hstarted : s₄.Settled s₅ :=
    (s₄.settled_setRun { s₄.run with snapAsked := [] } rfl rfl).trans (State.Settled.foldl (fun (s : State) q => s.settled_startSnap s.run.snaps q false) due _)
  have hover : s₄.Settled s₈ := .after s₇.applyShrink.roundOver.settled_applyReplace (.after (State.settled_roundOver _) (.after s₇.settled_applyShrink
    (.after (State.settled_clearStreams _) (.after (s₆.settled_reportStep _ _ _) (.after s₅.settled_applyHeld hstarted)))))
  have hgoes : ∀ w : Option StopReason, s₄.Settled (match w with | some w => s₈.endRun w | none => s₈.nextStep carry)
    | some w => hover.trans (s₈.settled_endRun w)
    | none => hover.trans (s₈.settled_nextStep carry)
  have hnext := hgoes why
  refine ⟨hnext.marks.trans ((congrArg Run.marks hrun).trans (hsnaps.marks.trans hmarks)), hnext.shadow ?_, fun j hj => ?_⟩
  · exact (congrArg Run.shadow hrun).trans (hsnaps.shadow rfl)
  · exact (hnext.scales j).trans (State.target_writeLscale s₃ l hj)

/-! The loss scale of the next step, over the powers of two it takes (R201) -/

theorem nextScale_halves : ∀ n ∈ List.range 25, ∀ c k : Nat,
    nextScale true k (BitVec.ofNat 32 ((127 + n) * 2 ^ 23)) c = (BitVec.ofNat 32 ((127 + (n - 1)) * 2 ^ 23), 0) := by
  have h : ∀ n ∈ List.range 25, (let h := fmul (BitVec.ofNat 32 ((127 + n) * 2 ^ 23)) 0x3F000000; if (ofFP32 h).lt .one then fOne else h) =
    BitVec.ofNat 32 ((127 + (n - 1)) * 2 ^ 23) := by decide
  exact fun n hn c k => congrArg (·, 0) (h n hn)

/-- Twice a scale, and no more than 2^24. -/
def doubled (w : Word) : Word :=
  let d := fmul w 0x40000000
  if (FVal.ofNat (2 ^ 24)).lt (ofFP32 d) then 0x4B800000 else d

theorem doubled_two_pow : ∀ n ∈ List.range 25, doubled (BitVec.ofNat 32 ((127 + n) * 2 ^ 23)) = BitVec.ofNat 32 ((127 + min 24 (n + 1)) * 2 ^ 23) := by decide

theorem nextScale_doubles {c k : Nat} (h : c + 1 = k) (w : Word) : nextScale false k w c = (doubled w, 0) := if_pos h

theorem nextScale_stays {c k : Nat} (h : c + 1 ≠ k) (w : Word) : nextScale false k w c = (w, c + 1) := if_neg h

theorem scalesMove (n : Nat) (hn : n ≤ 24) (c k : Nat) :
    nextScale true k (BitVec.ofNat 32 ((127 + n) * 2 ^ 23)) c = (BitVec.ofNat 32 ((127 + (n - 1)) * 2 ^ 23), 0) ∧
    (c + 1 = k → nextScale false k (BitVec.ofNat 32 ((127 + n) * 2 ^ 23)) c = (BitVec.ofNat 32 ((127 + min 24 (n + 1)) * 2 ^ 23), 0)) ∧
    (c + 1 ≠ k → nextScale false k (BitVec.ofNat 32 ((127 + n) * 2 ^ 23)) c = (BitVec.ofNat 32 ((127 + n) * 2 ^ 23), c + 1)) :=
  have hmem : n ∈ List.range 25 := List.mem_range.2 (by omega)
  ⟨nextScale_halves n hmem c k, fun hk => (nextScale_doubles hk _).trans (congrArg (fun w : Word => (w, 0)) (doubled_two_pow n hmem)), fun hk => nextScale_stays hk _⟩

/-- A run that stops at the floor of its loss scale, or goes on. -/
theorem State.run_floorStop (s : State) : ∃ why, s.floorStop.run = { s.run with stop := why } := by
  unfold State.floorStop
  split
  · exact ⟨some .lscaleFloor, State.run_post _ _ _ _ _⟩
  · exact ⟨s.run.stop, rfl⟩

theorem run_refetchMirror (s : State) (i : Nat) : (s.refetchMirror i).run = s.run := State.same_of_but (p := .run) (by simp)

/-- The loss scale and the clean steps a decision carries: the Lead's own, or those received. -/
def State.carried (s : State) (l : Word) (c : Nat) : Word × Nat := if s.isLead then (s.lead.lscale, s.lead.clean) else (l, c)

theorem skipRx_applies {l : Word} {cl : Nat} (hbusy : s.keeper.kbusy = false) (hact : s.run.active = true) (hk : k = s.run.step)
    (hrejoin : s.run.needRejoin = false) (hlead : s.isLead = true → s.lead.decision = .skip) (halone : s.alone = true → s.run.stop ≠ some .fault) :
    exec (.skipRx k l cl) s = .next ((if s.isLead then s.floorStop else s).atBoundary true (s.carried l cl).1 (s.carried l cl).2) := by
  have hexec : exec (.skipRx k l cl) s = execSkipRx k l cl s := rfl
  have hgoes : (s.run.active && k == s.run.step && s.alone && s.run.stop == some .fault && s.lead.decision != .skip) = false := by
    cases ha : s.alone
    · simp
    · simp [halone ha]
  simp only [execSkipRx, hbusy, takes_of .skip hact hk hrejoin hlead, behind_eq_false hk.le, hgoes, Bool.not_true, Bool.false_eq_true, if_false] at hexec
  exact hexec

theorem commitMarkRx_applies {l : Word} {cl : Nat} (hbusy : s.keeper.kbusy = false) (hact : s.run.active = true) (hk : k = s.run.step)
    (happlied : s.run.markApplied = false) (hrejoin : s.run.needRejoin = false) (hlead : s.isLead = true → s.lead.decision = .commit)
    (hsilent : s.run.silent = false) : ∃ u : State, u.run = s.run ∧ exec (.commitMarkRx k l cl) s = .next (u.atBoundary false (s.carried l cl).1 (s.carried l cl).2) := by
  have hexec : exec (.commitMarkRx k l cl) s = execCommitMarkRx k l cl s := rfl
  simp only [execCommitMarkRx, hbusy, if_neg (Bool.eq_false_iff.1 happlied), takes_of .commit hact hk hrejoin hlead, behind_eq_false hk.le,
    if_neg (Bool.eq_false_iff.1 hsilent), Bool.not_true, Bool.false_eq_true, if_false] at hexec
  refine ⟨_, ?_, hexec⟩
  have hfetched := State.foldl_keeps (fun s => s.run) run_refetchMirror s.lead.mismatch (s.setRun { s.run with bank := !s.run.bank })
  rw [State.setRun_run, hfetched, State.setRun_run, Bool.not_not]

/-- Settles O42. -/
theorem theBoundaryIsApplied : Obligations.TheBoundaryIsApplied := by
  unfold Obligations.TheBoundaryIsApplied
  refine ⟨fun k cl l s hbusy hact hk happlied hrejoin => ⟨fun hlead halone => ?_, fun hlead hsilent => ?_⟩,
    scalesMove⟩
  · refine ⟨_, skipRx_applies hbusy hact hk hrejoin hlead halone, ?_⟩
    have hstop : ∃ why, (if s.isLead then s.floorStop else s).run = { s.run with stop := why } := by
      split
      · exact s.run_floorStop
      · exact ⟨s.run.stop, rfl⟩
    generalize (if s.isLead then s.floorStop else s) = u at hstop ⊢
    obtain ⟨why, hrun⟩ := hstop
    obtain ⟨hmarks, hshadow, hscales⟩ := u.atBoundary_settles true (s.carried l cl).1 (s.carried l cl).2
    generalize u.atBoundary true (s.carried l cl).1 (s.carried l cl).2 = t at hmarks hshadow hscales ⊢
    simp only [Run.marks, Prod.mk.injEq, hrun, if_true] at hmarks
    obtain ⟨hbank, hlast, hcommitted, hscale, hclean, -⟩ := hmarks
    refine ⟨hbank, hshadow, hk ▸ hlast, hcommitted, hscale.trans ?_, hclean.trans ?_, fun j hj => (hscales j hj).trans hscale.symm⟩ <;>
      (unfold State.carried; split <;> rfl)
  · obtain ⟨u, hrun, hexec⟩ := commitMarkRx_applies (l := l) (cl := cl) hbusy hact hk happlied hrejoin hlead hsilent
    refine ⟨_, hexec, ?_⟩
    obtain ⟨hmarks, hshadow, hscales⟩ := u.atBoundary_settles false (s.carried l cl).1 (s.carried l cl).2
    generalize u.atBoundary false (s.carried l cl).1 (s.carried l cl).2 = t at hmarks hshadow hscales ⊢
    simp only [Run.marks, Prod.mk.injEq, hrun, Bool.false_eq_true, if_false] at hmarks
    obtain ⟨hbank, hlast, hcommitted, hscale, hclean, hcommits⟩ := hmarks
    refine ⟨hbank, hshadow, hk ▸ hlast, hk ▸ hcommitted, hcommits, hscale.trans ?_, hclean.trans ?_, fun j hj => (hscales j hj).trans hscale.symm⟩ <;>
      (unfold State.carried; split <;> rfl)

end
end Sys2Proof.Machine
end

/-! ## O43: aborts, expired waits, the loss-scale floor and step reports -/
section
namespace Sys2Proof.Machine
open Sys2Proof
section
variable {s t u : State} {m k : Nat}

/-! The end of a run -/

theorem State.active_settleTable (s : State) : s.settleTable.run.active = s.run.active := by
  have htable : ∀ table f seq, (s.tableInForce table f seq).run.active = s.run.active := fun table f seq => by
    have hrun : ∀ (u : State) o c, (u.opDone o c).run = u.run := fun u o c => State.same_of_but (p := .run) (by simp)
    unfold State.tableInForce
    simp only [hrun]
    rfl
  unfold State.settleTable
  split
  · split
    · exact htable _ _ _
    · rfl
  · rfl

theorem State.mem_leaveAll_of_nil (h : s.serve.reqs = []) : s.leaveAll.1.mem = s.mem := by
  unfold State.leaveAll
  rw [h]
  exact State.same_of_but (s := s) (p := .mem) (by simp)

/-- A run ended is inactive, and with no request in the table no byte of memory changes. -/
theorem State.endRun_ends (s : State) (why : StopReason) :
    (s.endRun why).run.active = false ∧ (s.serve.reqs = [] → (s.endRun why).mem = s.mem) := by
  unfold State.endRun
  extract_lets f h data s₁ s₂ s₃ p₀ s₄ seq k₀ s₅ r s₆ reqs v s₇
  have hkeyed : s.onlyChanges s₃ [.arr, .tgt, .eng] := by simp [s₃, s₂, s₁]
  have hready : s₃.onlyChanges s₄ [.prog] := by
    simp only [s₄]
    split
    · exact State.onlyChanges_ite (by simp) (State.onlyChanges_refl _ _)
    · exact State.onlyChanges_refl _ _
  have hserve : s₄.serve = s.serve := (hready .serve (by decide)).trans (hkeyed .serve (by decide))
  have hmem : s₇.mem = s.mem := (State.same_of_but (s := s₄) (t := s₇) (p := .mem) (by simp [s₇, s₆, s₅])).trans ((hready .mem (by decide)).trans (hkeyed .mem (by decide)))
  have hactive : s₇.run.active = false := rfl
  have hended : s₆.serve = s₄.serve := State.same_of_but (p := .serve) (by simp [s₆, s₅])
  have hreqs : s.serve.reqs = [] → s₇.serve.reqs = [] := fun hnil => by
    rw [State.setServe_serve]
    simp only [reqs, hended, hserve, hnil, List.map_nil]
  clear_value s₇
  simp only []
  have hleft := s₇.mem_leaveAll_of_nil
  have hkept : s₇.leaveAll.1.run = s₇.run := State.same_of_but (p := .run) (by simp)
  generalize s₇.leaveAll = d at hleft hkept ⊢
  obtain ⟨d, gone⟩ := d
  have htail : ∀ v : State, d.onlyChanges v [.keeper, .fnp, .lead, .outbox] → v.settleTable.run.active = false ∧ (s.serve.reqs = [] → v.settleTable.mem = s.mem) :=
    fun v hv => ⟨(State.active_settleTable v).trans ((congrArg Run.active ((hv .run (by decide)).trans hkept)).trans hactive),
      fun hnil => (State.same_of_but (p := .mem) (by simp)).trans ((hv .mem (by decide)).trans ((hleft (hreqs hnil)).trans hmem))⟩
  simp only []
  refine htail _ ?_
  simp

theorem Tab.has_eq_isSome {α : Type} (t : Tab α) (k : Nat) : t.has k = (t.find? k).isSome := by
  induction t with
  | nil => rfl
  | cons e t ih =>
    rw [Tab.has, List.any_cons, Tab.find?]
    by_cases h : k = e.1
    · simp [h]
    · rw [if_neg h, ← ih, beq_eq_false_iff_ne.2 (Ne.symm h)]
      rfl

theorem Tab.has_set {α : Type} (t : Tab α) (v : α) (k j : Nat) : (t.set k v).has j = (j == k || t.has j) := by
  rw [Tab.has_eq_isSome, Tab.has_eq_isSome]
  by_cases h : j = k
  · simp [h]
  · rw [Tab.find?_set_other _ _ h, beq_eq_false_iff_ne.2 h, Bool.false_or]

/-! An abort -/

/-- What the close of a shard leaves of a run. -/
def Run.unclosed (r : Run) : Run := { r with shards := [], stragglers := [], fallback := [] }

theorem State.unclosed_closeShard (s : State) (i : Nat) (d : ShardDesc) : (s.closeShard i d).run.unclosed = s.run.unclosed := by
  unfold State.closeShard
  extract_lets x own onTime fold folded vals mm mm' missing late miss s₁ s₂ s₃
  have hcopied : s₂.run = s.run := by
    simp only [s₂]
    split
    · split
      · exact State.same_of_but (p := .run) (by simp [s₁])
      · rfl
    · rfl
  clear_value s₂ folded late miss missing
  exact (congrArg Run.unclosed hcopied :)

theorem State.unclosed_tryClose (s : State) (i : Nat) (d : ShardDesc) : (s.tryClose i d).run.unclosed = s.run.unclosed := by
  unfold State.tryClose
  simp only []
  split
  · exact s.unclosed_closeShard i d
  · rfl

/-- The run an abort leaves, but for the shards it opens again. -/
def Run.aborted (r : Run) (m : Nat) : Run :=
  { r with shadow := false, gateOpen := false, prepassGate := false, reported := false, readied := false, updOvf := false,
           ovf := r.ovf || r.stragglers.any (fun x => x.outcome == .droppedOvf), rebuilt := [], updated := [], prepDone := [],
           absent := insertNat m r.absent, replays := r.replays + 1 }

theorem abortRx_aborts (hbusy : s.keeper.kbusy = false) (hact : s.run.active = true) (hk : k = s.run.step) (hother : m ≠ s.moduleId) :
    ∃ t, exec (.abortRx k m) s = .next t ∧ t.run.unclosed = (s.run.aborted m).unclosed := by
  have hexec : exec (.abortRx k m) s = execAbortRx k m s := rfl
  simp only [execAbortRx, hbusy, stepIsHere hact hk, hother, Bool.false_eq_true, if_false] at hexec
  refine ⟨_, hexec, (State.foldl_keeps (fun u : State => u.run.unclosed) (fun u d => ?_) _ _).trans ?_⟩
  · split
    · exact (State.unclosed_tryClose _ _ _).trans rfl
    · split
      · split <;> rfl
      · rfl
  · have hdropped : ∀ u : State, u.dropUpdates.run = u.run := fun u => State.same_of_but (p := .run) (by simp)
    split
    · rw [State.run_healthEvent, hdropped]
      rfl
    · rw [hdropped]
      rfl

theorem failModule_waits (hlead : s.isLead = true) (hact : s.run.active = true) (hnone : s.lead.decision = .none_)
    (hpresent : m ∈ s.present) (hother : m ≠ s.moduleId) (hhere : m ∉ s.lead.absent) (hnot : ∀ e ∈ s.lead.reports, e.2.ovf = false) :
    s.failModule m = (s.setLead { s.lead with absent := insertNat m s.lead.absent, reports := [] }).send (.abort s.run.step m) := by
  have hcond : (!s.isLead || !s.run.active || m == s.moduleId || s.lead.absent.contains m || !s.present.contains m) = false := by
    simp [hlead, hact, hother, hhere, hpresent]
  have hovf : (List.any s.lead.reports (fun e => e.2.ovf)) = false := List.any_eq_false.2 fun e he => by simp [hnot e he]
  unfold State.failModule
  simp only [hcond, hovf, Bool.false_eq_true, if_false, State.setLead_lead, hnone]
  rfl

theorem stepReportRx_notes {ws : List Nat} (hbusy : s.keeper.kbusy = false) (hlead : s.isLead = true) (hpresent : m ∈ s.present) :
    exec (.stepReportRx m k ws) s = .next (s.noteStepReport m k ws) := by
  have hexec : exec (.stepReportRx m k ws) s = execStepReportRx m k ws s := rfl
  have hcond : (s.isLead && s.present.contains m) = true := by simp [hlead, hpresent]
  simp only [execStepReportRx, hbusy, hcond, Bool.false_eq_true, if_false, if_true] at hexec
  exact hexec

/-- Settles O43. -/
theorem theCommitFails : Obligations.TheCommitFails := by
  unfold Obligations.TheCommitFails
  refine ⟨fun k m s hbusy hact hk hother => ?_, fun m s hbusy hact hlead hwait => ?_, fun m s hbusy hact hlead hnone hno hpresent hother hhere hnot => ?_,
    fun s hact hstop hlead => ?_, fun m k ws s hbusy hlead hact hpresent hsum => ?_, fun m k ws s hbusy hlead hact hpresent hsum hk => ?_⟩
  · obtain ⟨t, hexec, hrun⟩ := abortRx_aborts hbusy hact hk hother
    refine ⟨t, hexec, ?_, (congrArg Run.shadow hrun :), (congrArg Run.gateOpen hrun :), (congrArg Run.reported hrun :), (congrArg Run.replays hrun :),
      (congrArg Run.bank hrun :), (congrArg Run.step hrun :)⟩
    have habsent : t.run.absent = insertNat m s.run.absent := (congrArg Run.absent hrun :)
    rw [habsent]
    exact (mem_insertNat _ _ _).2 (.inl rfl)
  · have hexec : exec (.commitWaitExpiry m) s = execCommitWaitExpiry m s := rfl
    have hcond : ((s.run.reported && !s.run.gateOpen && !s.run.prepassGate) || s.run.readied) = true := by
      rcases hwait with ⟨h₁, h₂, h₃⟩ | h
      · simp [h₁, h₂, h₃]
      · simp [h]
    simp only [execCommitWaitExpiry, hbusy, hact, hlead, hcond, Bool.not_true, Bool.false_eq_true, if_false, if_true] at hexec
    obtain ⟨hended, hmem⟩ := ((s.setRun { s.run with shadow := false, leadLost := true }).healthEvent 0x118 0xFF 0 0 1).endRun_ends .health
    obtain ⟨hmarks, hshadow, -⟩ := State.settled_endRun ((s.setRun { s.run with shadow := false, leadLost := true }).healthEvent 0x118 0xFF 0 0 1) .health
    have hrun := State.run_healthEvent (s.setRun { s.run with shadow := false, leadLost := true }) 0x118 0xFF 0 0 1
    have hbank : (s.leadLost).run.bank = s.run.bank := (congrArg Prod.fst (hmarks.trans (congrArg Run.marks hrun)) :)
    have hserve : ((s.setRun { s.run with shadow := false, leadLost := true }).healthEvent 0x118 0xFF 0 0 1).serve = s.serve := State.same_of_but (p := .serve) (by simp)
    have hsame : ((s.setRun { s.run with shadow := false, leadLost := true }).healthEvent 0x118 0xFF 0 0 1).mem = s.mem := State.same_of_but (p := .mem) (by simp)
    exact ⟨_, hexec, hended, hshadow (congrArg Run.shadow hrun), hbank, fun hnil => (hmem ((congrArg ServePart.reqs hserve).trans hnil)).trans hsame⟩
  · have hexec : exec (.commitWaitExpiry m) s = execCommitWaitExpiry m s := rfl
    simp only [execCommitWaitExpiry, hbusy, hact, hlead, hnone, hno, Bool.not_true, Bool.not_false, Bool.false_eq_true, if_false, if_true] at hexec
    rw [failModule_waits hlead hact hnone hpresent hother hhere hnot] at hexec
    exact ⟨_, hexec, (mem_insertNat _ _ _).2 (.inl rfl), rfl, rfl⟩
  · have hcond : (s.run.active && s.run.stop != some .lscaleFloor && (!s.isLead || decide (16 ≤ s.lead.floor))) = true := by
      cases hl : s.isLead
      · simp [hact, hstop]
      · simp [hact, hstop, hlead hl]
    exact ⟨_, congrArg Host.Outcome.next (if_pos hcond), State.run_post _ _ _ _ _, fun hposts => State.entered_from rfl
      (State.entered_post (s := s.setRun { s.run with stop := some .lscaleFloor }) hposts _ _ _)⟩
  · rw [stepReportRx_notes hbusy hlead hpresent, State.noteStepReport, if_pos hsum]
    have hhas := fun x : Nat => Tab.has_set s.lead.stepReports ws m x
    have hall : s.present.all (fun k => (s.lead.stepReports.set m ws).has k) = s.present.all (fun x => x == m || s.lead.stepReports.has x) := by
      simp only [hhas]
    simp only [State.setLead_lead]
    refine ⟨fun ⟨x, hx, hne, hno⟩ => ?_, fun hfull => ⟨_, congrArg Host.Outcome.next (if_pos ?_), ?_⟩⟩
    · refine congrArg Host.Outcome.next (if_neg fun h => ?_)
      have := List.all_eq_true.1 (hall.symm.trans h) x hx
      simp [hne, hno] at this
    · refine hall.trans (List.all_eq_true.2 fun x hx => ?_)
      rcases hfull x hx with h | h <;> simp [h]
    · unfold State.writeSummary
      simp only [State.setLead_lead, hsum]
      have hlead' : ∀ (u : State) bs e, (u.putReport bs e).lead = u.lead := fun u bs e => State.same_of_but (p := .lead) (by simp)
      rw [hlead']
      exact ⟨rfl, rfl⟩
  · refine ⟨_, stepReportRx_notes hbusy hlead hpresent, ?_⟩
    have hcond : (s.run.active && k == s.run.step) = true := by simp [hact, hk]
    rw [State.noteStepReport, if_neg hsum, if_pos hcond]
    exact ⟨List.mem_append_right _ (List.mem_singleton.2 rfl), by simp⟩

end
end Sys2Proof.Machine
end

/-! # Recovery, arrays and engines (O46 to O58) -/

/-! ## O46: re-reads, persistent failures, retirements and bridge errors -/
section
namespace Sys2Proof.Machine
open Sys2Proof
section
variable {s t u : State} {a n : Nat}

/-! A unit retired and told -/

theorem State.retireUnit_retires (s : State) (a : Nat) :
    (s.sparesLeft a ≠ 0 → unitOf a ∈ (s.retireUnit a).tier.retiredUnits) ∧ (s.sparesLeft a = 0 → a / 4096 * 4096 ∈ (s.retireUnit a).tier.lostPages) ∧
    (s.retireUnit a).tier.failed = s.tier.failed ∧ (s.retireUnit a).tier.toRetire = s.tier.toRetire := by
  unfold State.retireUnit
  by_cases h : s.sparesLeft a = 0
  · rw [if_pos h]
    exact ⟨fun hn => absurd h hn, fun _ => (mem_unionNat _ _ _).2 (.inl (List.mem_singleton.2 rfl)), rfl, rfl⟩
  · rw [if_neg h]
    simp only []
    split <;> exact ⟨fun _ => (mem_unionNat _ _ _).2 (.inl (List.mem_singleton.2 rfl)), fun h0 => absurd h0 h, rfl, rfl⟩

theorem State.tier_retireEvent (s : State) (a cls : Nat) (early had : Bool) : (s.retireEvent a cls early had).tier = s.tier :=
  State.same_of_but (p := .tier) (by simp)

theorem State.mem_retireEvent (s : State) (a cls : Nat) (early had : Bool) : (s.retireEvent a cls early had).mem = s.mem :=
  State.same_of_but (p := .mem) (by simp)

/-! A health event enters the ring -/

theorem State.mbox_setKprCause (s : State) (bit f : Nat) : (s.setKprCause bit).mbox f = s.mbox f := by
  unfold State.setKprCause
  split
  · rfl
  · rw [State.mbox, State.keeper_raise]
    rfl

theorem State.mbox_fogNote (s : State) (code src f : Nat) : (s.fogNote code src).mbox f = s.mbox f := by
  rw [State.mbox, State.same_of_but (s := s) (t := s.fogNote code src) (p := .keeper) (by simp), State.mbox]

theorem State.entered_healthEvent (h : s.postsTo 0 = true) (code tile unit addr count : Nat) :
    s.entered (s.healthEvent code tile unit addr count) 0 { code := code, fn := 0, seq := 0, data := healthData tile unit addr count } := by
  unfold State.healthEvent
  extract_lets e s₁ s₂ s₃ s₄
  have hposted : s.entered s₂ 0 e := State.entered_from rfl (State.entered_post (s := s₁) h code 0 e.data)
  have hsent : s₄.mbox 0 = s₂.mbox 0 := by
    simp only [s₄]
    split
    · exact State.mbox_setKprCause _ _ _
    · exact State.mbox_setKprCause _ _ _
  split
  · exact State.entered_to ((State.mbox_fogNote _ _ _ _).trans hsent) hposted
  · exact State.entered_to hsent hposted

theorem State.stop_stopRun_of_active (s : State) (why : StopReason) (h : s.run.active = true) : (s.stopRun why).run.stop ≠ none := by
  unfold State.stopRun
  cases hstop : s.run.stop
  · simp [h]
  · simp [hstop]

/-! A declared failure -/

theorem State.declareFailure_declares (s : State) (c : Src) (a : Nat) : (s.declareFailure c a).mem = s.mem ∧
    ∃ f ∈ (s.declareFailure c a).tier.failed, f.unit = unitOf a ∧ accessOf a ∈ f.accesses ∧ c ∈ f.waiters := by
  unfold State.declareFailure
  simp only []
  split
  · next h =>
    obtain ⟨f, hf, hunit⟩ := List.any_eq_true.1 h
    refine ⟨rfl, _, List.mem_map_of_mem hf, ?_⟩
    rw [if_pos hunit]
    exact ⟨beq_iff_eq.1 hunit, (mem_unionNat _ _ _).2 (.inl (List.mem_singleton.2 rfl)), List.mem_append_right _ (List.mem_singleton.2 rfl)⟩
  · exact ⟨rfl, _, List.mem_append_right _ (List.mem_singleton.2 rfl), rfl, List.mem_singleton.2 rfl, List.mem_singleton.2 rfl⟩

theorem reread_counts (c : Src) (e : EngRef) (hlocal : localOk a 1 = true) (hn : n < 3) : exec (.reread c e a n) s = .next (s.countTransient a) := by
  have hexec : exec (.reread c e a n) s = execReread c e a n s := rfl
  simp only [execReread, hlocal, hn, Bool.not_true, Bool.false_eq_true, if_false, if_true] at hexec
  exact hexec

theorem reread_declares (c : Src) (e : EngRef) (hlocal : localOk a 1 = true) (hn : 3 ≤ n) : ∃ t, exec (.reread c e a n) s = .next t ∧
    t.mem = (s.declareFailure c a).mem ∧ t.tier = (s.declareFailure c a).tier := by
  have hexec : exec (.reread c e a n) s = execReread c e a n s := rfl
  simp only [execReread, hlocal, Nat.not_lt.2 hn, Bool.not_true, Bool.false_eq_true, if_false] at hexec
  refine ⟨_, hexec, ?_⟩
  split
  · exact ⟨State.same_of_but (p := .mem) (by simp), State.same_of_but (p := .tier) (by simp)⟩
  · exact ⟨rfl, rfl⟩

/-! A persistent failure -/

theorem FailedUnit.unit_of_find {u : Nat} {f : FailedUnit} (h : s.tier.failed.find? (fun f => f.unit == u) = some f) : f.unit = u := by
  simpa using List.find?_some h

theorem persistentFailureRecovery_recomputes {h : Nat} {data : List Byte} {b : Bool} {f : FailedUnit} {p : Prog} {cmds : List (Nat × Nat)}
    (hbusy : s.keeper.kbusy = false) (hf : s.tier.failed.find? (fun f => f.unit == unitOf a) = some f) (hrec : s.recompute (unitOf a) = some (h, p, cmds)) :
    exec (.persistentFailureRecovery a data b) s = .next (s.recoverA f h p cmds) := by
  have hexec : exec (.persistentFailureRecovery a data b) s = execPersistentFailureRecovery a data b s := rfl
  simp only [execPersistentFailureRecovery, hbusy, hf, hrec, Bool.false_eq_true, if_false] at hexec
  exact hexec

/-- A failed unit retired and read from its source again. -/
def State.restore (s : State) (f : FailedUnit) (u : Nat) (data : List Byte) : State :=
  let t := (s.retireUnit u).setMem (writeAccesses (s.retireUnit u).mem f.accesses (if s.classAt u = 5 then [] else data))
  (t.setTier { t.tier with failed := t.tier.failed.filter (fun x => x.unit != u) }).retireEvent u (s.retireClass u) false (decide (s.sparesLeft u ≠ 0))

theorem persistentFailureRecovery_restores {data : List Byte} {f : FailedUnit} (hbusy : s.keeper.kbusy = false)
    (hf : s.tier.failed.find? (fun f => f.unit == unitOf a) = some f) (hrec : s.recompute (unitOf a) = none)
    (hmirror : s.classAt (unitOf a) = 2 → ∀ p, s.progAt s.run.prog = some p → p.img.mirroring = true) :
    exec (.persistentFailureRecovery a data false) s = .next (s.restore f (unitOf a) data) := by
  have hexec : exec (.persistentFailureRecovery a data false) s = execPersistentFailureRecovery a data false s := rfl
  cases hp : s.progAt s.run.prog with
  | none =>
    simp only [execPersistentFailureRecovery, hbusy, hf, hrec, hp, Bool.false_and, Bool.and_false, Bool.or_self, Bool.not_false, Bool.false_eq_true,
      if_false, if_true] at hexec
    exact hexec
  | some p =>
    have hlive : (s.classAt (unitOf a) == 2 && !p.img.mirroring) = false := by
      by_cases h : s.classAt (unitOf a) = 2
      · simp [hmirror h p hp]
      · simp [h]
    simp only [execPersistentFailureRecovery, hbusy, hf, hrec, hp, hlive, Bool.false_and, Bool.and_false, Bool.or_self, Bool.not_false, Bool.false_eq_true,
      if_false, if_true] at hexec
    exact hexec

/-- A tile whose bridge stops: its resends counted, and the tile bad. -/
def State.bridgeBad (s : State) (k n : Nat) : State :=
  let t := s.setHealth { s.health with resends := s.health.resends.upd 0 k (fun m => satAdd64 m n) }
  t.setHealth { t.health with badTiles := unionNat [k] t.health.badTiles }

/-- Settles O46. -/
theorem failuresAreRecovered : Obligations.FailuresAreRecovered := by
  unfold Obligations.FailuresAreRecovered
  refine ⟨fun c e a n s hlocal => ⟨fun hn hroom hnew => ⟨_, reread_counts c e hlocal hn, ?_⟩, fun hn x hx htwice => ⟨_, reread_counts c e hlocal hn, ?_⟩, fun hn => ?_⟩,
    fun a data f s hbusy hf hrec hmirror => ⟨_, persistentFailureRecovery_restores hbusy hf hrec hmirror, ?_⟩,
    fun a h data b f p cmds s hbusy hf hrec => ?_,
    fun a s hbusy hretire => ?_, fun k n s => ⟨rfl, fun x => ⟨(s.tableRebuilt x).setHealth { (s.tableRebuilt x).health with
        resends := (s.tableRebuilt x).health.resends.upd 0 k (fun m => satAdd64 m n) }, rfl, fun hposts => ?_⟩, ?_⟩⟩
  · have hnone : s.health.transients.find? (fun x => x.addr == unitOf a) = none := List.find?_eq_none.2 fun x hx => by simp [hnew x hx]
    unfold State.countTransient
    simp only [hnone, Nat.not_le.2 hroom, if_false]
    exact ⟨by simp, rfl⟩
  · unfold State.countTransient
    simp only [hx, ge_iff_le, htwice, if_true]
    exact ⟨(mem_unionNat _ _ _).2 (.inl (List.mem_singleton.2 rfl)), fun y hy => by simpa using (List.mem_filter.1 hy).2⟩
  · obtain ⟨t, hexec, hmem, htier⟩ := reread_declares c e hlocal hn
    obtain ⟨hsame, f, hf, hunit, hacc, hwait⟩ := s.declareFailure_declares c a
    exact ⟨t, f, hexec, htier ▸ hf, hunit, hacc, hwait, hmem.trans hsame⟩
  · obtain ⟨hspare, hnone, -, -⟩ := s.retireUnit_retires (unitOf a)
    have hmem : (s.retireUnit (unitOf a)).mem = s.mem := State.same_of_but (p := .mem) (by simp)
    unfold State.restore
    rw [State.tier_retireEvent, State.mem_retireEvent]
    refine ⟨fun x hx => by simpa using (List.mem_filter.1 hx).2, ?_, hspare, hnone⟩
    rw [← hmem]
    rfl
  · have hexec := persistentFailureRecovery_recomputes (data := data) (b := b) hbusy hf hrec
    have hunit := FailedUnit.unit_of_find hf
    refine ⟨fun hrun => ⟨_, hexec, ?_⟩, fun hrun hredo => ?_, fun hrun hredo => ⟨_, hexec, ?_⟩⟩
    · have hmem : (s.retireUnit f.unit).mem = s.mem := State.same_of_but (p := .mem) (by simp)
      unfold State.recoverA
      simp only [hrun, Bool.not_false, if_true, hunit]
      refine ⟨hunit ▸ hmem, Tab.find?_set_same _ _ _, fun x hx hx' => ?_⟩
      obtain ⟨y, -, rfl⟩ := List.mem_map.1 hx
      by_cases hy : (y.unit == unitOf a) = true
      · rw [if_pos hy]
      · rw [if_neg hy] at hx'
        exact absurd (beq_iff_eq.2 hx') hy
    · rw [hexec, State.recoverA]
      simp [hrun, hredo]
    · unfold State.recoverA
      simp only [hrun, hredo, Bool.not_true, Bool.false_eq_true, if_false, List.isEmpty_nil, hunit]
      rw [State.tier_retireEvent, State.mem_retireEvent]
      exact ⟨rfl, fun x hx => by simpa using (List.mem_filter.1 hx).2⟩
  · have hexec : exec (.transientRetire a) s = execTransientRetire a s := rfl
    have hin : s.tier.toRetire.contains (unitOf a) = true := by simpa using hretire
    simp only [execTransientRetire, hbusy, hin, Bool.false_eq_true, if_false, if_true] at hexec
    obtain ⟨hspare, -, -, hto⟩ := (s.setTier { s.tier with toRetire := s.tier.toRetire.filter (fun x => x != unitOf a) }).retireUnit_retires (unitOf a)
    refine ⟨_, hexec, ?_⟩
    rw [State.tier_retireEvent, State.mem_retireEvent, hto]
    exact ⟨fun h => by simpa using (List.mem_filter.1 h).2, State.same_of_but (s := s) (p := .mem) (by simp), hspare⟩
  · exact State.entered_to (t := s.tableRebuilt x) rfl (State.entered_healthEvent hposts _ _ _ _ _)
  · have hexec : exec (.bridgeFlitCrcFail k n ⟨true, []⟩) s = .next (((s.bridgeBad k n).healthEvent 0x106 k 0 0 1).stopRun .health) := rfl
    have hkept : (((s.bridgeBad k n).healthEvent 0x106 k 0 0 1).stopRun .health).health.core = (s.bridgeBad k n).health.core :=
      (congrArg HealthPart.core (State.same_of_but (s := (s.bridgeBad k n).healthEvent 0x106 k 0 0 1) (p := .health) (by simp))).trans (State.healthCore_healthEvent _ _ _ _ _ _)
    refine ⟨_, hexec, ?_, fun hact => State.stop_stopRun_of_active _ _ ((congrArg Run.active (State.run_healthEvent _ _ _ _ _ _)).trans hact), ?_⟩
    · refine (congrArg (fun h => k.val ∈ HealthPart.badTiles h) hkept).mpr ?_
      exact (mem_unionNat _ _ _).2 (.inl (List.mem_singleton.2 rfl))
    · exact (congrArg (fun h => Tab.get (HealthPart.resends h) 0 k.val) hkept).trans (Tab.get_upd_same s.health.resends 0 k.val (fun m => satAdd64 m n))

end
end Sys2Proof.Machine
end

/-! ## Lines and rows written in memory -/
section
namespace Sys2Proof.Machine
open Sys2Proof
section
variable {s t u : State} {m m' m'' : Mem} {rs rs' : List (Nat × Nat)} {a n : Nat}

/-! What a write leaves outside its ranges -/

/-- Outside some ranges two memories read the same. -/
def Mem.keeps (m m' : Mem) (rs : List (Nat × Nat)) : Prop := ∀ a, outside a rs → Mem.read m' a = Mem.read m a

theorem State.storesOnly_iff : s.storesOnly t rs ↔ Mem.keeps s.mem t.mem rs := Iff.rfl

theorem Mem.keeps_refl (m : Mem) (rs : List (Nat × Nat)) : Mem.keeps m m rs := fun _ _ => rfl

theorem Mem.keeps_trans (h : Mem.keeps m m' rs) (h' : Mem.keeps m' m'' rs) : Mem.keeps m m'' rs := fun a ha => (h' a ha).trans (h a ha)

theorem Mem.keeps_mono (h : Mem.keeps m m' rs) (hsub : ∀ r ∈ rs, r ∈ rs') : Mem.keeps m m' rs' :=
  fun a ha => h a fun r hr => ha r (hsub r hr)

/-- A write within one of the ranges. -/
theorem Mem.keeps_writeN (hmem : (a, n) ∈ rs) {bs : List Byte} (hlen : bs.length ≤ n) (m : Mem) : Mem.keeps m (Mem.writeN m a bs) rs :=
  fun _ hb => Mem.read_writeN_outside _ _ ((hb _ hmem).imp id fun h => by simp only [] at h; omega)

/-- A write inside one of the ranges. -/
theorem Mem.keeps_within {bs : List Byte} (h : ∃ r ∈ rs, r.1 ≤ a ∧ a + bs.length ≤ r.1 + r.2) (m : Mem) : Mem.keeps m (Mem.writeN m a bs) rs := by
  obtain ⟨r, hr, hlo, hhi⟩ := h
  exact fun b hb => Mem.read_writeN_outside _ _ ((hb r hr).imp (fun h => h.trans_le hlo) fun h => hhi.trans h)

theorem Mem.keeps_foldl {α : Type} {f : Mem → α → Mem} (l : List α) (h : ∀ x ∈ l, ∀ m, Mem.keeps m (f m x) rs) : ∀ m, Mem.keeps m (l.foldl f m) rs := by
  induction l with
  | nil => exact fun m => Mem.keeps_refl m rs
  | cons x l ih =>
    exact fun m => Mem.keeps_trans (h x List.mem_cons_self m) (ih (fun y hy => h y (List.mem_cons_of_mem _ hy)) _)

/-- Lines one stride apart, each within its range. -/
theorem Mem.keeps_writeLines (k : Nat) (ls : List (List Byte)) : ∀ (m : Mem) (i : Nat), (∀ j < ls.length, (a + (i + j) * k, n) ∈ rs) → (∀ l ∈ ls, l.length ≤ n) →
    Mem.keeps m (Mem.writeLines m (a + i * k) k ls) rs := by
  induction ls with
  | nil => exact fun m _ _ _ => Mem.keeps_refl m rs
  | cons l ls ih =>
    intro m i hmem hlen
    have hhere := Mem.keeps_writeN (hmem 0 (by simp)) (hlen l List.mem_cons_self) m
    have hrest := ih (Mem.writeN m (a + i * k) l) (i + 1)
      (fun j hj => by have := hmem (j + 1) (by simpa using hj); rwa [Nat.add_comm j 1, ← Nat.add_assoc] at this)
      (fun l hl => hlen l (List.mem_cons_of_mem _ hl))
    rw [Nat.add_one_mul, ← Nat.add_assoc] at hrest
    exact Mem.keeps_trans hhere hrest

/-! How long the lines are -/

theorem cdiv_sub {k n : Nat} (h : 0 < k) : cdiv (k - (n + 1)) (n + 1) + 1 = cdiv k (n + 1) := by
  unfold cdiv
  rw [← Nat.add_div_right _ (Nat.succ_pos n)]
  rcases Nat.lt_or_ge k (n + 1) with hk | hk
  · rw [Nat.sub_eq_zero_of_le hk.le, Nat.div_eq_of_lt_le (k := 1) (by omega) (by omega), Nat.div_eq_of_lt_le (k := 1) (by omega) (by omega)]
  · congr 1
    omega

theorem length_chunksOf {α : Type} (n : Nat) (k : Nat) : ∀ l : List α, l.length ≤ k → (chunksOf (n + 1) k l).length = cdiv l.length (n + 1) ∧
    ∀ c ∈ chunksOf (n + 1) k l, c.length ≤ n + 1 := by
  induction k with
  | zero =>
    intro l hl
    rw [List.length_eq_zero_iff.1 (Nat.le_zero.1 hl)]
    exact ⟨by simp [chunksOf, cdiv, Nat.div_eq_of_lt], nofun⟩
  | succ k ih =>
    intro l hl
    cases l with
    | nil => exact ⟨by simp [chunksOf, cdiv, Nat.div_eq_of_lt], nofun⟩
    | cons x l =>
      obtain ⟨hcount, hshort⟩ := ih ((x :: l).drop (n + 1)) (by simp at hl ⊢; omega)
      refine ⟨?_, fun c hc => ?_⟩
      · rw [List.length_drop] at hcount
        exact (congrArg (· + 1) hcount).trans (cdiv_sub (by simp))
      · rcases List.mem_cons.1 hc with rfl | hc
        · simp
        · exact hshort c hc

theorem length_chunks {α : Type} (l : List α) : (chunks 32 l).length = cdiv l.length 32 ∧ ∀ c ∈ chunks 32 l, c.length ≤ 32 :=
  length_chunksOf 31 l.length l le_rfl

theorem length_blockConv (f : NF) (sr : Nat → Option Nat) (vals : List FVal) : (blockConv f sr vals).2.1.length = vals.length := by
  unfold blockConv
  split
  · exact List.length_map _
  · simp only []
    split
    · exact List.length_map _
    · simp

theorem length_packQ4 (k : Nat) : ∀ cs : List Nat, cs.length = 2 * k → (packQ4 cs).length = k := by
  induction k with
  | zero =>
    intro cs hcs
    rw [List.length_eq_zero_iff.1 hcs]
    rfl
  | succ k ih =>
    intro cs hcs
    match cs, hcs with
    | x :: y :: cs, hcs => simp [packQ4, ih cs (by simpa using by simp at hcs; omega)]

theorem length_codesBytes {f : NF} (hf : f.scaled = true) {cs : List Nat} (h : cs.length = 32) : (codesBytes f cs).length = f.bytes 32 := by
  cases f with
  | q4 => exact length_packQ4 16 cs h
  | e4m3 => simp [codesBytes, h, NF.bytes]
  | e5m2 => simp [codesBytes, h, NF.bytes]
  | bf16 => cases hf
  | fp32 => cases hf
  | int32 => cases hf

theorem NF.bytes_mul_32 (f : NF) (k : Nat) : f.bytes (k * 32) = k * f.bytes 32 := by
  cases f <;> simp only [NF.bytes] <;> omega

theorem length_scaledLine {f : NF} (hf : f.scaled = true) (sr : Nat → Option Nat) (vals : List FVal) :
    (scaledLine f sr vals).1.length = cdiv vals.length 32 ∧ (scaledLine f sr vals).2.1.length = lineLen f vals.length := by
  obtain ⟨hcount, hshort⟩ := length_chunks vals
  unfold scaledLine
  simp only [List.length_map, List.length_zipIdx, List.length_flatMap, hcount, true_and]
  rw [List.map_congr_left (g := fun _ => f.bytes 32), List.map_const']
  · simp [lineLen, hf, roundUp, NF.bytes_mul_32, hcount]
  · intro x hx
    obtain ⟨c, hc, rfl⟩ := List.mem_map.1 hx
    obtain ⟨b, j⟩ := c
    have hb : b.length ≤ 32 := hshort b (List.fst_mem_of_mem_zipIdx hc)
    exact length_codesBytes hf (by simp [length_blockConv]; omega)

theorem length_plainLine {f : NF} (hf : f.scaled = false) (sr : Nat → Option Nat) (ftz : Bool) (vals : List FVal) :
    (plainLine f sr ftz vals).1.length = lineLen f vals.length := by
  unfold plainLine
  simp only [List.length_flatMap, List.map_map, Function.comp_def, length_leBytes, List.map_const', List.length_zipIdx, List.sum_replicate]
  cases f with
  | bf16 => exact Nat.mul_comm _ _
  | fp32 => exact Nat.mul_comm _ _
  | int32 => exact Nat.mul_comm _ _
  | e4m3 => cases hf
  | e5m2 => cases hf
  | q4 => cases hf

theorem length_convLine (f : NF) (sr : Nat → Option Nat) (ftz : Bool) (vals : List FVal) :
    (convLine f sr ftz vals).1.length = lineLen f vals.length ∧ (convLine f sr ftz vals).2.1.length = if f.scaled then cdiv vals.length 32 else 0 := by
  unfold convLine
  cases hf : f.scaled
  · exact ⟨length_plainLine hf _ _ _, rfl⟩
  · exact ⟨(length_scaledLine hf _ _).2, (length_scaledLine hf _ _).1⟩

theorem cdiv_mono {a b : Nat} (h : a ≤ b) (n : Nat) : cdiv a n ≤ cdiv b n := Nat.div_le_div_right (by omega)

theorem lineLen_mono (f : NF) {a b : Nat} (h : a ≤ b) : lineLen f a ≤ lineLen f b := by
  have hround : roundUp a 32 ≤ roundUp b 32 := Nat.mul_le_mul_right 32 (cdiv_mono h 32)
  cases f <;> simp only [lineLen, NF.scaled, NF.bytes, if_true, Bool.false_eq_true, if_false] <;> omega

end
end Sys2Proof.Machine
end

/-! ## O56 and O57: the turn and row engines -/
section
namespace Sys2Proof.Machine
open Sys2Proof
section
variable {s t u : State} {rs : List (Nat × Nat)}

/-! Rows stored -/

theorem mem_tensorRanges_elem (x : TStream) (t i n : Nat) : (spadBase t + x.addr + i * x.stride, lineLen x.fmt n) ∈ tensorRanges x t i n := by
  simp [tensorRanges]

theorem mem_tensorRanges_scale (x : TStream) (t i n : Nat) :
    (spadBase t + x.scale + i * x.sstride, if x.fmt.scaled then cdiv n 32 else 0) ∈ tensorRanges x t i n := by
  simp [tensorRanges]

theorem storeRow_keeps (t i : Nat) (ftz : Bool) (cs : List Chunk) : ∀ (m : Mem) (vs : List FVal),
    (∀ c ∈ cs, ∀ r ∈ tensorRanges c.at_ t i c.width, r ∈ rs) → Mem.keeps m (storeRow m t i ftz cs vs).1 rs := by
  induction cs with
  | nil => exact fun m _ _ => Mem.keeps_refl m rs
  | cons c cs ih =>
    intro m vs hrs
    have hwidth : (vs.take c.width).length ≤ c.width := by simp
    obtain ⟨helem, hscale⟩ := length_convLine c.at_.fmt (fun _ => none) ftz (vs.take c.width)
    have helems := fun m => Mem.keeps_writeN (hrs c List.mem_cons_self _ (mem_tensorRanges_elem _ _ _ _))
      (helem.trans_le (lineLen_mono _ hwidth)) m
    have hscales := fun m => Mem.keeps_writeN (hrs c List.mem_cons_self _ (mem_tensorRanges_scale _ _ _ _))
      (bs := (convLine c.at_.fmt (fun _ => none) ftz (vs.take c.width)).2.1)
      (hscale.trans_le (by split <;> [exact cdiv_mono hwidth 32; exact le_rfl])) m
    exact Mem.keeps_trans (Mem.keeps_trans (helems m) (hscales _)) (ih _ _ fun c hc => hrs c (List.mem_cons_of_mem _ hc))

theorem Mem.keeps_foldl_fst {α β : Type} {f : Mem × β → α → Mem × β} (l : List α) (h : ∀ x ∈ l, ∀ m, Mem.keeps m.1 (f m x).1 rs) :
    ∀ m, Mem.keeps m.1 (l.foldl f m).1 rs := by
  induction l with
  | nil => exact fun m => Mem.keeps_refl m.1 rs
  | cons x l ih =>
    exact fun m => Mem.keeps_trans (h x List.mem_cons_self m) (ih (fun y hy => h y (List.mem_cons_of_mem _ hy)) _)

theorem storeRows_keeps (m : Mem) (t : Nat) (a : RowArgs) (rows : List (List FVal)) (hrows : rows.length ≤ a.rows) :
    Mem.keeps m (storeRows m t a.ftz a.out rows).1 (rowRanges a t) := by
  refine Mem.keeps_foldl_fst _ (fun x hx m => ?_) (m, ({} : NumStat))
  have hi : x.2 < a.rows := (List.snd_lt_of_mem_zipIdx hx).trans_le (by simpa using hrows)
  exact storeRow_keeps t x.2 a.ftz a.out m.1 x.1 fun c hc r hr =>
    List.mem_flatMap.2 ⟨x.2, List.mem_range.2 hi, List.mem_flatMap.2 ⟨c, hc, hr⟩⟩

theorem length_storedFP32 (ftz : Bool) (vs : List FVal) : (plainLine .fp32 (fun _ => none) ftz vs).1.length = 4 * vs.length :=
  length_plainLine rfl _ _ _

theorem storeFP32_keeps {m : Mem} {t a n : Nat} (ftz : Bool) {vs : List FVal} (hn : 4 * vs.length ≤ n)
    (h : ∃ r ∈ rs, r.1 ≤ spadBase t + a ∧ spadBase t + a + n ≤ r.1 + r.2) : Mem.keeps m (storeFP32 m t a ftz vs).1 rs := by
  obtain ⟨r, hr, hlo, hhi⟩ := h
  exact Mem.keeps_within (bs := (plainLine .fp32 (fun _ => none) ftz vs).1) ⟨r, hr, hlo, by rw [length_storedFP32]; omega⟩ m

theorem storeGain_keeps {m : Mem} {t a norm n : Nat} (ftz : Bool) {vs : List FVal} (hn : 4 * vs.length ≤ n)
    (h : ∃ r ∈ rs, r.1 ≤ spadBase t + a ∧ spadBase t + a + n ≤ r.1 + r.2)
    (hnorm : ∃ r ∈ rs, r.1 ≤ spadBase t + norm ∧ spadBase t + norm + 4 ≤ r.1 + r.2) : Mem.keeps m (storeGain m t a norm ftz vs).1 rs :=
  Mem.keeps_trans (storeFP32_keeps ftz hn h) (storeFP32_keeps (n := 4) false (le_of_eq rfl) hnorm)

theorem length_zipW (f : FVal → FVal → FVal) (xs ys : List FVal) : (zipW f xs ys).length ≤ xs.length := by
  simp [zipW]

theorem length_sumRows (n : Nat) (rows : List (List FVal)) : (sumRows n rows).length ≤ n := by
  have hadd : ∀ (l : List (List FVal)) (acc : List FVal), (l.foldl (fun acc r => zipW radd acc r) acc).length ≤ acc.length := fun l => by
    induction l with
    | nil => exact fun _ => le_rfl
    | cons r l ih => exact fun acc => (ih _).trans (length_zipW _ _ _)
  exact (hadd rows _).trans_eq List.length_replicate

/-! A row command runs -/

theorem State.rowVals_of_sound {a : RowArgs} (h : a.failed = false) (s : State) (i : Nat) (vs : List FVal) : s.rowVals a i vs = vs := by
  unfold State.rowVals
  rw [h]
  rfl

theorem State.readOr_of_sound {src : Src} {tile kind num : Nat} (h : s.failedIn rs = []) (go : State → State) : s.readOr src tile kind num rs go = go s := by
  unfold State.readOr
  rw [h]

/-- A row command whose checks pass stores the memory its results leave. -/
theorem row_stores {c : Instr} {t : TileIx} {p : Fin 2} {src : Src} {a : RowArgs} {ok bwd : Bool} {r : Mem × NumStat}
    (hexec : exec c s = s.rowRun t p src a ok (s.rowDone t p a bwd r)) (htakes : s.engineTakes t 5 p src (fun _ => true) = true)
    (hsound : a.failed = false) (hfmts : rowFmts a = true) (hread : s.failedIn ((a.x ++ a.dy ++ a.dp).flatMap (fun c => c.at_.ranges t a.rows c.width)) = [])
    (hok : ok = true) : ∃ u, exec c s = .next u ∧ s.onlyChanges u [.mem, .eng, .run, .prog, .sched, .tier] ∧ u.mem = r.1 := by
  refine ⟨(s.rowDone t p a bwd r).finish src t 5 p, hexec.trans ?_, ?_, ?_⟩
  · unfold State.rowRun
    rw [htakes, hfmts, hok, State.readOr_of_sound hread]
    rfl
  · unfold State.rowDone
    rw [hsound]
    simp
  · have hfin : ((s.rowDone t p a bwd r).finish src t 5 p).mem = (s.rowDone t p a bwd r).mem := State.same_of_but (p := .mem) (by simp)
    rw [hfin]
    unfold State.rowDone
    rw [hsound]
    exact State.same_of_but (s := s.setMem r.1) (p := .mem) (by simp)

/-- The stored vector's range is one of the ranges named. -/
theorem mem_named {x : Nat × Nat} (h : x ∈ rs) : ∃ r ∈ rs, r.1 ≤ x.1 ∧ x.1 + x.2 ≤ r.1 + r.2 := ⟨x, h, le_rfl, le_rfl⟩

/-! The turn engine -/

theorem length_turnLines (f : NF) (cols : Nat) (rows : List (List FVal)) : (turnLines f cols rows).1.length = cols ∧
    ∀ l ∈ (turnLines f cols rows).1, l.1.length = lineLen f rows.length ∧ l.2.length = if f.scaled then cdiv rows.length 32 else 0 := by
  refine ⟨by simp [turnLines], fun l hl => ?_⟩
  simp only [turnLines, List.map_map, List.mem_map] at hl
  obtain ⟨j, -, rfl⟩ := hl
  obtain ⟨helem, hscale⟩ := length_convLine f (fun _ => none) false (column rows j)
  have hcol : (column rows j).length = rows.length := List.length_map _
  rw [hcol] at helem hscale
  exact ⟨helem, hscale⟩

theorem NF.bytes_unscaled {f : NF} (hf : f.scaled = false) (n : Nat) : f.bytes n = n * f.bytes 1 := by
  cases f with
  | bf16 => exact Nat.mul_comm _ _
  | fp32 => exact Nat.mul_comm _ _
  | int32 => exact Nat.mul_comm _ _
  | e4m3 => cases hf
  | e5m2 => cases hf
  | q4 => cases hf

theorem length_turnCodes (m : Mem) (t : Nat) (a : TurnArgs) (hf : a.src.fmt.scaled = false) : (turnCodes m t a).length = a.cols ∧
    ∀ l ∈ turnCodes m t a, l.1.length = lineLen a.src.fmt a.rows ∧ l.2.length = 0 := by
  refine ⟨by simp [turnCodes], fun l hl => ?_⟩
  obtain ⟨j, -, rfl⟩ := List.mem_map.1 hl
  refine ⟨?_, rfl⟩
  simp only [List.length_flatMap, length_leBytes, List.map_const', List.length_range, List.sum_replicate, lineLen, hf, Bool.false_eq_true, if_false]
  exact (NF.bytes_unscaled hf _).symm

/-- Lines stored in a stream, each no longer than the stream's lines. -/
theorem TStream.store_keeps (x : TStream) (m : Mem) (t n k : Nat) (ls : List (List Byte × List Byte)) (hk : ls.length ≤ k)
    (hlen : ∀ l ∈ ls, l.1.length ≤ lineLen x.fmt n ∧ l.2.length ≤ if x.fmt.scaled then cdiv n 32 else 0) :
    Mem.keeps m (x.store m t ls) ((List.range k).flatMap (fun i => tensorRanges x t i n)) := by
  have hranges : ∀ j < ls.length, ∀ r ∈ tensorRanges x t j n, r ∈ (List.range k).flatMap (fun i => tensorRanges x t i n) :=
    fun j hj r hr => List.mem_flatMap.2 ⟨j, List.mem_range.2 (hj.trans_le hk), hr⟩
  have helems := fun m => Mem.keeps_writeLines (a := spadBase t + x.addr) (n := lineLen x.fmt n) (rs := (List.range k).flatMap (fun i => tensorRanges x t i n))
    x.stride (ls.map (·.1)) m 0 (fun j hj => by
      rw [Nat.zero_add]
      exact hranges j (by simpa using hj) _ (mem_tensorRanges_elem x t j n)) (fun l hl => by
      obtain ⟨x', hx', rfl⟩ := List.mem_map.1 hl
      exact (hlen x' hx').1)
  have hscales := fun m => Mem.keeps_writeLines (a := spadBase t + x.scale) (n := if x.fmt.scaled then cdiv n 32 else 0)
    (rs := (List.range k).flatMap (fun i => tensorRanges x t i n)) x.sstride (ls.map (·.2)) m 0 (fun j hj => by
      rw [Nat.zero_add]
      exact hranges j (by simpa using hj) _ (mem_tensorRanges_scale x t j n)) (fun l hl => by
      obtain ⟨x', hx', rfl⟩ := List.mem_map.1 hl
      exact (hlen x' hx').2)
  simp only [Nat.zero_mul, Nat.add_zero] at helems hscales
  unfold TStream.store
  simp only []
  split
  · exact Mem.keeps_trans (helems m) (hscales _)
  · exact helems m

/-- The lines a TURN_STORE stores: one for each column, of the tile's rows. -/
theorem storedLines (m : Mem) (t : Nat) (a : TurnArgs) :
    (if a.src.fmt.scaled then (turnLines a.src.fmt a.cols ((List.range a.rows).map (fun i => a.src.line m t i a.cols))).1 else turnCodes m t a).length = a.cols ∧
    ∀ l ∈ (if a.src.fmt.scaled then (turnLines a.src.fmt a.cols ((List.range a.rows).map (fun i => a.src.line m t i a.cols))).1 else turnCodes m t a),
      l.1.length ≤ lineLen a.src.fmt a.rows ∧ l.2.length ≤ if a.src.fmt.scaled then cdiv a.rows 32 else 0 := by
  cases hs : a.src.fmt.scaled
  · obtain ⟨hcount, hlen⟩ := length_turnCodes m t a hs
    exact ⟨hcount, fun l hl => ⟨(hlen l hl).1.le, (hlen l hl).2.le⟩⟩
  · obtain ⟨hcount, hlen⟩ := length_turnLines a.src.fmt a.cols ((List.range a.rows).map (fun i => a.src.line m t i a.cols))
    rw [List.length_map, List.length_range, hs] at hlen
    exact ⟨hcount, fun l hl => ⟨(hlen l hl).1.le, (hlen l hl).2.le⟩⟩

theorem turnStore_stores {t : TileIx} {p : Fin 2} {src : Src} {a : TurnArgs} (htakes : s.engineTakes t 4 p src (fun _ => true) = true)
    (hfmt : ([.e4m3, .e5m2, .bf16] : List NF).contains a.src.fmt = true) (hfits : a.src.fits a.rows a.cols = true)
    (hread : s.failedIn (a.src.ranges t a.rows a.cols) = []) (hdst : TStream.fits { a.dst with fmt := a.src.fmt } a.cols a.rows = true) :
    ∃ u, exec (.turnStore t p src a) s = .next u ∧ s.onlyChanges u [.mem, .eng, .run, .prog, .sched, .tier] ∧
      u.mem = TStream.store { a.dst with fmt := a.src.fmt } s.mem t (if a.src.fmt.scaled then
        (turnLines a.src.fmt a.cols ((List.range a.rows).map (fun i => a.src.line s.mem t i a.cols))).1 else turnCodes s.mem t a) := by
  have hexec : exec (.turnStore t p src a) s = execTurnStore t p src a s := rfl
  simp only [execTurnStore, htakes, hfmt, hfits, hdst, Bool.not_true, Bool.or_self, Bool.false_eq_true, if_false, State.readOr_of_sound hread] at hexec
  refine ⟨_, hexec, by simp, ?_⟩
  have hkept (w : State) (e : EngPart) (rs : List (Nat × Nat)) : (((w.setEng e).clearFailed rs).finish src t 4 p).mem = w.mem :=
    State.same_of_but (p := .mem) (by simp)
  rw [hkept, State.setMem_mem]
  split <;> rfl

theorem length_flatMap_range {α : Type} {f : Nat → List α} {k : Nat} (n : Nat) (h : ∀ i, (f i).length = k) :
    ((List.range n).flatMap f).length = n * k := by
  simp [List.length_flatMap, h]

/-- What a MERGE brings together for one row: a mean and a variance, or a sum. -/
def mergedRow (m : Mem) (t : Nat) (a : RowArgs) (i : Nat) : List FVal :=
  let w := if a.variance then 8 else 4
  let at_ (b i k : Nat) : FVal := elemVal m .fp32 (spadBase t + b + w * i) 0 k
  if a.variance then
    let ps := (a.parts.zip a.counts).map (fun (b, n) => (n, at_ b i 0, rmul (at_ b i 1) (.ofNat n)))
    match ps with
    | [] => [.zero, .zero]
    | x :: r =>
      let (n, mean, m2) := r.foldl mergePair x
      [mean, rdiv m2 (.ofNat n)]
  else [mergeSums (a.parts.map (fun b => at_ b i 0))]

theorem length_mergedRow (m : Mem) (t : Nat) (a : RowArgs) (i : Nat) : (mergedRow m t a i).length = if a.variance then 2 else 1 := by
  unfold mergedRow
  simp only []
  split
  · split <;> rfl
  · rfl

/-- Settles O56. -/
theorem rowsForward : Obligations.RowsForward := by
  unfold Obligations.RowsForward
  refine ⟨fun t p src a s htakes hfmt hfits hread hdst => ?_, fun t p src a s n htakes hsound hfmts hread hn => ⟨fun hx hout hgain => ?_,
    fun hx hout hgain hbias => ?_, fun hx hstat => ?_, fun hx hout hstat => ?_, fun hparts hstat => ?_⟩⟩
  · obtain ⟨u, hexec, honly, hmem⟩ := turnStore_stores htakes hfmt hfits hread hdst
    refine ⟨u, hexec, honly, ?_, fun hplain => ?_⟩
    · rw [State.storesOnly_iff, hmem]
      exact TStream.store_keeps _ _ _ _ _ _ (storedLines s.mem t a).1.le (storedLines s.mem t a).2
    · rw [hmem, hplain]
      rfl
  · obtain ⟨u, hexec, honly, hmem⟩ := row_stores (c := .rms t p src a) rfl htakes hsound hfmts hread (by rw [← hn, hx, hout, hgain]; rfl)
    simp only [State.rowVals_of_sound hsound, ← hn] at hmem
    exact ⟨u, hexec, honly, State.storesOnly_iff.2 (hmem ▸ storeRows_keeps _ _ _ _ (by simp)), hmem⟩
  · obtain ⟨u, hexec, honly, hmem⟩ := row_stores (c := .layer t p src a) rfl htakes hsound hfmts hread (by rw [← hn, hx, hout, hgain, hbias]; rfl)
    simp only [State.rowVals_of_sound hsound, ← hn] at hmem
    exact ⟨u, hexec, honly, State.storesOnly_iff.2 (hmem ▸ storeRows_keeps _ _ _ _ (by simp)), hmem⟩
  · obtain ⟨u, hexec, honly, hmem⟩ := row_stores (c := .smaxStat t p src a) rfl htakes hsound hfmts hread (by rw [hx, hstat]; rfl)
    refine ⟨u, hexec, honly, State.storesOnly_iff.2 (hmem ▸ storeFP32_keeps (n := 8 * a.rows) _ ?_ (mem_named (List.mem_singleton.2 rfl)))⟩
    have hcount := length_flatMap_range a.rows (k := 2) fun i => (congrArg List.length (s.rowVals_of_sound hsound i
      [(smaxStatRow (maskedScores a.c a.causal a.tree i (chunksRow s.mem t i a.x))).1, (smaxStatRow (maskedScores a.c a.causal a.tree i (chunksRow s.mem t i a.x))).2]) :)
    exact (Nat.mul_le_mul_left 4 hcount.le).trans_eq (by omega)
  · obtain ⟨u, hexec, honly, hmem⟩ := row_stores (c := .smax t p src a) rfl htakes hsound hfmts hread (by rw [hx, hout, hstat]; rfl)
    simp only [State.rowVals_of_sound hsound] at hmem
    exact ⟨u, hexec, honly, State.storesOnly_iff.2 (hmem ▸ storeRows_keeps _ _ _ _ (by simp)), hmem⟩
  · obtain ⟨u, hexec, honly, hmem⟩ := row_stores (c := .merge t p src a) rfl htakes hsound hfmts hread (by rw [List.all_eq_true.2 hparts, hstat]; rfl)
    refine ⟨u, hexec, honly, State.storesOnly_iff.2 (hmem ▸ storeFP32_keeps (n := (if a.variance then 8 else 4) * a.rows) _ ?_ (mem_named (List.mem_singleton.2 rfl)))⟩
    have hcount := length_flatMap_range a.rows (k := if a.variance then 2 else 1) (f := fun i => s.rowVals a i (mergedRow s.mem t a i)) fun i => by
      rw [State.rowVals_of_sound hsound, length_mergedRow]
    refine (Nat.mul_le_mul_left 4 hcount.le).trans_eq ?_
    cases a.variance <;> simp only [if_true, Bool.false_eq_true, if_false] <;> omega

/-! Backward -/

/-- The ranges a backward command names beyond its rows. -/
theorem mem_beyond {x : Nat × Nat} {a : RowArgs} {t : Nat} (h : x ∈ rs) : ∃ r ∈ rowRanges a t ++ rs, r.1 ≤ x.1 ∧ x.1 + x.2 ≤ r.1 + r.2 :=
  mem_named (List.mem_append_right _ h)

/-- Settles O57. -/
theorem rowsBackward : Obligations.RowsBackward := by
  unfold Obligations.RowsBackward
  refine fun t p src a s n htakes hsound hfmts hread hn hx => ⟨fun hdy hout hgain hdgain => ⟨fun hnorm => ?_, fun hdbias hnorm => ?_⟩,
    fun hdp hout hstat hdelta => ?_, fun hdy hdelta => ?_⟩
  · obtain ⟨u, hexec, honly, hmem⟩ := row_stores (c := .rmsBwd t p src a) rfl htakes hsound hfmts hread (by rw [← hn, hx, hdy, hout, hgain, hdgain, hnorm]; rfl)
    refine ⟨u, hexec, honly, State.storesOnly_iff.2 (hmem ▸ ?_)⟩
    simp only [State.rowVals_of_sound hsound, ← hn]
    refine Mem.keeps_trans (Mem.keeps_mono (storeRows_keeps s.mem t a _ (by simp)) fun r hr => List.mem_append_left _ hr)
      (storeGain_keeps (n := 4 * n) _ (Nat.mul_le_mul_left 4 (length_sumRows n _)) (mem_beyond (x := (spadBase t + a.dgain, 4 * n)) (by simp))
        (mem_beyond (x := (spadBase t + a.norm, 4)) (by simp)))
  · obtain ⟨u, hexec, honly, hmem⟩ := row_stores (c := .layerBwd t p src a) rfl htakes hsound hfmts hread
      (by rw [← hn, hx, hdy, hout, hgain, hdgain, hdbias, hnorm]; rfl)
    refine ⟨u, hexec, honly, State.storesOnly_iff.2 (hmem ▸ ?_)⟩
    simp only [State.rowVals_of_sound hsound, ← hn]
    refine Mem.keeps_trans (Mem.keeps_trans (Mem.keeps_mono (storeRows_keeps s.mem t a _ (by simp)) fun r hr => List.mem_append_left _ hr)
      (storeGain_keeps (n := 4 * n) _ (Nat.mul_le_mul_left 4 (length_sumRows n _)) (mem_beyond (x := (spadBase t + a.dgain, 4 * n)) (by simp)) ?_))
      (storeGain_keeps (n := 4 * n) _ (Nat.mul_le_mul_left 4 (length_sumRows n _)) (mem_beyond (x := (spadBase t + a.dbias, 4 * n)) (by simp)) ?_)
    · exact ⟨(spadBase t + a.norm, 8), by simp, le_rfl, by simp only []; omega⟩
    · exact ⟨(spadBase t + a.norm, 8), by simp, by simp only []; omega, by simp only []; omega⟩
  · obtain ⟨u, hexec, honly, hmem⟩ := row_stores (c := .smaxBwd t p src a) rfl htakes hsound hfmts hread (by rw [hx, hdp, hout, hstat, hdelta]; rfl)
    simp only [State.rowVals_of_sound hsound] at hmem
    exact ⟨u, hexec, honly, State.storesOnly_iff.2 (hmem ▸ storeRows_keeps _ _ _ _ (by simp)), hmem⟩
  · obtain ⟨u, hexec, honly, hmem⟩ := row_stores (c := .dot t p src a) rfl htakes hsound hfmts hread (by rw [hx, hdy, hdelta]; rfl)
    simp only [State.rowVals_of_sound hsound, ← List.map_eq_flatMap] at hmem
    exact ⟨u, hexec, honly, State.storesOnly_iff.2 (hmem ▸ storeFP32_keeps (n := 4 * a.rows) _ (by simp) (mem_named (List.mem_singleton.2 rfl))), hmem⟩

end
end Sys2Proof.Machine
end

/-! ## O55: the pack engines -/
section
namespace Sys2Proof.Machine
open Sys2Proof
section
variable {s t u : State} {rs : List (Nat × Nat)}

/-! Frames -/

theorem length_blockEntry (prev : Nat) (b : PBlock) (h : b.2.length ≤ 32) : (blockEntry prev b).length ≤ 34 := by
  unfold blockEntry
  extract_lets d esc tag scale set
  have hscale : scale.length ≤ 1 := by
    simp only [scale]
    split <;> simp
  split
  · simp only [List.length_cons, List.length_append, length_leBytes, List.length_map]
    omega
  · simp only [List.length_cons, List.length_append, List.length_map]
    omega

/-- A run of zero blocks takes one byte, and every other block at most 34. -/
theorem length_frameEntries (bs : List PBlock) : ∀ prev run : Nat, (∀ b ∈ bs, b.2.length ≤ 32) →
    (frameEntries prev run bs).length ≤ 34 * bs.length + min run 1 := by
  induction bs with
  | nil =>
    intro prev run _
    unfold frameEntries
    split <;> simp
    omega
  | cons b bs ih =>
    intro prev run h
    have hrest := fun prev run => ih prev run fun b hb => h b (List.mem_cons_of_mem _ hb)
    unfold frameEntries
    split
    · have := hrest prev (run + 1)
      rw [List.length_cons]
      omega
    · have hblock := length_blockEntry prev b (h b List.mem_cons_self)
      have hafter := hrest b.1 0
      have hrun : (if run = 0 then ([] : List Byte) else [BitVec.ofNat 8 (run - 1)]).length ≤ min run 1 := by
        split
        · simp
        · simp
          omega
      rw [List.length_append, List.length_append, List.length_cons]
      omega

theorem length_frameBytes {bs : List PBlock} (hcount : bs.length ≤ 32) (h : ∀ b ∈ bs, b.2.length ≤ 32) : (frameBytes bs).length ≤ 1152 := by
  have hbody := length_frameEntries bs (frameBase bs) 0 h
  unfold frameBytes
  extract_lets body flen head all
  have hlen : flen ≤ 1096 := by simp only [flen, body]; omega
  have hall : all.length = flen := by simp [all, head, flen]
  have hround : roundUp flen 64 ≤ 1152 := by
    have := Nat.div_mul_le_self (flen + 64 - 1) 64
    have := Nat.div_le_div_right (c := 64) (show flen + 64 - 1 ≤ 1159 by omega)
    unfold roundUp cdiv
    omega
  rw [List.length_append, List.length_replicate, hall]
  omega

theorem length_tileBlocks {vals : List FVal} (h : vals.length ≤ 1024) : (tileBlocks vals).1.length ≤ 32 ∧ ∀ b ∈ (tileBlocks vals).1, b.2.length ≤ 32 := by
  obtain ⟨hcount, hshort⟩ := length_chunks vals
  unfold tileBlocks
  simp only [List.length_map, List.map_map]
  refine ⟨?_, fun b hb => ?_⟩
  · rw [hcount]
    exact (cdiv_mono h 32).trans (by decide)
  · obtain ⟨c, hc, rfl⟩ := List.mem_map.1 hb
    simp only [Function.comp_apply, length_blockConv]
    exact hshort c hc

theorem length_spadTile (m : Mem) (t : Nat) (r : PackRec) (tr tc : Nat) : (spadTile m t r tr tc).length ≤ 1024 := by
  unfold spadTile PackRec.h PackRec.w
  cases r.wide <;> simp [List.length_flatMap]

theorem length_sparseCodes (bits : List Bool) : ∀ cs : List Byte, (sparseCodes bits cs).length = bits.length := by
  induction bits with
  | nil => exact fun _ => rfl
  | cons b bits ih =>
    intro cs
    cases b with
    | false => exact congrArg (· + 1) (ih cs)
    | true =>
      cases cs with
      | nil => exact congrArg (· + 1) (ih [])
      | cons c cs => exact congrArg (· + 1) (ih cs)

/-- One block more than the rest of a frame. -/
theorem cons_decoded {left : Nat} {b : PBlock} {ys : List PBlock} (hleft : left ≠ 0) (h : ys.length = left - 1 ∧ ∀ b ∈ ys, b.2.length = 32)
    (hb : b.2.length = 32) : (b :: ys).length = left ∧ ∀ c ∈ b :: ys, c.2.length = 32 := by
  obtain ⟨hcount, hcodes⟩ := h
  exact ⟨by rw [List.length_cons, hcount]; omega, List.forall_mem_cons.2 ⟨hb, hcodes⟩⟩

theorem length_decodeEntries (fuel : Nat) : ∀ (prev left : Nat) (r : List Byte) (bs : List PBlock), decodeEntries fuel prev left r = some bs →
    bs.length = left ∧ ∀ b ∈ bs, b.2.length = 32 := by
  induction fuel with
  | zero =>
    intro prev left r bs h
    unfold decodeEntries at h
    split at h
    · cases h
      exact ⟨rfl, nofun⟩
    · cases h
    all_goals contradiction
  | succ fuel ih =>
    intro p l x bs h
    unfold decodeEntries at h
    split at h
    · cases h
      exact ⟨rfl, nofun⟩
    · contradiction
    · cases h
    · next prev left _ _ _ _ fuel' tag r heq =>
      obtain rfl : fuel = fuel' := Nat.succ.inj heq
      extract_lets k low esc d s r' bm bits n r'' at h
      split at h
      · split at h
        · next hleft =>
          obtain ⟨ys, hys, rfl⟩ := Option.map_eq_some_iff.1 h
          obtain ⟨hcount, hcodes⟩ := ih _ _ _ _ hys
          refine ⟨by rw [List.length_append, List.length_replicate, hcount]; omega, fun b hb => ?_⟩
          rcases List.mem_append.1 hb with hb | hb
          · rw [List.eq_of_mem_replicate hb]
            exact List.length_replicate
          · exact hcodes b hb
        · cases h
      · split at h
        · cases h
        · next hsome =>
          have hleft : left ≠ 0 := fun h0 => hsome (by simp [h0])
          split at h
          · cases h
          · split at h
            · split at h
              · cases h
              · next hlong =>
                obtain ⟨ys, hys, rfl⟩ := Option.map_eq_some_iff.1 h
                exact cons_decoded hleft (ih _ _ _ _ hys) (by rw [List.length_map, List.length_take]; omega)
            · split at h
              · cases h
              · split at h
                · cases h
                · obtain ⟨ys, hys, rfl⟩ := Option.map_eq_some_iff.1 h
                  exact cons_decoded hleft (ih _ _ _ _ hys) (by rw [length_sparseCodes]; simp [bits])


theorem length_decodeFrame {m : Mem} {a : Nat} {bs : List PBlock} (h : decodeFrame m a = some bs) : bs.length ≤ 32 ∧ ∀ b ∈ bs, b.2.length = 32 := by
  unfold decodeFrame at h
  simp only [] at h
  split at h
  · cases h
  · next hok =>
    obtain ⟨hcount, hcodes⟩ := length_decodeEntries _ _ _ _ _ h
    simp only [Bool.or_eq_true, decide_eq_true_eq, not_or] at hok
    exact ⟨by omega, hcodes⟩

/-! Tiles expanded -/

/-- The lines an EXPAND names, with their scales. -/
def expandRanges (t : Nat) (r : PackRec) : List (Nat × Nat) :=
  (List.range (r.ntr * r.h)).flatMap (fun j =>
    [(spadBase t + r.saddr + j * r.sstride, if r.ofmt = 0 then 32 * cdiv r.ncol 32 else 4 * r.ncol),
     (spadBase t + r.sscale + j * r.ssstride, if r.ofmt = 0 then cdiv r.ncol 32 else 0)])

theorem PackRec.shape (r : PackRec) : r.h * (r.w / 32) = 32 ∧ 0 < r.w / 32 := by
  unfold PackRec.h PackRec.w
  cases r.wide <;> decide

theorem lt_cdiv {k n : Nat} (h : 32 * k < n) : k < cdiv n 32 := by
  unfold cdiv
  omega

theorem expandBlock_keeps {t : Nat} {r : PackRec} (m : Mem) {row blk : Nat} {b : PBlock} (hrow : row - r.tr0 * r.h < r.ntr * r.h)
    (hblk : 32 * blk < r.ncol) (hb : b.2.length = 32) : Mem.keeps m (expandBlock m t r row blk b).1 (expandRanges t r) := by
  have hmem : ∀ x, x ∈ [(spadBase t + r.saddr + (row - r.tr0 * r.h) * r.sstride, if r.ofmt = 0 then 32 * cdiv r.ncol 32 else 4 * r.ncol),
      (spadBase t + r.sscale + (row - r.tr0 * r.h) * r.ssstride, if r.ofmt = 0 then cdiv r.ncol 32 else 0)] → x ∈ expandRanges t r :=
    fun x hx => List.mem_flatMap.2 ⟨_, List.mem_range.2 hrow, hx⟩
  have hlast := lt_cdiv hblk
  unfold expandBlock
  simp only []
  split
  · next hfmt =>
    rw [if_pos hfmt, if_pos hfmt] at hmem
    refine Mem.keeps_trans (Mem.keeps_within ⟨_, hmem _ List.mem_cons_self, ?_, ?_⟩ m)
      (Mem.keeps_within ⟨_, hmem _ (List.mem_cons_of_mem _ List.mem_cons_self), ?_, ?_⟩ _)
    · exact Nat.le_add_right _ _
    · simp only [List.length_map, hb]
      omega
    · exact Nat.le_add_right _ _
    · simp only [List.length_singleton]
      omega
  · next hfmt =>
    rw [if_neg hfmt, if_neg hfmt] at hmem
    refine Mem.keeps_within (bs := (plainLine .fp32 (fun _ => none) false ((b.2.map (scaledVal .e4m3 b.1)).take (r.ncol - 32 * blk))).1)
      ⟨_, hmem _ List.mem_cons_self, ?_, ?_⟩ m
    · exact Nat.le_add_right _ _
    · rw [length_storedFP32, List.length_take]
      simp only []
      omega

theorem expandFrame_keeps {t : Nat} {r : PackRec} {i j : Nat} (m : Mem) {bs : List PBlock} (hi : i < r.ntr) (hcount : bs.length ≤ 32)
    (hcodes : ∀ b ∈ bs, b.2.length = 32) : Mem.keeps m (expandFrame m t r (r.tr0 + i) j bs).1 (expandRanges t r) := by
  refine Mem.keeps_foldl_fst bs.zipIdx (fun x hx m => ?_) (m, ({} : NumStat))
  obtain ⟨b, k⟩ := x
  have hk : k < 32 := (List.snd_lt_of_mem_zipIdx hx).trans_le (by simpa using hcount)
  simp only []
  split
  · next hin =>
    refine expandBlock_keeps m.1 ?_ ?_ (hcodes b (List.fst_mem_of_mem_zipIdx hx))
    · have hline : k / (r.w / 32) < r.h := Nat.div_lt_of_lt_mul (by rw [Nat.mul_comm, r.shape.1]; exact hk)
      have hlast : (i + 1) * r.h ≤ r.ntr * r.h := Nat.mul_le_mul_right _ hi
      generalize k / (r.w / 32) = q at hline ⊢
      rw [Nat.add_mul] at hlast ⊢
      omega
    · simp only [Bool.and_eq_true, decide_eq_true_eq] at hin
      exact hin.2
  · exact Mem.keeps_refl _ _

theorem State.storesOnly_trans (h : s.storesOnly t rs) (h' : t.storesOnly u rs) : s.storesOnly u rs := Mem.keeps_trans h h'

theorem State.storesOnly_of_same (hmem : t.mem = s.mem) : s.storesOnly t rs := fun a _ => congrArg (fun m => Mem.read m a) hmem

theorem State.storesOnly_foldl {α : Type} {f : State → α → State} (l : List α) (h : ∀ x ∈ l, ∀ s : State, s.storesOnly (f s x) rs) :
    ∀ s : State, s.storesOnly (l.foldl f s) rs := by
  induction l with
  | nil => exact fun s => Mem.keeps_refl s.mem rs
  | cons x l ih =>
    exact fun s => State.storesOnly_trans (h x List.mem_cons_self s) (ih (fun y hy => h y (List.mem_cons_of_mem _ hy)) _)

theorem mem_finish (s : State) (src : Src) (tile kind num : Nat) : (s.finish src tile kind num).mem = s.mem := State.same_of_but (p := .mem) (by simp)

theorem tier_finish (s : State) (src : Src) (tile kind num : Nat) : (s.finish src tile kind num).tier = s.tier := State.same_of_but (p := .tier) (by simp)

theorem State.failed_clearFailed (s : State) (rs : List (Nat × Nat)) : (s.clearFailed rs).tier.failed = s.tier.failed := by
  unfold State.clearFailed
  simp only []
  split <;> rfl

/-! Tiles packed -/

theorem mem_writeFrame (s : State) (t p : Nat) (f : Fn) (r : PackRec) (ncol row col : Nat) (vals : List FVal) : (s.writeFrame t p f r ncol row col vals).mem =
    Mem.writeN s.mem (r.dbase + (row / r.h * cdiv ncol r.w + col / r.w) * 1152) (frameBytes (tileBlocks vals).1) := by
  unfold State.writeFrame
  generalize tileBlocks vals = x
  obtain ⟨bs, st⟩ := x
  simp only []
  generalize frameBytes bs = fs
  exact State.same_of_but (s := s.setMem (Mem.writeN s.mem _ fs)) (p := .mem) (by simp)

theorem PackRec.place_eq (r : PackRec) (i j : Nat) : i * r.h / r.h * r.tcols + j * r.w / r.w = i * r.tcols + j := by
  have hh : 0 < r.h := by unfold PackRec.h; split <;> decide
  have hw : 0 < r.w := by unfold PackRec.w; split <;> decide
  rw [Nat.mul_div_cancel _ hh, Nat.mul_div_cancel _ hw]

/-- The slots of the tiles a SAVE_SPAD packs. -/
def slotRanges (r : PackRec) : List (Nat × Nat) := (List.range (r.ntr * r.tcols)).map (fun j => (r.dbase + (r.tr0 * r.tcols + j) * 1152, 1152))

theorem writeFrame_keeps (s : State) {t p : Nat} {f : Fn} {r : PackRec} {i j : Nat} (hi : i ∈ List.range r.ntr) (hj : j ∈ List.range r.tcols) :
    s.storesOnly (s.writeFrame t p f r r.ncol ((r.tr0 + i) * r.h) (j * r.w) (spadTile s.mem t r (r.tr0 + i) j)) (slotRanges r) := by
  rw [List.mem_range] at hi hj
  rw [State.storesOnly_iff, mem_writeFrame]
  obtain ⟨hcount, hshort⟩ := length_tileBlocks (length_spadTile s.mem t r (r.tr0 + i) j)
  refine Mem.keeps_writeN (n := 1152) (List.mem_map.2 ⟨i * r.tcols + j, List.mem_range.2 ?_, ?_⟩) (length_frameBytes hcount hshort) s.mem
  · have := Nat.mul_le_mul_right r.tcols (Nat.succ_le_of_lt hi)
    rw [Nat.succ_mul] at this
    omega
  · have hplace : (r.tr0 + i) * r.h / r.h * cdiv r.ncol r.w + j * r.w / r.w = (r.tr0 + i) * r.tcols + j := r.place_eq (r.tr0 + i) j
    rw [hplace, Nat.add_mul r.tr0 i, Nat.add_assoc]

/-- Settles O55. -/
theorem tilesArePacked : Obligations.TilesArePacked := by
  unfold Obligations.TilesArePacked
  refine fun t p src ws s r hr htakes => ⟨fun hcode hroom hwait => ?_, fun hcode hread => ?_, fun hcode hread => ?_⟩
  · have hexec : exec (.saveDrain t p src ws) s = execSaveDrain t p src ws s := rfl
    simp only [execSaveDrain, ← hr, htakes, hcode, Nat.not_le.2 hroom, Bool.not_true, Bool.false_eq_true, if_false, ne_eq, not_true_eq_false] at hexec
    by_cases hz : r.ntr = 0
    · rw [if_pos hz] at hexec
      refine ⟨_, hexec, by simp, ?_⟩
      have heng : (s.finish src t 3 p).eng = s.eng := State.same_of_but (p := .eng) (by simp)
      rw [heng, if_pos hz, List.append_nil]
    · rw [if_neg hz] at hexec
      have heng (w : State) : (w.took src t 3 p).eng = w.eng := State.same_of_but (p := .eng) (by simp)
      have hidle (w : State) (h : w.eng.packWait.get [] (t.val * 2 + p.val) = []) : w.packPump t p = w := by
        unfold State.packPump
        rw [h]
        rfl
      rw [hidle] at hexec
      · refine ⟨_, hexec, by simp, ?_⟩
        rw [heng, if_neg hz]
        exact Tab.get_set_same _ _ _ _
      · rw [heng]
        exact hwait
  · have hexec : exec (.saveSpad t p src ws) s = execSaveSpad t p src ws s := rfl
    simp only [execSaveSpad, ← hr, htakes, hcode, Bool.not_true, Bool.false_eq_true, if_false, ne_eq, not_true_eq_false] at hexec
    rw [State.readOr_of_sound hread] at hexec
    refine ⟨_, hexec, ?_, State.storesOnly_trans (State.storesOnly_foldl _ (fun i hi s => State.storesOnly_foldl _ (fun j hj s => ?_) s) s)
      (State.storesOnly_of_same (mem_finish _ _ _ _ _)), fun hone hcol => ?_⟩
    · refine (State.onlyChanges_finish _ _ _ _ _ (by simp)).2 (State.onlyChanges_foldl _ (fun s i => State.onlyChanges_foldl _ (fun s j => ?_) _ s) _ s)
      simp
    · exact writeFrame_keeps s hi hj
    · rw [mem_finish, hone, hcol]
      simp only [List.range_one, List.foldl_cons, List.foldl_nil, Nat.add_zero]
      rw [mem_writeFrame]
      have hplace : r.tr0 * r.h / r.h * cdiv r.ncol r.w + 0 * r.w / r.w = r.tr0 * r.tcols + 0 := r.place_eq r.tr0 0
      rw [hplace, hcol, Nat.mul_one, Nat.add_zero]
  · have hexec : exec (.expand t p src ws) s = execExpand t p src ws s := rfl
    simp only [execExpand, ← hr, htakes, hcode, Bool.not_true, Bool.false_eq_true, if_false, ne_eq, not_true_eq_false] at hexec
    rw [State.readOr_of_sound hread] at hexec
    refine ⟨_, hexec, State.storesOnly_trans (State.storesOnly_foldl _ (fun i hi s => State.storesOnly_foldl _ (fun j _ s => ?_) s) s)
      (State.storesOnly_of_same (mem_finish _ _ _ _ _)), fun hone hcol => ⟨fun bs hbs => ?_, fun hnone => ?_⟩⟩
    · change s.storesOnly _ (expandRanges t r)
      split
      · exact State.storesOnly_of_same (s.declareFailure_declares src _).1
      · next bs hbs =>
        obtain ⟨hcount, hcodes⟩ := length_decodeFrame hbs
        exact State.storesOnly_trans (t := s.setMem (expandFrame s.mem t r (r.tr0 + i) j bs).1)
          (expandFrame_keeps s.mem (List.mem_range.1 hi) hcount hcodes) (State.storesOnly_of_same (State.same_of_but (p := .mem) (by simp)))
    · rw [mem_finish, tier_finish, hone, hcol]
      simp only [List.range_one, List.foldl_cons, List.foldl_nil, Nat.add_zero, Nat.mul_one, hbs, State.failed_clearFailed]
      exact ⟨State.same_of_but (s := s.setMem _) (p := .mem) (by simp), congrArg TierPart.failed (State.same_of_but (s := s) (p := .tier) (by simp))⟩
    · rw [mem_finish, tier_finish, hone, hcol]
      simp only [List.range_one, List.foldl_cons, List.foldl_nil, Nat.add_zero, Nat.mul_one, hnone]
      obtain ⟨hmem, f, hf, hunit, -, hwaits⟩ := s.declareFailure_declares src (r.dbase + r.tr0 * 1152)
      exact ⟨hmem, f, hf, hunit, hwaits⟩

end
end Sys2Proof.Machine
end

/-! ## O49: an array retires to a spare -/
section
namespace Sys2Proof.Machine
open Sys2Proof
section
variable {s t u : State} {k p q : Nat}

theorem State.phys_of_arr {a : Nat} (h : t.arr = s.arr) : t.phys k a = s.phys k a := by simp only [State.phys, h]

theorem State.array_of_arr (h : t.arr = s.arr) : t.array k p = s.array k p := by simp only [State.array, h]

theorem State.array_setArray_other (s : State) (k : Nat) (v : ArraySt) (h : q ≠ p) : (s.setArray k p v).array k q = s.array k q :=
  Tab.get_set_other _ _ _ (by omega)

/-- A health event stands at the head of the log. -/
theorem State.log_healthEvent (s : State) (code tile unit addr count : Nat) : (s.healthEvent code tile unit addr count).health.log.get [] s.health.loghead =
    logEntry { code := code, fn := 0, seq := 0, data := healthData tile unit addr count } s.health.optime := by
  have hfog : ∀ (u : State) x y, (u.fogNote x y).health = u.health := fun u x y => State.same_of_but (p := .health) (by simp)
  have hpost : ∀ (u : State) f c q d, (u.post f c q d).health = u.health := fun u f c q d => State.same_of_but (p := .health) (by simp)
  have hcause : ∀ (u : State) b, (u.setKprCause b).health = u.health := fun u b => State.same_of_but (p := .health) (by simp)
  have hsend : ∀ (u : State) o, (u.send o).health = u.health := fun _ _ => rfl
  have hhealth : (s.healthEvent code tile unit addr count).health = (s.logHealth { code := code, fn := 0, seq := 0, data := healthData tile unit addr count }).health := by
    unfold State.healthEvent
    simp only []
    split <;> split <;> simp only [hfog, hsend, hcause, hpost]
  rw [hhealth]
  exact Tab.get_set_same _ _ _ _

/-! The array that retires -/

/-- An array's number given to a spare, which reloads its panel and takes over what waits. -/
def State.replaceArray (s : State) (k a p q : Nat) : State :=
  let s := (s.setArray k q { s.array k q with forceReload := true, waiting := (s.array k p).waiting }).setArray k p
    { s.array k p with retiring := false, retired := true, waiting := [] }
  s.setArr { s.arr with map := s.arr.map.set (k * 80 + a) q }

theorem State.replaceArray_replaces (s : State) (k a : Nat) (h : p ≠ q) : (s.replaceArray k a p q).phys k a = q ∧
    (∀ b, b ≠ a → (s.replaceArray k a p q).phys k b = s.phys k b) ∧ ((s.replaceArray k a p q).array k p).retired = true ∧
    ((s.replaceArray k a p q).array k q).forceReload = true ∧ ((s.replaceArray k a p q).array k q).waiting = (s.array k p).waiting := by
  have hp : (s.replaceArray k a p q).array k p = { s.array k p with retiring := false, retired := true, waiting := [] } :=
    State.array_setArray_same (s.setArray k q _) k p _
  have hq : (s.replaceArray k a p q).array k q = { s.array k q with forceReload := true, waiting := (s.array k p).waiting } :=
    (State.array_setArray_other (s.setArray k q _) k _ h.symm).trans (State.array_setArray_same s k q _)
  rw [hp, hq]
  exact ⟨Tab.get_set_same _ _ _ _, fun b hb => Tab.get_set_other _ _ _ (by omega), rfl, rfl, rfl⟩

/-- No spare left: the array stays, and its gallery's map is refused. -/
def State.keepArray (s : State) (k a p : Nat) : State :=
  let s := s.setArray k p { s.array k p with retiring := false, kept := true }
  s.setHealth { s.health with badGalleries := unionNat [k * 10 + a / 8] s.health.badGalleries }

/-- Whether a spare has been used. -/
def State.spareUsed (s : State) (k q : Nat) : Bool := (s.array k q).retired || (List.range 80).any (fun b => s.phys k b == q)

theorem State.spareUsed_iff : s.spareUsed k q = true ↔ (s.array k q).retired = true ∨ ∃ b < 80, s.phys k b = q := by
  simp [State.spareUsed]

theorem firstSpare_is (used : Nat → Bool) (hlo : 80 ≤ q) (hhi : q ≤ 83) (hfree : used q = false) (hused : ∀ k, 80 ≤ k → k < q → used k = true) :
    ([80, 81, 82, 83] : List Nat).find? (fun q => !used q) = some q := by
  obtain rfl | rfl | rfl | rfl : q = 80 ∨ q = 81 ∨ q = 82 ∨ q = 83 := by omega
  · simp [hfree]
  · simp [hfree, hused 80]
  · simp [hfree, hused 80, hused 81]
  · simp [hfree, hused 80, hused 81, hused 82]

theorem arrayRetire_replaces {t : TileIx} {a : Fin 80} (hbusy : s.keeper.kbusy = false) (hp : p = s.phys t a) (hretiring : (s.array t p).retiring = true)
    (hlive : (s.array t p).retired = false) (hfree : (s.array t p).leases = [])
    (hspare : ([80, 81, 82, 83] : List Nat).find? (fun q => !s.spareUsed t q) = some q) :
    exec (.arrayRetire t a) s = .next ((s.replaceArray t a p q).healthEvent 0x101 t p 0 q) := by
  subst hp
  have hexec : exec (.arrayRetire t a) s = execArrayRetire t a s := rfl
  have hgoes : (!(s.array t (s.phys t a)).retiring || (s.array t (s.phys t a)).retired || !(s.array t (s.phys t a)).leases.isEmpty) = false := by
    simp [hretiring, hlive, hfree]
  unfold State.spareUsed at hspare
  simp only [execArrayRetire, hbusy, hgoes, hspare, Bool.false_eq_true, if_false] at hexec
  exact hexec

theorem arrayRetire_keeps {t : TileIx} {a : Fin 80} (hbusy : s.keeper.kbusy = false) (hp : p = s.phys t a) (hretiring : (s.array t p).retiring = true)
    (hlive : (s.array t p).retired = false) (hfree : (s.array t p).leases = [])
    (hspare : ([80, 81, 82, 83] : List Nat).find? (fun q => !s.spareUsed t q) = none) :
    exec (.arrayRetire t a) s = .next (((s.keepArray t a p).healthEvent 0x102 t p 0 (s.array t p).mismatches).stopRun .health) := by
  subst hp
  have hexec : exec (.arrayRetire t a) s = execArrayRetire t a s := rfl
  have hgoes : (!(s.array t (s.phys t a)).retiring || (s.array t (s.phys t a)).retired || !(s.array t (s.phys t a)).leases.isEmpty) = false := by
    simp [hretiring, hlive, hfree]
  unfold State.spareUsed at hspare
  simp only [execArrayRetire, hbusy, hgoes, hspare, Bool.false_eq_true, if_false] at hexec
  exact hexec

/-- Settles O49. -/
theorem arraysRetire : Obligations.ArraysRetire := by
  unfold Obligations.ArraysRetire
  refine fun t a s p hbusy hp hretiring hlive hfree => ⟨fun q hlo hhi hq hphys hbefore => ?_, fun hused => ?_⟩
  · have hne : p ≠ q := hp ▸ hphys a a.isLt
    have hspare := firstSpare_is (s.spareUsed t) hlo hhi
      (Bool.eq_false_iff.2 fun h => (State.spareUsed_iff.1 h).elim (fun h => by rw [hq] at h; cases h) fun ⟨b, hb, h⟩ => hphys b hb h)
      (fun k h₁ h₂ => State.spareUsed_iff.2 (hbefore k h₁ h₂))
    refine ⟨_, arrayRetire_replaces hbusy hp hretiring hlive hfree hspare, ?_⟩
    obtain ⟨hnew, hothers, hold, hreload, hwaits⟩ := s.replaceArray_replaces t a hne
    have harr := (s.replaceArray t a p q).arr_healthEvent 0x101 t p 0 q
    rw [State.phys_of_arr harr, State.array_of_arr harr, State.array_of_arr harr, State.run_healthEvent]
    exact ⟨hnew, hold, hreload, hwaits, fun b hb => (State.phys_of_arr harr).trans (hothers b (fun h => hb (Fin.ext h))), rfl,
      State.same_of_but (s := s.replaceArray t a p q) (p := .mem) (by simp)⟩
  · have hspare : ([80, 81, 82, 83] : List Nat).find? (fun q => !s.spareUsed t q) = none := List.find?_eq_none.2 fun q hq => by
      have := State.spareUsed_iff.2 (hused q (by simp at hq; omega) (by simp at hq; omega))
      simp [this]
    refine ⟨_, arrayRetire_keeps hbusy hp hretiring hlive hfree hspare, ?_⟩
    have hstop (v : State) : (v.stopRun .health).arr = v.arr ∧ (v.stopRun .health).health = v.health ∧ (v.stopRun .health).mem = v.mem :=
      ⟨State.same_of_but (p := .arr) (by simp), State.same_of_but (p := .health) (by simp), State.same_of_but (p := .mem) (by simp)⟩
    obtain ⟨harr, hhealth, hmem⟩ := hstop ((s.keepArray t a p).healthEvent 0x102 t p 0 (s.array t p).mismatches)
    replace harr := harr.trans (State.arr_healthEvent _ _ _ _ _ _)
    rw [State.phys_of_arr harr, State.array_of_arr harr, hhealth, hmem]
    refine ⟨hp.symm, ?_, ?_, fun hact => State.stop_stopRun_of_active _ _ ((congrArg Run.active (State.run_healthEvent _ _ _ _ _ _)).trans hact),
      State.same_of_but (s := s.keepArray t a p) (p := .mem) (by simp), _, rfl, ?_⟩
    · exact (congrArg ArraySt.retired (State.array_setArray_same s t p _)).trans hlive
    · refine (congrArg (fun h => t.val * 10 + a.val / 8 ∈ HealthPart.badGalleries h)
        ((s.keepArray t a p).healthCore_healthEvent 0x102 t p 0 (s.array t p).mismatches)).mpr ?_
      exact (mem_unionNat _ _ _).2 (.inl (List.mem_singleton.2 rfl))
    · exact congrArg (List.take 2) ((s.keepArray t a p).log_healthEvent 0x102 t p 0 (s.array t p).mismatches)

end
end Sys2Proof.Machine
end

/-! ## O51: SAMPLE_TILE -/
section
namespace Sys2Proof.Machine
open Sys2Proof

/-- A request of a group, in decode. -/
def decodingIn (group : Nat) : Req :=
  { status := .decode, before := .queued, cancel := .none_, reason := .none_, cust := 1, group := group, teacher := false, learn := false,
    logp := false, tree := false, held := false, fn := 0, reqid := 7, len := 1, prompt := [1], maxnew := 4, temp := 0, topp := 0x3F800000,
    topk := 0, draft := 0, seed := 0, deadline := 0, accepted := 0, order := 0, admitted := 0, pdir := 0, eos := [], stops := [],
    stoptab := 0, outbuf := 0, outcap := 0, generated := [], written := 0, done := 0, pages := [], heldSteps := 0, expired := false,
    late := false, charged := 0, ops := [], beforeClose := false, rebuild := 0, home := 0, outExts := [], flr := false, doomed := false,
    pageless := false }

/-- A group whose plan samples these positions of tile 0: the position index, the request and the sequence position. -/
def sampling (xs : List (Nat × Nat × Nat)) : GroupSt :=
  { plan := some { parts := [], slots := xs.map (fun x => { tile := 0, pidx := x.1, req := x.2.1, t := x.2.2, role := .plain }), startedAt := 0 } }

/-- The last tile of the vocabulary of positions 0 to 31, on the bus for the sampler. -/
def lastSample : BusTile :=
  { array := 0, first := 0, src := ⟨0, 0, 0⟩, words := List.replicate 15 0 ++ [0xD0000000], shape := .s32x32, vals := [] }

/-- A module that samples, whose groups are listed out of order: group 1 samples positions 0 and 1, and group 0, listed after it, samples
position 1 too. The request of position 0, of group 0, saw a NaN. -/
def State.misgrouped : State :=
  { State.reset with
    pwr := { State.reset.pwr with start := .released }
    arr := { State.reset.arr with bus := [(0, [lastSample])] }
    serve := { State.reset.serve with
      reqs := [(0, decodingIn 0), (1, decodingIn 1)]
      groups := [(1, sampling [(0, 0, 5), (1, 1, 7)]), (0, sampling [(1, 1, 9)])]
      samp := [(0, { open_ := [{ pidx := 0, bad := true }] })] } }

/-- The sequence positions drawn for request 1 on tile 0. -/
def drawnFor1 : Host.Outcome State Fault Refusal → List Nat
  | .next u => ((u.sampler 0).drawn.filter (fun d => d.req == 1)).map (fun d => d.t)
  | _ => []

/-- The NaN marks the request in group 0, which then stands first, and position 1 is drawn by group 0's plan. -/
theorem drawnFor1_lastSample : drawnFor1 (exec (.sampleTile 0 0) State.misgrouped) = [9] := by decide +kernel

theorem req_of_sampleSlot_misgrouped {p : Nat} {x : SampleSlot} (h : State.misgrouped.sampleSlot 0 p = some x) :
    ∃ q, State.misgrouped.req? x.req = some q := by
  have hx := List.mem_of_find?_eq_some h
  have hall : ∀ x ∈ State.misgrouped.serve.groups.flatMap (fun e => match e.2.plan with | some pl => pl.slots | none => []),
      (State.misgrouped.req? x.req).isSome = true := by decide
  exact Option.isSome_iff_exists.1 (hall x hx)

/-- Refutes O51: the statement ranges over tables of groups out of order too, where a mark put on one group changes which group's plan
names a position first. -/
theorem not_samplerDraws : ¬ Obligations.SamplerDraws := by
  unfold Obligations.SamplerDraws
  intro h
  obtain ⟨u, hexec, -, -, -, hend⟩ := h 0 0 State.misgrouped lastSample _ (by decide) rfl (by decide) (by decide) (fun _ _ _ => req_of_sampleSlot_misgrouped)
  obtain ⟨-, hdrawn⟩ := hend (by decide)
  obtain ⟨d, hd, hreq, ht, -⟩ := hdrawn 1 (by decide) { tile := 0, pidx := 1, req := 1, t := 7, role := .plain } (by decide)
  have hseven : (7 : Nat) ∈ drawnFor1 (exec (.sampleTile 0 0) State.misgrouped) := by
    rw [hexec]
    exact List.mem_map.2 ⟨d, List.mem_filter.2 ⟨hd, by rw [hreq]; rfl⟩, ht⟩
  rw [drawnFor1_lastSample] at hseven
  exact absurd hseven (by decide)

end Sys2Proof.Machine
end

/-! ## O52: CHAIN and SETLEN -/
section
namespace Sys2Proof.Machine
open Sys2Proof
section
variable {s t u : State} {r : ChainRec} {x : ChainPart}

/-! Lengths staged behind chains -/

/-- One staged length takes over, unless a chain of its function is stopped. -/
def VecSt.settleOne (v : VecSt) (y : Nat × Nat) : VecSt :=
  if v.parts.has y.1 then v else { v with len := v.len.set y.1 y.2, staged := v.staged.del y.1 }

theorem VecSt.settle_eq_foldl (v : VecSt) : v.settle = v.staged.foldl VecSt.settleOne v := rfl

theorem VecSt.parts_settleOne (v : VecSt) (y : Nat × Nat) : (v.settleOne y).parts = v.parts := by unfold VecSt.settleOne; split <;> rfl
theorem VecSt.cnt_settleOne (v : VecSt) (y : Nat × Nat) : (v.settleOne y).cnt = v.cnt := by unfold VecSt.settleOne; split <;> rfl

theorem VecSt.foldl_settleOne_keeps (l : List (Nat × Nat)) : ∀ v : VecSt,
    (l.foldl VecSt.settleOne v).parts = v.parts ∧ (l.foldl VecSt.settleOne v).cnt = v.cnt := by
  induction l with
  | nil => exact fun _ => ⟨rfl, rfl⟩
  | cons y l ih => exact fun v => ⟨(ih _).1.trans (v.parts_settleOne y), (ih _).2.trans (v.cnt_settleOne y)⟩

@[simp] theorem VecSt.parts_settle (v : VecSt) : v.settle.parts = v.parts := (VecSt.foldl_settleOne_keeps v.staged v).1
@[simp] theorem VecSt.cnt_settle (v : VecSt) : v.settle.cnt = v.cnt := (VecSt.foldl_settleOne_keeps v.staged v).2

/-- What stays staged was staged, and a chain of its function is stopped. -/
theorem VecSt.mem_staged_foldl_settleOne (l : List (Nat × Nat)) : ∀ v : VecSt, ∀ y ∈ (l.foldl VecSt.settleOne v).staged,
    y ∈ v.staged ∧ (y ∈ l → v.parts.has y.1 = true) := by
  induction l with
  | nil => exact fun v y hy => ⟨hy, fun h => absurd h List.not_mem_nil⟩
  | cons z l ih =>
    intro v y hy
    obtain ⟨hstaged, hl⟩ := ih _ y hy
    rw [VecSt.parts_settleOne] at hl
    unfold VecSt.settleOne at hstaged
    split at hstaged
    case isTrue hhas => exact ⟨hstaged, fun h => (List.mem_cons.1 h).elim (fun h => h ▸ hhas) hl⟩
    case isFalse hhas =>
      obtain ⟨hold, hne⟩ := List.mem_filter.1 hstaged
      exact ⟨hold, fun h => (List.mem_cons.1 h).elim (fun h => absurd (by rw [h]) (bne_iff_ne.1 hne)) hl⟩

theorem VecSt.has_of_mem_staged_settle {v : VecSt} {y : Nat × Nat} (h : y ∈ v.settle.staged) : v.parts.has y.1 = true := by
  obtain ⟨hold, hhas⟩ := VecSt.mem_staged_foldl_settleOne v.staged v y h
  exact hhas hold

/-- Where a chain of each staged length's function is stopped, nothing takes over. -/
theorem VecSt.settle_of_has {v : VecSt} (h : ∀ y ∈ v.staged, v.parts.has y.1 = true) : v.settle = v := by
  rw [VecSt.settle_eq_foldl]
  generalize v.staged = l at h
  induction l with
  | nil => rfl
  | cons y l ih =>
    have hone : v.settleOne y = v := if_pos (h y List.mem_cons_self)
    rw [List.foldl_cons, hone]
    exact ih fun z hz => h z (List.mem_cons_of_mem _ hz)

theorem Tab.del_of_not_has {α : Type} {t : Tab α} {k : Nat} (h : t.has k = false) : t.del k = t :=
  List.filter_eq_self.2 fun e he => by simpa using List.any_eq_false.1 h e he

/-! The elements of a chain -/

/-- One element of a chain, at position i0 + j, joined to those before it. -/
def laneStep (m : Mem) (t : Nat) (d : Draws) (r : ChainRec) (i0 : Nat) (a : List Lane × NumStat × Nat) (j : Nat) : List Lane × NumStat × Nat :=
  let on := r.muse != 2 || expandOn m t r (i0 + j)
  let ins := chainInputs m t r (i0 + j) a.2.2 on
  let vs := runStages d r ins.1 (r.index (i0 + j))
  (a.1 ++ [{ i := i0 + j, vs := vs.1, mask := sourceOf r vs.1 ins.1 r.msrc }], (a.2.1.join ins.2).join vs.2, if on then a.2.2 + 1 else a.2.2)

theorem lanesFrom_eq_foldl (m : Mem) (t : Nat) (d : Draws) (r : ChainRec) (i0 n k : Nat) :
    lanesFrom m t d r i0 n k = (List.range (n - i0)).foldl (laneStep m t d r i0) ([], {}, k) := rfl

theorem foldl_laneStep_indices (m : Mem) (t : Nat) (d : Draws) (r : ChainRec) (i0 : Nat) (js : List Nat) :
    ∀ a, (js.foldl (laneStep m t d r i0) a).1.map Lane.i = a.1.map Lane.i ++ js.map (i0 + ·) := by
  induction js with
  | nil => simp
  | cons j js ih => intro a; rw [List.foldl_cons, ih]; simp [laneStep]

/-- The lanes are the elements in order. -/
theorem lanesFrom_indices (m : Mem) (t : Nat) (d : Draws) (r : ChainRec) (i0 n k : Nat) :
    (lanesFrom m t d r i0 n k).1.map Lane.i = List.range' i0 (n - i0) := by
  rw [lanesFrom_eq_foldl, foldl_laneStep_indices, List.range'_eq_map_range]
  rfl

theorem length_lanesFrom (m : Mem) (t : Nat) (d : Draws) (r : ChainRec) (i0 n k : Nat) : (lanesFrom m t d r i0 n k).1.length = n - i0 := by
  simpa using congrArg List.length (lanesFrom_indices m t d r i0 n k)

/-! The rows a chain writes -/

/-- An output row of these lanes. -/
def laneRow (d : Draws) (r : ChainRec) (g : List Lane) : List Byte × List Byte × NumStat :=
  outRow d r (g.map (fun l => l.vs.getD r.osel 0)) (g.map (fun l => r.index l.i))

/-- A piece's bytes written where its row and column stand in the output. -/
def writePiece (m : Mem) (t : Nat) (d : Draws) (r : ChainRec) (p : OutPiece) : Mem :=
  Mem.writeN m (spadBase t + r.out.addr + p.row * r.out.rstride + ((NF.ofCode r.out.fmt).getD .fp32).bytes p.col) (outRow d r p.ws p.es).1

theorem writePieces_of_unscaled (hf : ((NF.ofCode r.out.fmt).getD .fp32).scaled = false) (t : Nat) (d : Draws) (ps : List OutPiece) :
    ∀ m, (writePieces m t d r ps).1 = ps.foldl (fun m p => writePiece m t d r p) m := by
  intro m
  refine (List.foldl_hom Prod.fst fun a p => ?_).symm
  simp only [hf, Bool.false_eq_true, if_false]
  rfl

theorem bytes_zero (f : NF) : f.bytes 0 = 0 := by cases f <;> rfl

theorem chunksOf_of_ne_nil {α : Type} {l : List α} (h : l ≠ []) (n fuel : Nat) :
    chunksOf n (fuel + 1) l = l.take n :: chunksOf n fuel (l.drop n) := by
  cases l with
  | nil => exact absurd rfl h
  | cons => rfl

theorem take_range' (a n k : Nat) : (List.range' a n).take k = List.range' a (min k n) := List.ext_getElem (by simp) (by simp)

theorem drop_range' (a n k : Nat) : (List.range' a n).drop k = List.range' (a + k) (n - k) :=
  List.ext_getElem (by simp) (by simp [Nat.add_assoc])

/-- A piece that begins a row takes the row, and the next piece begins the next one. -/
theorem piecesOf_row {ws : List Word} (h : ws ≠ []) (index : Nat → Nat) {len : Nat} (hlen : 0 < len) (fuel k : Nat) :
    piecesOf index len (fuel + 1) (k * len) ws =
      { row := k, col := 0, ws := ws.take len, es := (List.range (ws.take len).length).map (fun j => index (k * len + j)) } ::
        piecesOf index len fuel ((k + 1) * len) (ws.drop len) := by
  cases ws with
  | nil => exact absurd rfl h
  | cons w ws => simp only [piecesOf, Nat.mul_div_cancel k hlen, Nat.mul_mod_left, Nat.sub_zero, Nat.add_one_mul]

/-- Whole rows of lanes written piece by piece are the lines of the output. -/
theorem foldl_writePiece_piecesOf (t : Nat) (d : Draws) (hr : 0 < r.rlen) (fuel : Nat) : ∀ (k n : Nat) (ls : List Lane) (m : Mem),
    ls.map Lane.i = List.range' (k * r.rlen) ls.length → ls.length ≤ n → ls.length < fuel →
    (piecesOf r.index r.rlen fuel (k * r.rlen) (ls.map (fun l => l.vs.getD r.osel 0))).foldl (fun m p => writePiece m t d r p) m =
      Mem.writeLines m (spadBase t + r.out.addr + k * r.out.rstride) r.out.rstride ((chunksOf r.rlen n ls).map (fun g => (laneRow d r g).1)) := by
  induction fuel with
  | zero => exact fun k n ls m _ _ h => absurd h (Nat.not_lt_zero _)
  | succ fuel ih =>
    intro k n ls m hi hn hfuel
    by_cases hne : ls = []
    · subst hne; cases n <;> rfl
    have hpos : 0 < ls.length := List.length_pos_iff.2 hne
    obtain ⟨n, rfl⟩ : ∃ n', n = n' + 1 := ⟨n - 1, by omega⟩
    have hhere : (List.range ((ls.map (fun l => l.vs.getD r.osel 0)).take r.rlen).length).map (fun j => r.index (k * r.rlen + j)) =
        (ls.take r.rlen).map (fun l => r.index l.i) := by
      have hrow : (ls.take r.rlen).map Lane.i = List.range' (k * r.rlen) (ls.take r.rlen).length := by
        rw [List.map_take, hi, take_range', List.length_take]
      rw [← List.map_take, List.length_map, ← Function.comp_def r.index Lane.i, ← List.map_map, hrow, List.range'_eq_map_range, List.map_map]
      rfl
    have hrest : (ls.drop r.rlen).map Lane.i = List.range' ((k + 1) * r.rlen) (ls.drop r.rlen).length := by
      rw [List.map_drop, hi, drop_range', List.length_drop, Nat.add_one_mul]
    have hlen : (ls.drop r.rlen).length ≤ n ∧ (ls.drop r.rlen).length < fuel := by rw [List.length_drop]; omega
    rw [piecesOf_row (by simpa using hne) r.index hr, hhere, chunksOf_of_ne_nil hne, List.foldl_cons, ← List.map_drop, ih (k + 1) n _ _ hrest hlen.1 hlen.2,
      List.map_cons, Mem.writeLines, Nat.add_one_mul, ← Nat.add_assoc, ← List.map_take]
    unfold writePiece
    rw [bytes_zero]
    rfl

/-! A chain that runs -/

/-- A chain at its start. -/
def chainStart (src : Src) (ws : List Word) (n : Nat) (d : Draws) : ChainPart :=
  { src := src, words := ws, len := n, vals := [], written := 0, ptr := 0, failed := false, draws := d }

/-- The pieces a whole chain writes. -/
def chainPieces (m : Mem) (t : Nat) (d : Draws) (r : ChainRec) (n : Nat) : List OutPiece :=
  if r.oen then piecesOf r.index r.rlen (n + 1) 0 ((lanesFrom m t d r 0 n 0).1.map (fun l => l.vs.getD r.osel 0)) else []

theorem outPieces_all (hmuse : r.muse = 0) (m : Mem) (t : Nat) (d : Draws) (n : Nat) :
    outPieces r ((lanesFrom m t d r 0 n 0).1.map (Lane.kept r)) 0 (r.writable true (outWords r ((lanesFrom m t d r 0 n 0).1.map (Lane.kept r))).length) =
      piecesOf r.index r.rlen (n + 1) 0 ((lanesFrom m t d r 0 n 0).1.map (fun l => l.vs.getD r.osel 0)) := by
  have hwords : outWords r ((lanesFrom m t d r 0 n 0).1.map (Lane.kept r)) = (lanesFrom m t d r 0 n 0).1.map (fun l => l.vs.getD r.osel 0) := by
    simp [outWords, hmuse, Lane.kept, Function.comp_def]
  simp [outPieces, hwords, hmuse, ChainRec.writable, List.take_of_length_le, length_lanesFrom]

/-- The end of a chain: what it wrote, its engine, an overflow, and its completion. -/
def State.chainEnd (s : State) (t e : Nat) (src : Src) (m : Mem) (v : VecSt) (ovf : Bool) (out : List (Nat × Nat)) : State :=
  (((((s.setMem m).setVecEng t e v).countOvf t 2 ovf).keysSettle t).clearFailed out).cmdDone src t 2 e

theorem runChain_ends {src : Src} {ws : List Word} (d : Draws) (t e n : Nat) (hmuse : (chainRec ws).muse = 0) (hrop : (chainRec ws).rop = 0) :
    ∃ (v : VecSt) (b : Bool) (out : List (Nat × Nat)), s.runChain t e (chainStart src ws n d) none =
      s.chainEnd t e src (writePieces s.mem t d (chainRec ws) (chainPieces s.mem t d (chainRec ws) n)).1 v.settle b out ∧ v.len = (s.vecEng t e).len ∧ v.staged = (s.vecEng t e).staged ∧ v.cnt = (s.vecEng t e).cnt ∧
      v.parts = (s.vecEng t e).parts.del src.fn := by
  unfold State.runChain chainPieces
  cases hoen : (chainRec ws).oen <;>
  · simp only [chainStart, hmuse, hrop, hoen, reductions, wordsBytes, Mem.writeN, outPieces_all hmuse, decide_true, Bool.not_true, Bool.false_eq_true,
      if_false, if_true, List.nil_append, List.flatMap_nil, List.length_nil, Prod.mk.eta, zero_ne_one]
    exact ⟨_, _, _, rfl, rfl, rfl, rfl, rfl⟩

theorem runChain_stops {src : Src} {ws : List Word} (d : Draws) (t e : Nat) {n b : Nat} (hlt : (chainRec ws).atBeat n b < n) :
    ∃ (m : Mem) (v : VecSt) (ovf : Bool) (x : ChainPart), s.runChain t e (chainStart src ws n d) (some b) =
      ((s.setMem m).setVecEng t e v).countOvf t 2 ovf ∧ v.len = (s.vecEng t e).len ∧ v.parts.find? src.fn.val = some x ∧
      x.src = src ∧ x.words = ws ∧ x.len = n ∧ x.vals.length = (chainRec ws).atBeat n b := by
  unfold State.runChain
  simp only [chainStart, List.length_nil, Nat.zero_max, hlt.ne, decide_false, Bool.not_false, if_true, Bool.false_eq_true, if_false, List.nil_append]
  exact ⟨_, _, _, _, rfl, rfl, Tab.find?_set_same _ _ _, rfl, rfl, rfl, by simp [length_lanesFrom]⟩

theorem State.vecEng_of_eng (h : t.eng = s.eng) (k e : Nat) : t.vecEng k e = s.vecEng k e := by simp only [State.vecEng, h]

theorem State.vecEng_setVecEng_same (s : State) (t e : Nat) (v : VecSt) : (s.setVecEng t e v).vecEng t e = v := Tab.get_set_same _ _ _ _

theorem State.vecEng_countOvf (s : State) (k source : Nat) (ovf : Bool) (t e : Nat) : (s.countOvf k source ovf).vecEng t e = s.vecEng t e := by
  unfold State.countOvf; split <;> rfl

theorem State.vecEng_keysSettle (s : State) (k t e : Nat) : (s.keysSettle k).vecEng t e = s.vecEng t e :=
  State.foldl_keeps (State.vecEng · t e) (fun u f => by simp only []; split <;> rfl) _ s

/-! The command -/

/-- No check of a list that ends in 0 fails. -/
theorem checks_of_code {a b c d e : Prop} [Decidable a] [Decidable b] [Decidable c] [Decidable d] [Decidable e]
    (h : (if a then 1 else if b then 2 else if c then 5 else if d then 8 else if e then 9 else 0) = 0) : ¬a ∧ ¬b ∧ ¬d ∧ ¬e := by
  split_ifs at h with ha hb hc hd he
  exact ⟨ha, hb, hd, he⟩

theorem ChainRec.sound_of_code {n kept : Nat} (h : r.code n kept = 0) : (r.fmtBad || r.alignBad || r.chainBad || r.rlen == 0) = false := by
  obtain ⟨hfmt, halign, hchain, hlen⟩ := checks_of_code h
  have hrlen : ¬ r.rlen = 0 := fun h0 => hlen (by simp [h0])
  simp [hfmt, halign, hchain, hrlen]

/-- A chain that passes its checks starts. -/
theorem chain_starts {t : TileIx} {e : Fin 8} {src : Src} {ws : List Word} {n kept : Nat} {ls : List Lane} {stop : Option Nat}
    (hr : r = chainRec ws) (htakes : s.vecTakes t e src ws = true) (hn : n = (s.vecEng t e).settle.len.get 0 src.fn.val)
    (hls : ls = (s.lanes t src.fn r n).1) (hmuse : r.muse = 0) (hkept : kept = (ls.filter (fun l => l.mask != 0)).length) (hcode : r.code n kept = 0)
    (hreads : s.failedIn (r.usedStreams.flatMap (fun i => (r.inAt i).ranges t r.rlen n kept)) = []) :
    exec (.chain t e src ws ⟨false, stop⟩) s =
      .next (((s.setVecEng t e { (s.vecEng t e).settle with shown := src.fn }).took src t 2 e).runChain t e (chainStart src ws n (s.draws t src.fn)) stop) := by
  subst hr hn hls hkept
  have hexec : exec (.chain t e src ws ⟨false, stop⟩) s = execChain t e src ws ⟨false, stop⟩ s := rfl
  have hpart : (s.vecEng t e).settle.parts.find? src.fn.val = none := by
    have hhas : (s.vecEng t e).parts.has src.fn.val = false := by
      simpa using (Bool.and_eq_true_iff.1 htakes).2
    rw [Tab.has_eq_isSome, ← VecSt.parts_settle] at hhas
    simpa using hhas
  simp only [execChain, hpart, htakes, ChainRec.sound_of_code hcode, hmuse, hcode, Option.filter_none, Bool.not_true, Bool.false_eq_true, if_false,
    ne_eq, not_true_eq_false, OfNat.zero_ne_ofNat] at hexec
  rw [State.readOr_of_sound (s := s.setVecEng t e _) hreads] at hexec
  exact hexec

theorem State.chainEnd_ends (s : State) (k e : Nat) (src : Src) (m : Mem) (v : VecSt) (ovf : Bool) (out : List (Nat × Nat)) :
    (s.chainEnd k e src m v ovf out).mem = m ∧ (s.chainEnd k e src m v ovf out).vecEng k e = v ∧
      s.onlyChanges (s.chainEnd k e src m v ovf out) [.mem, .eng, .run, .prog, .tier] := by
  refine ⟨State.same_of_but (s := s.setMem m) (p := .mem) (by simp [State.chainEnd]), ?_, by simp [State.chainEnd]⟩
  have heng : (s.chainEnd k e src m v ovf out).eng = ((((s.setMem m).setVecEng k e v).countOvf k 2 ovf).keysSettle k).eng :=
    State.same_of_but (p := .eng) (by simp [State.chainEnd])
  rw [State.vecEng_of_eng heng, State.vecEng_keysSettle, State.vecEng_countOvf, State.vecEng_setVecEng_same]

/-- What a whole chain leaves in its output. -/
theorem mem_chainPieces (hr : 0 < r.rlen) (m : Mem) (t : Nat) (d : Draws) (n : Nat) :
    (r.oen = false → (writePieces m t d r (chainPieces m t d r n)).1 = m) ∧
    (r.oen = true → ((NF.ofCode r.out.fmt).getD .fp32).scaled = false → (writePieces m t d r (chainPieces m t d r n)).1 =
      Mem.writeLines m (spadBase t + r.out.addr) r.out.rstride ((chunks r.rlen (lanesFrom m t d r 0 n 0).1).map (fun g => (laneRow d r g).1))) := by
  refine ⟨fun hoen => by simp only [chainPieces, hoen, Bool.false_eq_true, if_false]; rfl, fun hoen hf => ?_⟩
  have hlen := length_lanesFrom m t d r 0 n 0
  have hrows := foldl_writePiece_piecesOf t d hr (n + 1) 0 (lanesFrom m t d r 0 n 0).1.length (lanesFrom m t d r 0 n 0).1 m
    (by rw [lanesFrom_indices, hlen, Nat.zero_mul]) le_rfl (by omega)
  rw [writePieces_of_unscaled hf, chainPieces, if_pos hoen]
  simpa only [chunks, Nat.zero_mul, Nat.add_zero] using hrows

/-! SETLEN -/

/-- The length a SETLEN sets: the compress count or the immediate. -/
def setLength (v : VecSt) (ws : List Word) (f : Nat) : Nat := if flag ws 0 27 then v.cnt.get 0 f else fld ws 1 23 0

/-- A SETLEN that the engine takes and whose reserved fields are zero. -/
def setlenSound (s : State) (t : TileIx) (e : Fin 8) (src : Src) (ws : List Word) : Prop :=
  s.engineTakes t 2 e src (EngCmd.is ws []) = true ∧ fld ws 0 31 28 = 2 ∧ fld ws 0 26 0 = 0 ∧ fld ws 1 31 24 = 0 ∧ ∀ i < 14, ws.getD (2 + i) 0 = 0

theorem setlen_answers {t : TileIx} {e : Fin 8} {src : Src} {w : Word} {rest : List Word} (h : setlenSound s t e src (w :: rest)) :
    exec (.setlen t e src w rest) s =
      if (s.vecEng t e).parts.has src.fn.val then
        if flag (w :: rest) 0 27 then .next s
        else .next ((s.setVecEng t e { (s.vecEng t e).settle with
          shown := src.fn, mode := .chain, staged := (s.vecEng t e).settle.staged.set src.fn (fld (w :: rest) 1 23 0) }).finish src t 2 e)
      else .next ((s.setVecEng t e { (s.vecEng t e).settle with
        shown := src.fn, mode := .idle, len := (s.vecEng t e).settle.len.set src.fn (setLength (s.vecEng t e).settle (w :: rest) src.fn) }).finish src t 2 e) := by
  obtain ⟨htakes, hop, hres₀, hres₁, hwords⟩ := h
  have hexec : exec (.setlen t e src w rest) s = execSetlen t e src w rest s := rfl
  have hrest : (List.range 14).any (fun i => (w :: rest).getD (2 + i) 0 != 0) = false :=
    List.any_eq_false.2 fun i hi => by simpa using hwords i (List.mem_range.1 hi)
  simp only [execSetlen, htakes, hop, hres₀, hres₁, hrest, VecSt.parts_settle, bne_self_eq_false, Bool.or_false, Bool.not_true, Bool.false_or,
    Bool.false_eq_true, if_false] at hexec
  rw [hexec]
  cases (s.vecEng t e).parts.has src.fn.val <;> cases hcnt : flag (w :: rest) 0 27 <;> simp [setLength, hcnt]

theorem vecEng_finish (s : State) (k e : Nat) (v : VecSt) (src : Src) : ((s.setVecEng k e v).finish src k 2 e).vecEng k e = v :=
  (State.vecEng_of_eng (State.same_of_but (s := s.setVecEng k e v) (p := .eng) (by simp)) _ _).trans (State.vecEng_setVecEng_same _ _ _ _)

/-- Once the chain it stands behind is complete, a staged length takes over. -/
theorem VecSt.len_settle_of_staged {v : VecSt} {f n : Nat} (hstaged : v.staged = [(f, n)]) (hhas : v.parts.has f = false) :
    v.settle.len.get 0 f = n := by
  rw [VecSt.settle_eq_foldl, hstaged, List.foldl_cons, List.foldl_nil]
  unfold VecSt.settleOne
  rw [if_neg (Bool.eq_false_iff.1 hhas)]
  exact Tab.get_set_same _ _ _ _

theorem Tab.has_del {α : Type} (t : Tab α) (k : Nat) : (t.del k).has k = false :=
  List.any_eq_false.2 fun e he => by simpa using (List.mem_filter.1 he).2

/-- Settles O52. -/
theorem chainsRun : Obligations.ChainsRun := by
  unfold Obligations.ChainsRun
  refine ⟨fun t e src ws s r n ls kept hr htakes hn hls hmuse hkept hcode hreads => ?_,
    fun t e src w rest ws s hws htakes hop hres₀ hres₁ hwords => ?_⟩
  · have hstarts (stop : Option Nat) := chain_starts (stop := stop) hr htakes hn hls hmuse hkept hcode hreads
    subst hr
    have hpos : 0 < (chainRec ws).rlen := by
      have := ChainRec.sound_of_code hcode
      simp only [Bool.or_eq_false_iff, beq_eq_false_iff_ne] at this
      omega
    have hhas : (s.vecEng t e).parts.has src.fn.val = false := by simpa using (Bool.and_eq_true_iff.1 htakes).2
    generalize hv₀ : ({ (s.vecEng t e).settle with shown := src.fn } : VecSt) = v₀ at hstarts
    have hlen₀ : v₀.len = (s.vecEng t e).settle.len := by rw [← hv₀]
    have hcnt₀ : v₀.cnt = (s.vecEng t e).cnt := by rw [← hv₀]; exact VecSt.cnt_settle _
    have hparts₀ : v₀.parts = (s.vecEng t e).parts := by rw [← hv₀]; exact VecSt.parts_settle _
    have hstaged₀ : v₀.staged = (s.vecEng t e).settle.staged := by rw [← hv₀]
    have hmem : ((s.setVecEng t e v₀).took src t 2 e).mem = s.mem := State.same_of_but (s := s) (p := .mem) (by simp)
    have hvec : ((s.setVecEng t e v₀).took src t 2 e).vecEng t e = v₀ :=
      (State.vecEng_of_eng (State.same_of_but (s := s.setVecEng t e v₀) (p := .eng) (by simp)) _ _).trans (State.vecEng_setVecEng_same _ _ _ _)
    refine ⟨fun hrop => ?_, fun b hlt => ?_⟩
    · obtain ⟨v, ovf, out, hruns, hlen, hstaged, hcnt, hparts⟩ :=
        runChain_ends (s := (s.setVecEng t e v₀).took src t 2 e) (s.draws t src.fn) t e n hmuse hrop (src := src)
      have hsettled : v.settle = v := VecSt.settle_of_has fun y hy => by
        rw [hparts, hvec, hparts₀, Tab.del_of_not_has hhas]
        exact VecSt.has_of_mem_staged_settle (by rwa [hstaged, hvec, hstaged₀] at hy)
      obtain ⟨hmemend, hvecend, honly⟩ := ((s.setVecEng t e v₀).took src t 2 e).chainEnd_ends t e src
        (writePieces s.mem t (s.draws t src.fn) (chainRec ws) (chainPieces s.mem t (s.draws t src.fn) (chainRec ws) n)).1 v ovf out
      obtain ⟨hoff, hon⟩ := mem_chainPieces hpos s.mem t (s.draws t src.fn) n
      rw [hsettled, hmem] at hruns
      rw [hvec] at hlen hcnt
      refine ⟨_, (hstarts none).trans (congrArg Host.Outcome.next hruns), ?_, fun hoen => hmemend.trans (hoff hoen), fun hoen hf => ?_, fun f => ?_, ?_⟩
      · have htook : s.onlyChanges ((s.setVecEng t e v₀).took src t 2 e) [.mem, .eng, .run, .prog, .sched, .tier] := by simp
        exact State.onlyChanges_trans htook (State.onlyChanges_mono honly (by simp))
      · rw [hls]
        exact hmemend.trans (hon hoen hf)
      · exact congrArg (fun v => Tab.get (VecSt.len v) 0 f) hvecend |>.trans (by rw [hlen, hlen₀])
      · exact (congrArg VecSt.cnt hvecend).trans (hcnt.trans hcnt₀)
    · obtain ⟨m, v, ovf, x, hruns, hlen, hfind, hsrc, hwords, hn', hvals⟩ :=
        runChain_stops (s := (s.setVecEng t e v₀).took src t 2 e) (s.draws t src.fn) t e (src := src) hlt
      rw [hvec] at hlen
      have hvecend := (State.vecEng_countOvf ((((s.setVecEng t e v₀).took src t 2 e).setMem m).setVecEng t e v) t 2 ovf t e).trans
        (State.vecEng_setVecEng_same _ _ _ _)
      refine ⟨_, x, (hstarts (some b)).trans (congrArg Host.Outcome.next hruns), ?_, hsrc, hwords, hn', hvals, ?_⟩
      · rw [hvecend]; exact hfind
      · rw [hvecend, hlen, hlen₀]
  · subst hws
    have hanswers := setlen_answers ⟨htakes, hop, hres₀, hres₁, hwords⟩
    refine ⟨fun hfree => ?_, fun hbehind himm => ?_, fun hbehind hcount => ?_⟩
    · rw [if_neg (Bool.eq_false_iff.1 hfree)] at hanswers
      refine ⟨_, hanswers, by simp, ?_⟩
      rw [vecEng_finish]
      exact ⟨Tab.get_set_same _ _ _ _, fun f hf => Tab.get_set_other _ _ _ hf, VecSt.cnt_settle _⟩
    · rw [if_pos hbehind, if_neg (Bool.eq_false_iff.1 himm)] at hanswers
      refine ⟨_, hanswers, ?_⟩
      rw [vecEng_finish]
      exact ⟨Tab.find?_set_same _ _ _, rfl, fun hnone => VecSt.len_settle_of_staged (congrArg (Tab.set · _ _) hnone) (Tab.has_del _ _)⟩
    · rw [if_pos hbehind, if_pos hcount] at hanswers
      exact hanswers

end
end Sys2Proof.Machine
end

/-! ## O48: DRAIN and TILE_REPLAY -/
section
namespace Sys2Proof.Machine
open Sys2Proof
section
variable {s t u : State} {r : DrainRec} {j : DrainJob} {p q : Nat}

/-! The lines of a tile -/

theorem length_tileLinesOf (sh : Shape) (byCol : Bool) {vals : List FVal} (h : vals.length = 1024) :
    (tileLinesOf sh byCol vals).length = (if byCol then sh.cols else sh.rows) ∧
      ∀ l ∈ tileLinesOf sh byCol vals, l.length ≤ if byCol then sh.rows else sh.cols := by
  cases byCol
  · have hcols (n : Nat) := length_chunksOf n 1024 vals h.le
    unfold tileLinesOf chunks
    rw [h]
    cases sh with
    | s32x32 => exact ⟨(hcols 31).1.trans (by rw [h]; rfl), (hcols 31).2⟩
    | s64x16 => exact ⟨(hcols 15).1.trans (by rw [h]; rfl), (hcols 15).2⟩
    | s16x64 => exact ⟨(hcols 63).1.trans (by rw [h]; rfl), (hcols 63).2⟩
  · exact ⟨by simp [tileLinesOf], by simp [tileLinesOf]⟩

/-! What a whole drain hands off -/

/-- The outputs of a whole drain. -/
def State.drainOuts (s : State) (j : DrainJob) (vals : List X32 × List X32) : List FVal := (List.range 1024).map (s.drainOut j [] vals)

/-- The converted lines of a whole drain. -/
def State.drainConv (s : State) (j : DrainJob) (vals : List X32 × List X32) : List (List Byte × List Byte × NumStat) :=
  (tileLinesOf (drainRec j.words).sh (drainRec j.words).byCol (s.drainOuts j vals)).zipIdx.map (fun x =>
    convLine (drainRec j.words).fmt (lineSr j.draws (drainRec j.words) j.ext x.2) (drainRec j.words).ftz x.1)

/-- The reductions of a whole drain's lines, and its norm entry. -/
def State.drainStats (s : State) (j : DrainJob) (vals : List X32 × List X32) : (List Byte × NumStat) × (List Byte × NumStat) :=
  (if (drainRec j.words).lred = 0 then ([], {}) else lineStats (drainRec j.words) (j.sideFailed != 0 || j.poison) (s.drainOuts j vals),
   if (drainRec j.words).ssq then statWord (j.sideFailed != 0 || j.poison)
    (ofX32 (toX32 (sumSquaresFrom (ofX32 0) (writtenVals (drainRec j.words) (s.drainConv j vals))))) else ([], {}))

/-- The statistics of a whole drain, where they are due. -/
def State.drainOwed (s : State) (j : DrainJob) (vals : List X32 × List X32) : List (Nat × List Byte) :=
  (if (drainRec j.words).lred = 0 then [] else [(spadBase j.t + (drainRec j.words).raddr, (s.drainStats j vals).1.1)]) ++
  (if (drainRec j.words).ssq then [(spadBase j.t + (drainRec j.words).naddr, (s.drainStats j vals).2.1)] else [])

/-- The memory a whole drain to the scratchpad leaves, before its statistics. -/
def State.drainMem (s : State) (j : DrainJob) (vals : List X32 × List X32) : Mem :=
  let m := Mem.writeLines s.mem (spadBase j.t + (drainRec j.words).oaddr) (drainRec j.words).ostride ((s.drainConv j vals).map (·.1))
  if (drainRec j.words).fmt.scaled then
    m.writeLines (spadBase j.t + (drainRec j.words).oscale) (drainRec j.words).osstride ((s.drainConv j vals).map (·.2.1))
  else m

/-- The numeric effects of a drain, counted. -/
def State.drainCount (s : State) (j : DrainJob) (st : NumStat) : State :=
  (s.setDrnStat j.t j.dp ((s.drnStat j.t j.dp).join st)).countOvf j.t 0 ((drainRec j.words).grad && st.ovf)

/-- A whole drain up to its destination: what it stored, its numeric effects, and failures. -/
def State.drainBody (s : State) (j : DrainJob) (m : Mem) (st st' : NumStat) : State :=
  let r := drainRec j.words
  let s := (((if j.sideFailed = 0 then s else s.useFree).setMem m).drainCount j st).drainCount j st'
  let s := if j.sideFailed != 0 || j.poison then s.markFailed (r.outRanges j.t) else if r.toSpad then s.clearFailed (r.outRanges j.t) else s
  (if j.poison then s.poison j.src j.t 1 (j.a / 8) else s).noteSsq j.src r (spadBase j.t + r.oaddr)

theorem length_drainOuts (s : State) (j : DrainJob) (vals : List X32 × List X32) : (s.drainOuts j vals).length = 1024 := by simp [State.drainOuts]

/-- All the lines of a tile are written. -/
theorem take_olines (s : State) (j : DrainJob) (vals : List X32 × List X32) :
    (tileLinesOf (drainRec j.words).sh (drainRec j.words).byCol (s.drainOuts j vals)).take (drainRec j.words).olines =
      tileLinesOf (drainRec j.words).sh (drainRec j.words).byCol (s.drainOuts j vals) :=
  List.take_of_length_le ((length_tileLinesOf _ _ (length_drainOuts s j vals)).1.le.trans (by unfold DrainRec.olines; split <;> rfl))

theorem runDrain_toSpad (vals : List X32 × List X32) (hdest : (drainRec j.words).dest = 0) : ∃ st st', s.runDrain j [] 0 none vals =
    (s.drainBody j (s.drainMem j vals) st st').drainEnds j.t j.a j.first j.src j.also (s.drainOwed j vals) := by
  have hspad : (drainRec j.words).toSpad = true := by simp [DrainRec.toSpad, hdest]
  have hpack : (drainRec j.words).toPack = false := by simp [DrainRec.toPack, hdest]
  refine ⟨((s.drainConv j vals).foldl (fun (st : NumStat) x => st.join x.2.2) {}).join {}, (s.drainStats j vals).1.2.join (s.drainStats j vals).2.2, ?_⟩
  have htake := take_olines s j vals
  unfold State.drainBody State.drainMem State.drainOwed State.drainStats State.drainCount State.drainConv
  unfold State.drainOuts at htake ⊢
  unfold State.runDrain
  simp only [hspad, hpack, hdest, htake, decide_true, Bool.not_true, Bool.false_eq_true, if_false, if_true, List.length_nil, Nat.zero_div, ite_self,
    Nat.zero_mul, Nat.add_zero, Nat.zero_add, List.drop_zero, OfNat.zero_ne_ofNat]

/-- A tile put on the drain bus. -/
def State.toBus (s : State) (t : Nat) (b : BusTile) : State :=
  s.setArr { s.arr with bus := s.arr.bus.set t (s.arr.bus.get [] t ++ [b]) }

/-- The tile a drain to the Target engine puts on the bus. -/
def State.drainTile (s : State) (j : DrainJob) (vals : List X32 × List X32) : BusTile :=
  { array := j.a, first := j.first, src := j.src, words := j.words, shape := (drainRec j.words).sh,
    vals := (s.drainConv j vals).flatMap (fun c => (chunks 4 c.1).map (fun b => BitVec.ofNat 32 (leNat b))), also := j.also,
    owed := s.drainOwed j vals }

theorem runDrain_toTarget (vals : List X32 × List X32) (hdest : (drainRec j.words).dest = 2) : ∃ st st', s.runDrain j [] 0 none vals =
    (s.drainBody j s.mem st st').toBus j.t (s.drainTile j vals) := by
  have hspad : (drainRec j.words).toSpad = false := by simp [DrainRec.toSpad, hdest]
  have hpack : (drainRec j.words).toPack = false := by simp [DrainRec.toPack, hdest]
  refine ⟨((s.drainConv j vals).foldl (fun (st : NumStat) x => st.join x.2.2) {}).join {}, (s.drainStats j vals).1.2.join (s.drainStats j vals).2.2, ?_⟩
  have htake := take_olines s j vals
  unfold State.drainBody State.toBus State.drainTile State.drainOwed State.drainStats State.drainCount State.drainConv
  unfold State.drainOuts at htake ⊢
  unfold State.runDrain
  simp only [hspad, hpack, hdest, htake, decide_true, Bool.not_true, Bool.false_eq_true, if_false, if_true, List.length_nil, Nat.zero_div, ite_self,
    Nat.zero_mul, Nat.add_zero, Nat.zero_add, List.drop_zero, Nat.reduceEqDiff]

/-! What a drain leaves as it is -/

/-- The arrays without the numeric status and the tables of their drain units. -/
def ArrPart.core (a : ArrPart) : ArrPart := { a with drn := [], cust := [] }

theorem State.phys_of_core {k a : Nat} (h : t.arr.core = s.arr.core) : t.phys k a = s.phys k a :=
  (congrArg (fun c => Tab.get (ArrPart.map c) a (k * 80 + a)) h :)

theorem State.array_of_core {k : Nat} (h : t.arr.core = s.arr.core) : t.array k p = s.array k p :=
  (congrArg (fun c => Tab.get (ArrPart.arrays c) {} (k * 84 + p)) h :)

theorem State.bus_of_core (h : t.arr.core = s.arr.core) : t.arr.bus = s.arr.bus := (congrArg ArrPart.bus h :)

theorem State.core_drainCount (s : State) (j : DrainJob) (st : NumStat) : (s.drainCount j st).arr.core = s.arr.core := by
  have hovf : (s.drainCount j st).arr = (s.setDrnStat j.t j.dp ((s.drnStat j.t j.dp).join st)).arr :=
    State.same_of_but (p := .arr) (by simp [State.drainCount])
  rw [hovf]
  rfl

@[simp] theorem State.onlyChanges_drainCount {s₀ : State} {ps : List Part} (s : State) (j : DrainJob) (st : NumStat) (hps : [.arr, .eng, .run] ⊆ ps) :
    s₀.onlyChanges (s.drainCount j st) ps ↔ s₀.onlyChanges s ps :=
  State.onlyChanges_iff (by simp [State.drainCount]) hps

theorem State.drainBody_keeps (s : State) (j : DrainJob) (m : Mem) (st st' : NumStat) :
    (s.drainBody j m st st').mem = m ∧ (s.drainBody j m st st').arr.core = s.arr.core ∧ (s.drainBody j m st st').health = s.health ∧
      (s.drainBody j m st st').sched = s.sched := by
  have hbody : State.onlyChanges ((((if j.sideFailed = 0 then s else s.useFree).setMem m).drainCount j st).drainCount j st') (s.drainBody j m st st')
      [.tier, .prog, .run] := by simp [State.drainBody]
  have hstart : s.onlyChanges (((if j.sideFailed = 0 then s else s.useFree).setMem m)) [.fresh, .mem] := by simp
  have hcount (u : State) : u.onlyChanges ((u.drainCount j st).drainCount j st') [.arr, .eng, .run] := by simp
  refine ⟨(hbody .mem (by decide)).trans (hcount _ .mem (by decide)), ?_, ?_, ?_⟩
  · rw [hbody .arr (by decide), State.core_drainCount, State.core_drainCount, hstart .arr (by decide)]
  · exact ((hbody .health (by decide)).trans (hcount _ .health (by decide))).trans (hstart .health (by decide))
  · exact ((hbody .sched (by decide)).trans (hcount _ .sched (by decide))).trans (hstart .sched (by decide))

theorem State.drainEnds_keeps (s : State) (k a first : Nat) (src : Src) (also : Option Nat) (owed : List (Nat × List Byte)) :
   (s.drainEnds k a first src also owed).health = s.health := State.same_of_but (p := .health) (by simp)

theorem State.release_here {k a first : Nat} {f : Fn} (h : (s.awayFrom k (a / 8)).contains f.val = false) :
    s.release k a first f = s.setArray k (s.phys k a) ((s.array k (s.phys k a)).dropLease first) := if_neg (Bool.eq_false_iff.1 h)

theorem ArraySt.lease?_dropLease (y : ArraySt) (first : Nat) : (y.dropLease first).lease? first = none := by
  simp [ArraySt.lease?, ArraySt.dropLease, List.find?_eq_none]

theorem ArraySt.lease?_setLease (y : ArraySt) (l : Lease) : (y.setLease l).lease? l.first = some l := by
  simp [ArraySt.lease?, ArraySt.setLease]

/-! Where a drain to the scratchpad writes -/

theorem byCol_of_toSpad (hdest : r.dest = 0) : r.byCol = r.oblk := by simp [DrainRec.byCol, hdest]

theorem length_statWord (failed : Bool) (v : FVal) : (statWord failed v).1.length = 4 := by
  unfold statWord
  split <;> rfl

/-- The bytes of a line's statistics. -/
def statBytes (r : DrainRec) : Nat := if r.lred = 1 then 4 else 8

theorem length_lineStats (r : DrainRec) (failed : Bool) {vals : List FVal} (h : vals.length = 1024) :
    (lineStats r failed vals).1.length = statBytes r * (if r.raxis then r.sh.cols else r.sh.rows) := by
  rw [← (length_tileLinesOf r.sh r.raxis h).1]
  unfold lineStats
  induction tileLinesOf r.sh r.raxis vals using List.reverseRecOn with
  | nil => rfl
  | append_singleton ls l ih =>
    rw [List.foldl_append, List.foldl_cons, List.foldl_nil, List.length_append, Nat.mul_add, ← ih]
    by_cases hred : r.lred = 1 <;> simp [length_statWord, statBytes, hred]

theorem drainConv_lengths (s : State) (vals : List X32 × List X32) (hdest : (drainRec j.words).dest = 0) :
    (s.drainConv j vals).length = (drainRec j.words).lines ∧
      ∀ c ∈ s.drainConv j vals, c.1.length ≤ lineLen (drainRec j.words).fmt (drainRec j.words).linelen ∧
        c.2.1.length ≤ if (drainRec j.words).fmt.scaled then cdiv (drainRec j.words).linelen 32 else 0 := by
  obtain ⟨hcount, hlen⟩ := length_tileLinesOf (drainRec j.words).sh (drainRec j.words).byCol (length_drainOuts s j vals)
  rw [byCol_of_toSpad hdest] at hcount hlen
  unfold State.drainConv
  rw [byCol_of_toSpad hdest]
  refine ⟨by rw [List.length_map, List.length_zipIdx, hcount]; rfl, fun c hc => ?_⟩
  obtain ⟨⟨l, n⟩, hl, rfl⟩ := List.mem_map.1 hc
  have hle : l.length ≤ (drainRec j.words).linelen := hlen l (List.fst_mem_of_mem_zipIdx hl)
  obtain ⟨helem, hscale⟩ := length_convLine (drainRec j.words).fmt (lineSr j.draws (drainRec j.words) j.ext n) (drainRec j.words).ftz l
  refine ⟨helem.le.trans (lineLen_mono _ hle), hscale.le.trans ?_⟩
  split
  · exact cdiv_mono hle 32
  · exact le_rfl

theorem mem_drainRanges (r : DrainRec) (t : Nat) {l : Nat} (h : l < r.lines) :
    (spadBase t + r.oaddr + l * r.ostride, lineLen r.fmt r.linelen) ∈ drainRanges r t ∧
    (spadBase t + r.oscale + l * r.osstride, if r.fmt.scaled then cdiv r.linelen 32 else 0) ∈ drainRanges r t :=
  ⟨List.mem_append_left _ (List.mem_flatMap.2 ⟨l, List.mem_range.2 h, by simp⟩),
    List.mem_append_left _ (List.mem_flatMap.2 ⟨l, List.mem_range.2 h, by simp⟩)⟩

theorem drainMem_keeps (s : State) (vals : List X32 × List X32) (hdest : (drainRec j.words).dest = 0) :
    Mem.keeps s.mem (s.drainMem j vals) (drainRanges (drainRec j.words) j.t) := by
  obtain ⟨hcount, hlen⟩ := drainConv_lengths s vals hdest
  have helems := Mem.keeps_writeLines (drainRec j.words).ostride ((s.drainConv j vals).map (·.1)) s.mem 0
    (fun l hl => by
      rw [List.length_map, hcount] at hl
      simpa using (mem_drainRanges (drainRec j.words) j.t hl).1)
    (fun l hl => by obtain ⟨c, hc, rfl⟩ := List.mem_map.1 hl; exact (hlen c hc).1)
  have hscales (m : Mem) := Mem.keeps_writeLines (drainRec j.words).osstride ((s.drainConv j vals).map (·.2.1)) m 0
    (fun l hl => by
      rw [List.length_map, hcount] at hl
      simpa using (mem_drainRanges (drainRec j.words) j.t hl).2)
    (fun l hl => by obtain ⟨c, hc, rfl⟩ := List.mem_map.1 hl; exact (hlen c hc).2)
  simp only [Nat.zero_mul, Nat.add_zero] at helems hscales
  unfold State.drainMem
  split
  · exact Mem.keeps_trans helems (hscales _)
  · exact helems

theorem drainOwed_keeps (s : State) (vals : List X32 × List X32) (m : Mem) :
    Mem.keeps m (Mem.place m (s.drainOwed j vals)) (drainRanges (drainRec j.words) j.t) := by
  have hred (h : (drainRec j.words).lred ≠ 0) (m : Mem) := Mem.keeps_writeN (rs := drainRanges (drainRec j.words) j.t)
    (List.mem_append_right _ List.mem_cons_self) (bs := (s.drainStats j vals).1.1) (by
      have hlen := length_lineStats (drainRec j.words) (j.sideFailed != 0 || j.poison) (length_drainOuts s j vals)
      simp only [State.drainStats, if_neg h, hlen]
      exact le_rfl) m
  have hnorm (h : (drainRec j.words).ssq = true) (m : Mem) := Mem.keeps_writeN (rs := drainRanges (drainRec j.words) j.t)
    (List.mem_append_right _ (List.mem_cons_of_mem _ List.mem_cons_self)) (bs := (s.drainStats j vals).2.1) (by
      simp [State.drainStats, h, length_statWord]) m
  unfold State.drainOwed
  split <;> split
  next hssq => exact hnorm hssq m
  next => exact Mem.keeps_refl m _
  next hlred hssq => exact Mem.keeps_trans (hred hlred m) (hnorm hssq _)
  next hlred _ => exact hred hlred m

/-! How a drain starts and ends -/

theorem State.serveTurn_away (s : State) (c : Src) (tile kind num : Nat) : (s.serveTurn c tile kind num).sched.away = s.sched.away := by
  unfold State.serveTurn
  simp only []
  split <;> rfl

theorem State.took_keeps (s : State) (c : Src) (tile kind num : Nat) :
    (s.took c tile kind num).prog.windows = s.prog.windows ∧ (s.took c tile kind num).sched.away = s.sched.away := by
  have hturn : (s.serveTurn c tile kind num).prog = s.prog := State.same_of_but (p := .prog) (by simp)
  unfold State.took
  simp only []
  split
  · exact ⟨(congrArg ProgPart.windows hturn :), s.serveTurn_away c tile kind num⟩
  · split
    · exact ⟨(congrArg ProgPart.windows hturn :), s.serveTurn_away c tile kind num⟩
    · exact ⟨(congrArg ProgPart.windows hturn :), s.serveTurn_away c tile kind num⟩

/-- The drain a command on array a starts. -/
def State.drainJob (s : State) (t a first : Nat) (src : Src) (ws ext : List Word) : DrainJob :=
  { t := t, a := a, dp := s.phys t a, first := first, src := src, words := ws, ext := ext,
    table := (s.custSt t).active.getD { bnd := (s.custSt t).bnd, coef := (s.custSt t).coef }, sideFailed := 0, poison := false, also := none,
    draws := s.draws t src.fn }

theorem startDrain_runs {t a : Nat} {src : Src} {ws ext : List Word} {first : Nat} {y : ArraySt} {l : Lease} (hy : y = s.array t (s.phys t a))
    (hfirst : first = (s.windowIn t (a / 8) src.fn.val).base + (drainRec ws).tile) (hbusy : s.drainBusy t a = false)
    (hlease : y.lease? first = some l) (hdrained : l.drained = false) (hmarked : l.marked = false)
    (hcode : (drainRec ws).code ext (s.window src.fn.val) (s.target t).active.vsize.toNat (s.custSt t).active.isSome (some l) = 0)
    (hclear : ∀ k ∈ y.leases, k.overlaps first (drainRec ws).foot = true → k.first = first) :
    s.startDrain t a src ws ext 0 none = some ((s.setArray t (s.phys t a) (y.setLease { l with drained := true })).runDrain
      (s.drainJob t a first src ws ext) [] 0 none (y.readTile s.fresh first (drainRec ws).sh (drainRec ws).comp)) := by
  subst hy hfirst
  have hfree : ((s.array t (s.phys t a)).leases.filter (fun l => l.overlaps ((s.windowIn t (a / 8) src.fn.val).base + (drainRec ws).tile) (drainRec ws).foot &&
      l.first != (s.windowIn t (a / 8) src.fn.val).base + (drainRec ws).tile)).length = 0 := by
    rw [List.length_eq_zero_iff, List.filter_eq_nil_iff]
    intro k hk h
    rw [Bool.and_eq_true_iff] at h
    exact absurd (hclear k hk h.1) (bne_iff_ne.1 h.2)
  unfold State.startDrain
  simp only [hbusy, hlease, hdrained, hmarked, hcode, hfree, Bool.or_self, Bool.false_eq_true, if_false, ne_eq, not_true_eq_false]
  rfl

theorem State.windowIn_of {k g f : Nat} (harr : t.arr = s.arr) (hwindows : t.prog.windows = s.prog.windows) :
    t.windowIn k g f = s.windowIn k g f ∧ t.window f = s.window f := by
  simp only [State.windowIn, State.window, State.gallery, harr, hwindows, and_self]

theorem drain_starts {t : TileIx} {g : Fin 10} {src : Src} {ws ext : List Word} {a first : Nat} {y : ArraySt} {l : Lease}
    (ha : a = g.val * 8 + (drainRec ws).aidx) (hp : p = s.phys t a) (hy : y = s.array t p)
    (hfirst : first = (s.windowIn t (a / 8) src.fn.val).base + (drainRec ws).tile) (htakes : s.galleryTakes t g src ws ext = true)
    (hhere : s.slotsHere t g src.fn (drainRec ws).tile (drainRec ws).foot = true) (hwaiting : y.waiting = []) (hbusy : s.drainBusy t a = false)
    (hparts : ∀ k ∈ y.leases, k.part = none) (hlease : y.lease? first = some l) (hdrained : l.drained = false) (hmarked : l.marked = false)
    (hcode : (drainRec ws).code ext (s.window src.fn.val) (s.target t).active.vsize.toNat (s.custSt t).active.isSome (some l) = 0)
    (hclear : ∀ k ∈ y.leases, k.overlaps first (drainRec ws).foot = true → k.first = first) :
    exec (.drain t g src ws ext ⟨0, none⟩) s = .next (((s.took src t 0 g).setArray t p (y.setLease { l with drained := true })).runDrain
      (s.drainJob t a first src ws ext) [] 0 none (y.readTile s.fresh first (drainRec ws).sh (drainRec ws).comp)) := by
  have hexec : exec (.drain t g src ws ext ⟨0, none⟩) s = execDrain t g src ws ext ⟨0, none⟩ s := rfl
  have honly : s.onlyChanges (s.took src t 0 g) [.prog, .sched] := by simp
  have harr : (s.took src t 0 g).arr = s.arr := honly .arr (by decide)
  have heng : (s.took src t 0 g).eng = s.eng := honly .eng (by decide)
  have htgt : (s.took src t 0 g).tgt = s.tgt := honly .tgt (by decide)
  have hrun : (s.took src t 0 g).run = s.run := honly .run (by decide)
  have hfresh : (s.took src t 0 g).fresh = s.fresh := honly .fresh (by decide)
  obtain ⟨hwin, hwindow⟩ := State.windowIn_of (k := t) (g := a / 8) (f := src.fn.val) harr (s.took_keeps src t 0 g).1
  have hphys : (s.took src t 0 g).phys t a = p := (State.phys_of_arr harr).trans hp.symm
  have hstart := startDrain_runs (s := s.took src t 0 g) (t := t) (a := a) (src := src) (ws := ws) (ext := ext) (first := first) (y := y) (l := l)
    (by rw [hphys, State.array_of_arr harr, hy]) (by rw [hwin, hfirst])
    (by simpa only [State.drainBusy, harr, heng] using hbusy) hlease hdrained hmarked
    (by simpa only [hwindow, State.target, State.custSt, harr, htgt] using hcode) hclear
  have hjob : (s.took src t 0 g).drainJob t a first src ws ext = s.drainJob t a first src ws ext := by
    simp only [State.drainJob, State.phys_of_arr harr, State.custSt, harr, State.draws, State.keySt, heng, hrun]
  rw [hjob, hphys, hfresh] at hstart
  have hstopped : (if s.galleryOpen t g src then y.stopped? src ws else none) = none := by
    have hnone : y.stopped? src ws = none := List.findSome?_eq_none_iff.2 fun k hk => by rw [hparts k hk]; rfl
    rw [hnone, ite_self]
  subst hy hp ha
  simp only [execDrain, hstopped, htakes, hhere, hwaiting, hstart, Bool.not_true, Bool.or_self, Bool.false_eq_true, if_false, List.isEmpty_nil,
    Option.getD_some] at hexec
  exact hexec

theorem State.core_custSettle (s : State) (k : Nat) : (s.custSettle k).arr.core = s.arr.core := by
  unfold State.custSettle
  simp only []
  split <;> rfl

/-- The leases a drain ends: its own, and the one of the array it was replayed for. -/
def State.releases (s : State) (k a first : Nat) (f : Fn) : Option Nat → State
  | none => s.release k a first f
  | some b => (s.release k a first f).release k b first f

theorem State.drainEnds_ends (s : State) (k a first : Nat) (src : Src) (also : Option Nat) (owed : List (Nat × List Byte)) :
    (s.drainEnds k a first src also owed).arr.core = ((s.setMem (Mem.place s.mem owed)).releases k a first src.fn also).arr.core ∧
      (s.drainEnds k a first src also owed).mem = Mem.place s.mem owed ∧ (s.drainEnds k a first src also owed).health = s.health := by
  have hends : s.drainEnds k a first src also owed = (((s.setMem (Mem.place s.mem owed)).releases k a first src.fn also).cmdDone src k 1 (a / 8)).custSettle k := by
    unfold State.drainEnds State.releases
    cases also <;> rfl
  have hreleases : (s.setMem (Mem.place s.mem owed)).onlyChanges ((s.setMem (Mem.place s.mem owed)).releases k a first src.fn also) [.arr] := by
    cases also <;> simp [State.releases]
  have hdone (u : State) : u.onlyChanges ((u.cmdDone src k 1 (a / 8)).custSettle k) [.prog, .run, .arr] := by simp
  have harr (u : State) : (u.cmdDone src k 1 (a / 8)).arr = u.arr := State.same_of_but (p := .arr) (by simp)
  rw [hends]
  refine ⟨?_, (hdone _ .mem (by decide)).trans (hreleases .mem (by decide)), (hdone _ .health (by decide)).trans (hreleases .health (by decide))⟩
  rw [State.core_custSettle, harr]

theorem State.release_releases {k a first : Nat} {f : Fn} (h : (s.awayFrom k (a / 8)).contains f.val = false) (hp : p = s.phys k a) :
    (s.release k a first f).phys = s.phys ∧ (s.release k a first f).awayFrom = s.awayFrom ∧
      (s.release k a first f).array k p = (s.array k p).dropLease first ∧ ∀ q, q ≠ p → (s.release k a first f).array k q = s.array k q := by
  subst hp
  rw [State.release_here h]
  exact ⟨rfl, rfl, State.array_setArray_same _ _ _ _, fun q hq => State.array_setArray_other _ _ _ hq⟩

/-- Where a drain to the scratchpad ends: what it wrote, and the leases it ended. -/
theorem runDrain_ends {vals : List X32 × List X32} (hdest : (drainRec j.words).dest = 0) : ∃ v : State,
    v.arr.core = s.arr.core ∧ v.sched = s.sched ∧ (s.runDrain j [] 0 none vals).arr.core = (v.releases j.t j.a j.first j.src.fn j.also).arr.core ∧
      (s.runDrain j [] 0 none vals).mem = Mem.place (s.drainMem j vals) (s.drainOwed j vals) ∧ (s.runDrain j [] 0 none vals).health = s.health := by
  obtain ⟨st, st', hrun⟩ := runDrain_toSpad (s := s) vals hdest
  obtain ⟨hmem, hcore, hhealth, hsched⟩ := s.drainBody_keeps j (s.drainMem j vals) st st'
  obtain ⟨hends, hplaced, hkept⟩ := (s.drainBody j (s.drainMem j vals) st st').drainEnds_ends j.t j.a j.first j.src j.also (s.drainOwed j vals)
  rw [hrun]
  generalize s.drainBody j (s.drainMem j vals) st st' = v at *
  rw [hmem] at hplaced
  exact ⟨v.setMem (Mem.place v.mem (s.drainOwed j vals)), hcore, hsched, hends, hplaced, hkept.trans hhealth⟩

theorem runDrain_stores {vals : List X32 × List X32} (hdest : (drainRec j.words).dest = 0) :
    s.storesOnly (s.runDrain j [] 0 none vals) (drainRanges (drainRec j.words) j.t) := by
  obtain ⟨-, -, -, -, hmem, -⟩ := runDrain_ends (s := s) (vals := vals) hdest
  rw [State.storesOnly_iff, hmem]
  exact Mem.keeps_trans (drainMem_keeps s vals hdest) (drainOwed_keeps s vals _)

theorem map_zipIdx_fst {α β : Type} (f : α → β) (l : List α) : l.zipIdx.map (fun x => f x.1) = l.map f := by
  rw [← Function.comp_def f Prod.fst, ← List.map_map, List.zipIdx_map_fst]

/-- A drain without statistics to unscaled lines, rounded to nearest, leaves its lines. -/
theorem mem_runDrain_plain {vals : List X32 × List X32} (hdest : (drainRec j.words).dest = 0) (hsound : j.sideFailed = 0)
    (hred : (drainRec j.words).lred = 0) (hssq : (drainRec j.words).ssq = false) (hsr : (drainRec j.words).sr = false)
    (hfmt : (drainRec j.words).fmt.scaled = false) : (s.runDrain j [] 0 none vals).mem =
    Mem.writeLines s.mem (spadBase j.t + (drainRec j.words).oaddr) (drainRec j.words).ostride
      ((tileLinesOf (drainRec j.words).sh (drainRec j.words).oblk ((List.range 1024).map (fun n =>
        fusedStages s.mem j.t (drainRec j.words) j.table (n / (drainRec j.words).sh.cols) (n % (drainRec j.words).sh.cols) (vals.1.getD n 0) (vals.2.getD n 0)))).map
        (fun l => (plainLine (drainRec j.words).fmt (fun _ => none) (drainRec j.words).ftz l).1)) := by
  obtain ⟨-, -, -, -, hmem, -⟩ := runDrain_ends (s := s) (vals := vals) hdest
  have howed : s.drainOwed j vals = [] := by simp [State.drainOwed, hred, hssq]
  have houts : s.drainOuts j vals = (List.range 1024).map (fun n =>
      fusedStages s.mem j.t (drainRec j.words) j.table (n / (drainRec j.words).sh.cols) (n % (drainRec j.words).sh.cols) (vals.1.getD n 0) (vals.2.getD n 0)) :=
    List.map_congr_left fun n _ => by simp [State.drainOut, hsound]
  have hline (n : Nat) : lineSr j.draws (drainRec j.words) j.ext n = fun _ => none := funext fun i => by simp [lineSr, hsr]
  have hconv (x : List FVal × Nat) : (convLine (drainRec j.words).fmt (lineSr j.draws (drainRec j.words) j.ext x.2) (drainRec j.words).ftz x.1).1 =
      (plainLine (drainRec j.words).fmt (fun _ => none) (drainRec j.words).ftz x.1).1 := by simp [hline, convLine, hfmt]
  rw [hmem, howed, Mem.place, State.drainMem, if_neg (Bool.eq_false_iff.1 hfmt), State.drainConv, houts, byCol_of_toSpad hdest, List.map_map]
  exact congrArg _ ((List.map_congr_left fun x _ => hconv x).trans 
    (map_zipIdx_fst (fun l => (plainLine (drainRec j.words).fmt (fun _ => none) (drainRec j.words).ftz l).1) _))

theorem State.array_toBus (s : State) (k : Nat) (b : BusTile) : (s.toBus k b).array k p = s.array k p := rfl

theorem State.bus_toBus (s : State) (k : Nat) (b : BusTile) : (s.toBus k b).arr.bus.get [] k = s.arr.bus.get [] k ++ [b] := Tab.get_set_same _ _ _ _

/-- A tile that goes to the Target engine: nothing is written yet, and the array keeps its lease. -/
theorem runDrain_waits {vals : List X32 × List X32} (hdest : (drainRec j.words).dest = 2) : (s.runDrain j [] 0 none vals).mem = s.mem ∧
    (s.runDrain j [] 0 none vals).arr.bus.get [] j.t = s.arr.bus.get [] j.t ++ [s.drainTile j vals] ∧
      ∀ p, (s.runDrain j [] 0 none vals).array j.t p = s.array j.t p := by
  obtain ⟨st, st', hrun⟩ := runDrain_toTarget (s := s) vals hdest
  obtain ⟨hmem, hcore, -, -⟩ := s.drainBody_keeps j s.mem st st'
  rw [hrun, State.bus_toBus, State.bus_of_core hcore]
  exact ⟨hmem, rfl, fun p => (State.array_toBus _ _ _).trans (State.array_of_core hcore)⟩

/-! TILE_REPLAY -/

theorem twinOf_div (a : Nat) : twinOf a / 8 = a / 8 := by unfold twinOf; split <;> omega

/-- The tile computed again in the twin's slots, under a lease of the twin. -/
def State.replayed (s : State) (t p q slot : Nat) (l : Lease) (v : List (X32 × X32)) : State :=
  let s := s.setArray t q (((s.array t q).writeTile slot l.shape l.comp (v.map (·.1)) (v.map (·.2))).setLease
    { l with drained := true, held := none, marked := false, log := [] })
  s.setArray t p ((s.array t p).setLease { l with held := none })

/-- The held drain, emitted by the twin's unit. -/
def State.replayJob (s : State) (t a b q slot : Nat) (h : HeldDrain) : DrainJob :=
  { t := t, a := b, dp := q, first := slot, src := h.src, words := h.words, ext := h.ext,
    table := h.table.getD { bnd := (s.custSt t).bnd, coef := (s.custSt t).coef }, sideFailed := h.sideFailed, poison := false, also := some a,
    draws := s.draws t h.src.fn }

/-- A replayed drain emitted and its mismatches counted. -/
def State.replayEnd (s : State) (t a b p q slot : Nat) (l : Lease) (h : HeldDrain) (v : List (X32 × X32)) : State :=
  ((s.replayed t p q slot l v).runDrain ((s.replayed t p q slot l v).replayJob t a b q slot h) [] 0 none (v.map (·.1), v.map (·.2))).countMismatch t p l.mism

theorem tileReplay_emits {t : TileIx} {a : Fin 80} {slot : Nat} {l : Lease} {h : HeldDrain} (hp : p = s.phys t a) (hq : q = s.phys t (twinOf a))
    (hlease : (s.array t p).lease? slot = some l) (hheld : l.held = some h) (hkept : l.overflowed = false) (hlog : l.log.any (·.ssrc) = false)
    (hfree : ∀ k ∈ (s.array t q).leases, k.overlaps l.first l.foot = false) (hbusy : s.drainBusy t (twinOf a) = false) :
    exec (.tileReplay t a slot false false) s = .next ((s.replayEnd t a (twinOf a) p q slot l h (s.replayLog t (a.val % 8) l)).healthEvent 0x10E t p 0
      ((s.replayEnd t a (twinOf a) p q slot l h (s.replayLog t (a.val % 8) l)).array t p).mismatches) := by
  subst hp hq
  have hexec : exec (.tileReplay t a slot false false) s = execTileReplay t a slot false false s := rfl
  have hany : (s.array t (s.phys t (twinOf a))).leases.any (fun k => k.overlaps l.first l.foot) = false :=
    List.any_eq_false.2 fun k hk => Bool.eq_false_iff.1 (hfree k hk)
  rw [hexec]
  unfold State.replayEnd State.replayed State.replayJob
  simp only [execTileReplay, hlease, hheld, hkept, hlog, hany, hbusy, Bool.not_false, Bool.and_self, Bool.false_and, Bool.and_false, Bool.or_self,
    Bool.not_true, Bool.false_eq_true, if_false, if_true, b2n, Nat.add_zero]

theorem State.replayed_array (s : State) (k slot : Nat) (l : Lease) (v : List (X32 × X32)) (h : p ≠ q) :
    (s.replayed k p q slot l v).array k p = (s.array k p).setLease { l with held := none } :=
  (State.array_setArray_same _ _ _ _).trans (congrArg (ArraySt.setLease · _) (State.array_setArray_other s k _ h))

/-- Mismatches counted against a physical array in the health record. -/
def HealthPart.addMism (h : HealthPart) (x n : Nat) : HealthPart := { h with mism := h.mism.upd 0 x (fun k => min 127 (k + n)) }

/-- What a replayed drain leaves: both leases ended, its mismatches counted. -/
theorem State.replayEnd_ends {k a b slot : Nat} {l : Lease} {h : HeldDrain} {v : List (X32 × X32)} (hp : p = s.phys k a) (hq : q = s.phys k b) (hne : p ≠ q)
    (hdest : (drainRec h.words).dest = 0) (hb : b / 8 = a / 8) (hhere : (s.awayFrom k (a / 8)).contains h.src.fn.val = false) :
    s.storesOnly (s.replayEnd k a b p q slot l h v) (drainRanges (drainRec h.words) k) ∧
    (s.replayEnd k a b p q slot l h v).array k p = { ((s.array k p).setLease { l with held := none }).dropLease slot with
      mismatches := (s.array k p).mismatches + l.mism
      retiring := (s.array k p).retiring || (decide (2 ≤ (s.array k p).mismatches + l.mism) && !(s.array k p).kept) } ∧
    ((s.replayEnd k a b p q slot l h v).array k q).lease? slot = none ∧
    (s.replayEnd k a b p q slot l h v).health = s.health.addMism (k * 84 + p) l.mism := by
  generalize hw : s.replayed k p q slot l v = w
  generalize hj : w.replayJob k a b q slot h = j
  have hdest' : (drainRec j.words).dest = 0 := by rw [← hj]; exact hdest
  obtain ⟨x, hcore, hsched, hends, -, hhealth⟩ := runDrain_ends (s := w) (vals := (v.map (·.1), v.map (·.2))) hdest'
  have hstores := runDrain_stores (s := w) (vals := (v.map (·.1), v.map (·.2))) hdest'
  have hend : s.replayEnd k a b p q slot l h v = (w.runDrain j [] 0 none (v.map (·.1), v.map (·.2))).countMismatch k p l.mism := by
    rw [← hj, ← hw]; rfl
  have hwarr : w.array k p = (s.array k p).setLease { l with held := none } := by rw [← hw]; exact s.replayed_array k slot l v hne
  have hxphys (c : Nat) : x.phys k c = s.phys k c := (State.phys_of_core hcore).trans (by rw [← hw]; rfl)
  have hxaway : x.awayFrom k (a / 8) = s.awayFrom k (a / 8) := by
    simp only [State.awayFrom, hsched, ← hw]; rfl
  rw [hend]
  generalize w.runDrain j [] 0 none (v.map (·.1), v.map (·.2)) = d at hends hhealth hstores
  subst hj
  obtain ⟨hphys₁, haway₁, hq₁, hother₁⟩ := State.release_releases (s := x) (k := k) (a := b) (first := slot) (f := h.src.fn) (p := q)
    (by rw [hb, hxaway]; exact hhere) (hq.trans (hxphys b).symm)
  obtain ⟨-, -, hp₂, hother₂⟩ := State.release_releases (s := x.release k b slot h.src.fn) (k := k) (a := a) (first := slot) (f := h.src.fn) (p := p)
    (by rw [haway₁, hxaway]; exact hhere) (by rw [hphys₁, hxphys, hp])
  have hdp : d.array k p = ((s.array k p).setLease { l with held := none }).dropLease slot :=
    (State.array_of_core hends).trans (hp₂.trans (by rw [hother₁ p hne, State.array_of_core hcore, hwarr]))
  have hdq : (d.array k q).lease? slot = none := by
    rw [State.array_of_core hends]
    exact (congrArg (ArraySt.lease? · slot) ((hother₂ q hne.symm).trans hq₁)).trans (ArraySt.lease?_dropLease _ _)
  have hcounted : (d.countMismatch k p l.mism).array k p = { d.array k p with
      mismatches := (d.array k p).mismatches + l.mism
      retiring := (d.array k p).retiring || (decide (2 ≤ (d.array k p).mismatches + l.mism) && !(d.array k p).kept) } :=
    State.array_setArray_same _ _ _ _
  refine ⟨?_, by rw [hcounted, hdp]; rfl, ?_, ?_⟩
  · exact State.storesOnly_trans (State.storesOnly_of_same (by rw [← hw]; rfl)) (State.storesOnly_trans hstores (State.storesOnly_of_same rfl))
  · exact (congrArg (ArraySt.lease? · slot) (State.array_setArray_other d k _ hne.symm)).trans hdq
  · have hwhealth : w.health = s.health := by rw [← hw]; rfl
    exact congrArg (HealthPart.addMism · (k * 84 + p) l.mism) (hhealth.trans hwhealth)

theorem aidx_lt (ws : List Word) : (drainRec ws).aidx < 8 := Nat.mod_lt _ (by decide)

theorem away_of_takes {k g : Nat} {src : Src} {ws ext : List Word} (h : s.galleryTakes k g src ws ext = true) :
    (s.awayFrom k g).contains src.fn.val = false := by
  simp only [State.galleryTakes, State.galleryOpen, Bool.and_eq_true, Bool.not_eq_true'] at h
  obtain ⟨⟨⟨-, haway⟩, -⟩, -⟩ := h
  exact haway

/-- A whole drain of an array ends the lease it drains, and nothing else of the array. -/
theorem array_runDrain {vals : List X32 × List X32} (hdest : (drainRec j.words).dest = 0) (halso : j.also = none) (hp : p = s.phys j.t j.a)
    (haway : (s.awayFrom j.t (j.a / 8)).contains j.src.fn.val = false) :
    (s.runDrain j [] 0 none vals).array j.t p = (s.array j.t p).dropLease j.first := by
  obtain ⟨x, hcore, hsched, hends, -, -⟩ := runDrain_ends (s := s) (vals := vals) hdest
  rw [halso] at hends
  have hxaway : x.awayFrom j.t (j.a / 8) = s.awayFrom j.t (j.a / 8) := by simp only [State.awayFrom, hsched]
  obtain ⟨-, -, hdropped, -⟩ := State.release_releases (s := x) (k := j.t) (a := j.a) (first := j.first) (f := j.src.fn) (p := p)
    (by rw [hxaway]; exact haway) (hp.trans (State.phys_of_core hcore).symm)
  exact (State.array_of_core hends).trans (hdropped.trans (congrArg (ArraySt.dropLease · j.first) (State.array_of_core hcore)))

theorem mem_runDrain_drainJob {w : State} {t a first : Nat} {src : Src} {ws ext : List Word} {vals : List X32 × List X32} (hdest : (drainRec ws).dest = 0)
    (hred : (drainRec ws).lred = 0) (hssq : (drainRec ws).ssq = false) (hsr : (drainRec ws).sr = false) (hfmt : (drainRec ws).fmt.scaled = false) :
    (w.runDrain (s.drainJob t a first src ws ext) [] 0 none vals).mem = Mem.writeLines w.mem (spadBase t + (drainRec ws).oaddr) (drainRec ws).ostride
      ((tileLinesOf (drainRec ws).sh (drainRec ws).oblk ((List.range 1024).map (fun n => fusedStages w.mem t (drainRec ws)
        ((s.custSt t).active.getD { bnd := (s.custSt t).bnd, coef := (s.custSt t).coef }) (n / (drainRec ws).sh.cols) (n % (drainRec ws).sh.cols)
        (vals.1.getD n 0) (vals.2.getD n 0)))).map (fun l => (plainLine (drainRec ws).fmt (fun _ => none) (drainRec ws).ftz l).1)) :=
  mem_runDrain_plain (s := w) (j := s.drainJob t a first src ws ext) hdest rfl hred hssq hsr hfmt

/-- The array a drain starts on, its lease marked drained. -/
def State.drainStart (s : State) (t g p : Nat) (src : Src) (y : ArraySt) (l : Lease) : State :=
  (s.took src t 0 g).setArray t p (y.setLease { l with drained := true })

theorem State.drainStart_starts (s : State) (k g : Nat) (src : Src) (y : ArraySt) (l : Lease) :
    (s.drainStart k g p src y l).mem = s.mem ∧ (s.drainStart k g p src y l).array k p = y.setLease { l with drained := true } ∧
      (s.drainStart k g p src y l).phys = s.phys ∧ (s.drainStart k g p src y l).awayFrom = s.awayFrom ∧
      (s.drainStart k g p src y l).arr.bus = s.arr.bus ∧ (s.drainStart k g p src y l).fresh = s.fresh := by
  have honly : s.onlyChanges (s.took src k 0 g) [.prog, .sched] := by simp
  have harr : (s.took src k 0 g).arr = s.arr := honly .arr (by decide)
  have haway := (s.took_keeps src k 0 g).2
  refine ⟨honly .mem (by decide), State.array_setArray_same _ _ _ _, ?_, ?_, (congrArg ArrPart.bus harr :), honly .fresh (by decide)⟩
  · funext i a
    exact (State.phys_of_arr harr :)
  · funext i a
    exact congrArg (fun z => Tab.get z [] (i * 10 + a)) haway

/-- Settles O48. -/
theorem drainsEmit : Obligations.DrainsEmit := by
  unfold Obligations.DrainsEmit
  refine ⟨fun t g src ws ext s r a p first y l hr ha hp hy hfirst htakes hhere hwaiting hbusy hparts hlease hdrained hmarked hcode hclear => ?_,
    fun t a slot s l h p q hp hq hne hlease hheld hslot hkept hlog hfree hbusy hdest haway => ?_⟩
  · subst hr
    have hruns := drain_starts ha hp hy hfirst htakes hhere hwaiting hbusy hparts hlease hdrained hmarked hcode hclear
    obtain ⟨hmem, harray, hphys, haway, hbus, -⟩ := s.drainStart_starts t g src (p := p) y l
    have hl : l.first = first := by simpa using List.find?_some hlease
    have hg : a / 8 = g.val := by rw [ha]; have := aidx_lt ws; omega
    change _ = Host.Outcome.next ((s.drainStart t g p src y l).runDrain _ _ _ _ _) at hruns
    generalize s.drainStart t g p src y l = w at hruns hmem harray hphys haway hbus
    refine ⟨fun hdest => ?_, fun hdest => ?_⟩
    · have hended := array_runDrain (s := w) (j := s.drainJob t a first src ws ext) (p := p)
        (vals := y.readTile s.fresh first (drainRec ws).sh (drainRec ws).comp) hdest rfl
        (by rw [hphys]; exact hp) (by rw [haway]; exact (congrArg (fun n => (s.awayFrom t n).contains src.fn.val) hg).trans (away_of_takes htakes))
      refine ⟨_, hruns, State.storesOnly_trans (State.storesOnly_of_same hmem) (runDrain_stores hdest), ?_, ?_, ?_⟩
      · exact (congrArg (ArraySt.lease? · first) hended).trans (ArraySt.lease?_dropLease _ _)
      · exact (congrArg ArraySt.tiles hended :).trans (congrArg ArraySt.tiles harray :)
      · rintro c rfl hred hssq hsr hfmt
        rw [mem_runDrain_drainJob hdest hred hssq hsr hfmt, hmem]
    · obtain ⟨hkept, htile, harrays⟩ := runDrain_waits (s := w) (j := s.drainJob t a first src ws ext)
        (vals := y.readTile s.fresh first (drainRec ws).sh (drainRec ws).comp) hdest
      refine ⟨_, w.drainTile (s.drainJob t a first src ws ext) _, hruns, hkept.trans hmem, htile.trans (congrArg (fun z => Tab.get z [] t.val ++ _) hbus), rfl, rfl, rfl, rfl, rfl, { l with drained := true }, ?_, rfl⟩
      have hdrains := ArraySt.lease?_setLease y { l with drained := true }
      exact (congrArg (ArraySt.lease? · first) ((harrays p).trans harray)).trans (hl ▸ hdrains)
  · subst hslot
    obtain ⟨hstores, harray, htwin, hhealth⟩ := State.replayEnd_ends (v := s.replayLog t (a.val % 8) l) (l := l) hp hq hne hdest (twinOf_div a) haway
    refine ⟨_, tileReplay_emits hp hq hlease hheld hkept hlog hfree hbusy, ?_⟩
    generalize s.replayEnd t a (twinOf a) p q l.first l h (s.replayLog t (a.val % 8) l) = d at *
    have harr := State.arr_healthEvent d 0x10E t p 0 (d.array t p).mismatches
    rw [State.array_of_arr harr, State.array_of_arr harr]
    refine ⟨State.storesOnly_trans hstores (State.storesOnly_of_same (State.same_of_but (p := .mem) (by simp))), ?_, htwin, ?_, ?_, ?_⟩
    · rw [harray]
      exact ArraySt.lease?_dropLease _ _
    · rw [harray]
    · intro hk h2
      rw [harray]
      simp [hk, h2]
    · exact (congrArg (fun x => Tab.get (HealthPart.mism x) 0 (t.val * 84 + p)) (State.healthCore_healthEvent d 0x10E t p 0 (d.array t p).mismatches)).trans
        (by rw [hhealth]; exact Tab.get_upd_same s.health.mism 0 _ (fun k => min 127 (k + l.mism)))

end
end Sys2Proof.Machine
end

/-! ## O47: PRODUCT and LEASE_WAIT_RELEASE -/
section
namespace Sys2Proof.Machine
open Sys2Proof
section
variable {s t u : State} {r : ProductRec} {k p g i first : Nat} {a : ArraySt} {w : WaitOp}

/-! What an array's tile reads after a product -/

/-- An array whose tile takes new values, under a lease. -/
def ArraySt.enter (a : ArraySt) (first : Nat) (r : ProductRec) (l : Lease) (lens : Option LensPanel) (xs : List (X32 × X32)) : ArraySt :=
  { (a.writeTile first r.sh r.comp (xs.map (·.1)) (xs.map (·.2))).setLease l with lens := lens, forceReload := false }

theorem find?_foldl_set {α : Type} (o : α) (ks : List Nat) : ∀ t : Tab α, ∀ x ∈ ks, (ks.foldl (fun t k => t.set k o) t).find? x = some o := by
  induction ks using List.reverseRecOn with
  | nil => exact fun _ _ h => absurd h List.not_mem_nil
  | append_singleton ks y ih =>
    intro t x hx
    rw [List.foldl_append, List.foldl_cons, List.foldl_nil]
    by_cases hxy : x = y
    · rw [hxy, Tab.find?_set_same]
    · rw [Tab.find?_set_other _ _ hxy]
      exact ih t x ((List.mem_append.1 hx).resolve_right (by simpa using hxy))

theorem ArraySt.readTile_enter (a : ArraySt) (first : Nat) (r : ProductRec) (l : Lease) (lens : Option LensPanel) (xs : List (X32 × X32)) (n : Nat) :
    (a.enter first r l lens xs).readTile n first r.sh r.comp = (xs.map (·.1), if r.comp then xs.map (·.2) else List.replicate 1024 0) := by
  have howned : ((List.range (r.sh.foot r.comp)).map (first + ·)).all (fun k => (a.enter first r l lens xs).owners.find? k ==
      some { first := first, shape := r.sh, comp := r.comp }) = true :=
    List.all_eq_true.2 fun k hk => beq_iff_eq.2 (find?_foldl_set _ _ _ k hk)
  have htile : (a.enter first r l lens xs).tiles.find? first = some { shape := r.sh, comp := r.comp, hi := xs.map (·.1), lo := if r.comp then xs.map (·.2) else [] } :=
    Tab.find?_set_same _ _ _
  unfold ArraySt.readTile
  simp only [howned, htile, if_true]
  cases r.comp <;> rfl

theorem ArraySt.lease?_enter (a : ArraySt) (first : Nat) (r : ProductRec) (l : Lease) (lens : Option LensPanel) (xs : List (X32 × X32)) :
    (a.enter first r l lens xs).lease? l.first = some l := by
  simp [ArraySt.lease?, ArraySt.enter, ArraySt.setLease]

/-! A product that runs -/

/-- The log entry of a product. -/
def logOf (ws : List Word) : LogRec := { words := ws, ssrc := (productRec ws).ssrc }

/-- The lease a product opens. -/
def openLease (first : Nat) (src : Src) (ws : List Word) : Lease :=
  { first := first, foot := (productRec ws).foot, shape := (productRec ws).sh, comp := (productRec ws).comp, tie := (productRec ws).tie, fn := src.fn,
    handle := src.handle, drained := false, mism := 0, log := [logOf ws], overflowed := false, marked := false, held := none }

/-- The lease a product joins, with the product in its log. -/
def joinLease (l : Lease) (ws : List Word) : Lease :=
  { l with log := if l.log.length < 8 then l.log ++ [logOf ws] else l.log, overflowed := l.overflowed || decide (8 ≤ l.log.length) }

/-- The panel of a product as values. -/
def ArraySt.panelVals (a : ArraySt) (m : Mem) (t i : Nat) (r : ProductRec) : List (List FVal) :=
  (a.panel m t i r).1.map (bytesVals ((NF.ofCode r.pfmt).getD .e4m3) (32 * r.kblk))

theorem runProduct_opens {src : Src} {ws : List Word} {stream : List (List FVal)} (hp : p = s.phys k (g * 8 + i)) (ha : a = s.array k p)
    (hfirst : first = (s.windowIn k g src.fn.val).base + (productRec ws).tile) (hlease : a.lease? first = none) :
    s.runProduct k g i src ws false stream = s.setArray k p (a.enter first (productRec ws) (openLease first src ws) (a.panel s.mem k i (productRec ws)).2
      (reduceTile (productRec ws) (a.panelVals s.mem k i (productRec ws)) stream ((preload s.mem k i (productRec ws)).map (fun x => (x, 0))))) := by
  subst hp ha hfirst
  unfold State.runProduct
  simp only [hlease, Bool.false_and, Bool.false_eq_true, if_false]
  rfl

theorem runProduct_joins {src : Src} {ws : List Word} {stream : List (List FVal)} {l : Lease} (hp : p = s.phys k (g * 8 + i)) (ha : a = s.array k p)
    (hfirst : first = (s.windowIn k g src.fn.val).base + (productRec ws).tile) (hlease : a.lease? first = some l) :
    s.runProduct k g i src ws false stream = s.setArray k p (a.enter first (productRec ws) (joinLease l ws) (a.panel s.mem k i (productRec ws)).2
      (reduceTile (productRec ws) (a.panelVals s.mem k i (productRec ws)) stream
        ((a.readTile s.fresh first l.shape l.comp).1.zip (a.readTile s.fresh first l.shape l.comp).2))) := by
  subst hp ha hfirst
  unfold State.runProduct
  simp only [hlease, Bool.false_and, Bool.or_false, Bool.false_eq_true, if_false]
  rfl

/-! A product that starts -/

/-- An array whose first waiting operation leaves. -/
def State.unwait (s : State) (k p : Nat) (w : WaitOp) : State :=
  let s := s.setArray k p { s.array k p with waiting := w :: (s.array k p).waiting.tail }
  s.setArray k p { s.array k p with waiting := (s.array k p).waiting.tail }

theorem State.unwait_array (s : State) (k p : Nat) (w : WaitOp) : (s.unwait k p w).array k p = { s.array k p with waiting := (s.array k p).waiting.tail } := by
  have h := State.array_setArray_same s k p { s.array k p with waiting := w :: (s.array k p).waiting.tail }
  refine (State.array_setArray_same _ k p _).trans ?_
  rw [h]
  rfl

theorem State.unwait_arrays (s : State) (w : WaitOp) {x : Nat} (h : x ≠ k * 84 + p) : (s.unwait k p w).arr.arrays.get {} x = s.arr.arrays.get {} x :=
  (Tab.get_set_other _ _ _ h).trans (Tab.get_set_other _ _ _ h)

theorem startProduct_waits (hssrc : (productRec w.words).ssrc = false) (hp : p = s.phys k (g * 8 + i))
    (hfirst : first = (s.windowIn k g w.src.fn.val).base + (productRec w.words).tile)
    (hverdict : (s.array k p).verdict (productRec w.words) first = .waits) :
    s.startProduct k g i w = s.setArray k p { s.array k p with waiting := w :: (s.array k p).waiting.tail } := by
  subst hp hfirst
  have hshare : s.takeShare k g i w = (s, w) := by simp [State.takeShare, hssrc]
  simp only [State.startProduct, hshare, hverdict]

theorem startProduct_runs (hssrc : (productRec w.words).ssrc = false) (hneed : w.need = 0) (hp : p = s.phys k (g * 8 + i))
    (hfirst : first = (s.windowIn k g w.src.fn.val).base + (productRec w.words).tile)
    (hruns : (s.array k p).verdict (productRec w.words) first ≠ .waits) (htie : (s.array k p).verdict (productRec w.words) first ≠ .tieError) :
    ((s.unwait k p w).runProduct k g i w.src w.words w.mism (streamLines s.mem k i (productRec w.words)).1).onlyChanges (s.startProduct k g i w)
      [.eng, .prog, .run] := by
  subst hp hfirst
  have hshare : s.takeShare k g i w = (s, w) := by simp [State.takeShare, hssrc]
  have hgo : ¬ w.taken.length < w.need := by omega
  have hstart (v : State) (c : Bool) (st : NumStat) : v.onlyChanges
      (let v := if c then v.countTurn k g st else v; if v.allStarted k g w.src then v.cmdDone w.src k 0 g else v) [.eng, .prog, .run] := by simp
  unfold State.startProduct
  simp only [hshare, hgo, hssrc, Bool.false_and, Bool.false_eq_true, if_false]
  generalize (s.array k (s.phys k (g * 8 + i))).verdict (productRec w.words) ((s.windowIn k g w.src.fn.val).base + (productRec w.words).tile) = v at *
  cases v with
  | waits => exact absurd rfl hruns
  | tieError => exact absurd rfl htie
  | opens => exact hstart _ _ _
  | joins => exact hstart _ _ _

/-- A product that has joined an empty lease queue. -/
structure State.Queued (s v : State) (k p : Nat) (w : WaitOp) : Prop where
  array : v.array k p = { s.array k p with waiting := [w] }
  others : ∀ x, x ≠ k * 84 + p → v.arr.arrays.get {} x = s.arr.arrays.get {} x
  phys : v.phys = s.phys
  window : v.windowIn = s.windowIn
  mem : v.mem = s.mem
  fresh : v.fresh = s.fresh

variable {v : State} {l : Lease} {xs : List (X32 × X32)} {lens : Option LensPanel}

/-- What a product that ran leaves. -/
theorem entered_of_runs (hq : s.Queued v k p w) (hl : l.first = first ∧ l.fn = w.src.fn ∧ l.tie = r.tie ∧ l.foot = r.foot ∧ l.drained = false ∧ l.log ≠ [])
    (hruns : (v.unwait k p w).runProduct k g i w.src w.words w.mism (streamLines v.mem k i (productRec w.words)).1 =
      (v.unwait k p w).setArray k p (((v.unwait k p w).array k p).enter first r l lens xs))
    (hstart : ((v.unwait k p w).runProduct k g i w.src w.words w.mism (streamLines v.mem k i (productRec w.words)).1).onlyChanges (v.startProduct k g i w) [.eng, .prog, .run]) :
    productEntered s (v.startProduct k g i w) k p first w.src r xs := by
  obtain ⟨hfirst, hl⟩ := hl
  rw [hruns] at hstart
  have harr : (v.startProduct k g i w).arr = ((v.unwait k p w).setArray k p (((v.unwait k p w).array k p).enter first r l lens xs)).arr := hstart .arr (by decide)
  have harray : (v.startProduct k g i w).array k p = ((v.unwait k p w).array k p).enter first r l lens xs :=
    (State.array_of_arr harr).trans (State.array_setArray_same _ _ _ _)
  refine ⟨fun n => ?_, ⟨l, ?_, hl⟩, ?_, ?_, fun x hx => ?_⟩
  · rw [harray, ArraySt.readTile_enter]
  · rw [harray, ← hfirst, ArraySt.lease?_enter]
  · rw [harray, State.unwait_array, hq.array]
    rfl
  · exact (hstart .mem (by decide)).trans hq.mem
  · rw [harr]
    exact (Tab.get_set_other _ _ _ hx).trans ((v.unwait_arrays w hx).trans (hq.others x hx))

theorem queued_opens (hq : s.Queued v k p w) (hr : r = productRec w.words) (hssrc : r.ssrc = false) (hneed : w.need = 0) (hmism : w.mism = false)
    (hp : p = s.phys k (g * 8 + i)) (hfirst : first = (s.windowIn k g w.src.fn.val).base + r.tile)
    (hverdict : (s.array k p).verdict r first = .opens) (hlease : (s.array k p).lease? first = none) :
    productEntered s (v.startProduct k g i w) k p first w.src r (reduceTile r ((s.array k p).panelVals s.mem k i r) (streamLines s.mem k i r).1
      ((preload s.mem k i r).map (fun x => (x, 0)))) := by
  subst hr
  have hv : (v.array k p).verdict (productRec w.words) first = .opens := by rw [hq.array]; exact hverdict
  have hvp : p = v.phys k (g * 8 + i) := by rw [hq.phys]; exact hp
  have hvfirst : first = (v.windowIn k g w.src.fn.val).base + (productRec w.words).tile := by rw [hq.window]; exact hfirst
  have hua : (v.unwait k p w).array k p = { s.array k p with waiting := [] } := by rw [State.unwait_array, hq.array]; rfl
  have hmem : (v.unwait k p w).mem = s.mem := hq.mem
  have hruns := runProduct_opens (s := v.unwait k p w) (src := w.src) (ws := w.words) (stream := (streamLines v.mem k i (productRec w.words)).1)
    (a := (v.unwait k p w).array k p) hvp rfl hvfirst (by rw [hua]; exact hlease)
  rw [← hmism] at hruns
  have hentered := entered_of_runs (l := openLease first w.src w.words) hq ⟨rfl, rfl, rfl, rfl, rfl, List.cons_ne_nil _ _⟩ hruns
    (startProduct_runs hssrc hneed hvp hvfirst (by rw [hv]; simp) (by rw [hv]; simp))
  rw [hmem, hua, hq.mem] at hentered
  exact hentered

/-- The lease a product may join is under its tie, undrained, and of its shape and mode. -/
theorem ArraySt.joins_of_verdict (h : a.verdict r first = .joins l) :
    l.first = first ∧ l.tie = r.tie ∧ l.drained = false ∧ l.shape = r.sh ∧ l.comp = r.comp := by
  unfold ArraySt.verdict at h
  split at h
  · split at h <;> cases h
  · split at h
    next l' hfind =>
      split at h
      next hsame =>
        cases h
        have hfound := List.find?_some hfind
        simp only [Bool.and_eq_true, beq_iff_eq, Bool.not_eq_true', decide_eq_true_eq] at hfound hsame
        obtain ⟨⟨⟨hfirst, -⟩, htie⟩, hdrained⟩ := hfound
        obtain ⟨⟨hshape, hcomp⟩, -⟩ := hsame
        exact ⟨hfirst, htie, hdrained, hshape, hcomp⟩
      next => cases h
    next => cases h

theorem joinLease_log_ne_nil (l : Lease) (ws : List Word) : (joinLease l ws).log ≠ [] := by
  unfold joinLease
  simp only []
  split
  · exact List.append_ne_nil_of_right_ne_nil _ (List.cons_ne_nil _ _)
  next h => exact fun hnil => h (by rw [hnil]; decide)

theorem queued_joins (hq : s.Queued v k p w) (hr : r = productRec w.words) (hssrc : r.ssrc = false) (hneed : w.need = 0) (hmism : w.mism = false)
    (hp : p = s.phys k (g * 8 + i)) (hfirst : first = (s.windowIn k g w.src.fn.val).base + r.tile)
    (hverdict : (s.array k p).verdict r first = .joins l) (hlease : (s.array k p).lease? first = some l) (hfn : l.fn = w.src.fn) (hfoot : l.foot = r.foot) :
    productEntered s (v.startProduct k g i w) k p first w.src r (reduceTile r ((s.array k p).panelVals s.mem k i r) (streamLines s.mem k i r).1
      (((s.array k p).readTile s.fresh first r.sh r.comp).1.zip ((s.array k p).readTile s.fresh first r.sh r.comp).2)) := by
  subst hr
  obtain ⟨hat, htie, hdrained, hshape, hcomp⟩ := ArraySt.joins_of_verdict hverdict
  have hv : (v.array k p).verdict (productRec w.words) first = .joins l := by rw [hq.array]; exact hverdict
  have hvp : p = v.phys k (g * 8 + i) := by rw [hq.phys]; exact hp
  have hvfirst : first = (v.windowIn k g w.src.fn.val).base + (productRec w.words).tile := by rw [hq.window]; exact hfirst
  have hua : (v.unwait k p w).array k p = { s.array k p with waiting := [] } := by rw [State.unwait_array, hq.array]; rfl
  have hmem : (v.unwait k p w).mem = s.mem := hq.mem
  have hfresh : (v.unwait k p w).fresh = s.fresh := hq.fresh
  have hruns := runProduct_joins (s := v.unwait k p w) (src := w.src) (ws := w.words) (stream := (streamLines v.mem k i (productRec w.words)).1)
    (a := (v.unwait k p w).array k p) (l := l) hvp rfl hvfirst (by rw [hua]; exact hlease)
  rw [← hmism] at hruns
  have hentered := entered_of_runs (l := joinLease l w.words) hq ⟨hat, hfn, htie, hfoot, hdrained, joinLease_log_ne_nil l w.words⟩ hruns
    (startProduct_runs hssrc hneed hvp hvfirst (by rw [hv]; simp) (by rw [hv]; simp))
  rw [hmem, hua, hq.mem, hfresh, hshape, hcomp] at hentered
  exact hentered

/-! The commands -/

/-- The operation a product leaves waiting on an array. -/
def productOp (src : Src) (ws : List Word) : WaitOp :=
  { isDrain := false, src := src, words := ws, ext := [], sideFailed := 0, mism := false, id := 0, need := 0, taken := [] }

/-- A product in the lease queue of the one array it names. -/
def State.awaitProduct (s : State) (t g p : Nat) (src : Src) (ws : List Word) : State :=
  (s.setArray t p { s.array t p with waiting := [productOp src ws] }).took src t 0 g

theorem State.queued_awaitProduct (s : State) (t g p : Nat) (src : Src) (ws : List Word) : s.Queued (s.awaitProduct t g p src ws) t p (productOp src ws) := by
  have honly : (s.setArray t p { s.array t p with waiting := [productOp src ws] }).onlyChanges (s.awaitProduct t g p src ws) [.prog, .sched] := by
    simp [State.awaitProduct]
  have harr := honly .arr (by decide)
  have hwindows : (s.awaitProduct t g p src ws).prog.windows = s.prog.windows := (State.took_keeps _ src t 0 g).1
  refine ⟨(State.array_of_arr harr).trans (State.array_setArray_same _ _ _ _), fun x hx => ?_, ?_, ?_, honly .mem (by decide), honly .fresh (by decide)⟩
  · exact (congrArg (fun z => Tab.get (ArrPart.arrays z) {} x) harr).trans (Tab.get_set_other _ _ _ hx)
  · funext t a
    exact (State.phys_of_arr harr :)
  · funext t g f
    exact (State.windowIn_of (s := s.setArray _ p _) harr hwindows).1

/-- The first operation waiting on an array starts. -/
def State.startFirst (s : State) (t g i : Nat) : State :=
  match (s.array t (s.phys t (g * 8 + i))).waiting with
  | w :: _ => s.startProduct t g i w
  | [] => s

theorem State.startFirst_of_head {ws : List WaitOp} (h : (s.array k (s.phys k (g * 8 + i))).waiting = w :: ws) :
    s.startFirst k g i = s.startProduct k g i w := by
  unfold State.startFirst
  rw [h]

theorem product_queues {t : TileIx} {g : Fin 10} {src : Src} {ws : List Word} {i : Nat} (hr : r = productRec ws)
    (htakes : s.galleryTakes t g src ws [] = true) (hhere : s.slotsHere t g src.fn r.tile r.foot = true) (hcode : r.code (s.window src.fn.val) = 0)
    (hssrc : r.ssrc = false) (harrays : r.arrays = [i]) (hp : p = s.phys t (g.val * 8 + i))
    (hfirst : first = (s.windowIn t g src.fn.val).base + r.tile) (hwaiting : (s.array t p).waiting = [])
    (htie : (s.array t p).tieBad r src.fn first = false) (hreads : s.failedIn (r.reads t (fun _ => (s.array t p).holds i r)) = []) :
    exec (.product t g src ws 0) s = .next ((s.awaitProduct t g p src ws).startProduct t g i (productOp src ws)) := by
  subst hr hp hfirst
  have hexec : exec (.product t g src ws 0) s = execProduct t g src ws 0 s := rfl
  have hreads' : s.failedIn ((productRec ws).reads t (fun i => (s.array t (s.phys t (g.val * 8 + i))).holds i (productRec ws))) = [] := by
    refine Eq.trans ?_ hreads
    simp only [ProductRec.reads, harrays, List.flatMap_cons, List.flatMap_nil]
  have hqueued := s.queued_awaitProduct t g (s.phys t (g.val * 8 + i)) src ws
  have hhead : ((s.awaitProduct t g (s.phys t (g.val * 8 + i)) src ws).array t ((s.awaitProduct t g (s.phys t (g.val * 8 + i)) src ws).phys t (g.val * 8 + i))).waiting =
      [productOp src ws] := by rw [hqueued.phys, hqueued.array]
  have hbit : (0 : BitVec 8).getLsbD i = false := BitVec.getLsbD_zero
  simp only [execProduct, htakes, hhere, hcode, harrays, hssrc, htie, Bool.not_true, Bool.or_self, Bool.false_eq_true, if_false, ne_eq,
    not_true_eq_false, List.find?_cons, List.find?_nil, List.foldl_cons, List.foldl_nil, List.filter_cons, List.filter_nil] at hexec
  rw [State.readOr_of_sound hreads', hwaiting, hbit] at hexec
  refine hexec.trans (congrArg Host.Outcome.next ?_)
  change State.startFirst (s.awaitProduct t g (s.phys t (g.val * 8 + i)) src ws) t g i = _
  exact State.startFirst_of_head hhead

/-- Settles O47. -/
theorem productsAccumulate : Obligations.ProductsAccumulate := by
  unfold Obligations.ProductsAccumulate
  refine ⟨fun t g src ws s r i p first panel hr htakes hhere hcode hssrc harrays hp hfirst hwaiting htie hreads hpanel => ?_,
    fun t a s w r p first panel hp hwaiting hdrain hmism hr hssrc hfirst hneed hverdict hlease hpanel => ?_⟩
  · have hexec := product_queues hr htakes hhere hcode hssrc harrays hp hfirst hwaiting htie hreads
    have hqueued := s.queued_awaitProduct t g p src ws
    subst hpanel
    refine ⟨fun hverdict hlease => ?_, fun l hverdict hlease hfn hfoot => ?_, fun hverdict => ?_⟩
    · exact ⟨_, hexec, queued_opens hqueued hr hssrc rfl rfl hp hfirst hverdict hlease⟩
    · exact ⟨_, hexec, queued_joins hqueued hr hssrc rfl rfl hp hfirst hverdict hlease hfn hfoot⟩
    · subst hr
      have hwaits := startProduct_waits (s := s.awaitProduct t g p src ws) (k := t) (g := g) (i := i) (p := p) (w := productOp src ws) (first := first) hssrc
        (by rw [hqueued.phys]; exact hp) (by rw [hqueued.window]; exact hfirst) (by rw [hqueued.array]; exact hverdict)
      rw [hqueued.array] at hwaits
      refine ⟨_, productOp src ws, hexec.trans (congrArg Host.Outcome.next hwaits), ?_⟩
      rw [State.array_setArray_same]
      exact ⟨rfl, rfl, rfl, rfl, rfl, hqueued.mem⟩
  · have hexec : exec (.leaseWaitRelease t a false) s = execLeaseWaitRelease t a false s := rfl
    have hunit : a.val / 8 * 8 + a.val % 8 = a := by omega
    obtain ⟨isDrain, src, words, ext, sideFailed, mism, id, need, taken⟩ := w
    cases hdrain
    cases hmism
    subst hp hpanel
    simp only [execLeaseWaitRelease, hwaiting, Bool.false_eq_true, if_false, Bool.or_false] at hexec
    refine ⟨_, hexec, queued_opens (v := s) ⟨?_, fun _ _ => rfl, rfl, rfl, rfl, rfl⟩ hr hssrc hneed rfl (by rw [hunit]) hfirst hverdict hlease⟩
    rw [← hwaiting]

end
end Sys2Proof.Machine
end

/-! ## O50: the Target engine's tiles and records -/
section
namespace Sys2Proof.Machine
open Sys2Proof
section
variable {s t u : State} {e : TargetSt} {o : OpenPos} {k p q : Nat} {b : BusTile}

/-! Folds that reach a property at each place they visit -/

/-- A fold whose steps each bring their own place from Q to R and leave the others brings all its places to R. -/
theorem foldl_reaches {σ α β : Type} {view : σ → Nat → β} {key : α → Nat} {step : σ → α → σ} {Q R : β → Prop} (hRQ : ∀ b, R b → Q b) :
    ∀ l : List α, (∀ x ∈ l, ∀ s, Q (view s (key x)) → R (view (step s x) (key x))) → (∀ x ∈ l, ∀ s q, q ≠ key x → view (step s x) q = view s q) →
    ∀ s, (∀ x ∈ l, Q (view s (key x))) → ∀ q, (q ∈ l.map key ∨ R (view s q)) → R (view (l.foldl step s) q) := by
  intro l
  induction l with
  | nil => exact fun _ _ _ _ _ hq => hq.resolve_left List.not_mem_nil
  | cons y l ih =>
    intro hstep hother s hQ q hq
    have hkept (q : Nat) (h : Q (view s q)) : Q (view (step s y) q) := by
      by_cases hqy : q = key y
      · exact hRQ _ (hqy ▸ hstep y List.mem_cons_self s (hqy ▸ h))
      · rw [hother y List.mem_cons_self s q hqy]
        exact h
    refine ih (fun x hx => hstep x (List.mem_cons_of_mem _ hx)) (fun x hx => hother x (List.mem_cons_of_mem _ hx)) (step s y)
      (fun x hx => hkept _ (hQ x (List.mem_cons_of_mem _ hx))) q ?_
    by_cases hqy : q = key y
    · exact .inr (hqy ▸ hstep y List.mem_cons_self s (hQ y List.mem_cons_self))
    · rw [hother y List.mem_cons_self s q hqy]
      exact hq.imp_left fun h => (List.mem_cons.1 h).resolve_left hqy

/-! Open positions -/

theorem TargetSt.pos_of_openAt (h : e.openAt p = some o) : o.pos = p := by simpa using List.find?_some h

/-- A position set open: the one found there now. -/
theorem TargetSt.openAt_setOpen (e : TargetSt) (o : OpenPos) (q : Nat) : (e.setOpen o).openAt q = if q = o.pos then some o else e.openAt q := by
  unfold TargetSt.setOpen TargetSt.openAt
  by_cases hany : e.open_.any (fun x => x.pos == o.pos) = true
  · rw [if_pos hany, List.find?_map]
    by_cases hq : q = o.pos
    · subst hq
      have hpred : ((fun x : OpenPos => x.pos == o.pos) ∘ fun x => if (x.pos == o.pos) = true then o else x) = fun x => x.pos == o.pos := by
        funext x
        by_cases hx : x.pos = o.pos <;> simp [hx]
      rw [if_pos rfl, hpred]
      obtain ⟨x, hfind⟩ := Option.isSome_iff_exists.1 (List.find?_isSome.2 (List.any_eq_true.1 hany))
      have hx := List.find?_some hfind
      rw [hfind, Option.map_some, if_pos hx]
    · have hpred : ((fun x : OpenPos => x.pos == q) ∘ fun x => if (x.pos == o.pos) = true then o else x) = fun x => x.pos == q := by
        funext x
        by_cases hx : x.pos = o.pos
        · simp [hx]
        · simp [hx]
      rw [if_neg hq, hpred]
      cases hfind : e.open_.find? (fun x => x.pos == q) with
      | none => rfl
      | some x =>
        have hx : x.pos = q := by simpa using List.find?_some hfind
        rw [Option.map_some, if_neg (by simpa [hx] using hq)]
  · rw [if_neg hany, List.find?_append]
    have hnone : ∀ x ∈ e.open_, ¬ (x.pos == o.pos) = true := fun x hx h => hany (List.any_eq_true.2 ⟨x, hx, h⟩)
    by_cases hq : q = o.pos
    · subst hq
      rw [List.find?_eq_none.2 hnone]
      simp
    · cases e.open_.find? (fun x => x.pos == q) <;> simp [hq, Ne.symm hq]

theorem TargetSt.openAt_setOpen_same (e : TargetSt) (h : o.pos = p) : (e.setOpen o).openAt p = some o := by
  rw [TargetSt.openAt_setOpen, if_pos h.symm]

theorem TargetSt.openAt_setOpen_other (e : TargetSt) (h : q ≠ o.pos) : (e.setOpen o).openAt q = e.openAt q := by
  rw [TargetSt.openAt_setOpen, if_neg h]

theorem TargetSt.openAt_close_same (e : TargetSt) (p : Nat) : (e.close p).openAt p = none := by
  simp [TargetSt.openAt, TargetSt.close, List.find?_eq_none]

theorem TargetSt.openAt_close_other (e : TargetSt) (h : q ≠ p) : (e.close p).openAt q = e.openAt q := by
  unfold TargetSt.openAt TargetSt.close
  rw [List.find?_filter]
  congr 1
  funext x
  by_cases hx : x.pos = q
  · simp [hx, h]
  · simp [hx]

/-! A tile off the bus -/

/-- A Target engine without its waits and their counts. -/
def TargetSt.core (e : TargetSt) : TargetSt := { e with scoreStall := 0, learnWait := 0, full := false, waiting := false, stallFrom := 0, waitFrom := 0 }

/-- Whether a tile of a mode waits on a tile's bus. -/
def State.busWaits (s : State) (t m : Nat) : Bool := (s.arr.bus.get [] t).any (fun x => x.since.isSome && x.tmode == m)

theorem State.settleWaits_settles (s : State) (k : Nat) : ((s.settleWaits k).target k).core = (s.target k).core ∧
    ((s.settleWaits k).target k).full = s.busWaits k 0 ∧ ((s.settleWaits k).target k).waiting = s.busWaits k 1 := by
  unfold State.settleWaits
  simp only []
  split
  next h =>
    rw [Bool.and_eq_true, beq_iff_eq, beq_iff_eq] at h
    exact ⟨rfl, h.1, h.2⟩
  next =>
    rw [State.target_setTarget_same]
    exact ⟨rfl, rfl, rfl⟩

theorem State.releases_keeps (s : State) (k a first : Nat) (f : Fn) (also : Option Nat) :
    (s.releases k a first f also).arr.bus = s.arr.bus ∧ (s.releases k a first f also).arr.gal = s.arr.gal := by
  have hone (u : State) (a : Nat) : (u.release k a first f).arr.bus = u.arr.bus ∧ (u.release k a first f).arr.gal = u.arr.gal := by
    unfold State.release
    split <;> exact ⟨rfl, rfl⟩
  cases also with
  | none => exact hone s a
  | some b => exact ⟨(hone _ b).1.trans (hone s a).1, (hone _ b).2.trans (hone s a).2⟩

/-- The tiles of an array struck from the bus. -/
def State.unbus (s : State) (k : Nat) (b : BusTile) : State :=
  s.setArr { s.arr with bus := s.arr.bus.set k ((s.arr.bus.get [] k).filter (fun x => x.array != b.array)) }

theorem State.bus_unbus (s : State) (k : Nat) (b : BusTile) : ∀ x ∈ (s.unbus k b).arr.bus.get [] k, x.array ≠ b.array := by
  have h : (s.unbus k b).arr.bus.get [] k = (s.arr.bus.get [] k).filter (fun x => x.array != b.array) := Tab.get_set_same _ _ _ _
  rw [h]
  exact fun x hx => bne_iff_ne.1 (List.mem_filter.1 hx).2

/-- What a tile that is taken off the bus leaves. -/
theorem State.busTake_takes (s : State) (k : Nat) (b : BusTile) : (∀ x ∈ (s.busTake k b).arr.bus.get [] k, x.array ≠ b.array) ∧
    ((s.busTake k b).target k).core = (s.target k).core ∧ ((s.busTake k b).target k).full = (s.busTake k b).busWaits k 0 ∧
    ((s.busTake k b).target k).waiting = (s.busTake k b).busWaits k 1 ∧ (s.busTake k b).mem = Mem.place s.mem b.owed ∧
    (s.busTake k b).arr.gal = s.arr.gal := by
  obtain ⟨hcore, hfull, hwaiting⟩ := (s.unbus k b).settleWaits_settles k
  have hoff : (s.unbus k b).onlyChanges ((s.offBus k b).serveTurn b.src k (tmodeKind (drainRec b.words).tmode) 0) [.tgt, .sched] := by
    simp [State.offBus, State.unbus]
  have htgt : (s.busTake k b).tgt = (s.offBus k b).tgt := State.same_of_but (s := s.offBus k b) (p := .tgt) (by simp [State.busTake])
  have htake : s.busTake k b = ((s.offBus k b).serveTurn b.src k (tmodeKind (drainRec b.words).tmode) 0).drainEnds k b.array b.first b.src b.also b.owed := rfl
  rw [State.target_of_tgt htgt k, htake]
  generalize (s.offBus k b).serveTurn b.src k (tmodeKind (drainRec b.words).tmode) 0 = w at hoff
  obtain ⟨hends, hmem, -⟩ := w.drainEnds_ends k b.array b.first b.src b.also b.owed
  obtain ⟨hbus, hgal⟩ := (w.setMem (Mem.place w.mem b.owed)).releases_keeps k b.array b.first b.src.fn b.also
  have hw : (w.setMem (Mem.place w.mem b.owed)).arr = (s.unbus k b).arr := hoff .arr (by decide)
  have hwm : w.mem = s.mem := hoff .mem (by decide)
  rw [hw] at hbus hgal
  rw [hwm] at hmem
  have hubus := (congrArg ArrPart.bus hends :).trans hbus
  have hwaits (m : Nat) : (w.drainEnds k b.array b.first b.src b.also b.owed).busWaits k m = (s.unbus k b).busWaits k m :=
    congrArg (fun z : Tab (List BusTile) => (Tab.get z [] k).any (fun x => x.since.isSome && x.tmode == m)) hubus
  rw [hwaits, hwaits]
  refine ⟨?_, hcore, hfull, hwaiting, hmem, (congrArg ArrPart.gal hends :).trans hgal⟩
  exact (congrArg (fun z : Tab (List BusTile) => ∀ x ∈ Tab.get z [] k, x.array ≠ b.array) hubus).mpr (s.bus_unbus k b)

/-! TEACHER_TILE -/

/-- What a logit leaves of a position: where it is, in which pass, of which generation. -/
def OpenPos.place (o : OpenPos) : Nat × PosMode × Bool := (o.pos, o.mode, o.gen)

theorem teacherLogit_place (k : Nat) (invt : X32) (o : OpenPos) (v : Nat) (z : X32) : (teacherLogit k invt o v z).place = o.place := by
  unfold teacherLogit
  simp only []
  split
  · rfl
  · split <;> rfl

/-- The logits of a position line in the teacher pass. -/
def BusTile.taught (b : BusTile) (e : TargetSt) (j : Nat) (o : OpenPos) : OpenPos :=
  { (b.logits e.active.vsize.toNat j).foldl (fun o (v, z) => teacherLogit e.active.k e.invt o v z) o with expect := b.nextV }

theorem BusTile.taught_place (b : BusTile) (e : TargetSt) (j : Nat) (o : OpenPos) : (b.taught e j o).place = o.place := by
  unfold BusTile.taught
  generalize b.logits e.active.vsize.toNat j = l
  change (l.foldl (fun o (x : Nat × X32) => teacherLogit e.active.k e.invt o x.1 x.2) o).place = _
  induction l generalizing o with
  | nil => rfl
  | cons x l ih => exact (ih _).trans (teacherLogit_place _ _ _ _ _)

/-- A position line of a teacher tile. -/
def BusTile.teach (b : BusTile) (e : TargetSt) (x : Nat × Nat) : TargetSt :=
  match e.openAt x.1 with
  | none => e
  | some o => e.setOpen (b.taught e x.2 o)

/-- The record of an open position, formed and written. -/
def State.recordPos (s : State) (t p : Nat) (o : OpenPos) : State :=
  let f := formRecord (s.target t).active.k o
  s.writeRecord t p o.spill f.1 { ptag := p, tail := f.2.2, nreal := f.2.1, valid := true, bad := o.bad, gen := o.gen }

/-- At the end of the vocabulary a position's record is formed and written, and it closes. -/
def State.formPos (t : Nat) (s : State) (p : Nat) : State :=
  match (s.target t).openAt p with
  | none => s
  | some o => (s.recordPos t p o).setTarget t (((s.recordPos t p o).target t).close p)

/-- A teacher tile taken: its positions advance. -/
def State.teachTile (s : State) (t : Nat) (b : BusTile) (ps : List Nat) (e : TargetSt) : State :=
  let v := (s.setTarget t (ps.zipIdx.foldl b.teach e)).busTake t b
  if ps.isEmpty then v else v.setRun { v.run with genScored := (s.target t).parity }

theorem mixed_of_closed {ps : List Nat} (h : ∀ p ∈ ps, e.openAt p = none) : e.mixed ps = false := by
  have hnone : ps.filterMap (fun p => (e.openAt p).map (·.mode)) = [] := List.filterMap_eq_nil_iff.2 fun p hp => by rw [h p hp]; rfl
  unfold TargetSt.mixed
  rw [hnone]
  rfl

theorem filter_eq_nil_of_false {α : Type} {l : List α} {f : α → Bool} (h : ∀ x ∈ l, f x = false) : l.filter f = [] :=
  List.filter_eq_nil_iff.2 fun x hx => Bool.eq_false_iff.1 (h x hx)

theorem filter_not_contains_nil (ps : List Nat) : ps.filter (fun p => !([] : List Nat).contains p) = ps :=
  List.filter_eq_self.2 fun _ _ => rfl

theorem teacherTile_takes {t : TileIx} {a : Fin 80} {ps : List Nat} {e1 : TargetSt} (hbus : s.busTile t a 0 = some b)
    (hps : ps = (List.range b.npos).map b.pos) (hclosed : ∀ p ∈ ps, (s.target t).openAt p = none) (hv : (drainRec b.words).vidx = 0)
    (hroom : (s.target t).openCount true + b.npos ≤ 640) (hopen : (s.target t).openScore ps = some e1) :
    exec (.teacherTile t a) s = .next (if (drainRec b.words).vend then ps.foldl (State.formPos t) (s.teachTile t b ps e1) else s.teachTile t b ps e1) := by
  have hexec : exec (.teacherTile t a) s = execTeacherTile t a s := rfl
  have hlen : ps.length = b.npos := by rw [hps]; simp
  have hfits : ¬ 640 < (s.target t).openCount true + ps.length := by omega
  simp only [execTeacherTile, hbus, ← hps] at hexec
  rw [filter_eq_nil_of_false (l := ps)] at hexec
  · simp only [filter_not_contains_nil, mixed_of_closed hclosed, hv, hfits, hopen, List.map_nil, List.any_nil, Bool.or_self, Bool.false_eq_true, if_false, bne_self_eq_false,
      Bool.and_false] at hexec
    change _ = if !(drainRec b.words).vend then Host.Outcome.next (s.teachTile t b ps e1)
      else Host.Outcome.next (ps.foldl (State.formPos t) (s.teachTile t b ps e1)) at hexec
    rw [hexec]
    cases (drainRec b.words).vend <;> rfl
  · intro p hp
    rw [hclosed p hp]

/-- A position open in the teacher pass of a generation. -/
def OpenPos.Scoring (g : Bool) (x : Option OpenPos) : Prop := ∃ o, x = some o ∧ o.mode = .teacher ∧ o.gen = g

theorem TargetSt.openAt_occupy (e : TargetSt) (p : Nat) (sp : Bool) (q : Nat) : (e.occupy p sp).openAt q = e.openAt q ∧ (e.occupy p sp).parity = e.parity := by
  cases sp <;> exact ⟨rfl, rfl⟩

theorem openScore_opens (ps : List Nat) : ∀ e e1 : TargetSt, e.openScore ps = some e1 →
    ∀ q, (q ∈ ps ∨ OpenPos.Scoring e.parity (e.openAt q)) → OpenPos.Scoring e.parity (e1.openAt q) := by
  induction ps with
  | nil =>
    intro e e1 h q hq
    cases h
    exact hq.resolve_left List.not_mem_nil
  | cons p ps ih =>
    intro e e1 h q hq
    unfold TargetSt.openScore at h
    split at h
    · cases h
    next sp hslot =>
      have hparity : ((e.occupy p sp).setOpen { pos := p, mode := .teacher, spill := sp, m := xNegInf, gen := e.parity }).parity = e.parity :=
        (e.openAt_occupy p sp q).2
      have hrest := ih _ _ h q
      rw [hparity, TargetSt.openAt_setOpen] at hrest
      apply hrest
      by_cases hqp : q = p
      · rw [if_pos hqp]
        exact .inr ⟨_, rfl, rfl, rfl⟩
      · rw [if_neg hqp, (e.openAt_occupy p sp q).1]
        exact hq.imp_left fun h => (List.mem_cons.1 h).resolve_left hqp

theorem OpenPos.of_place {o o' : OpenPos} (h : o.place = o'.place) : o.pos = o'.pos ∧ o.mode = o'.mode ∧ o.gen = o'.gen := by
  simpa [OpenPos.place] using h

/-- After a teacher tile the positions it brings are open at its next vocabulary index. -/
theorem foldl_teach_opens {g : Bool} {ps : List Nat} (h : ∀ p ∈ ps, OpenPos.Scoring g (e.openAt p)) :
    ∀ p ∈ ps, ∃ o, (ps.zipIdx.foldl b.teach e).openAt p = some o ∧ o.mode = .teacher ∧ o.gen = g ∧ o.expect = b.nextV := by
  intro p hp
  refine foldl_reaches (view := TargetSt.openAt) (key := Prod.fst) (Q := OpenPos.Scoring g)
    (R := fun x => ∃ o, x = some o ∧ o.mode = .teacher ∧ o.gen = g ∧ o.expect = b.nextV)
    (fun x ⟨o, hx, hmode, hgen, _⟩ => ⟨o, hx, hmode, hgen⟩) ps.zipIdx ?_ ?_ e
    (fun x hx => h x.1 (List.fst_mem_of_mem_zipIdx hx)) p (.inl (by rwa [List.zipIdx_map_fst]))
  · rintro x - e ⟨o, ho, hmode, hgen⟩
    obtain ⟨hpos, hmode', hgen'⟩ := OpenPos.of_place (b.taught_place e x.2 o)
    refine ⟨b.taught e x.2 o, ?_, hmode'.trans hmode, hgen'.trans hgen, rfl⟩
    unfold BusTile.teach
    rw [ho]
    exact TargetSt.openAt_setOpen_same e (hpos.trans (TargetSt.pos_of_openAt ho))
  · intro x _ e q hq
    unfold BusTile.teach
    split
    · rfl
    next o ho =>
      obtain ⟨hpos, -, -⟩ := OpenPos.of_place (b.taught_place e x.2 o)
      exact TargetSt.openAt_setOpen_other e (by rw [hpos, TargetSt.pos_of_openAt ho]; exact hq)

theorem TargetSt.openAt_of_core {e e' : TargetSt} (h : e.core = e'.core) (q : Nat) : e.openAt q = e'.openAt q :=
  (congrArg (fun c => TargetSt.openAt c q) h :)

theorem TargetSt.slots_of_core {e e' : TargetSt} (h : e.core = e'.core) : e.slots = e'.slots := (congrArg TargetSt.slots h :)

theorem TargetSt.active_of_core {e e' : TargetSt} (h : e.core = e'.core) : e.active = e'.active := (congrArg TargetSt.active h :)

/-! The end of a teacher pass -/

/-- A position with its open state and its slot. -/
def State.posView (t : Nat) (s : State) (q : Nat) : Nat × Option OpenPos × SlotWord := (q, (s.target t).openAt q, (s.target t).slots.get {} q)

/-- A position closed with a record of a generation in its slot. -/
def Recorded (g : Bool) (x : Nat × Option OpenPos × SlotWord) : Prop := x.2.1 = none ∧ x.2.2.valid = true ∧ x.2.2.ptag = x.1 ∧ x.2.2.gen = g

theorem State.formPos_of_none (h : (s.target k).openAt p = none) : s.formPos k p = s := by
  unfold State.formPos
  rw [h]

theorem State.target_formPos (h : (s.target k).openAt p = some o) : ∃ (w : SlotWord) (n : Nat), w.valid = true ∧ w.ptag = p ∧ w.gen = o.gen ∧
    (s.formPos k p).target k = TargetSt.close { s.target k with slots := (s.target k).slots.set p w, spilled := n } p := by
  have hform : s.formPos k p = (s.recordPos k p o).setTarget k (((s.recordPos k p o).target k).close p) := by
    unfold State.formPos
    rw [h]
  rw [hform, State.target_setTarget_same]
  unfold State.recordPos State.writeRecord
  rw [State.target_setTarget_same]
  exact ⟨_, _, rfl, rfl, rfl, rfl⟩

theorem State.formPos_forms {g : Bool} (h : (s.target k).openAt p = some o) (hgen : o.gen = g) : Recorded g ((s.formPos k p).posView k p) := by
  obtain ⟨w, n, hvalid, htag, hgen', htarget⟩ := State.target_formPos h
  have hslot : ((s.formPos k p).target k).slots.get {} p = w := by rw [htarget]; exact Tab.get_set_same _ _ _ _
  unfold Recorded State.posView
  rw [hslot]
  refine ⟨?_, hvalid, htag, hgen'.trans hgen⟩
  rw [htarget]
  exact TargetSt.openAt_close_same _ p

theorem State.formPos_other (s : State) (k : Nat) (h : q ≠ p) : (s.formPos k p).posView k q = s.posView k q := by
  cases ho : (s.target k).openAt p with
  | none => rw [State.formPos_of_none ho]
  | some o =>
    obtain ⟨w, n, -, -, -, htarget⟩ := State.target_formPos ho
    unfold State.posView
    rw [htarget, TargetSt.openAt_close_other _ h]
    exact congrArg (fun z => (q, (s.target k).openAt q, z)) (Tab.get_set_other _ _ _ h)

theorem State.formPos_keeps (s : State) (k p : Nat) : s.onlyChanges (s.formPos k p) [.mem, .tgt] ∧ ((s.formPos k p).target k).full = (s.target k).full := by
  cases ho : (s.target k).openAt p with
  | none =>
    rw [State.formPos_of_none ho]
    exact ⟨State.onlyChanges_refl _ _, rfl⟩
  | some o =>
    obtain ⟨w, n, -, -, -, htarget⟩ := State.target_formPos ho
    refine ⟨?_, by rw [htarget]; rfl⟩
    unfold State.formPos
    rw [ho]
    simp [State.recordPos]

/-- At the end of the vocabulary every position of the tile is recorded and closed. -/
theorem foldl_formPos_records {g : Bool} {ps : List Nat} (h : ∀ p ∈ ps, OpenPos.Scoring g ((s.target k).openAt p)) :
    ∀ p ∈ ps, Recorded g ((ps.foldl (State.formPos k) s).posView k p) := by
  intro p hp
  refine foldl_reaches (view := State.posView k) (key := id) (Q := fun x => Recorded g x ∨ OpenPos.Scoring g x.2.1) (R := Recorded g)
    (fun x => .inl) ps ?_ (fun p _ s q hq => s.formPos_other k hq) s (fun p hp => .inr (h p hp)) p (.inl (by simpa using hp))
  rintro p - s (hr | ⟨o, ho, -, hgen⟩)
  · rw [State.formPos_of_none hr.1]
    exact hr
  · exact State.formPos_forms ho hgen

theorem State.teachTile_takes (s : State) (k : Nat) (b : BusTile) (ps : List Nat) (e : TargetSt) :
    (∀ x ∈ (s.teachTile k b ps e).arr.bus.get [] k, x.array ≠ b.array) ∧ ((s.teachTile k b ps e).target k).core = (ps.zipIdx.foldl b.teach e).core ∧
      ((s.teachTile k b ps e).target k).full = (s.teachTile k b ps e).busWaits k 0 ∧ (s.teachTile k b ps e).mem = Mem.place s.mem b.owed := by
  obtain ⟨hbus, hcore, hfull, -, hmem, -⟩ := (s.setTarget k (ps.zipIdx.foldl b.teach e)).busTake_takes k b
  rw [State.target_setTarget_same] at hcore
  unfold State.teachTile
  simp only []
  split <;> exact ⟨hbus, hcore, hfull, hmem⟩

/-- TEACHER_TILE (R120, R125, R130, R137). -/
theorem teacherTile_passes {t : TileIx} {a : Fin 80} {ps : List Nat} {e1 : TargetSt} (hbus : s.busTile t a 0 = some b)
    (hps : ps = (List.range b.npos).map b.pos) (hclosed : ∀ p ∈ ps, (s.target t).openAt p = none) (hv : (drainRec b.words).vidx = 0)
    (hroom : (s.target t).openCount true + b.npos ≤ 640) (hopen : (s.target t).openScore ps = some e1) :
    ∃ u, exec (.teacherTile t a) s = .next u ∧ (∀ x ∈ u.arr.bus.get [] t, x.array ≠ b.array) ∧
      (u.target t).full = u.busWaits t 0 ∧
      ((drainRec b.words).vend = false → u.mem = Mem.place s.mem b.owed ∧
        ∀ p ∈ ps, ∃ o, (u.target t).openAt p = some o ∧ o.mode = .teacher ∧ o.expect = b.nextV) ∧
      ((drainRec b.words).vend = true → ∀ p ∈ ps, Recorded (s.target t).parity (u.posView t p)) := by
  have hexec := teacherTile_takes hbus hps hclosed hv hroom hopen
  obtain ⟨hoff, hcore, hfull, hmem⟩ := s.teachTile_takes t b ps e1
  have hopened : ∀ p ∈ ps, OpenPos.Scoring (s.target t).parity (e1.openAt p) := fun p hp => openScore_opens ps _ _ hopen p (.inl hp)
  have htaught := foldl_teach_opens (b := b) hopened
  generalize s.teachTile t b ps e1 = w at *
  refine ⟨_, hexec, ?_⟩
  cases hvend : (drainRec b.words).vend
  · refine ⟨hoff, hfull, fun _ => ⟨hmem, fun p hp => ?_⟩, fun h => (by cases h)⟩
    obtain ⟨o, ho, hmode, -, hexpect⟩ := htaught p hp
    exact ⟨o, (TargetSt.openAt_of_core hcore p).trans ho, hmode, hexpect⟩
  · have honly : w.onlyChanges (ps.foldl (State.formPos t) w) [.mem, .tgt] := State.onlyChanges_foldl _ (fun s p => (s.formPos_keeps t p).1) ps w
    have harr : (ps.foldl (State.formPos t) w).arr = w.arr := honly .arr (by decide)
    have hfull' : ((ps.foldl (State.formPos t) w).target t).full = (w.target t).full :=
      State.foldl_keeps (fun s => (s.target t).full) (fun s p => (s.formPos_keeps t p).2) ps w
    have hscoring : ∀ p ∈ ps, OpenPos.Scoring (s.target t).parity ((w.target t).openAt p) := fun p hp => by
      obtain ⟨o, ho, hmode, hgen, -⟩ := htaught p hp
      exact ⟨o, (TargetSt.openAt_of_core hcore p).trans ho, hmode, hgen⟩
    refine ⟨?_, ?_, fun h => (by cases h), fun _ => foldl_formPos_records hscoring⟩
    · rw [if_pos rfl, harr]
      exact hoff
    · rw [if_pos rfl, hfull', hfull]
      unfold State.busWaits
      rw [harr]

/-! STUDENT_NORM_TILE -/

theorem normLogit_place (invt : X32) (o : OpenPos) (v : Nat) (z : X32) : (normLogit invt o v z).place = o.place := rfl

/-- The logits of a position line in the normaliser pass. -/
def BusTile.normalised (b : BusTile) (e : TargetSt) (j : Nat) (o : OpenPos) : OpenPos :=
  { (b.logits e.active.vsize.toNat j).foldl (fun o (v, z) => normLogit e.invt o v z) o with expect := b.nextV }

theorem BusTile.normalised_place (b : BusTile) (e : TargetSt) (j : Nat) (o : OpenPos) : (b.normalised e j o).place = o.place := by
  unfold BusTile.normalised
  generalize b.logits e.active.vsize.toNat j = l
  change (l.foldl (fun o (x : Nat × X32) => normLogit e.invt o x.1 x.2) o).place = _
  induction l generalizing o with
  | nil => rfl
  | cons x l ih => exact (ih _).trans (normLogit_place _ _ _ _)

/-- A position whose normalisers are formed, counted where its tail falls back to UNIFORM. -/
def TargetSt.normClose (e : TargetSt) (o : OpenPos) : TargetSt :=
  (if e.active.proportional && (normEnd e.active o).uniform then { e with propfall := satAdd32 e.propfall 1 } else e).setOpen (normEnd e.active o)

/-- A position line of a normaliser tile. -/
def BusTile.norm (b : BusTile) (e : TargetSt) (x : Nat × Nat) : TargetSt :=
  match e.openAt x.1 with
  | none => e
  | some o => if (drainRec b.words).vend then e.normClose (b.normalised e x.2 o) else e.setOpen (b.normalised e x.2 o)

theorem TargetSt.openAt_normClose (e : TargetSt) (o : OpenPos) (q : Nat) :
    (e.normClose o).openAt q = if q = o.pos then some (normEnd e.active o) else e.openAt q := by
  unfold TargetSt.normClose
  rw [TargetSt.openAt_setOpen]
  congr 1
  split <;> rfl

/-- A position as a normaliser tile leaves it: open for more, or in the gradient pass. -/
def BusTile.Normed (b : BusTile) (x : Option OpenPos) : Prop :=
  ∃ o, x = some o ∧ ((drainRec b.words).vend = false → o.mode = .norm ∧ o.expect = b.nextV) ∧
    ((drainRec b.words).vend = true → o.mode = .grad ∧ o.expect = 0)

theorem BusTile.openAt_norm (b : BusTile) {x : Nat × Nat} (ho : e.openAt x.1 = some o) (q : Nat) : (b.norm e x).openAt q =
    if q = x.1 then some (if (drainRec b.words).vend then normEnd e.active (b.normalised e x.2 o) else b.normalised e x.2 o) else e.openAt q := by
  obtain ⟨hpos, -, -⟩ := OpenPos.of_place (b.normalised_place e x.2 o)
  rw [TargetSt.pos_of_openAt ho] at hpos
  unfold BusTile.norm
  rw [ho]
  cases (drainRec b.words).vend
  · exact (TargetSt.openAt_setOpen _ _ _).trans (by rw [hpos]; rfl)
  · exact (TargetSt.openAt_normClose _ _ _).trans (by rw [hpos]; rfl)

theorem foldl_norm_normed {ps : List Nat} (h : ∀ p ∈ ps, ∃ o, e.openAt p = some o ∧ o.mode = .norm) :
    ∀ p ∈ ps, b.Normed ((ps.zipIdx.foldl b.norm e).openAt p) := by
  intro p hp
  refine foldl_reaches (view := TargetSt.openAt) (key := Prod.fst)
    (Q := fun x => ∃ o, x = some o ∧ ((drainRec b.words).vend = false → o.mode = .norm)) (R := b.Normed)
    (fun x ⟨o, hx, hnorm, _⟩ => ⟨o, hx, fun h => (hnorm h).1⟩) ps.zipIdx ?_ ?_ e
    (fun x hx => by obtain ⟨o, ho, hmode⟩ := h x.1 (List.fst_mem_of_mem_zipIdx hx); exact ⟨o, ho, fun _ => hmode⟩)
    p (.inl (by rwa [List.zipIdx_map_fst]))
  · rintro x - e ⟨o, ho, hmode⟩
    obtain ⟨-, hmode', -⟩ := OpenPos.of_place (b.normalised_place e x.2 o)
    rw [BusTile.Normed, b.openAt_norm ho, if_pos rfl]
    refine ⟨_, rfl, fun h => ?_, fun h => ?_⟩
    · rw [h, if_neg Bool.false_ne_true]
      exact ⟨hmode'.trans (hmode h), rfl⟩
    · rw [h, if_pos rfl]
      exact ⟨rfl, rfl⟩
  · intro x _ e q hq
    cases ho : e.openAt x.1 with
    | none => simp only [BusTile.norm, ho]
    | some o => rw [b.openAt_norm ho, if_neg hq]

/-- The positions a normaliser tile opens. -/
def State.openLearns (s : State) (t : Nat) (ps : List Nat) : TargetSt := ps.foldl (fun e p => e.setOpen (s.openLearn t p)) (s.target t)

theorem openLearns_opens (s : State) (k : Nat) (ps : List Nat) : ∀ p ∈ ps, ∃ o, (s.openLearns k ps).openAt p = some o ∧ o.mode = .norm := by
  intro p hp
  refine foldl_reaches (view := TargetSt.openAt) (key := id) (Q := fun _ => True) (R := fun x => ∃ o, x = some o ∧ o.mode = .norm)
    (fun _ _ => trivial) ps (fun p _ e _ => ⟨s.openLearn k p, TargetSt.openAt_setOpen_same e rfl, rfl⟩)
    (fun p _ e q hq => TargetSt.openAt_setOpen_other e hq) (s.target k) (fun _ _ => trivial) p (.inl (by simpa using hp))

theorem any_eq_false_of {α : Type} {l : List α} {f : α → Bool} (h : ∀ x ∈ l, f x = false) : l.any f = false :=
  List.any_eq_false.2 fun x hx => Bool.eq_false_iff.1 (h x hx)

theorem studentNormTile_takes {t : TileIx} {a : Fin 80} {ps : List Nat} (hbus : s.busTile t a 1 = some b) (hps : ps = (List.range b.npos).map b.pos)
    (hready : ∀ p ∈ ps, (s.target t).openAt p = none ∧ ((s.target t).slots.get {} p).valid = true ∧ ((s.target t).slots.get {} p).ptag = p)
    (hv : (drainRec b.words).vidx = 0) (hroom : (s.target t).openCount false + b.npos ≤ 640) :
    exec (.studentNormTile t a) s = .next ((s.setTarget t (ps.zipIdx.foldl b.norm (s.openLearns t ps))).busTake t b) := by
  have hexec : exec (.studentNormTile t a) s = execStudentNormTile t a s := rfl
  have hlen : ps.length = b.npos := by rw [hps]; simp
  have hfits : ¬ 640 < (s.target t).openCount false + ps.length := by omega
  simp only [execStudentNormTile, hbus, ← hps] at hexec
  rw [filter_eq_nil_of_false (l := ps)] at hexec
  · simp only [filter_not_contains_nil, mixed_of_closed (fun p hp => (hready p hp).1), hv, hfits, List.map_nil, List.any_nil, Bool.or_false, Bool.false_or,
      Bool.false_eq_true, if_false, bne_self_eq_false, Bool.and_false] at hexec
    rw [any_eq_false_of (l := ps), any_eq_false_of (l := ps)] at hexec
    · exact hexec
    · intro p hp
      obtain ⟨hclosed, hvalid, htag⟩ := hready p hp
      simp [hclosed, hvalid, htag]
    · intro p hp
      rw [(hready p hp).1]
  · intro p hp
    rw [(hready p hp).1]

/-- STUDENT_NORM_TILE (R131, R137, R138). -/
theorem studentNormTile_passes {t : TileIx} {a : Fin 80} {ps : List Nat} (hbus : s.busTile t a 1 = some b) (hps : ps = (List.range b.npos).map b.pos)
    (hready : ∀ p ∈ ps, (s.target t).openAt p = none ∧ ((s.target t).slots.get {} p).valid = true ∧ ((s.target t).slots.get {} p).ptag = p)
    (hv : (drainRec b.words).vidx = 0) (hroom : (s.target t).openCount false + b.npos ≤ 640) :
    ∃ u, exec (.studentNormTile t a) s = .next u ∧ (∀ x ∈ u.arr.bus.get [] t, x.array ≠ b.array) ∧ (u.target t).waiting = u.busWaits t 1 ∧
      u.mem = Mem.place s.mem b.owed ∧ ∀ p ∈ ps, b.Normed ((u.target t).openAt p) := by
  obtain ⟨hoff, hcore, -, hwaiting, hmem, -⟩ := (s.setTarget t (ps.zipIdx.foldl b.norm (s.openLearns t ps))).busTake_takes t b
  rw [State.target_setTarget_same] at hcore
  refine ⟨_, studentNormTile_takes hbus hps hready hv hroom, hoff, hwaiting, hmem, fun p hp => ?_⟩
  rw [TargetSt.openAt_of_core hcore p]
  exact foldl_norm_normed (openLearns_opens s t ps) p hp

/-! STUDENT_GRAD_TILE -/

/-- One logit of a position line in the gradient pass, and its gradient. -/
def BusTile.gradStep (b : BusTile) (e : TargetSt) (j : Nat) : OpenPos × List X32 → Nat → OpenPos × List X32 := fun x i =>
  if (drainRec b.words).vidx + i < e.active.vsize.toNat then
    ((gradLogit e.active e.invt x.1 ((drainRec b.words).vidx + i) (b.logit j i)).1, x.2 ++ [(gradLogit e.active e.invt x.1 ((drainRec b.words).vidx + i) (b.logit j i)).2])
  else (x.1, x.2 ++ [0])

/-- A position line of a gradient tile: its position after it, and its gradients. -/
def BusTile.gradients (b : BusTile) (e : TargetSt) : OpenPos × Nat → OpenPos × List X32 := fun x =>
  (List.range b.nvoc).foldl (b.gradStep e x.2) ({ x.1 with expect := b.nextV }, [])

theorem BusTile.gradStep_eq (b : BusTile) (e : TargetSt) (j : Nat) : b.gradStep e j = fun x i =>
    if (drainRec b.words).vidx + i < e.active.vsize.toNat then
      ((gradLogit e.active e.invt x.1 ((drainRec b.words).vidx + i) (b.logit j i)).1, x.2 ++ [(gradLogit e.active e.invt x.1 ((drainRec b.words).vidx + i) (b.logit j i)).2])
    else (x.1, x.2 ++ [0]) := rfl

theorem BusTile.gradients_eq (b : BusTile) (e : TargetSt) : b.gradients e = fun x =>
    (List.range b.nvoc).foldl (b.gradStep e x.2) ({ x.1 with expect := b.nextV }, []) := rfl

theorem BusTile.gradients_place (b : BusTile) (e : TargetSt) (x : OpenPos × Nat) :
    (b.gradients e x).1.pos = x.1.pos ∧ (b.gradients e x).1.expect = b.nextV := by
  have hstep (y : OpenPos × List X32) (i : Nat) : (b.gradStep e x.2 y i).1.pos = y.1.pos ∧ (b.gradStep e x.2 y i).1.expect = y.1.expect := by
    unfold BusTile.gradStep gradLogit
    split
    · split <;> exact ⟨rfl, rfl⟩
    · exact ⟨rfl, rfl⟩
  have hfold (l : List Nat) (y : OpenPos × List X32) : (l.foldl (b.gradStep e x.2) y).1.pos = y.1.pos ∧
      (l.foldl (b.gradStep e x.2) y).1.expect = y.1.expect := by
    induction l generalizing y with
    | nil => exact ⟨rfl, rfl⟩
    | cons i l ih => exact ⟨(ih _).1.trans (hstep y i).1, (ih _).2.trans (hstep y i).2⟩
  exact hfold _ _

/-- The gradients of a tile: each position after it, and the converted lines with their numeric effects. -/
def BusTile.gradLines (b : BusTile) (e : TargetSt) (os : List OpenPos) : List (OpenPos × List X32) := os.zipIdx.map (b.gradients e)

def BusTile.gradConv (b : BusTile) (e : TargetSt) (os : List OpenPos) : List ((List Byte × List Byte) × NumStat) :=
  (b.gradLines e os).map (fun x => gradLine e.active x.1.lscale x.2)

/-- The numeric effects of a gradient tile. -/
def BusTile.gradStat (b : BusTile) (e : TargetSt) (os : List OpenPos) : NumStat :=
  (b.gradConv e os).foldl (fun st x => st.join x.2) {}

/-- The engine after a gradient tile. -/
def BusTile.gradEngine (b : BusTile) (e : TargetSt) (os : List OpenPos) : TargetSt :=
  (b.gradLines e os).foldl (fun e x => e.setOpen x.1) { e with stat := e.stat.join (b.gradStat e os) }

/-- The tile of gradients that goes to the gallery. -/
def BusTile.gradTile (b : BusTile) (e : TargetSt) (os : List OpenPos) : GradTile :=
  { fmt := (b.gradEngine e os).active.gfmt, handle := b.src.handle, lines := (b.gradConv e os).map (·.1) }

/-- A tile of gradients put in a gallery's delivery buffer. -/
def State.deliverGrad (s : State) (t g : Nat) (x : GradTile) : State :=
  (s.setGallery t g { s.gallery t g with delivery := (s.gallery t g).delivery ++ [x] }).feed t g

/-- A gradient tile taken. -/
def State.gradTake (s : State) (t g : Nat) (b : BusTile) (os : List OpenPos) : State :=
  State.deliverGrad ((((s.setTarget t (b.gradEngine (s.target t) os)).busTake t b).countOvf t 1 (b.gradStat (s.target t) os).ovf)) t g (b.gradTile (s.target t) os)

theorem filterMap_eq_map_of {α β : Type} {l : List α} {f : α → Option β} {g : α → β} (h : ∀ x ∈ l, f x = some (g x)) : l.filterMap f = l.map g := by
  rw [List.filterMap_congr h, List.filterMap_eq_map']

theorem mixed_of_mode {ps : List Nat} {m : PosMode} (h : ∀ p ∈ ps, ∃ o, e.openAt p = some o ∧ o.mode = m) : e.mixed ps = false := by
  have hall : ∀ x ∈ ps.filterMap (fun p => (e.openAt p).map (·.mode)), x = m := by
    intro x hx
    obtain ⟨p, hp, hpx⟩ := List.mem_filterMap.1 hx
    obtain ⟨o, ho, hmode⟩ := h p hp
    rw [ho] at hpx
    exact (Option.some.inj hpx).symm.trans hmode
  unfold TargetSt.mixed
  generalize ps.filterMap (fun p => (e.openAt p).map (·.mode)) = ms at hall
  refine any_eq_false_of fun x hx => ?_
  cases ms with
  | nil => cases hx
  | cons y ms => simp [hall x hx, hall y List.mem_cons_self]

theorem studentGradTile_takes {t : TileIx} {a : Fin 80} {ps : List Nat} {f : Nat → OpenPos} (hbus : s.busTile t a 2 = some b)
    (hps : ps = (List.range b.npos).map b.pos)
    (hopen : ∀ p ∈ ps, (s.target t).openAt p = some (f p) ∧ (f p).mode = .grad ∧ (f p).expect = (drainRec b.words).vidx)
    (hroom : (s.gallery t (a.val / 8)).delivery.length < 16) :
    exec (.studentGradTile t a) s = .next (if (drainRec b.words).vend then ps.foldl (fun s p => s.closePos t p) (s.gradTake t (a.val / 8) b (ps.map f))
      else s.gradTake t (a.val / 8) b (ps.map f)) := by
  have hexec : exec (.studentGradTile t a) s = execStudentGradTile t a s := rfl
  have hmixed : (s.target t).mixed ps = false := mixed_of_mode fun p hp => ⟨f p, (hopen p hp).1, (hopen p hp).2.1⟩
  have hlate : (ps.map f).any (fun o => decide ((drainRec b.words).vidx < o.expect)) = false := any_eq_false_of fun o ho => by
    obtain ⟨p, hp, rfl⟩ := List.mem_map.1 ho
    simp [(hopen p hp).2.2]
  have hearly : (ps.map f).any (fun o => o.expect != (drainRec b.words).vidx) = false := any_eq_false_of fun o ho => by
    obtain ⟨p, hp, rfl⟩ := List.mem_map.1 ho
    simp [(hopen p hp).2.2]
  have hfree : ¬ 16 ≤ (s.gallery t (a.val / 8)).delivery.length := by omega
  rw [hexec]
  simp only [execStudentGradTile, hbus, ← hps]
  rw [filterMap_eq_map_of (l := ps) (g := f)]
  · simp only [hmixed, hlate, hearly, hfree, List.length_map, bne_self_eq_false, Bool.or_false, Bool.false_eq_true, if_false,
      State.gradTake, State.deliverGrad, BusTile.gradTile, BusTile.gradEngine, BusTile.gradStat, BusTile.gradConv, BusTile.gradLines, BusTile.gradients_eq, BusTile.gradStep_eq]
  · intro p hp
    obtain ⟨ho, hmode, -⟩ := hopen p hp
    simp [ho, hmode]

/-! The gallery that takes the gradients, and the engine behind them -/

theorem State.feedOne_of_no_takers {g : Nat} (h : (s.gallery k g).takers = []) : s.feedOne k g = s := by
  unfold State.feedOne
  simp only [h, List.find?_nil]
  cases (s.gallery k g).delivery <;> rfl

theorem State.feed_of_no_takers {g : Nat} (h : (s.gallery k g).takers = []) : s.feed k g = s := by
  unfold State.feed
  generalize List.range 16 = l
  induction l with
  | nil => rfl
  | cons i l ih =>
    rw [List.foldl_cons, State.feedOne_of_no_takers h]
    exact ih

theorem State.deliverGrad_of_no_takers {g : Nat} (h : (s.gallery k g).takers = []) (x : GradTile) :
    s.deliverGrad k g x = s.setGallery k g { s.gallery k g with delivery := (s.gallery k g).delivery ++ [x] } :=
  State.feed_of_no_takers (by rw [State.gallery_setGallery_same]; exact h)

theorem State.gallery_of_gal {g : Nat} (h : u.arr.gal = s.arr.gal) : u.gallery k g = s.gallery k g := by
  unfold State.gallery
  rw [h]

theorem BusTile.active_gradEngine (b : BusTile) (e : TargetSt) (os : List OpenPos) : (b.gradEngine e os).active = e.active := by
  unfold BusTile.gradEngine
  generalize b.gradLines e os = l
  have hfold (e' : TargetSt) : (l.foldl (fun e x => e.setOpen x.1) e').active = e'.active := by
    induction l generalizing e' with
    | nil => rfl
    | cons x l ih => exact ih _
  exact hfold _

theorem BusTile.gradLines_of_mem {os : List OpenPos} {x : OpenPos × List X32} (h : x ∈ b.gradLines e os) :
    (∃ o ∈ os, x.1.pos = o.pos) ∧ x.1.expect = b.nextV := by
  obtain ⟨y, hy, rfl⟩ := List.mem_map.1 h
  obtain ⟨hpos, hexpect⟩ := b.gradients_place e y
  exact ⟨⟨y.1, List.fst_mem_of_mem_zipIdx hy, hpos⟩, hexpect⟩

theorem BusTile.gradLines_pos (b : BusTile) (e : TargetSt) (os : List OpenPos) : (b.gradLines e os).map (fun x => x.1.pos) = os.map (·.pos) := by
  unfold BusTile.gradLines
  rw [List.map_map, ← List.zipIdx_map_fst 0 os, List.map_map, List.zipIdx_map_fst]
  exact List.map_congr_left fun x _ => (b.gradients_place e x).1

/-- After a gradient tile the positions it brings are open at its next vocabulary index. -/
theorem BusTile.gradEngine_opens {ps : List Nat} {f : Nat → OpenPos} (hopen : ∀ p ∈ ps, e.openAt p = some (f p)) :
    ∀ p ∈ ps, ∃ o, (b.gradEngine e (ps.map f)).openAt p = some o ∧ o.expect = b.nextV := by
  intro p hp
  have hpos : p ∈ (b.gradLines e (ps.map f)).map (fun x => x.1.pos) := by
    rw [b.gradLines_pos, List.map_map]
    exact List.mem_map.2 ⟨p, hp, TargetSt.pos_of_openAt (hopen p hp)⟩
  exact foldl_reaches (view := TargetSt.openAt) (key := fun x => x.1.pos) (Q := fun _ => True) (R := fun x => ∃ o, x = some o ∧ o.expect = b.nextV)
    (fun _ _ => trivial) _ (fun x hx e _ => ⟨x.1, TargetSt.openAt_setOpen_same e rfl, (BusTile.gradLines_of_mem hx).2⟩)
    (fun x _ e q hq => TargetSt.openAt_setOpen_other e hq) _ (fun _ _ => trivial) p (.inl hpos)

theorem BusTile.length_gradTile (b : BusTile) (e : TargetSt) (os : List OpenPos) : (b.gradTile e os).lines.length = os.length := by
  simp [BusTile.gradTile, BusTile.gradConv, BusTile.gradLines]

/-- What a gradient tile that is taken leaves. -/
theorem State.gradTake_takes {g : Nat} (os : List OpenPos) (hnone : (s.gallery k g).takers = []) :
    ((s.gradTake k g b os).gallery k g).delivery = (s.gallery k g).delivery ++ [b.gradTile (s.target k) os] ∧
      (s.gradTake k g b os).mem = Mem.place s.mem b.owed ∧ ((s.gradTake k g b os).target k).core = (b.gradEngine (s.target k) os).core := by
  obtain ⟨-, hcore, -, -, hmem, hgal⟩ := (s.setTarget k (b.gradEngine (s.target k) os)).busTake_takes k b
  rw [State.target_setTarget_same] at hcore
  have hcount : (((s.setTarget k (b.gradEngine (s.target k) os)).busTake k b)).onlyChanges
      ((((s.setTarget k (b.gradEngine (s.target k) os)).busTake k b)).countOvf k 1 (b.gradStat (s.target k) os).ovf) [.eng, .run] := by simp
  unfold State.gradTake
  generalize ((s.setTarget k (b.gradEngine (s.target k) os)).busTake k b).countOvf k 1 (b.gradStat (s.target k) os).ovf = w at hcount
  have hgallery : w.gallery k g = s.gallery k g := State.gallery_of_gal ((congrArg ArrPart.gal (hcount .arr (by decide)) :).trans hgal)
  rw [State.deliverGrad_of_no_takers (by rw [hgallery]; exact hnone), State.gallery_setGallery_same, hgallery]
  refine ⟨rfl, (hcount .mem (by decide) :).trans hmem, ?_⟩
  rw [← hcore]
  exact congrArg TargetSt.core (State.target_of_tgt (hcount .tgt (by decide)) k)

/-! A position closes -/

theorem State.target_dropRecord (s : State) (k p : Nat) : (s.dropRecord k p).target k =
    TargetSt.vacate { s.target k with slots := (s.target k).slots.set p { (s.target k).slots.get {} p with valid := false } } p
      ((s.target k).slots.get {} p).spilled := State.target_setTarget_same _ _ _

theorem TargetSt.vacate_keeps (e : TargetSt) (p : Nat) (sp : Bool) : (e.vacate p sp).open_ = e.open_ ∧ (e.vacate p sp).slots = e.slots ∧
    (e.vacate p sp).active = e.active ∧ (e.vacate p sp).forwarding = e.forwarding := by
  cases sp <;> exact ⟨rfl, rfl, rfl, rfl⟩

/-- A record dropped: its slot is no longer VALID. -/
theorem State.dropRecord_drops (s : State) (k p : Nat) : ((s.dropRecord k p).target k).open_ = (s.target k).open_ ∧
    ((s.dropRecord k p).target k).slots = (s.target k).slots.set p { (s.target k).slots.get {} p with valid := false } ∧
    ((s.dropRecord k p).target k).active = (s.target k).active ∧ ((s.dropRecord k p).target k).forwarding = (s.target k).forwarding := by
  rw [State.target_dropRecord]
  exact TargetSt.vacate_keeps _ _ _

theorem State.closePos_of_none (h : (s.target k).openAt p = none) : s.closePos k p = s := by
  unfold State.closePos
  simp only [h]

theorem length_wordsBytes (ws : List Word) : (wordsBytes ws).length = 4 * ws.length := by
  unfold wordsBytes
  rw [List.length_flatMap]
  simp [List.map_const', Nat.mul_comm]

/-- The losses of a position as they are stored. -/
def lossBytes (c : Tcfg) (o : OpenPos) : List Byte := wordsBytes ((losses c o).map (fun x => BitVec.ofNat 32 (convInf fFP32 none false (ofX32 x))))

theorem length_lossBytes (c : Tcfg) (o : OpenPos) : (lossBytes c o).length = 16 := by
  have hlosses : (losses c o).length = 4 := by
    unfold losses
    split
    · rfl
    · split <;> rfl
  unfold lossBytes
  rw [length_wordsBytes, List.length_map, hlosses]

/-- A position that closes: its losses are stored, it is open no more, and its record is consumed. -/
theorem State.closePos_closes (h : (s.target k).openAt p = some o) :
    (s.closePos k p).mem = Mem.writeN s.mem (spadBase k + (s.target k).active.lossBase.toNat + 16 * p) (lossBytes (s.target k).active o) ∧
      ((s.closePos k p).target k).open_ = ((s.target k).close p).open_ ∧
      ((s.closePos k p).target k).slots = (s.target k).slots.set p { (s.target k).slots.get {} p with valid := false } ∧
      ((s.closePos k p).target k).active = (s.target k).active := by
  have hclose : ∃ (m : Mem) (r : Run) (e : TargetSt), s.closePos k p = (((s.setMem m).setTarget k e).setRun r).dropRecord k p ∧
      m = Mem.writeN s.mem (spadBase k + (s.target k).active.lossBase.toNat + 16 * p) (lossBytes (s.target k).active o) ∧
      e.open_ = ((s.target k).close p).open_ ∧ e.slots = (s.target k).slots ∧ e.active = (s.target k).active := by
    unfold State.closePos
    simp only [h]
    exact ⟨_, _, _, rfl, rfl, rfl, rfl, rfl⟩
  obtain ⟨m, r, e, heq, hmem, hopen, hslots, hactive⟩ := hclose
  have htarget : (((s.setMem m).setTarget k e).setRun r).target k = e := (s.setMem m).target_setTarget_same k e
  obtain ⟨hopen', hslots', hactive', -⟩ := (((s.setMem m).setTarget k e).setRun r).dropRecord_drops k p
  rw [htarget] at hopen' hslots' hactive'
  rw [heq]
  exact ⟨hmem, hopen'.trans hopen, hslots'.trans (by rw [hslots]), hactive'.trans hactive⟩

theorem TargetSt.openAt_of_open {e e' : TargetSt} (h : e.open_ = e'.open_) (q : Nat) : e.openAt q = e'.openAt q := by
  unfold TargetSt.openAt
  rw [h]

/-- A position open no more, its record consumed. -/
def Consumed (x : Nat × Option OpenPos × SlotWord) : Prop := x.2.1 = none ∧ x.2.2.valid = false

theorem State.closePos_consumes (h : (s.target k).openAt p = some o) : Consumed ((s.closePos k p).posView k p) := by
  obtain ⟨-, hopen, hslots, -⟩ := State.closePos_closes h
  unfold Consumed State.posView
  rw [TargetSt.openAt_of_open hopen, hslots]
  exact ⟨TargetSt.openAt_close_same _ p, congrArg SlotWord.valid (Tab.get_set_same _ _ _ _)⟩

theorem State.closePos_other (s : State) (k : Nat) (h : q ≠ p) : (s.closePos k p).posView k q = s.posView k q := by
  cases ho : (s.target k).openAt p with
  | none => rw [State.closePos_of_none ho]
  | some o =>
    obtain ⟨-, hopen, hslots, -⟩ := State.closePos_closes ho
    unfold State.posView
    rw [TargetSt.openAt_of_open hopen, hslots, TargetSt.openAt_close_other _ h, Tab.get_set_other _ _ _ h]

theorem State.active_closePos (s : State) (k p : Nat) : ((s.closePos k p).target k).active = (s.target k).active := by
  cases ho : (s.target k).openAt p with
  | none => rw [State.closePos_of_none ho]
  | some o =>
    obtain ⟨-, -, -, hactive⟩ := State.closePos_closes ho
    exact hactive

theorem State.closePos_stores {rs : List (Nat × Nat)} (h : (spadBase k + (s.target k).active.lossBase.toNat + 16 * p, 16) ∈ rs) :
    s.storesOnly (s.closePos k p) rs := by
  cases ho : (s.target k).openAt p with
  | none =>
    rw [State.closePos_of_none ho]
    exact State.storesOnly_of_same rfl
  | some o =>
    obtain ⟨hmem, -, -, -⟩ := State.closePos_closes ho
    rw [State.storesOnly_iff, hmem]
    exact Mem.keeps_writeN h (length_lossBytes _ _).le _

/-- At the end of the gradient pass every position of the tile is closed and its record consumed. -/
theorem foldl_closePos_consumes {ps : List Nat} (h : ∀ p ∈ ps, ∃ o, (s.target k).openAt p = some o) :
    ∀ p ∈ ps, Consumed ((ps.foldl (fun s p => s.closePos k p) s).posView k p) := by
  intro p hp
  refine foldl_reaches (view := State.posView k) (key := id) (Q := fun x => Consumed x ∨ ∃ o, x.2.1 = some o) (R := Consumed)
    (fun x => .inl) ps ?_ (fun p _ s q hq => s.closePos_other k hq) s (fun p hp => .inr (h p hp)) p (.inl (by simpa using hp))
  rintro p - s (hr | ⟨o, ho⟩)
  · rw [State.closePos_of_none hr.1]
    exact hr
  · exact State.closePos_consumes ho

theorem foldl_closePos_stores {rs : List (Nat × Nat)} {n : Nat} {ps : List Nat} (hrs : ∀ p ∈ ps, (spadBase k + n + 16 * p, 16) ∈ rs) :
    ∀ s : State, (s.target k).active.lossBase.toNat = n → s.storesOnly (ps.foldl (fun s p => s.closePos k p) s) rs := by
  induction ps with
  | nil => exact fun s _ => State.storesOnly_of_same rfl
  | cons p ps ih =>
    intro s hn
    have hone : s.storesOnly (s.closePos k p) rs := State.closePos_stores (by rw [hn]; exact hrs p List.mem_cons_self)
    exact State.storesOnly_trans hone (ih (fun q hq => hrs q (List.mem_cons_of_mem _ hq)) _ (by rw [s.active_closePos]; exact hn))

theorem Mem.keeps_place {rs : List (Nat × Nat)} (x : Placed) (h : ∀ y ∈ x, (y.1, y.2.length) ∈ rs) : ∀ m : Mem, Mem.keeps m (Mem.place m x) rs := by
  induction x with
  | nil => exact fun m => Mem.keeps_refl m rs
  | cons y x ih =>
    intro m
    exact Mem.keeps_trans (Mem.keeps_writeN (h y List.mem_cons_self) le_rfl m) (ih (fun z hz => h z (List.mem_cons_of_mem _ hz)) _)

/-- STUDENT_GRAD_TILE (R132, R141 to R143). -/
theorem studentGradTile_passes {t : TileIx} {a : Fin 80} {ps : List Nat} (hbus : s.busTile t a 2 = some b) (hps : ps = (List.range b.npos).map b.pos)
    (hopen : ∀ p ∈ ps, ∃ o, (s.target t).openAt p = some o ∧ o.mode = .grad ∧ o.expect = (drainRec b.words).vidx)
    (hroom : (s.gallery t (a.val / 8)).delivery.length < 16) (hnone : (s.gallery t (a.val / 8)).takers = []) :
    ∃ u g, exec (.studentGradTile t a) s = .next u ∧ (u.gallery t (a.val / 8)).delivery = (s.gallery t (a.val / 8)).delivery ++ [g] ∧
      g.fmt = (s.target t).active.gfmt ∧ g.lines.length = b.npos ∧ g.handle = b.src.handle ∧
      ((drainRec b.words).vend = false → u.mem = Mem.place s.mem b.owed ∧
        ∀ p ∈ ps, ∃ o, (u.target t).openAt p = some o ∧ o.expect = b.nextV) ∧
      ((drainRec b.words).vend = true → (∀ p ∈ ps, Consumed (u.posView t p)) ∧
        s.storesOnly u (b.owed.map (fun x => (x.1, x.2.length)) ++
          ps.map (fun p => (spadBase t + (s.target t).active.lossBase.toNat + 16 * p, 16)))) := by
  have : Nonempty OpenPos := ⟨{ pos := 0, mode := .grad }⟩
  choose! f hf using hopen
  have hexec := studentGradTile_takes hbus hps hf hroom
  have hopened := BusTile.gradEngine_opens (b := b) fun p hp => (hf p hp).1
  obtain ⟨hgallery, hmem, hcore⟩ := State.gradTake_takes (b := b) (ps.map f) hnone
  have hfmt : (b.gradTile (s.target t) (ps.map f)).fmt = (s.target t).active.gfmt := congrArg Tcfg.gfmt (b.active_gradEngine _ _)
  have hlen : (b.gradTile (s.target t) (ps.map f)).lines.length = b.npos := by rw [b.length_gradTile, List.length_map, hps, List.length_map, List.length_range]
  have hactive : ((s.gradTake t (a.val / 8) b (ps.map f)).target t).active = (s.target t).active :=
    (TargetSt.active_of_core hcore).trans (b.active_gradEngine _ _)
  have hhandle : (b.gradTile (s.target t) (ps.map f)).handle = b.src.handle := rfl
  have hcoreOpen (p : Nat) := TargetSt.openAt_of_core hcore p
  generalize s.gradTake t (a.val / 8) b (ps.map f) = w at *
  refine ⟨_, b.gradTile (s.target t) (ps.map f), hexec, ?_, hfmt, hlen, hhandle, ?_⟩
  · rw [← hgallery]
    split
    · have honly : w.onlyChanges (ps.foldl (fun s p => s.closePos t p) w) [.mem, .tgt, .run] := State.onlyChanges_foldl _ (fun s p => by simp) ps w
      rw [State.gallery_of_gal (congrArg ArrPart.gal (honly .arr (by decide)) :)]
    · rfl
  · cases hvend : (drainRec b.words).vend
    · refine ⟨fun _ => ⟨hmem, fun p hp => ?_⟩, fun h => (by cases h)⟩
      obtain ⟨o, ho, hexpect⟩ := hopened p hp
      exact ⟨o, (hcoreOpen p).trans ho, hexpect⟩
    · refine ⟨fun h => (by cases h), fun _ => ⟨foldl_closePos_consumes fun p hp => ?_, ?_⟩⟩
      · obtain ⟨o, ho, -⟩ := hopened p hp
        exact ⟨o, (hcoreOpen p).trans ho⟩
      · have howed : s.storesOnly w (b.owed.map (fun x => (x.1, x.2.length)) ++
            ps.map (fun p => (spadBase t + (s.target t).active.lossBase.toNat + 16 * p, 16))) := by
          rw [State.storesOnly_iff, hmem]
          exact Mem.keeps_place _ (fun y hy => List.mem_append_left _ (List.mem_map.2 ⟨y, hy, rfl⟩)) _
        exact State.storesOnly_trans howed (foldl_closePos_stores (fun p hp => List.mem_append_right _ (List.mem_map.2 ⟨p, hp, rfl⟩)) w
          (by rw [hactive]))

/-! RECORD_FORWARD -/

theorem State.length_pairsOf (s : State) (k p : Nat) : (s.pairsOf k p).length = (s.target k).active.k := by simp [State.pairsOf]

theorem TargetSt.occupy_keeps (e : TargetSt) (p : Nat) (sp : Bool) : (e.occupy p sp).active = e.active ∧ (e.occupy p sp).slots = e.slots := by
  cases sp <;> exact ⟨rfl, rfl⟩

/-- A record written: its pair block in its slot, and its slot word. -/
theorem State.writeRecord_writes (s : State) (k p : Nat) (sp : Bool) (ps : List Word) (w : SlotWord) :
    (s.writeRecord k p sp ps w).mem =
        Mem.writeN s.mem (if sp then (s.target k).active.spillAddr k p else (s.target k).active.ringAddr k p) (wordsBytes ps) ∧
      ((s.writeRecord k p sp ps w).target k).slots.get {} p = { w with spilled := sp } := by
  refine ⟨rfl, ?_⟩
  unfold State.writeRecord
  simp only []
  rw [State.target_setTarget_same]
  exact Tab.get_set_same _ _ _ _

section
variable {n m : Nat} {t d : TileIx} {pairs : List Word} {w : DWord} {sp : Bool}

/-- A record sent to another module stays where it is until that module has it (log entry 63). -/
theorem recordForward_sends (hvalid : ((s.target t).slots.get {} (n % 65536)).valid = true) (hclosed : (s.target t).openAt (n % 65536) = none)
    (haway : (s.target t).forwarding.find? (n % 65536) ≠ some m) :
    ∃ u, exec (.recordForward n (.tile t) (.module m) pairs w) s = .next u ∧ s.onlyChanges u [.tgt, .outbox] ∧
      u.outbox = .record m (n % 65536) (s.pairsOf t (n % 65536)) (BitVec.ofNat 64 ((s.target t).slots.get {} (n % 65536)).word) :: s.outbox ∧
      (u.target t).slots = (s.target t).slots ∧ (u.target t).forwarding.find? (n % 65536) = some m := by
  have hexec : exec (.recordForward n (.tile t) (.module m) pairs w) s = execRecordForward n (.tile t) (.module m) pairs w s := rfl
  have hsent : ((s.target t).forwarding.find? (n % 65536) == some m) = false := beq_eq_false_iff_ne.2 haway
  simp only [execRecordForward, hvalid, hclosed, hsent, toModule, Option.isNone_none, Bool.or_true, Bool.and_true, if_true, Bool.not_false] at hexec
  have htarget := s.target_setTarget_same t { s.target t with forwarding := (s.target t).forwarding.set (n % 65536) m }
  refine ⟨_, hexec, by simp [State.send], rfl, (congrArg TargetSt.slots htarget :), ?_⟩
  exact (congrArg (fun e => e.forwarding.find? (n % 65536)) htarget :).trans (Tab.find?_set_same _ _ _)

/-- A record the other module has leaves. -/
theorem recordForward_leaves (hvalid : ((s.target t).slots.get {} (n % 65536)).valid = true) (hclosed : (s.target t).openAt (n % 65536) = none)
    (haway : (s.target t).forwarding.find? (n % 65536) = some m) (hset : bitOf w.toNat 22 = true) (htag : bitsOf w.toNat 63 48 = n % 65536) :
    ∃ u, exec (.recordForward n (.tile t) (.module m) pairs w) s = .next u ∧ s.onlyChanges u [.tgt] ∧
      ((u.target t).slots.get {} (n % 65536)).valid = false ∧ (u.target t).forwarding.has (n % 65536) = false := by
  have hexec : exec (.recordForward n (.tile t) (.module m) pairs w) s = execRecordForward n (.tile t) (.module m) pairs w s := rfl
  simp only [execRecordForward, hvalid, hclosed, haway, hset, htag, toModule, Option.isNone_none, Bool.or_true, Bool.and_true, if_true, beq_self_eq_true,
    Bool.not_true, Bool.false_eq_true, if_false] at hexec
  have htarget := s.target_setTarget_same t { s.target t with forwarding := (s.target t).forwarding.del (n % 65536) }
  obtain ⟨-, hslots, -, hforwarding⟩ := (s.setTarget t { s.target t with forwarding := (s.target t).forwarding.del (n % 65536) }).dropRecord_drops t (n % 65536)
  refine ⟨_, hexec, by simp, ?_, ?_⟩
  · rw [hslots]
    exact congrArg SlotWord.valid (Tab.get_set_same _ _ _ _)
  · rw [hforwarding, htarget]
    exact Tab.has_del _ _

/-- A record that finds its slot free on another tile moves there whole. -/
theorem recordForward_moves (hvalid : ((s.target t).slots.get {} (n % 65536)).valid = true) (hclosed : (s.target t).openAt (n % 65536) = none)
    (hhere : (s.target t).forwarding.has (n % 65536) = false) (hne : d ≠ t) (hslot : (s.target d).slotFor (n % 65536) = some sp) :
    ∃ u, exec (.recordForward n (.tile t) (.tile d) pairs w) s = .next u ∧ s.onlyChanges u [.mem, .tgt] ∧
      (u.target d).slots.get {} (n % 65536) = { (s.target t).slots.get {} (n % 65536) with ptag := n % 65536, valid := true, spilled := sp } ∧
      ((u.target t).slots.get {} (n % 65536)).valid = false ∧
      s.storesOnly u [(if sp then (s.target d).active.spillAddr d (n % 65536) else (s.target d).active.ringAddr d (n % 65536),
        4 * (s.target t).active.k)] := by
  have hexec : exec (.recordForward n (.tile t) (.tile d) pairs w) s = execRecordForward n (.tile t) (.tile d) pairs w s := rfl
  have hdt : (d : Nat) ≠ t := fun h => hne (Fin.ext h)
  simp only [execRecordForward, hvalid, hclosed, hhere, hslot, Option.isNone_none, Bool.true_or, Bool.and_true, if_true, Bool.not_false] at hexec
  generalize hoccupied : (((s.target d).setFwds (s.watch d) ((s.target d).fwds.filter (· != n % 65536))).occupy (n % 65536) sp) = e at hexec
  have hactive : e.active = (s.target d).active := by
    rw [← hoccupied]
    exact (TargetSt.occupy_keeps _ _ _).1
  obtain ⟨hmem, hword⟩ := (s.setTarget d e).writeRecord_writes d (n % 65536) sp (s.pairsOf t (n % 65536))
    { (s.target t).slots.get {} (n % 65536) with ptag := n % 65536, valid := true }
  rw [State.target_setTarget_same, hactive] at hmem
  have honly : s.onlyChanges ((s.setTarget d e).writeRecord d (n % 65536) sp (s.pairsOf t (n % 65536))
    { (s.target t).slots.get {} (n % 65536) with ptag := n % 65536, valid := true }) [.mem, .tgt] := by simp
  generalize (s.setTarget d e).writeRecord d (n % 65536) sp (s.pairsOf t (n % 65536))
    { (s.target t).slots.get {} (n % 65536) with ptag := n % 65536, valid := true } = v at *
  obtain ⟨-, hdropped, -, -⟩ := v.dropRecord_drops t (n % 65536)
  refine ⟨_, hexec, ?_, ?_, ?_, ?_⟩
  · simpa using honly
  · unfold State.dropRecord
    simp only []
    rw [State.target_setTarget_other _ _ hdt]
    exact hword
  · rw [hdropped]
    exact congrArg SlotWord.valid (Tab.get_set_same _ _ _ _)
  · have hkept : (v.dropRecord t (n % 65536)).mem = v.mem := rfl
    rw [State.storesOnly_iff, hkept, hmem]
    exact Mem.keeps_writeN List.mem_cons_self (by rw [length_wordsBytes, State.length_pairsOf]) _

/-- A record whose slot is occupied waits, and SCORE is stalled there (R134). -/
theorem recordForward_waits (hvalid : ((s.target t).slots.get {} (n % 65536)).valid = true) (hclosed : (s.target t).openAt (n % 65536) = none)
    (hhere : (s.target t).forwarding.has (n % 65536) = false) (hslot : (s.target d).slotFor (n % 65536) = none) :
    ∃ u, exec (.recordForward n (.tile t) (.tile d) pairs w) s = .next u ∧ s.onlyChanges u [.tgt] ∧ (u.target t).slots = (s.target t).slots ∧
      n % 65536 ∈ (u.target d).fwds ∧ (u.target d).stalled = true := by
  have hexec : exec (.recordForward n (.tile t) (.tile d) pairs w) s = execRecordForward n (.tile t) (.tile d) pairs w s := rfl
  simp only [execRecordForward, hvalid, hclosed, hhere, hslot, Option.isNone_none, Bool.true_or, Bool.and_true, if_true, Bool.not_false] at hexec
  have hmem : n % 65536 ∈ (if (s.target d).fwds.contains (n % 65536) then (s.target d).fwds else (s.target d).fwds ++ [n % 65536]) := by
    split
    next h => exact List.contains_iff_mem.1 h
    · exact List.mem_append_right _ List.mem_cons_self
  generalize (if (s.target d).fwds.contains (n % 65536) then (s.target d).fwds else (s.target d).fwds ++ [n % 65536]) = fwds at *
  have htarget := s.target_setTarget_same d ((s.target d).setFwds (s.watch d) fwds)
  have hfwds : ((s.setTarget d ((s.target d).setFwds (s.watch d) fwds)).target d).fwds = fwds := congrArg TargetSt.fwds htarget
  refine ⟨_, hexec, by simp, ?_, by rw [hfwds]; exact hmem, ?_⟩
  · by_cases hdt : (t : Nat) = d
    · rw [hdt, htarget]
      rfl
    · rw [State.target_setTarget_other _ _ hdt]
  · unfold TargetSt.stalled
    rw [hfwds]
    cases fwds with
    | nil => cases hmem
    | cons x l => simp

end

/-- Settles O50. A tile taken brings each position of its lines to the state its pass leaves, and the positions that close at the end of the
vocabulary leave or consume their records. -/
theorem targetTilesPass : Obligations.TargetTilesPass := by
  unfold Obligations.TargetTilesPass
  refine ⟨?_, ?_, ?_, ?_⟩
  · intro t a s b ps e1 hbus hps hclosed hv hroom hopen
    exact teacherTile_passes hbus hps hclosed hv hroom hopen
  · rintro n t d m pairs w s x rfl hvalid hclosed
    exact ⟨recordForward_sends hvalid hclosed, recordForward_leaves hvalid hclosed,
      fun hhere => ⟨fun sp hne hslot => recordForward_moves hvalid hclosed hhere hne hslot, recordForward_waits hvalid hclosed hhere⟩⟩
  · intro t a s b ps hbus hps hready hv hroom
    exact studentNormTile_passes hbus hps hready hv hroom
  · intro t a s b ps hbus hps hopen hroom hnone
    exact studentGradTile_passes hbus hps hopen hroom hnone

end
end Sys2Proof.Machine
end

/-! ## O53: UPDATE -/
section
namespace Sys2Proof.Machine
open Sys2Proof

/-- The planes of a group of one block, from a base on. -/
def planesAt (a : Nat) : Planes :=
  { master := a, work := a + 0x100, workS := a + 0x200, turn := 0, turnS := 0, m := a + 0x300, mS := a + 0x400, r := 0, rS := 0, fs := 0, hdr := a + 0x500 }

/-- A group of one block of one element, frozen by its mask. -/
def frozenGroup : GroupDesc :=
  { desc := 1, tile := 0, rule := 2, rows := 1, cols := 1, eta := 0, beta1 := 0, beta2 := 0, eps := 0, eps1 := 0, lam := 0, tid := 0,
    bank0 := planesAt 0x1000, bank1 := planesAt 0x2000, grad := 0x3000, gradS := 0x3080, mask := 0x3100, norm := 0x3200, entries := [],
    ssqAll := false, mirror := false, turn := false }

/-- The update of that block. -/
def frozenUpdate : List Word := [0x38000000, 0, 1, 0, 0, 1, 0, 0, 0, 0, 0, 0, 0, 0, 0, 0]

/-- A run whose gate is open, in a memory that lists the bytes of the shadow header out of order. -/
def State.misheaded : State :=
  { State.reset with
    mem := [(0x2505, 1), (0x2501, 7), (0x3100, 1)]
    pwr := { State.reset.pwr with start := .released }
    run := { State.reset.run with active := true, gateOpen := true }
    prog := { State.reset.prog with groups := [(1, frozenGroup)] } }

/-- The step counter a command leaves in the shadow header. -/
def shadowCounter : Host.Outcome State Fault Refusal → Nat
  | .next u => Mem.nat u.mem 0x2500 8
  | _ => 0

/-- The header's byte 1 is not cleared: the old 7 at its second place is read. -/
theorem shadowCounter_frozenUpdate : shadowCounter (exec (.update 0 0 ⟨0, 0, 0⟩ ⟨frozenUpdate, none⟩) State.misheaded) = 0x701 := by decide +kernel

/-- The ranges its planes take in the shadow bank. -/
def shadowPlanes : List (Nat × Nat) := [(0x2000, 64), (0x2100, 32), (0x2200, 1), (0x2300, 32), (0x2400, 1)]

theorem outside_shadowPlanes {a : Nat} (h : (0x40000000000 ≤ a ∧ a < 0x40000000000 + 64) ∨ (0x1500 ≤ a ∧ a < 0x1500 + 8)) : outside a shadowPlanes := by
  intro r hr
  simp only [shadowPlanes, List.mem_cons, List.not_mem_nil, or_false] at hr
  rcases hr with rfl | rfl | rfl | rfl | rfl <;> simp only [] <;> omega

/-- Refutes O53: the statement ranges over memories out of canonical form too, where a zero byte of the step counter leaves an old byte to
be read in the header. -/
theorem not_updatesWriteTheShadowBank : ¬ Obligations.UpdatesWriteTheShadowBank := by
  unfold Obligations.UpdatesWriteTheShadowBank
  intro h
  obtain ⟨-, hupdate⟩ := h 0 0 ⟨0, 0, 0⟩ frozenUpdate State.misheaded (updRec frozenUpdate) frozenGroup 0 1 (planesAt 0x1000) (planesAt 0x2000)
    shadowPlanes rfl (by decide) (by decide) (by decide) (by decide) (by decide) (by decide) (by decide) (by decide) (by decide)
    (fun a ha => outside_shadowPlanes ha)
  obtain ⟨u, hexec, -, -, -, hcounter, -⟩ := hupdate (by decide)
  have hone : Mem.nat u.mem 0x2500 8 = 1 := hcounter.trans (by decide)
  have hold := shadowCounter_frozenUpdate
  rw [hexec, shadowCounter, hone] at hold
  exact absurd hold (by decide)

end Sys2Proof.Machine
end

/-! ## O58: COPY and FILL -/
section
namespace Sys2Proof.Machine
open Sys2Proof

/-- A FILL of one row of 64 bytes at address 0 with zeros. -/
def zeroFill : List Word := [0x20000000, 0, 0, 0, 0, 64, 1, 0, 0, 0, 0, 0, 0, 0, 0, 0]

/-- A module released from reset whose memory lists its bytes out of order. -/
def State.misplaced : State := { State.reset with mem := Mem.misplaced, pwr := { State.reset.pwr with start := .released } }

/-- The first word a command leaves in memory. -/
def firstWord : Host.Outcome State Fault Refusal → Word
  | .next u => Mem.word u.mem 0
  | _ => 0

/-- The row's byte 1 is not cleared: the old 7 at its second place is read. -/
theorem firstWord_zeroFill : firstWord (exec (.fill 0 0 ⟨0, 0, 0⟩ zeroFill) State.misplaced) = 0x700 := by decide

/-- Refutes O58: the statement ranges over memories out of canonical form too, where a zero byte of the pattern leaves an old byte to be
read. -/
theorem not_copiesMoveRows : ¬ Obligations.CopiesMoveRows := by
  unfold Obligations.CopiesMoveRows
  intro h
  obtain ⟨-, -, hfill⟩ := h 0 0 ⟨0, 0, 0⟩ zeroFill State.misplaced (copyRec zeroFill) rfl (by decide)
  obtain ⟨u, hexec, -, -, hword⟩ := hfill 0 (by decide) (by decide) (by decide)
  have hzero : Mem.word u.mem 0 = 0 := hword (by decide) 0 (by decide)
  have hseven := firstWord_zeroFill
  rw [hexec, firstWord, hzero] at hseven
  exact absurd hseven (by decide)

end Sys2Proof.Machine
end
